-- ==== Sys2Proof/Word.lean ====
section
/-! DEFINITION. The word types of the module and the plainest conversions between them. -/

namespace Sys2Proof

/-- A 32-bit word: a register, a data word of a packet, an engine word. -/
abbrev Word := BitVec 32

/-- A byte of a memory or of a message. -/
abbrev Byte := BitVec 8

/-- The low 32 bits of a number. -/
abbrev word (n : Nat) : Word := BitVec.ofNat 32 n

/-- The low 8 bits of a number. -/
abbrev byte (n : Nat) : Byte := BitVec.ofNat 8 n

end Sys2Proof
end

