-- ==== Sys2Proof/Syntax.lean ====
section
/-! DEFINITION. The commands of the block: everything that can happen to the module, one constructor for each
row of the spec's table, with its operands. -/

namespace Sys2Proof

/-- A global engine number, 8 × cluster + lane (R62). -/
abbrev EngNo := Fin 64
/-- A general register g0 to g15 (R81). -/
abbrev Reg := Fin 16
/-- A task number. -/
abbrev TaskNo := Fin 64
/-- An analog, HART or metering channel number. -/
abbrev ChanNo := Fin 32
/-- A metering feeder number. -/
abbrev FeederNo := Fin 8
/-- A domain D0 to D15 (R146). -/
abbrev Dom := BitVec 4

/-- The two halves of Damask. -/
inductive Half where
  | east
  | west
  deriving DecidableEq, Repr

/-- The two dies. -/
inductive Die where
  | damask
  | muslin
  deriving DecidableEq, Repr

/-- Who makes a register access: the engine, its mode and its domain. On a Muslin page only the mode and the domain
travel with the request (R21, R51). -/
structure Requester where
  eng : EngNo
  sup : Bool
  dom : Dom
  deriving DecidableEq, Repr

/-- A link packet as it stands on the lanes: header word, data words and CRC (R19). -/
structure Packet where
  hdr : Word
  data : List Word
  crc : BitVec 16
  deriving DecidableEq, Repr

/-- A physical fault of this one execution that the checks of R79 and R394 detect: nothing, or which check sees it. -/
inductive Upset where
  | none
  /-- mod-3 residue of an integer result or a computed address (KIND 0) -/
  | residue
  /-- mod-3 residue of float significands (KIND 1) -/
  | floatResidue
  /-- 7-bit code of an instance word read (KIND 2): the word's place among those that the instruction reads, from 0 -/
  | instWord (n : Nat)
  /-- parity of the instruction cache line fetched (KIND 4) -/
  | icache
  /-- parity of the code SRAM line fetched (KIND 5) -/
  | codeSram
  /-- parity of the code SRAM line that a load reads (KIND 5): the word's place as for `instWord` -/
  | codeData (n : Nat)
  /-- parity of a local data word read (KIND 6) -/
  | localData (n : Nat)
  /-- single-bit error of a global SRAM word read (R394) -/
  | gsramSingle (n : Nat)
  /-- double-bit error of a global SRAM word read (R394) -/
  | gsramDouble (n : Nat)
  /-- column-sum check of a solver operation (KIND 3) -/
  | columnSum
  deriving DecidableEq, Repr

/-- One execution of an instruction: the engine that executes it, what its checks find, and, for a store to a register,
the bits of fields that a hardware update has reached in the same clock (R12). -/
structure Issue where
  eng : EngNo
  upset : Upset
  tie : Word
  deriving DecidableEq, Repr

/-- The base of a load or store address (R93); `bsel` 5 to 7 is no instruction. -/
inductive Base where
  | zero
  | ib
  | xb
  | yb
  | sp
  deriving DecidableEq, Repr

/-- The sixteen branch conditions (R97). -/
inductive Cond where
  | eq | ne | lt | ge | gt | le | ltu | geu | gtu | leu | flt | fge | fgt | fle | un | al
  deriving DecidableEq, Repr

/-- A CAN channel, FB0 or FB1. -/
abbrev FbNo := Fin 2
/-- A remote station. -/
abbrev StationNo := Fin 124

/-- A CAN frame as it stands on the bus. -/
structure CanFrame where
  id : BitVec 29
  ide : Bool
  fdf : Bool
  brs : Bool
  esi : Bool
  rtr : Bool
  dlc : BitVec 4
  data : List Byte
  deriving DecidableEq, Repr

/-- How a frame that the module sends comes to its end. -/
inductive TxEnd where
  | sent
  /-- another node won arbitration -/
  | lostArbitration
  /-- a bus error, by its LEC code -/
  | error (lec : BitVec 3)
  /-- a bus error whose first 8 an exception of ISO 11898-1 may spare (a stuff error in arbitration), and how often the error
  flag and the dominant bits behind it add a further 8 -/
  | flagged (lec : BitVec 3) (spared : Bool) (eights : Nat)
  deriving DecidableEq, Repr

/-- What a channel's front end delivers for one field tick, in integers: nA, µV or mΩ after the factory correction, 10 mV
steps for voltages (R203, R206, R211). -/
structure AioSample where
  /-- ADC code, in two's complement -/
  raw : BitVec 24
  /-- measured value, or the readback of an output -/
  value : Int
  /-- output of the 100 ms filter -/
  filtered : Int
  /-- headroom in AO_MA; voltage of AIOn_P in AI_MA with loop power -/
  aux : Int
  /-- input limiter open (AI_MA) -/
  limiter : Bool
  /-- loop supply or voltage output in its current limit -/
  limit : Bool
  deriving DecidableEq, Repr

/-- The levels of the straps that Muslin samples at the release of reset (R61): RECOV_N low, PRF_PINEN, FAILDIR. -/
structure Straps where
  recov : Bool
  pinen : Bool
  faildir : Bool
  deriving DecidableEq, Repr

/-- What Muslin measures at one field-tick boundary. -/
structure FieldSample where
  /-- FIELD_24V in mV -/
  volts : Nat
  /-- AIO0 to AIO31 in order; a missing one is all zero -/
  analog : List AioSample
  /-- levels of DI0 to DI47 -/
  inputs : BitVec 48
  /-- outputs whose current still is at the limit -/
  limits : BitVec 24
  /-- hold-up store: voltage in mV, and capacitance in mF where the measurement of a charge has completed since the last
  field tick; SUP_24V in mV (R374) -/
  store : Nat
  ceff : Option Nat
  supply : Nat
  /-- flash granules in which a bit error has appeared: true a double-bit error (R308) -/
  decayed : List (Nat × Bool)
  /-- levels at the strap pins (R61) -/
  straps : Straps
  deriving DecidableEq, Repr

/-- A frame as a HART modem receives it from the loop. -/
structure HartRx where
  /-- replica count at its first start bit, and at the start bit of its delimiter -/
  first : Nat
  stamp : Nat
  /-- replica count at the end of its last character -/
  last : Nat
  preambles : Nat
  /-- a character had wrong parity or no stop bit; a gap was longer than a character -/
  badParity : Bool
  badGap : Bool
  /-- delimiter to check byte, as received -/
  bytes : List Byte
  deriving DecidableEq, Repr

/-- One sampling instant of the 32 metering channels as it leaves the decimator (R244): the replica count of that moment,
and the 512 bits of each channel's modulator that ended with it. -/
structure MeterTick where
  now : Nat
  bits : List (List Bool)
  deriving DecidableEq, Repr

/-- A character on the line of a serial port: the MTB count of the falling edge of its start bit, and the 16 samples of each
bit that follows, in order (R274). -/
structure SerChar where
  stamp : Nat
  bits : List (BitVec 16)
  deriving DecidableEq, Repr

/-- An Ethernet frame received on a port, from the destination address, with its tag and without the FCS. -/
structure EthRx where
  port : Fin 2
  bytes : List Byte
  fcsGood : Bool
  /-- MTB at the start-of-frame delimiter -/
  stamp : Nat
  deriving DecidableEq, Repr

/-- An RS-485 port SER0 to SER3. -/
abbrev SerNo := Fin 4


/-- The two paths of the download protocol (R368). -/
inductive DlPath where
  | svc
  | eth
  deriving DecidableEq, Repr

/-- What ROM hears of the download protocol (R368, R369): the characters on SVC, or an Ethernet frame on port 1 from its
destination address, without FCS. -/
structure DlFrame where
  path : DlPath
  bytes : List Byte
  /-- the MTB count at the start bit of each character (SVC) -/
  stamps : List Nat
  /-- the NOR reports an error while ROM acts on it -/
  norError : Bool
  deriving DecidableEq, Repr

/-- What goes wrong in one boot attempt, by the step of R361 in which it does. -/
inductive RomUpset where
  | none
  /-- a NOR read error -/
  | nor (step : Nat)
  /-- a check of R79 fails in the engine that runs ROM, once -/
  | once (step : Nat)
  /-- the check fails again as the attempt is repeated -/
  | check (step : Nat)
  /-- one fails, and another one as the attempt is repeated -/
  | twice (first second : Nat)
  deriving DecidableEq, Repr

/-- The image record bases (R431). -/
inductive RecordBase where
  | aioIn | aioOut | dioIn | dioOut | meter
  deriving DecidableEq, Repr

/-- The blocks that have IMGEN. -/
inductive ImageBlock where
  | aio | dio | mtr
  deriving DecidableEq, Repr

/-- The calibration registers of a metering channel. -/
inductive CalReg where
  | gain | offset | scale | delay
  deriving DecidableEq, Repr

/-- Queue 16 + n. -/
abbrev QueueNo := Fin 16

/-- A global SRAM error that a copy entry meets: its word in the entry, and whether it is a double-bit error (R394). -/
structure EntryUpset where
  word : Nat
  double : Bool
  deriving DecidableEq, Repr

/-- The commands, in the order of the table. -/
inductive Instr where
  /-- POWER_ON_RESET (R427) -/
  | powerOnReset (x : Straps) (lost : Bool)
  /-- MODULE_RESET (R421) -/
  | moduleReset (low : Bool) (x : Straps)
  /-- MODRST (R421) -/
  | modrst (r : Requester) (d : Die)
  /-- DAMASK_RESTART (R360) -/
  | damaskRestart (r : Requester)
  /-- HALF_BOOT (R37) -/
  | halfBoot (r : Requester) (h : Half) (slot : Fin 2)
  /-- LINK_RESET (R37) -/
  | linkReset
  /-- REGISTER_WRITE (R10) -/
  | registerWrite (r : Requester) (a : Nat) (v : Word) (tie : Word := 0)
  /-- READ_CLEAR (R10) -/
  | readClear (r : Requester) (a : Nat)
  /-- IRQ_FORCE (R50) -/
  | irqForce (r : Requester) (p : Nat) (v : Word)
  /-- LOCK_WRITE (R51) -/
  | lockWrite (r : Requester) (p : Nat) (v : Word)
  /-- LOCK_TIMEOUT (R52) -/
  | lockTimeout (p : Nat)
  /-- RD_REQ (R57) -/
  | rdReq (p : Packet)
  /-- WR_REQ (R57) -/
  | wrReq (p : Packet) (tie : Word := 0)
  /-- RD_RSP (R28) -/
  | rdRsp (p : Packet)
  /-- WR_RSP (R57) -/
  | wrRsp (p : Packet)
  /-- ACK (R24) -/
  | ack (d : Die) (p : Packet)
  /-- NAK (R25) -/
  | nak (d : Die) (p : Packet)
  /-- CREDIT (R27) -/
  | credit (d : Die) (p : Packet)
  /-- HEARTBEAT (R38) -/
  | heartbeat (d : Die) (p : Packet)
  /-- HEARTBEAT_SEND (R35) -/
  | heartbeatSend (d : Die)
  /-- ACK_TIMEOUT (R24) -/
  | ackTimeout (d : Die)
  /-- REPLAY_TIMEOUT (R25) -/
  | replayTimeout (d : Die)
  /-- LINK_DOWN_TIMEOUT (R35) -/
  | linkDownTimeout (d : Die)
  /-- DOWN_WAIT_EXPIRY (R34) -/
  | downWaitExpiry (d : Die)
  /-- RETRAIN (R34) -/
  | retrain (r : Requester) (d : Die)
  /-- LINK_EN (R43) -/
  | linkEn (r : Requester) (d : Die) (on : Bool)
  /-- LOOPBACK (R43) -/
  | loopback (r : Requester) (d : Die) (on : Bool)
  /-- TRAIN_TIMEOUT (R34) -/
  | trainTimeout (d : Die)
  /-- TRAINING_COMPLETE (R34) -/
  | trainingComplete (delay : BitVec 12)
  /-- PAIRING (R39) -/
  | pairing
  /-- SEALED_TRANSFER (R42) -/
  | sealedTransfer (d : Die) (p : Packet)
  /-- EVENT_PACKET (R33) -/
  | eventPacket (p : Packet)
  /-- SAMPLE_PACKET (R32) -/
  | samplePacket (p : Packet)
  /-- LOCAL_INPUT_UPDATE (R122) -/
  | localInputUpdate
  /-- LONE_DELIVERY_TIMEOUT (R122) -/
  | loneDeliveryTimeout
  /-- FEEDER_RECORD_WRITE (R253) -/
  | feederRecordWrite
  /-- OUTPUT_IMAGE_TRANSFER (R31) -/
  | outputImageTransfer (p : Packet)
  /-- RETAIN_TRANSFER (R376) -/
  | retainTransfer (p : Packet)
  /-- RETAIN_RESTORE_TRANSFER (R380) -/
  | retainRestoreTransfer (p : Packet)
  /-- EVENT_RECORD_TRANSFER (R328) -/
  | eventRecordTransfer (p : Packet)
  /-- HART_REQUEST (R237) -/
  | hartRequest (p : Packet)
  /-- HART_RESULT_TRANSFER (R236) -/
  | hartResultTransfer (p : Packet)
  /-- VAULT_REQUEST (R350) -/
  | vaultRequest (d : Die) (p : Packet)
  /-- MTB_LO_READ (R45) -/
  | mtbLoRead (r : Requester)
  /-- MTB_CMP_WRITE (R46) -/
  | mtbCmpWrite (r : Requester) (n : Fin 2) (v : Word)
  /-- MTB_COMPARE_FIRE (R46) -/
  | mtbCompareFire (n : Fin 2)
  /-- BASE_TICK (R117) -/
  | baseTick (v : Fin 4)
  /-- FIELD_TICK (R205) -/
  | fieldTick (x : FieldSample)
  /-- HOLD_EXPIRY (R367) -/
  | holdExpiry
  /-- RELEASE (R367) -/
  | release (r : Requester)
  /-- ICINV (R64) -/
  | icinv (r : Requester) (k : Fin 8)
  /-- JOB_TIMER_EXPIRY (R79) -/
  | jobTimerExpiry (e : EngNo)
  /-- FAIRMODE_WRITE (R78) -/
  | fairmodeWrite (r : Requester) (port : Bool)
  /-- SUPV_WRITE (R69) -/
  | supvWrite (r : Requester) (v : Word)
  /-- OBSSEL_WRITE (R76) -/
  | obsselWrite (r : Requester) (v : Word)
  /-- GRANTCNT_READ (R76) -/
  | grantcntRead (r : Requester)
  /-- ADD (R88) -/
  | add (x : Issue) (rd ra rb : Reg)
  /-- SUB (R88) -/
  | sub (x : Issue) (rd ra rb : Reg)
  /-- AND (R88) -/
  | and (x : Issue) (rd ra rb : Reg)
  /-- OR (R88) -/
  | or (x : Issue) (rd ra rb : Reg)
  /-- XOR (R88) -/
  | xor (x : Issue) (rd ra rb : Reg)
  /-- SHL (R88) -/
  | shl (x : Issue) (rd ra rb : Reg)
  /-- SHR (R88) -/
  | shr (x : Issue) (rd ra rb : Reg)
  /-- SAR (R88) -/
  | sar (x : Issue) (rd ra rb : Reg)
  /-- SLT (R88) -/
  | slt (x : Issue) (rd ra rb : Reg)
  /-- SLTU (R88) -/
  | sltu (x : Issue) (rd ra rb : Reg)
  /-- MIN (R88) -/
  | min (x : Issue) (rd ra rb : Reg)
  /-- MAX (R88) -/
  | max (x : Issue) (rd ra rb : Reg)
  /-- CMP (R88) -/
  | cmp (x : Issue) (ra rb : Reg)
  /-- MUL (R88) -/
  | mul (x : Issue) (rd ra rb : Reg)
  /-- MULH (R88) -/
  | mulh (x : Issue) (rd ra rb : Reg)
  /-- MULHU (R88) -/
  | mulhu (x : Issue) (rd ra rb : Reg)
  /-- DIV (R88) -/
  | div (x : Issue) (rd ra rb : Reg)
  /-- DIVU (R88) -/
  | divu (x : Issue) (rd ra rb : Reg)
  /-- REM (R88) -/
  | rem (x : Issue) (rd ra rb : Reg)
  /-- REMU (R88) -/
  | remu (x : Issue) (rd ra rb : Reg)
  /-- ADDI (R88) -/
  | addi (x : Issue) (rd ra : Reg) (imm : BitVec 18)
  /-- ANDI (R88) -/
  | andi (x : Issue) (rd ra : Reg) (imm : BitVec 18)
  /-- ORI (R88) -/
  | ori (x : Issue) (rd ra : Reg) (imm : BitVec 18)
  /-- XORI (R88) -/
  | xori (x : Issue) (rd ra : Reg) (imm : BitVec 18)
  /-- SHLI (R88) -/
  | shli (x : Issue) (rd ra : Reg) (imm : BitVec 5)
  /-- SHRI (R88) -/
  | shri (x : Issue) (rd ra : Reg) (imm : BitVec 5)
  /-- SARI (R88) -/
  | sari (x : Issue) (rd ra : Reg) (imm : BitVec 5)
  /-- SLTI (R88) -/
  | slti (x : Issue) (rd ra : Reg) (imm : BitVec 18)
  /-- LUI (R88) -/
  | lui (x : Issue) (rd : Reg) (imm : BitVec 16)
  /-- CMPI (R88) -/
  | cmpi (x : Issue) (ra : Reg) (imm : BitVec 18)
  /-- FADD (R90) -/
  | fadd (x : Issue) (rd ra rb : Reg)
  /-- FSUB (R90) -/
  | fsub (x : Issue) (rd ra rb : Reg)
  /-- FMUL (R90) -/
  | fmul (x : Issue) (rd ra rb : Reg)
  /-- FDIV (R90) -/
  | fdiv (x : Issue) (rd ra rb : Reg)
  /-- FSQRT (R90) -/
  | fsqrt (x : Issue) (rd ra : Reg)
  /-- FMIN (R91) -/
  | fmin (x : Issue) (rd ra rb : Reg)
  /-- FMAX (R91) -/
  | fmax (x : Issue) (rd ra rb : Reg)
  /-- FABS (R90) -/
  | fabs (x : Issue) (rd ra : Reg)
  /-- FNEG (R90) -/
  | fneg (x : Issue) (rd ra : Reg)
  /-- FCMP (R91) -/
  | fcmp (x : Issue) (ra rb : Reg)
  /-- ITOF (R91) -/
  | itof (x : Issue) (rd ra : Reg)
  /-- FTOI (R91) -/
  | ftoi (x : Issue) (rd ra : Reg)
  /-- FTOIZ (R91) -/
  | ftoiz (x : Issue) (rd ra : Reg)
  /-- LW (R93) -/
  | lw (x : Issue) (rd ra : Reg) (b : Base) (off : BitVec 15)
  /-- LH (R93) -/
  | lh (x : Issue) (rd ra : Reg) (b : Base) (off : BitVec 15)
  /-- LHU (R93) -/
  | lhu (x : Issue) (rd ra : Reg) (b : Base) (off : BitVec 15)
  /-- LB (R93) -/
  | lb (x : Issue) (rd ra : Reg) (b : Base) (off : BitVec 15)
  /-- LBU (R93) -/
  | lbu (x : Issue) (rd ra : Reg) (b : Base) (off : BitVec 15)
  /-- SW (R93) -/
  | sw (x : Issue) (rd ra : Reg) (b : Base) (off : BitVec 15)
  /-- SH (R93) -/
  | sh (x : Issue) (rd ra : Reg) (b : Base) (off : BitVec 15)
  /-- SB (R93) -/
  | sb (x : Issue) (rd ra : Reg) (b : Base) (off : BitVec 15)
  /-- B (R97) -/
  | b (x : Issue) (c : Cond) (off : BitVec 22)
  /-- BL (R97) -/
  | bl (x : Issue) (off : BitVec 22)
  /-- JR (R97) -/
  | jr (x : Issue) (ra : Reg)
  /-- BCALL (R98) -/
  | bcall (x : Issue) (ra rb : Reg)
  /-- BRET (R98) -/
  | bret (x : Issue)
  /-- EDGE (R99) -/
  | edge (x : Issue) (rd ra : Reg) (woff : BitVec 12)
  /-- TON (R100) -/
  | ton (x : Issue) (rd ra rb : Reg) (woff : BitVec 12)
  /-- TOF (R100) -/
  | tof (x : Issue) (rd ra rb : Reg) (woff : BitVec 12)
  /-- TP (R100) -/
  | tp (x : Issue) (rd ra rb : Reg) (woff : BitVec 12)
  /-- CTU (R101) -/
  | ctu (x : Issue) (rd ra rb : Reg) (woff : BitVec 12)
  /-- CTD (R101) -/
  | ctd (x : Issue) (rd ra rb : Reg) (woff : BitVec 12)
  /-- CTUD (R101) -/
  | ctud (x : Issue) (rd ra rb : Reg) (woff : BitVec 12)
  /-- GEMV (R102) -/
  | gemv (x : Issue) (rd ra : Reg)
  /-- GEMM (R102) -/
  | gemm (x : Issue) (rd ra : Reg)
  /-- CHOL (R102) -/
  | chol (x : Issue) (rd ra : Reg)
  /-- SOLVE (R102) -/
  | solve (x : Issue) (rd ra : Reg)
  /-- SOLVER_OP_DONE (R75) -/
  | solverOpDone (k : Fin 8) (u : Upset)
  /-- MFS (R82) -/
  | mfs (x : Issue) (rd : Reg) (n : BitVec 16)
  /-- MTS (R82) -/
  | mts (x : Issue) (ra : Reg) (n : BitVec 16)
  /-- YIELD (R104) -/
  | yield (x : Issue)
  /-- FAULT (R105) -/
  | fault (x : Issue) (code : BitVec 16)
  /-- PLK (R106) -/
  | plk (x : Issue) (ra rb rc : Reg)
  /-- IRET (R107) -/
  | iret (x : Issue)
  /-- SLEEP (R107) -/
  | sleep (x : Issue)
  /-- MIGRATE (R108) -/
  | migrate (x : Issue) (rd ra rb : Reg)
  /-- INTERRUPT_ENTRY (R110) -/
  | interruptEntry (e : EngNo)
  /-- REMOTE_ACCESS_EXCEPTION (R111) -/
  | remoteAccessException (e : EngNo)
  /-- JOB_TAKE (R124) -/
  | jobTake (e : EngNo)
  /-- TASK_VALIDATION (R116) -/
  | taskValidation (t : TaskNo)
  /-- SCHEDULER_ENABLE (R116) -/
  | schedulerEnable (r : Requester) (on : Bool)
  /-- HOLD_HALF (R144) -/
  | holdHalf (r : Requester) (h : Half) (on : Bool)
  /-- SNAPSHOT_START (R121) -/
  | snapshotStart (h : Half)
  /-- SNAPSHOT_ENTRY (R122) -/
  | snapshotEntry (h : Half) (bad : Option EntryUpset)
  /-- EXECUTE_START (R123) -/
  | executeStart (t : TaskNo)
  /-- PUBLISH_ENTRY (R131) -/
  | publishEntry (h : Half) (bad : Option EntryUpset)
  /-- OUTPUT_TRANSFER_CUTOFF (R132) -/
  | outputTransferCutoff
  /-- COPY_FORWARD_DONE (R129) -/
  | copyForwardDone (t : TaskNo)
  /-- SCAN_DEADLINE (R136) -/
  | scanDeadline (t : TaskNo)
  /-- REGION_CLEAR (R145) -/
  | regionClear (r : Requester) (k : Fin 1024)
  /-- IMG_RGN_WRITE (R145) -/
  | imgRgnWrite (r : Requester) (i : Fin 512) (v : Word)
  /-- BTICK_LO_READ (R117) -/
  | btickLoRead (r : Requester)
  /-- NEXT_LO_READ (R117) -/
  | nextLoRead (r : Requester)
  /-- PDATA_ACCESS (R150) -/
  | pdataAccess (r : Requester) (v : Option Word)
  /-- PGOWN_WRITE (R155) -/
  | pgownWrite (r : Requester) (d : Die) (i : Fin 5) (v : Word)
  /-- FRAME_RECEIVE (R164) -/
  | frameReceive (c : FbNo) (f : CanFrame) (seen : Nat)
  /-- TX_OBJECT_FETCH (R165) -/
  | txObjectFetch (c : FbNo)
  /-- WINDOW_OPEN (R171) -/
  | windowOpen (c : FbNo)
  /-- WINDOW_CLOSE (R173) -/
  | windowClose (c : FbNo) (on0 : Bool) (on1 : Bool := false)
  /-- TX_FRAME_END (R174) -/
  | txFrameEnd (c : FbNo) (driven : Nat) (how : TxEnd) (loop : Option Nat := none)
  /-- ARBITRATING_TRANSMIT (R175) -/
  | arbitratingTransmit (c : FbNo)
  /-- REFERENCE_SEND (R177) -/
  | referenceSend (c : FbNo) (driven : Nat)
  /-- REFERENCE_ABANDON (R177) -/
  | referenceAbandon (c : FbNo)
  /-- REFERENCE_RECEIVE (R178) -/
  | referenceReceive (c : FbNo) (data : List Byte) (seen : Nat)
  /-- ACCEPTANCE_TIMEOUT (R178) -/
  | acceptanceTimeout (c : FbNo)
  /-- RECOVER (R159) -/
  | recover (r : Requester) (c : FbNo)
  /-- BUSOFF_RECOVERY_DONE (R159) -/
  | busoffRecoveryDone (c : FbNo)
  /-- FB_CTRL_WRITE (R187) -/
  | fbCtrlWrite (r : Requester) (c : FbNo) (v : Word)
  /-- BANK_REQUEST (R179) -/
  | bankRequest (r : Requester) (c : FbNo) (bank : Fin 2)
  /-- REDUNDANT_WRITE (R188) -/
  | redundantWrite (r : Requester) (on : Bool)
  /-- MDATA_ACCESS (R188) -/
  | mdataAccess (r : Requester) (v : Option Word)
  /-- INPUT_DECISION (R194) -/
  | inputDecision (q : StationNo)
  /-- STATION_IMAGE_WRITE (R195) -/
  | stationImageWrite (q : StationNo)
  /-- OUTPUT_SET_BUILD (R199) -/
  | outputSetBuild (q : StationNo)
  /-- STATION_ENABLE (R198) -/
  | stationEnable (r : Requester) (v : Word)
  /-- PROTECTED_STATE_ENTRY (R218) -/
  | protectedStateEntry (n : ChanNo)
  /-- MISWIRE_REARM (R218) -/
  | miswireRearm (r : Requester) (n : ChanNo)
  /-- AIO_CFG_WRITE (R219) -/
  | aioCfgWrite (r : Requester) (n : ChanNo) (v : Word)
  /-- RECORD_BASE_WRITE (R431) -/
  | recordBaseWrite (r : Requester) (b : RecordBase) (v : Word)
  /-- IMGEN_WRITE (R431) -/
  | imgenWrite (r : Requester) (b : ImageBlock) (on : Bool)
  /-- OUTPUT_CURRENT_LIMIT (R425) -/
  | outputCurrentLimit (n : Fin 24)
  /-- LIMIT_TURNOFF (R425) -/
  | limitTurnoff (n : Fin 24)
  /-- LIMIT_RETRY (R425) -/
  | limitRetry (n : Fin 24)
  /-- DI_LO_READ (R223) -/
  | diLoRead (r : Requester)
  /-- HART_TX_START (R231) -/
  | hartTxStart (n : ChanNo)
  /-- HART_TX_END (R231) -/
  | hartTxEnd (n : ChanNo)
  /-- HART_RESPONSE_DEADLINE (R231) -/
  | hartResponseDeadline (n : ChanNo)
  /-- HART_FRAME_RECEIVE (R230) -/
  | hartFrameReceive (n : ChanNo) (x : HartRx)
  /-- HART_ANSWER_START (R232) -/
  | hartAnswerStart (n : ChanNo)
  /-- HART_POLL (R233) -/
  | hartPoll (n : ChanNo)
  /-- HRT_CFG_WRITE (R241) -/
  | hrtCfgWrite (r : Requester) (n : ChanNo) (v : Word)
  /-- DC_SEED_DONE (R247) -/
  | dcSeedDone (xs : List MeterTick := [])
  /-- CYCLE_CLOSE (R254) -/
  | cycleClose (k : FeederNo) (xs : List MeterTick)
  /-- RMS_BLOCK_END (R250) -/
  | rmsBlockEnd (xs : List MeterTick)
  /-- STUCK_DETECT (R265) -/
  | stuckDetect (n : ChanNo) (xs : List MeterTick := [])
  /-- DEMAND_BOUNDARY (R260) -/
  | demandBoundary
  /-- PULSE_TIMER (R262) -/
  | pulseTimer (n : Fin 8)
  /-- METER_SAVE_TIMER (R267) -/
  | meterSaveTimer
  /-- METER_SAVE (R267) -/
  | meterSave (r : Requester)
  /-- SAVE_RETRY (R267) -/
  | saveRetry
  /-- CONFIG_COMMIT (R266) -/
  | configCommit (r : Requester)
  /-- METERING_ENABLE (R269) -/
  | meteringEnable (r : Requester) (on : Bool)
  /-- FEEDER_CFG_WRITE (R271) -/
  | feederCfgWrite (r : Requester) (k : FeederNo) (v : Word)
  /-- CALIBRATION_WRITE (R245) -/
  | calibrationWrite (r : Requester) (n : Fin 30) (w : CalReg) (v : Word)
  /-- FEEDER_CLEAR (R272) -/
  | feederClear (r : Requester) (k : FeederNo)
  /-- LSB_WRITE (R272) -/
  | lsbWrite (r : Requester) (k : FeederNo) (v : Word)
  /-- ACCLO_READ (R256) -/
  | accloRead (r : Requester) (k : FeederNo) (acc : Fin 6)
  /-- DEMAND_MAX_CLEAR (R260) -/
  | demandMaxClear (r : Requester) (k : FeederNo)
  /-- PULSE_CFG_WRITE (R263) -/
  | pulseCfgWrite (r : Requester) (n : Fin 8) (weight : Bool) (v : Word)
  /-- SER_TRANSMIT_START (R275) -/
  | serTransmitStart (n : SerNo) (xs : List SerChar := [])
  /-- SER_TRANSMIT_END (R275) -/
  | serTransmitEnd (n : SerNo)
  /-- MODBUS_FRAME_END (R278) -/
  | modbusFrameEnd (n : SerNo) (xs : List SerChar)
  /-- RESPONSE_TIMEOUT (R278) -/
  | responseTimeout (n : SerNo) (xs : List SerChar := [])
  /-- BROADCAST_TURN (R278) -/
  | broadcastTurn (n : SerNo)
  /-- OSDP_PACKET_RECEIVE (R279) -/
  | osdpPacketReceive (n : SerNo) (xs : List SerChar)
  /-- RAW_CHUNK_CLOSE (R280) -/
  | rawChunkClose (n : SerNo) (xs : List SerChar)
  /-- SVC_TXD_WRITE (R282) -/
  | svcTxdWrite (r : Requester) (b : Byte)
  /-- SVC_RXD_READ (R282) -/
  | svcRxdRead (r : Requester)
  /-- SVC_BYTE_RECEIVE (R282) -/
  | svcByteReceive (b : Byte)
  /-- ETH_FRAME_RECEIVE (R285) -/
  | ethFrameReceive (x : EthRx)
  /-- ETH_TRANSMIT (R285) -/
  | ethTransmit (at1 at2 : Nat)
  /-- ETH_LINK_CHANGE (R283) -/
  | ethLinkChange (port : Fin 2) (up fdx : Bool) (speed : BitVec 2)
  /-- ADDRESS_AGEING (R284) -/
  | addressAgeing
  /-- TXTS_TAG_READ (R286) -/
  | txtsTagRead (r : Requester)
  /-- VLAN_WRITE (R285) -/
  | vlanWrite (r : Requester) (d : Dom) (v : Word)
  /-- CHARON_SECOND (R298) -/
  | charonSecond (at_ : Nat)
  /-- ALARM_FIRE (R295) -/
  | alarmFire (a : Fin 2) (n : Nat)
  /-- TIME_WRITE (R292) -/
  | timeWrite (r : Requester) (v : Word)
  /-- TIME_LOAD (R293) -/
  | timeLoad
  /-- ALARM_WRITE (R297) -/
  | alarmWrite (r : Requester) (a : Fin 2) (i : Fin 4) (v : Word)
  /-- SEC_LO_READ (R291) -/
  | secLoRead (r : Requester)
  /-- CORR_LO_READ (R298) -/
  | corrLoRead (r : Requester)
  /-- OPSEC_READ (R300) -/
  | opsecRead (r : Requester)
  /-- OPSEC_MINUTE (R300) -/
  | opsecMinute
  /-- CRYSTAL_LOSS_32K (R299) -/
  | crystalLoss32k
  /-- CRYSTAL_RETURN_32K (R299) -/
  | crystalReturn32k
  /-- VBAT_CHECK (R303) -/
  | vbatCheck (cell : Option Nat)
  /-- FLASH_OP_ADMIT (R309) -/
  | flashOpAdmit
  /-- FLASH_OP_DONE (R310) -/
  | flashOpDone
  /-- NVM_READ (R319) -/
  | nvmRead (r : Requester) (v : Word)
  /-- NVM_WRITE (R319) -/
  | nvmWrite (r : Requester) (v : Word)
  /-- RAW_PROG (R320) -/
  | rawProg (r : Requester) (v : Word)
  /-- RAW_ERASE (R320) -/
  | rawErase (r : Requester) (v : Word)
  /-- NVM_COMMAND_DONE (R319) -/
  | nvmCommandDone
  /-- COMPACT (R317) -/
  | compact (r : Requester)
  /-- COMPACTION_START (R317) -/
  | compactionStart
  /-- INDEX_BUILT (R318) -/
  | indexBuilt
  /-- COUNTER_INCREMENT (R322) -/
  | counterIncrement (r : Requester) (n : Fin 8)
  /-- COUNTER_ADVANCE (R323) -/
  | counterAdvance (r : Requester) (n : Fin 8)
  /-- WRITE_POINT_FOUND (R330) -/
  | writePointFound
  /-- EVR_FIRST (R331) -/
  | evrFirst
  /-- EVR_NEXT (R331) -/
  | evrNext
  /-- EVR_AT (R331) -/
  | evrAt
  /-- EVENT_CLEAR (R334) -/
  | eventClear (r : Requester)
  /-- KEY_UPDATE (R346) -/
  | keyUpdate (r : Requester)
  /-- LOADVAULT (R348) -/
  | wsLoadVault (r : Requester) (v : Word)
  /-- LOADBLOB (R348) -/
  | wsLoadBlob (r : Requester) (v : Word)
  /-- GENERATE (R348) -/
  | wsGenerate (r : Requester) (v : Word)
  /-- IMPORT (R348) -/
  | wsImport (r : Requester) (v : Word)
  /-- CLEAR (R348) -/
  | wsClear (r : Requester) (v : Word)
  /-- CRY_JOB_STAGE (R354) -/
  | cryJobStage
  /-- AES_GCM_ENCRYPT (R352) -/
  | aesGcmEncrypt
  /-- AES_GCM_DECRYPT (R352) -/
  | aesGcmDecrypt
  /-- AES_CBC_ENCRYPT (R352) -/
  | aesCbcEncrypt
  /-- AES_CBC_DECRYPT (R352) -/
  | aesCbcDecrypt
  /-- AES_ECB_ENCRYPT (R352) -/
  | aesEcbEncrypt
  /-- AES_ECB_DECRYPT (R352) -/
  | aesEcbDecrypt
  /-- AES_CTR (R352) -/
  | aesCtr
  /-- AES_CMAC_GENERATE (R352) -/
  | aesCmacGenerate
  /-- AES_CMAC_VERIFY (R352) -/
  | aesCmacVerify
  /-- HMAC_SHA_256_GENERATE (R352) -/
  | hmacSha256Generate
  /-- HMAC_SHA_256_VERIFY (R352) -/
  | hmacSha256Verify
  /-- SHA_256 (R352) -/
  | sha256
  /-- RSASSA_PSS_SIGN (R352) -/
  | rsassaPssSign
  /-- RSASSA_PSS_VERIFY (R352) -/
  | rsassaPssVerify
  /-- RSA_OAEP_ENCRYPT (R352) -/
  | rsaOaepEncrypt
  /-- RSA_OAEP_DECRYPT (R352) -/
  | rsaOaepDecrypt
  /-- ATTEST (R356) -/
  | attest
  /-- RANDOM (R352) -/
  | cryRandom
  /-- CRY_JOB_COMPLETE (R353) -/
  | cryJobComplete (pk : Bool)
  /-- BOOT_ATTEMPT (R361) -/
  | bootAttempt (h : Half) (u : RomUpset)
  /-- BOOT_TIMEOUT (R361) -/
  | bootTimeout (h : Half)
  /-- HELLO (R370) -/
  | dlHello (x : DlFrame)
  /-- START (R370) -/
  | dlStart (x : DlFrame)
  /-- DATA (R370) -/
  | dlData (x : DlFrame)
  /-- END (R370) -/
  | dlEnd (x : DlFrame)
  /-- REBOOT (R370) -/
  | dlReboot (x : DlFrame)
  /-- ABORT (R370) -/
  | dlAbort (x : DlFrame)
  /-- SESSION_TIMEOUT (R368) -/
  | sessionTimeout
  /-- XFL_ERASE (R364) -/
  | xflErase (r : Requester)
  /-- XFL_PROG (R364) -/
  | xflProg (r : Requester)
  /-- XFL_HASH (R365) -/
  | xflHash (r : Requester)
  /-- XFL_READ (R364) -/
  | xflRead (r : Requester)
  /-- XFL_DONE (R364) -/
  | xflDone (err : Bool)
  /-- SUPPLY_FAILURE (R376) -/
  | supplyFailure (xs : List MeterTick)
  /-- POWER_FAIL_PLAN_END (R376) -/
  | powerFailPlanEnd (low : Bool) (x : Straps)
  /-- SUPPLY_GOOD (R373) -/
  | supplyGood
  /-- DOFF (R382) -/
  | doff (r : Requester)
  /-- RESTORE (R380) -/
  | restore (r : Requester)
  /-- PRF_LOAD (R386) -/
  | prfLoad (r : Requester) (n : Fin 4)
  /-- PRF_CMD (R388) -/
  | prfCmd (r : Requester) (n : Fin 4)
  /-- RETRY (R388) -/
  | retry (r : Requester)
  /-- WDT_KICK (R398) -/
  | wdtKick (r : Requester) (i : Fin 4) (v : Word)
  /-- WATCHDOG_EXPIRY (R399) -/
  | watchdogExpiry (r : Fin 4)
  /-- MUSLIN_WATCHDOG_EXPIRY (R400) -/
  | muslinWatchdogExpiry
  /-- DAMASK_CRYSTAL_LOSS (R395) -/
  | damaskCrystalLoss
  /-- METER_CRYSTAL_LOSS (R396) -/
  | meterCrystalLoss (xs : List MeterTick)
  /-- METER_CRYSTAL_RETURN (R396) -/
  | meterCrystalReturn
  /-- SOFTWARE_INTERRUPT (R401) -/
  | softwareInterrupt (r : Requester) (set : Bool) (v : BitVec 16)
  /-- EVENT_NUMBER (R405) -/
  | eventNumber
  /-- SEQUENCER_START (R406) -/
  | sequencerStart
  /-- BLOCK_TRANSFER (R412) -/
  | blockTransfer (x : Option (Die × Packet))
  /-- QUEUE_CONFIG_WRITE (R411) -/
  | queueConfigWrite (r : Requester) (q : QueueNo) (reg : Fin 5) (v : Word)
  /-- RING_PRODUCE (R411) -/
  | ringProduce (r : Requester) (q : QueueNo) (prod : BitVec 13)
  /-- RESET_RELEASE (R421) -/
  | resetRelease (x : Straps)
  /-- ILLEGAL_INSTRUCTION (R86) -/
  | illegalInstruction (x : Issue)
  /-- FETCH_ACCESS_ERROR (R47) -/
  | fetchAccessError (e : EngNo)
  /-- SLEEP_WAKE (R107) -/
  | sleepWake (e : EngNo)
  /-- FRAME_ERROR (R159) -/
  | frameError (c : FbNo) (lec : BitVec 3) (eight : Bool) (seen : Nat)
  /-- CARRIER_DETECT (R230) -/
  | carrierDetect (n : ChanNo) (on : Bool)
  /-- STUCK_CLEAR (R265) -/
  | stuckClear (n : ChanNo) (xs : List MeterTick := [])
  /-- SVC_BYTE_SENT (R282) -/
  | svcByteSent
  /-- ONVBAT_CHANGE (R303) -/
  | onvbatChange (on : Bool)
  /-- CHARON_STOP (R303) -/
  | charonStop
  /-- VERIFIER_DONE (R346) -/
  | verifierDone
  deriving DecidableEq, Repr

end Sys2Proof
end

