-- ==== Sys2Proof/Decode.lean ====
section
/-! DEFINITION. The commands that the table spells in bits: none of its rows gives any. Beside it the words of the engine
instructions, as an engine's program holds them (R85 to R87): a decoder that refuses every illegal word, and an
encoder. -/

namespace Sys2Proof

/-- The command that a word spells by the table's bits: no row of the table gives bits. -/
def decodeTableWord (_nbits _w : Nat) : Option Instr := none

/-! ## Fields of an engine word (R85) -/

def opOf (w : Word) : Nat := (w.extractLsb' 26 6).toNat
def rdOf (w : Word) : Reg := (w.extractLsb' 22 4).toFin
def raOf (w : Word) : Reg := (w.extractLsb' 18 4).toFin
def rbOf (w : Word) : Reg := (w.extractLsb' 14 4).toFin
def rcOf (w : Word) : Reg := (w.extractLsb' 10 4).toFin
def fnOf (w : Word) : Nat := (w.extractLsb' 0 10).toNat
def imm18Of (w : Word) : BitVec 18 := w.extractLsb' 0 18
def bselOf (w : Word) : Nat := (w.extractLsb' 15 3).toNat
def off15Of (w : Word) : BitVec 15 := w.extractLsb' 0 15
def condOf (w : Word) : Nat := (w.extractLsb' 22 4).toNat
def off22Of (w : Word) : BitVec 22 := w.extractLsb' 0 22
def subOf (w : Word) : Nat := (w.extractLsb' 12 2).toNat
def woffOf (w : Word) : BitVec 12 := w.extractLsb' 0 12
def imm16Of (w : Word) : BitVec 16 := w.extractLsb' 0 16

/-! ## Groups (R87) -/

def aluOf (x : Issue) (fn : Nat) (rd ra rb : Reg) : Option Instr :=
  match fn with
  | 0x000 => some (.add x rd ra rb)
  | 0x001 => some (.sub x rd ra rb)
  | 0x002 => some (.and x rd ra rb)
  | 0x003 => some (.or x rd ra rb)
  | 0x004 => some (.xor x rd ra rb)
  | 0x005 => some (.shl x rd ra rb)
  | 0x006 => some (.shr x rd ra rb)
  | 0x007 => some (.sar x rd ra rb)
  | 0x008 => some (.slt x rd ra rb)
  | 0x009 => some (.sltu x rd ra rb)
  | 0x00A => some (.min x rd ra rb)
  | 0x00B => some (.max x rd ra rb)
  | 0x00C => if rd = 0 then some (.cmp x ra rb) else none
  | _ => none

def muldivOf (x : Issue) (fn : Nat) (rd ra rb : Reg) : Option Instr :=
  match fn with
  | 0x000 => some (.mul x rd ra rb)
  | 0x001 => some (.mulh x rd ra rb)
  | 0x002 => some (.mulhu x rd ra rb)
  | 0x003 => some (.div x rd ra rb)
  | 0x004 => some (.divu x rd ra rb)
  | 0x005 => some (.rem x rd ra rb)
  | 0x006 => some (.remu x rd ra rb)
  | _ => none

def fpOf (x : Issue) (fn : Nat) (rd ra rb : Reg) : Option Instr :=
  match fn with
  | 0x000 => some (.fadd x rd ra rb)
  | 0x001 => some (.fsub x rd ra rb)
  | 0x002 => some (.fmul x rd ra rb)
  | 0x003 => some (.fdiv x rd ra rb)
  | 0x004 => if rb = 0 then some (.fsqrt x rd ra) else none
  | 0x005 => some (.fmin x rd ra rb)
  | 0x006 => some (.fmax x rd ra rb)
  | 0x007 => if rb = 0 then some (.fabs x rd ra) else none
  | 0x008 => if rb = 0 then some (.fneg x rd ra) else none
  | 0x009 => if rd = 0 then some (.fcmp x ra rb) else none
  | 0x00A => if rb = 0 then some (.itof x rd ra) else none
  | 0x00B => if rb = 0 then some (.ftoi x rd ra) else none
  | 0x00C => if rb = 0 then some (.ftoiz x rd ra) else none
  | _ => none

def matOf (x : Issue) (fn : Nat) (rd ra : Reg) : Option Instr :=
  match fn with
  | 0x000 => some (.gemv x rd ra)
  | 0x001 => some (.gemm x rd ra)
  | 0x002 => some (.chol x rd ra)
  | 0x003 => some (.solve x rd ra)
  | _ => none

def baseOf (bsel : Nat) : Option Base :=
  match bsel with
  | 0 => some .zero
  | 1 => some .ib
  | 2 => some .xb
  | 3 => some .yb
  | 4 => some .sp
  | _ => none

def condDecode (n : Nat) : Cond :=
  match n with
  | 0 => .eq | 1 => .ne | 2 => .lt | 3 => .ge | 4 => .gt | 5 => .le | 6 => .ltu | 7 => .geu
  | 8 => .gtu | 9 => .leu | 10 => .flt | 11 => .fge | 12 => .fgt | 13 => .fle | 14 => .un | _ => .al

/-- A load or store of format M. -/
def memOf (w : Word) (f : Base → Instr) : Option Instr := (baseOf (bselOf w)).map f

/-! ## The decoder (R86): none is an illegal instruction -/

/-- The instruction that a word stands for in the program of the engine of `x`. -/
def decodeEngine (x : Issue) (w : Word) : Option Instr :=
  let rd := rdOf w
  let ra := raOf w
  let rb := rbOf w
  match opOf w with
  | 0x01 => if rcOf w = 0 then aluOf x (fnOf w) rd ra rb else none
  | 0x02 => if rcOf w = 0 then muldivOf x (fnOf w) rd ra rb else none
  | 0x04 => some (.addi x rd ra (imm18Of w))
  | 0x05 => some (.andi x rd ra (imm18Of w))
  | 0x06 => some (.ori x rd ra (imm18Of w))
  | 0x07 => some (.xori x rd ra (imm18Of w))
  | 0x08 => if w.extractLsb' 5 13 = 0#13 then some (.shli x rd ra (w.extractLsb' 0 5)) else none
  | 0x09 => if w.extractLsb' 5 13 = 0#13 then some (.shri x rd ra (w.extractLsb' 0 5)) else none
  | 0x0A => if w.extractLsb' 5 13 = 0#13 then some (.sari x rd ra (w.extractLsb' 0 5)) else none
  | 0x0B => some (.slti x rd ra (imm18Of w))
  | 0x0C => if ra = 0 ∧ w.extractLsb' 16 2 = 0#2 then some (.lui x rd (imm16Of w)) else none
  | 0x0D => if rd = 0 then some (.cmpi x ra (imm18Of w)) else none
  | 0x10 => if rcOf w = 0 then fpOf x (fnOf w) rd ra rb else none
  | 0x18 => memOf w fun b => .lw x rd ra b (off15Of w)
  | 0x19 => memOf w fun b => .lh x rd ra b (off15Of w)
  | 0x1A => memOf w fun b => .lhu x rd ra b (off15Of w)
  | 0x1B => memOf w fun b => .lb x rd ra b (off15Of w)
  | 0x1C => memOf w fun b => .lbu x rd ra b (off15Of w)
  | 0x1D => memOf w fun b => .sw x rd ra b (off15Of w)
  | 0x1E => memOf w fun b => .sh x rd ra b (off15Of w)
  | 0x1F => memOf w fun b => .sb x rd ra b (off15Of w)
  | 0x20 => some (.b x (condDecode (condOf w)) (off22Of w))
  | 0x21 => if condOf w = 0 then some (.bl x (off22Of w)) else none
  | 0x22 => if rd = 0 ∧ rb = 0 ∧ rcOf w = 0 ∧ fnOf w = 0 then some (.jr x ra) else none
  | 0x24 => if rd = 0 ∧ rcOf w = 0 ∧ fnOf w = 0 then some (.bcall x ra rb) else none
  | 0x25 => if w.extractLsb' 0 26 = 0#26 then some (.bret x) else none
  | 0x28 => if rb = 0 ∧ subOf w = 0 then some (.edge x rd ra (woffOf w)) else none
  | 0x29 =>
    match subOf w with
    | 0 => some (.ton x rd ra rb (woffOf w))
    | 1 => some (.tof x rd ra rb (woffOf w))
    | 2 => some (.tp x rd ra rb (woffOf w))
    | _ => none
  | 0x2A =>
    match subOf w with
    | 0 => some (.ctu x rd ra rb (woffOf w))
    | 1 => some (.ctd x rd ra rb (woffOf w))
    | 2 => some (.ctud x rd ra rb (woffOf w))
    | _ => none
  | 0x2C => if rb = 0 ∧ rcOf w = 0 then matOf x (fnOf w) rd ra else none
  | 0x30 => if ra = 0 ∧ w.extractLsb' 16 2 = 0#2 then some (.mfs x rd (imm16Of w)) else none
  | 0x31 => if rd = 0 ∧ w.extractLsb' 16 2 = 0#2 then some (.mts x ra (imm16Of w)) else none
  | 0x32 => if w.extractLsb' 0 26 = 0#26 then some (.yield x) else none
  | 0x33 => if rd = 0 ∧ ra = 0 ∧ w.extractLsb' 16 2 = 0#2 then some (.fault x (imm16Of w)) else none
  | 0x38 => if rd = 0 ∧ fnOf w = 0 then some (.plk x ra rb (rcOf w)) else none
  | 0x39 => if w.extractLsb' 0 26 = 0#26 then some (.iret x) else none
  | 0x3A => if w.extractLsb' 0 26 = 0#26 then some (.sleep x) else none
  | 0x3B => if rcOf w = 0 ∧ fnOf w = 0 then some (.migrate x rd ra rb) else none
  | _ => none

/-! ## The encoder -/

def regBits (r : Reg) : BitVec 4 := BitVec.ofFin r

def wordR (op : BitVec 6) (rd ra rb rc : Reg) (fn : BitVec 10) : Word :=
  op ++ regBits rd ++ regBits ra ++ regBits rb ++ regBits rc ++ fn
def wordI (op : BitVec 6) (rd ra : Reg) (imm : BitVec 18) : Word := op ++ regBits rd ++ regBits ra ++ imm
def wordM (op : BitVec 6) (rd ra : Reg) (bsel : BitVec 3) (off : BitVec 15) : Word :=
  op ++ regBits rd ++ regBits ra ++ bsel ++ off
def wordB (op : BitVec 6) (cond : BitVec 4) (off : BitVec 22) : Word := op ++ cond ++ off
def wordP (op : BitVec 6) (rd ra rb : Reg) (sub : BitVec 2) (woff : BitVec 12) : Word :=
  op ++ regBits rd ++ regBits ra ++ regBits rb ++ sub ++ woff
def wordS (op : BitVec 6) (rd ra : Reg) (imm : BitVec 16) : Word := op ++ regBits rd ++ regBits ra ++ 0#2 ++ imm

def shiftField (i : BitVec 5) : BitVec 18 := 0#13 ++ i

def baseBits : Base → BitVec 3
  | .zero => 0
  | .ib => 1
  | .xb => 2
  | .yb => 3
  | .sp => 4

def condBits : Cond → BitVec 4
  | .eq => 0 | .ne => 1 | .lt => 2 | .ge => 3 | .gt => 4 | .le => 5 | .ltu => 6 | .geu => 7
  | .gtu => 8 | .leu => 9 | .flt => 10 | .fge => 11 | .fgt => 12 | .fle => 13 | .un => 14 | .al => 15

/-- The word of an engine instruction; none for every other command. -/
def encodeEngine : Instr → Option Word
  | .add _ rd ra rb => some (wordR 0x01 rd ra rb 0 0x000)
  | .sub _ rd ra rb => some (wordR 0x01 rd ra rb 0 0x001)
  | .and _ rd ra rb => some (wordR 0x01 rd ra rb 0 0x002)
  | .or _ rd ra rb => some (wordR 0x01 rd ra rb 0 0x003)
  | .xor _ rd ra rb => some (wordR 0x01 rd ra rb 0 0x004)
  | .shl _ rd ra rb => some (wordR 0x01 rd ra rb 0 0x005)
  | .shr _ rd ra rb => some (wordR 0x01 rd ra rb 0 0x006)
  | .sar _ rd ra rb => some (wordR 0x01 rd ra rb 0 0x007)
  | .slt _ rd ra rb => some (wordR 0x01 rd ra rb 0 0x008)
  | .sltu _ rd ra rb => some (wordR 0x01 rd ra rb 0 0x009)
  | .min _ rd ra rb => some (wordR 0x01 rd ra rb 0 0x00A)
  | .max _ rd ra rb => some (wordR 0x01 rd ra rb 0 0x00B)
  | .cmp _ ra rb => some (wordR 0x01 0 ra rb 0 0x00C)
  | .mul _ rd ra rb => some (wordR 0x02 rd ra rb 0 0x000)
  | .mulh _ rd ra rb => some (wordR 0x02 rd ra rb 0 0x001)
  | .mulhu _ rd ra rb => some (wordR 0x02 rd ra rb 0 0x002)
  | .div _ rd ra rb => some (wordR 0x02 rd ra rb 0 0x003)
  | .divu _ rd ra rb => some (wordR 0x02 rd ra rb 0 0x004)
  | .rem _ rd ra rb => some (wordR 0x02 rd ra rb 0 0x005)
  | .remu _ rd ra rb => some (wordR 0x02 rd ra rb 0 0x006)
  | .addi _ rd ra i => some (wordI 0x04 rd ra i)
  | .andi _ rd ra i => some (wordI 0x05 rd ra i)
  | .ori _ rd ra i => some (wordI 0x06 rd ra i)
  | .xori _ rd ra i => some (wordI 0x07 rd ra i)
  | .shli _ rd ra i => some (wordI 0x08 rd ra (shiftField i))
  | .shri _ rd ra i => some (wordI 0x09 rd ra (shiftField i))
  | .sari _ rd ra i => some (wordI 0x0A rd ra (shiftField i))
  | .slti _ rd ra i => some (wordI 0x0B rd ra i)
  | .lui _ rd i => some (wordS 0x0C rd 0 i)
  | .cmpi _ ra i => some (wordI 0x0D 0 ra i)
  | .fadd _ rd ra rb => some (wordR 0x10 rd ra rb 0 0x000)
  | .fsub _ rd ra rb => some (wordR 0x10 rd ra rb 0 0x001)
  | .fmul _ rd ra rb => some (wordR 0x10 rd ra rb 0 0x002)
  | .fdiv _ rd ra rb => some (wordR 0x10 rd ra rb 0 0x003)
  | .fsqrt _ rd ra => some (wordR 0x10 rd ra 0 0 0x004)
  | .fmin _ rd ra rb => some (wordR 0x10 rd ra rb 0 0x005)
  | .fmax _ rd ra rb => some (wordR 0x10 rd ra rb 0 0x006)
  | .fabs _ rd ra => some (wordR 0x10 rd ra 0 0 0x007)
  | .fneg _ rd ra => some (wordR 0x10 rd ra 0 0 0x008)
  | .fcmp _ ra rb => some (wordR 0x10 0 ra rb 0 0x009)
  | .itof _ rd ra => some (wordR 0x10 rd ra 0 0 0x00A)
  | .ftoi _ rd ra => some (wordR 0x10 rd ra 0 0 0x00B)
  | .ftoiz _ rd ra => some (wordR 0x10 rd ra 0 0 0x00C)
  | .lw _ rd ra b o => some (wordM 0x18 rd ra (baseBits b) o)
  | .lh _ rd ra b o => some (wordM 0x19 rd ra (baseBits b) o)
  | .lhu _ rd ra b o => some (wordM 0x1A rd ra (baseBits b) o)
  | .lb _ rd ra b o => some (wordM 0x1B rd ra (baseBits b) o)
  | .lbu _ rd ra b o => some (wordM 0x1C rd ra (baseBits b) o)
  | .sw _ rd ra b o => some (wordM 0x1D rd ra (baseBits b) o)
  | .sh _ rd ra b o => some (wordM 0x1E rd ra (baseBits b) o)
  | .sb _ rd ra b o => some (wordM 0x1F rd ra (baseBits b) o)
  | .b _ c o => some (wordB 0x20 (condBits c) o)
  | .bl _ o => some (wordB 0x21 0 o)
  | .jr _ ra => some (wordR 0x22 0 ra 0 0 0)
  | .bcall _ ra rb => some (wordR 0x24 0 ra rb 0 0)
  | .bret _ => some (wordR 0x25 0 0 0 0 0)
  | .edge _ rd ra o => some (wordP 0x28 rd ra 0 0 o)
  | .ton _ rd ra rb o => some (wordP 0x29 rd ra rb 0 o)
  | .tof _ rd ra rb o => some (wordP 0x29 rd ra rb 1 o)
  | .tp _ rd ra rb o => some (wordP 0x29 rd ra rb 2 o)
  | .ctu _ rd ra rb o => some (wordP 0x2A rd ra rb 0 o)
  | .ctd _ rd ra rb o => some (wordP 0x2A rd ra rb 1 o)
  | .ctud _ rd ra rb o => some (wordP 0x2A rd ra rb 2 o)
  | .gemv _ rd ra => some (wordR 0x2C rd ra 0 0 0)
  | .gemm _ rd ra => some (wordR 0x2C rd ra 0 0 1)
  | .chol _ rd ra => some (wordR 0x2C rd ra 0 0 2)
  | .solve _ rd ra => some (wordR 0x2C rd ra 0 0 3)
  | .mfs _ rd n => some (wordS 0x30 rd 0 n)
  | .mts _ ra n => some (wordS 0x31 0 ra n)
  | .yield _ => some (wordR 0x32 0 0 0 0 0)
  | .fault _ n => some (wordS 0x33 0 0 n)
  | .plk _ ra rb rc => some (wordR 0x38 0 ra rb rc 0)
  | .iret _ => some (wordR 0x39 0 0 0 0 0)
  | .sleep _ => some (wordR 0x3A 0 0 0 0 0)
  | .migrate _ rd ra rb => some (wordR 0x3B rd ra rb 0 0)
  | _ => none

/-- The execution to which an engine instruction belongs. -/
def issueOf : Instr → Option Issue
  | .add x _ _ _ => some x
  | .sub x _ _ _ => some x
  | .and x _ _ _ => some x
  | .or x _ _ _ => some x
  | .xor x _ _ _ => some x
  | .shl x _ _ _ => some x
  | .shr x _ _ _ => some x
  | .sar x _ _ _ => some x
  | .slt x _ _ _ => some x
  | .sltu x _ _ _ => some x
  | .min x _ _ _ => some x
  | .max x _ _ _ => some x
  | .cmp x _ _ => some x
  | .mul x _ _ _ => some x
  | .mulh x _ _ _ => some x
  | .mulhu x _ _ _ => some x
  | .div x _ _ _ => some x
  | .divu x _ _ _ => some x
  | .rem x _ _ _ => some x
  | .remu x _ _ _ => some x
  | .addi x _ _ _ => some x
  | .andi x _ _ _ => some x
  | .ori x _ _ _ => some x
  | .xori x _ _ _ => some x
  | .shli x _ _ _ => some x
  | .shri x _ _ _ => some x
  | .sari x _ _ _ => some x
  | .slti x _ _ _ => some x
  | .lui x _ _ => some x
  | .cmpi x _ _ => some x
  | .fadd x _ _ _ => some x
  | .fsub x _ _ _ => some x
  | .fmul x _ _ _ => some x
  | .fdiv x _ _ _ => some x
  | .fsqrt x _ _ => some x
  | .fmin x _ _ _ => some x
  | .fmax x _ _ _ => some x
  | .fabs x _ _ => some x
  | .fneg x _ _ => some x
  | .fcmp x _ _ => some x
  | .itof x _ _ => some x
  | .ftoi x _ _ => some x
  | .ftoiz x _ _ => some x
  | .lw x _ _ _ _ => some x
  | .lh x _ _ _ _ => some x
  | .lhu x _ _ _ _ => some x
  | .lb x _ _ _ _ => some x
  | .lbu x _ _ _ _ => some x
  | .sw x _ _ _ _ => some x
  | .sh x _ _ _ _ => some x
  | .sb x _ _ _ _ => some x
  | .b x _ _ => some x
  | .bl x _ => some x
  | .jr x _ => some x
  | .bcall x _ _ => some x
  | .bret x => some x
  | .edge x _ _ _ => some x
  | .ton x _ _ _ _ => some x
  | .tof x _ _ _ _ => some x
  | .tp x _ _ _ _ => some x
  | .ctu x _ _ _ _ => some x
  | .ctd x _ _ _ _ => some x
  | .ctud x _ _ _ _ => some x
  | .gemv x _ _ => some x
  | .gemm x _ _ => some x
  | .chol x _ _ => some x
  | .solve x _ _ => some x
  | .mfs x _ _ => some x
  | .mts x _ _ => some x
  | .yield x => some x
  | .fault x _ => some x
  | .plk x _ _ _ => some x
  | .iret x => some x
  | .sleep x => some x
  | .migrate x _ _ _ => some x
  | _ => none

end Sys2Proof
end

