-- ==== Sys2Proof/Config.lean ====
section
/-! DEFINITION. What an implementation of the module fixes and the spec leaves open: free values.
Each is an opaque constant: nothing in Lean can prove what it is, so a statement about the model holds whatever it is. -/

namespace Sys2Proof.Config

/-- The bytes of ROM (0x0000_0000 to 0x0000_FFFF, R47): the spec gives no content. -/
opaque rom : Nat → BitVec 8

/-- Byte `n` that a random source of the module (CTR_DRBG of R349 and R352, the 128-bit nonces of R34, the OAEP seed and
PSS salt of R345) draws: `n` counts the bytes drawn since power-on. -/
opaque random : Nat → BitVec 8

/-- Value `n` of the results that the spec leaves open after an operation that goes on; `n` counts them. -/
opaque freeWord : Nat → BitVec 32

/-- BLOCKCAP of page `p` (R49) on the S variant or not: no chapter of the spec gives a value. -/
opaque blockCap : Nat → Bool → BitVec 31

/-- The number, times 2^149, that metering takes for a SCALE of +∞, or for a UN or IN that is no finite number: the spec states no result
(R251, R254). -/
opaque notNumber : Word → Nat

/-- Whether a quotient of the metering chain's fixed-point arithmetic that lies between two numbers goes to the greater: the
spec names no rounding for its steps (R245, R247, R248). -/
opaque roundUp : Int → Nat → Bool

/-- The code that the three half-band stages give for the values of the sinc³ stage, newest first, of which 384 lie within
the decimator's latency: the spec gives its pass band and its stop band and no tap (R244). -/
opaque halfBands : List Int → Int

/-- Factory correction of a channel's offset, gain and phase (R245, step 1) from its codes, newest first: the spec gives the
factory and calibration region no content. -/
opaque factory : Nat → List Int → Int

/-- What a 40-bit intermediate of the chain holds where the exact value needs more bits: the spec states none (R245). -/
opaque beyond40 : Int → BitVec 40

/-- Bits below one code squared that the 64-bit sums of products keep: the spec gives their width alone (R245). -/
opaque sumBits : Nat

/-- The interpolated value so many steps of 1/1,024 sample back, from the samples newest first, where it falls between two
of them: the spec names no kernel (R246). -/
opaque between : Nat → List Int → Int

/-- The filter that shifts a voltage by 90° (R254): tap `n` in units of 2^-30, the gain correction at a frequency in mHz in
the same units, and its latency in samples, of which the model takes the remainder by 64. The spec gives the filter's
accuracy and none of them. -/
opaque quadTap : Nat → Int
opaque quadGain : Nat → Int
opaque quadLag : Nat

/-- Whether the solver computes a Cholesky factor row by row rather than column by column: this decides which elements are
later than a non-positive pivot (R74). -/
opaque cholRows : Bool

end Sys2Proof.Config
end

