-- ==== Sys2Proof/Machine/Crc.lean ====
section
/-! DEFINITION. Byte strings and the CRCs that the spec names by their full parameters
(R20, R277, R279 and the CRC-32C of R114, R312, R327, R369). -/

namespace Sys2Proof.Machine

/-- The four bytes of a word, least significant first. -/
def wordBytes (w : Word) : List Byte :=
  [w.extractLsb' 0 8, w.extractLsb' 8 8, w.extractLsb' 16 8, w.extractLsb' 24 8]

/-- `n` bytes of a number, least significant first. -/
def leBytes : Nat → Nat → List Byte
  | 0, _ => []
  | n + 1, x => byte x :: leBytes n (x / 256)

/-- `n` bytes of a number, most significant first. -/
def beBytes (n x : Nat) : List Byte := (leBytes n x).reverse

/-- The number whose bytes, least significant first, are the list. -/
def ofLe : List Byte → Nat
  | [] => 0
  | b :: bs => b.toNat + 256 * ofLe bs

/-- The number whose bytes, most significant first, are the list. -/
def ofBe (bs : List Byte) : Nat := ofLe bs.reverse

/-- The word at byte `i` of a little-endian byte string. -/
def leWord (bs : List Byte) (i : Nat) : Word := word (ofLe ((bs.drop i).take 4))

/-- The number in bytes `i` to `i + n − 1`, little-endian. -/
def leField (bs : List Byte) (i n : Nat) : Nat := ofLe ((bs.drop i).take n)

/-- The words of a little-endian byte string; a short tail is filled with zeros. -/
def bytesWordsN : Nat → List Byte → List Word
  | 0, _ => []
  | n + 1, bs => word (ofLe (bs.take 4)) :: bytesWordsN n (bs.drop 4)

/-- As many words as cover the byte string. -/
def bytesWords (bs : List Byte) : List Word := bytesWordsN ((bs.length + 3) / 4) bs

/-- The bytes of a list of words, each least significant byte first. -/
def wordsBytes (ws : List Word) : List Byte := ws.flatMap wordBytes

/-- The string cut or filled with zeros to exactly `n` bytes. -/
def padTo (n : Nat) (bs : List Byte) : List Byte := bs.take n ++ List.replicate (n - bs.length) 0

/-- ASCII text as bytes. -/
def ascii (t : String) : List Byte := t.toList.map fun c => byte c.toNat

/-- Exclusive or of two byte strings, as long as the shorter. -/
def xorBytes (a b : List Byte) : List Byte := List.zipWith (· ^^^ ·) a b

/-- One bit of an unreflected 16-bit CRC with polynomial 0x1021. -/
def crc16Bit (c : BitVec 16) : BitVec 16 :=
  if c.getLsbD 15 then (c <<< 1) ^^^ 0x1021#16 else c <<< 1

/-- One byte of an unreflected 16-bit CRC with polynomial 0x1021. -/
def crc16Byte (c : BitVec 16) (b : Byte) : BitVec 16 :=
  Nat.repeat crc16Bit 8 (c ^^^ (b.setWidth 16 <<< 8))

/-- CRC-16 of the link: polynomial 0x1021, initial value 0xFFFF, unreflected, no final XOR (R20). -/
def crc16Link (bs : List Byte) : BitVec 16 := bs.foldl crc16Byte 0xFFFF#16

/-- CRC-16 of OSDP: polynomial 0x1021, initial value 0x1D0F, unreflected, no final XOR (R279). -/
def crc16Osdp (bs : List Byte) : BitVec 16 := bs.foldl crc16Byte 0x1D0F#16

/-- One bit of the reflected CRC-16 with polynomial 0x8005. -/
def crcModbusBit (c : BitVec 16) : BitVec 16 :=
  if c.getLsbD 0 then (c >>> 1) ^^^ 0xA001#16 else c >>> 1

/-- CRC-16/MODBUS: polynomial 0x8005, initial value 0xFFFF, reflected, no final XOR (R277). -/
def crcModbus (bs : List Byte) : BitVec 16 :=
  bs.foldl (fun c b => Nat.repeat crcModbusBit 8 (c ^^^ b.setWidth 16)) 0xFFFF#16

/-- One bit of the reflected CRC-32 with polynomial 0x1EDC_6F41. -/
def crc32cBit (c : Word) : Word :=
  if c.getLsbD 0 then (c >>> 1) ^^^ 0x82F63B78#32 else c >>> 1

/-- CRC-32C: polynomial 0x1EDC_6F41, initial value and final XOR 0xFFFF_FFFF, reflected (R114). -/
def crc32c (bs : List Byte) : Word :=
  bs.foldl (fun c b => Nat.repeat crc32cBit 8 (c ^^^ b.setWidth 32)) 0xFFFFFFFF#32 ^^^ 0xFFFFFFFF#32

end Sys2Proof.Machine
end

