-- ==== Sys2Proof/Machine/Registers.lean ====
section
/-! DEFINITION. The register pages of the two dies: which fields each register of a page has, where
they lie, under which access codes (R10) they are written and read, and their reset values (R11).
The rows and the field places are the register tables of the spec's chapters 01 to 19, page by page. -/

namespace Sys2Proof.Machine

/-- A register field: the byte offset of its register in the page, its lowest bit and its width. -/
structure Fld where
  off : Nat
  lo : Nat
  wid : Nat
  deriving DecidableEq, Repr

/-- One register (or a row of `count` like registers, `stride` bytes apart) of a page: for each access
code of R10 the bits that carry it, and the reset value. -/
structure RegRow where
  off : Nat
  stride : Nat
  count : Nat
  ro : Word
  rw : Word
  w1c : Word
  w1s : Word
  wo : Word
  rc : Word
  rwl : Word
  rws : Word
  reset : Word
  deriving DecidableEq, Repr

/-- The same field in element `i` of a row of registers `stride` bytes apart. -/
def Fld.at (f : Fld) (stride i : Nat) : Fld := { f with off := f.off + stride * i }

namespace Reg

def DDL_CTRL_LOOPBACK : Fld := ⟨0x008, 2, 1⟩
def DDL_CTRL_RETRAIN : Fld := ⟨0x008, 1, 1⟩
def DDL_CTRL_EN : Fld := ⟨0x008, 0, 1⟩
def DDL_STAT_OUTSTANDING : Fld := ⟨0x00C, 8, 8⟩
def DDL_STAT_SESSION : Fld := ⟨0x00C, 6, 1⟩
def DDL_STAT_MTBSYNC : Fld := ⟨0x00C, 5, 1⟩
def DDL_STAT_PAIRFLT : Fld := ⟨0x00C, 4, 1⟩
def DDL_STAT_PAIRED : Fld := ⟨0x00C, 3, 1⟩
def DDL_STAT_STATE : Fld := ⟨0x00C, 0, 3⟩
def DDL_IRQ_RAW_MTBSTEP : Fld := ⟨0x010, 6, 1⟩
def DDL_IRQ_RAW_SEALREJ : Fld := ⟨0x010, 5, 1⟩
def DDL_IRQ_RAW_CRCERR : Fld := ⟨0x010, 4, 1⟩
def DDL_IRQ_RAW_REPLAY : Fld := ⟨0x010, 3, 1⟩
def DDL_IRQ_RAW_PAIRFLT : Fld := ⟨0x010, 2, 1⟩
def DDL_IRQ_RAW_LINKUP : Fld := ⟨0x010, 1, 1⟩
def DDL_IRQ_RAW_LINKDOWN : Fld := ⟨0x010, 0, 1⟩
def DDL_ERRCNT_CRCCNT : Fld := ⟨0x040, 16, 16⟩
def DDL_ERRCNT_REPLAYCNT : Fld := ⟨0x040, 0, 16⟩
def DDL_CREDIT_VC3 : Fld := ⟨0x044, 24, 8⟩
def DDL_CREDIT_VC2 : Fld := ⟨0x044, 16, 8⟩
def DDL_CREDIT_VC1 : Fld := ⟨0x044, 8, 8⟩
def DDL_CREDIT_VC0 : Fld := ⟨0x044, 0, 8⟩
def DDL_DOWNCNT_COUNT : Fld := ⟨0x048, 0, 32⟩
def DDL_M_LASTWR_TAG : Fld := ⟨0x04C, 25, 7⟩
def DDL_M_LASTWR_OFFSET : Fld := ⟨0x04C, 0, 12⟩
def DDL_M_LASTPG_PAGE : Fld := ⟨0x050, 0, 5⟩
def DDL_M_DELAY_DELAY : Fld := ⟨0x054, 0, 12⟩
def DDL_M_MTBERR_ERR : Fld := ⟨0x058, 0, 32⟩
def DDL_M_EVQ_LOST : Fld := ⟨0x05C, 16, 16⟩
def DDL_M_EVQ_LEVEL : Fld := ⟨0x05C, 0, 10⟩
def MTB_STAT_LOADED : Fld := ⟨0x00C, 0, 1⟩
def MTB_IRQ_RAW_BTICK : Fld := ⟨0x010, 2, 1⟩
def MTB_IRQ_RAW_CMP1 : Fld := ⟨0x010, 1, 1⟩
def MTB_IRQ_RAW_CMP0 : Fld := ⟨0x010, 0, 1⟩
def MTB_LO_MTB : Fld := ⟨0x040, 0, 32⟩
def MTB_HI_MTB : Fld := ⟨0x044, 0, 32⟩
def MTB_CMP0_LO_CMP : Fld := ⟨0x048, 0, 32⟩
def MTB_CMP0_HI_CMP : Fld := ⟨0x04C, 0, 32⟩
def MTB_CMP1_LO_CMP : Fld := ⟨0x050, 0, 32⟩
def MTB_CMP1_HI_CMP : Fld := ⟨0x054, 0, 32⟩
def MTB_CMPCTRL_EN1 : Fld := ⟨0x058, 1, 1⟩
def MTB_CMPCTRL_EN0 : Fld := ⟨0x058, 0, 1⟩
def SYS_CTRL_MODRST : Fld := ⟨0x008, 0, 1⟩
def SYS_HWTYPE_PRODUCT : Fld := ⟨0x040, 16, 16⟩
def SYS_HWTYPE_VARIANT : Fld := ⟨0x040, 8, 8⟩
def SYS_HWTYPE_DREV : Fld := ⟨0x040, 4, 4⟩
def SYS_HWTYPE_MREV : Fld := ⟨0x040, 0, 4⟩
def SYS_UID_LO_UID : Fld := ⟨0x044, 0, 32⟩
def SYS_UID_HI_UID : Fld := ⟨0x048, 0, 32⟩
def SYS_RSTCAUSE_HALF_W : Fld := ⟨0x04C, 5, 1⟩
def SYS_RSTCAUSE_HALF_E : Fld := ⟨0x04C, 4, 1⟩
def SYS_RSTCAUSE_WDT : Fld := ⟨0x04C, 3, 1⟩
def SYS_RSTCAUSE_SW : Fld := ⟨0x04C, 2, 1⟩
def SYS_RSTCAUSE_PIN : Fld := ⟨0x04C, 1, 1⟩
def SYS_RSTCAUSE_POR : Fld := ⟨0x04C, 0, 1⟩
def SYS_WHOAMI_DOM : Fld := ⟨0x050, 9, 4⟩
def SYS_WHOAMI_SUP : Fld := ⟨0x050, 8, 1⟩
def SYS_WHOAMI_HALF : Fld := ⟨0x050, 6, 1⟩
def SYS_WHOAMI_ENGINE : Fld := ⟨0x050, 0, 6⟩
def MSYS_CTRL_MODRST : Fld := ⟨0x008, 0, 1⟩
def MSYS_RSTCAUSE_WDT : Fld := ⟨0x04C, 3, 1⟩
def MSYS_RSTCAUSE_SW : Fld := ⟨0x04C, 2, 1⟩
def MSYS_RSTCAUSE_PIN : Fld := ⟨0x04C, 1, 1⟩
def MSYS_RSTCAUSE_POR : Fld := ⟨0x04C, 0, 1⟩
def MSYS_STRAP_RECOV : Fld := ⟨0x050, 2, 1⟩
def MSYS_STRAP_PRF_PINEN : Fld := ⟨0x050, 1, 1⟩
def MSYS_STRAP_FAILDIR : Fld := ⟨0x050, 0, 1⟩
def ENG_CTRL_ICINV : Fld := ⟨0x008, 8, 1⟩
def ENG_CTRL_EXCL : Fld := ⟨0x008, 0, 8⟩
def ENG_STAT_GATED : Fld := ⟨0x00C, 24, 1⟩
def ENG_STAT_SUPV : Fld := ⟨0x00C, 16, 8⟩
def ENG_STAT_INJOB : Fld := ⟨0x00C, 8, 8⟩
def ENG_STAT_HUNG : Fld := ⟨0x00C, 0, 8⟩
def ENG_IRQ_RAW_HUNG : Fld := ⟨0x010, 5, 1⟩
def ENG_IRQ_RAW_LDPAR : Fld := ⟨0x010, 4, 1⟩
def ENG_IRQ_RAW_PARITY : Fld := ⟨0x010, 3, 1⟩
def ENG_IRQ_RAW_SOLVCHK : Fld := ⟨0x010, 2, 1⟩
def ENG_IRQ_RAW_INSTERR : Fld := ⟨0x010, 1, 1⟩
def ENG_IRQ_RAW_RESIDUE : Fld := ⟨0x010, 0, 1⟩
def ENG_ERRCNT_RESIDUE : Fld := ⟨0x040, 24, 8⟩
def ENG_ERRCNT_INSTERR : Fld := ⟨0x040, 16, 8⟩
def ENG_ERRCNT_SOLVCHK : Fld := ⟨0x040, 8, 8⟩
def ENG_ERRCNT_PARITY : Fld := ⟨0x040, 0, 8⟩
def ENG_ERRLOC_MASKED : Fld := ⟨0x044, 31, 1⟩
def ENG_ERRLOC_LANE : Fld := ⟨0x044, 28, 3⟩
def ENG_ERRLOC_KIND : Fld := ⟨0x044, 24, 4⟩
def ENG_ERRLOC_WORD : Fld := ⟨0x044, 0, 18⟩
def ENG_ACTIVITY_LANEBUSY : Fld := ⟨0x048, 0, 20⟩
def ENG_SOLVACT_BUSY : Fld := ⟨0x04C, 0, 16⟩
def ENG_SOLVCNT_COUNT : Fld := ⟨0x050, 0, 32⟩
def FAB_CTRL_FAIRMODE : Fld := ⟨0x008, 0, 1⟩
def FAB_STAT_FAIRMODE : Fld := ⟨0x00C, 0, 1⟩
def FAB_IRQ_RAW_SUPVERR : Fld := ⟨0x010, 1, 1⟩
def FAB_IRQ_RAW_ACCERR : Fld := ⟨0x010, 0, 1⟩
def FAB_SUPV_WSEC : Fld := ⟨0x040, 24, 8⟩
def FAB_SUPV_WPRI : Fld := ⟨0x040, 16, 8⟩
def FAB_SUPV_ESEC : Fld := ⟨0x040, 8, 8⟩
def FAB_SUPV_EPRI : Fld := ⟨0x040, 0, 8⟩
def FAB_OBSSEL_LEVEL : Fld := ⟨0x044, 8, 2⟩
def FAB_OBSSEL_ENGINE : Fld := ⟨0x044, 0, 6⟩
def FAB_GRANTCNT_COUNT : Fld := ⟨0x048, 0, 32⟩
def FAB_GRANTTOT_TOTAL : Fld := ⟨0x04C, 0, 32⟩
def FAB_ERRADDR_ADDR : Fld := ⟨0x050, 0, 32⟩
def FAB_ERRSRC_KIND : Fld := ⟨0x054, 13, 3⟩
def FAB_ERRSRC_DOM : Fld := ⟨0x054, 9, 4⟩
def FAB_ERRSRC_SUP : Fld := ⟨0x054, 8, 1⟩
def FAB_ERRSRC_ENGINE : Fld := ⟨0x054, 0, 6⟩
def SCH_CTRL_HOLDW : Fld := ⟨0x008, 2, 1⟩
def SCH_CTRL_HOLDE : Fld := ⟨0x008, 1, 1⟩
def SCH_CTRL_EN : Fld := ⟨0x008, 0, 1⟩
def SCH_STAT_SCANS : Fld := ⟨0x00C, 16, 7⟩
def SCH_STAT_MIGBUSY : Fld := ⟨0x00C, 1, 1⟩
def SCH_STAT_EN : Fld := ⟨0x00C, 0, 1⟩
def SCH_IRQ_RAW_GRAPHERR : Fld := ⟨0x010, 6, 1⟩
def SCH_IRQ_RAW_MIGDONE : Fld := ⟨0x010, 5, 1⟩
def SCH_IRQ_RAW_JOBFAULT : Fld := ⟨0x010, 4, 1⟩
def SCH_IRQ_RAW_SCANFAIL : Fld := ⟨0x010, 3, 1⟩
def SCH_IRQ_RAW_RETRY : Fld := ⟨0x010, 2, 1⟩
def SCH_IRQ_RAW_ABORT : Fld := ⟨0x010, 1, 1⟩
def SCH_IRQ_RAW_SKIP : Fld := ⟨0x010, 0, 1⟩
def SCH_TBASE_BASE : Fld := ⟨0x040, 12, 20⟩
def SCH_BTICK_LO_BTICK : Fld := ⟨0x044, 0, 32⟩
def SCH_BTICK_HI_BTICK : Fld := ⟨0x048, 0, 18⟩
def SCH_ENABLED0_TASKS : Fld := ⟨0x04C, 0, 32⟩
def SCH_ENABLED1_TASKS : Fld := ⟨0x050, 0, 32⟩
def SCH_ACTIVE0_TASKS : Fld := ⟨0x054, 0, 32⟩
def SCH_ACTIVE1_TASKS : Fld := ⟨0x058, 0, 32⟩
def SCH_WEST0_TASKS : Fld := ⟨0x05C, 0, 32⟩
def SCH_WEST1_TASKS : Fld := ⟨0x060, 0, 32⟩
def SCH_MIGPEND0_TASKS : Fld := ⟨0x064, 0, 32⟩
def SCH_MIGPEND1_TASKS : Fld := ⟨0x068, 0, 32⟩
def SCH_FAIL_REASON : Fld := ⟨0x06C, 29, 3⟩
def SCH_FAIL_TASK : Fld := ⟨0x06C, 23, 6⟩
def SCH_FAIL_KIND : Fld := ⟨0x06C, 12, 3⟩
def SCH_FAIL_JOB : Fld := ⟨0x06C, 0, 12⟩
def SCH_CNT_RETRIES : Fld := ⟨0x070, 16, 16⟩
def SCH_CNT_FAILS : Fld := ⟨0x070, 0, 16⟩
def SCH_JOBSUM_JOBS : Fld := ⟨0x074, 0, 15⟩
def TSK_SEL_TASK : Fld := ⟨0x040, 0, 6⟩
def TSK_TSTAT_DOM : Fld := ⟨0x044, 28, 4⟩
def TSK_TSTAT_CLASS : Fld := ⟨0x044, 24, 3⟩
def TSK_TSTAT_POLICY : Fld := ⟨0x044, 8, 1⟩
def TSK_TSTAT_RESTORED : Fld := ⟨0x044, 7, 1⟩
def TSK_TSTAT_PRFCHG : Fld := ⟨0x044, 6, 1⟩
def TSK_TSTAT_MIGRATED : Fld := ⟨0x044, 5, 1⟩
def TSK_TSTAT_FIRST : Fld := ⟨0x044, 4, 1⟩
def TSK_TSTAT_GRAPHERR : Fld := ⟨0x044, 3, 1⟩
def TSK_TSTAT_WEST : Fld := ⟨0x044, 2, 1⟩
def TSK_TSTAT_SCANNING : Fld := ⟨0x044, 1, 1⟩
def TSK_TSTAT_ENABLED : Fld := ⟨0x044, 0, 1⟩
def TSK_NEXT_LO_BTICK : Fld := ⟨0x048, 0, 32⟩
def TSK_NEXT_HI_BTICK : Fld := ⟨0x04C, 0, 18⟩
def TSK_SKIPS_COUNT : Fld := ⟨0x050, 0, 32⟩
def TSK_ABORTS_COUNT : Fld := ⟨0x054, 0, 32⟩
def TSK_RETRIES_COUNT : Fld := ⟨0x058, 0, 32⟩
def TSK_COMMITS_COUNT : Fld := ⟨0x05C, 0, 32⟩
def TSK_LAST_TIME : Fld := ⟨0x060, 0, 32⟩
def TSK_MAX_TIME : Fld := ⟨0x064, 0, 32⟩
def IMG_CTRL_TWIN : Fld := ⟨0x008, 0, 1⟩
def IMG_STAT_CFBUSY : Fld := ⟨0x00C, 0, 8⟩
def IMG_IRQ_RAW_RGNERR : Fld := ⟨0x010, 1, 1⟩
def IMG_IRQ_RAW_SUPWR : Fld := ⟨0x010, 0, 1⟩
def IMG_CLR_GO : Fld := ⟨0x040, 31, 1⟩
def IMG_CLR_REGION : Fld := ⟨0x040, 0, 10⟩
def IMG_COMMITS_COUNT : Fld := ⟨0x044, 0, 32⟩
def IMG_RETAIN_COUNT : Fld := ⟨0x048, 0, 5⟩
def IMG_RGN_SEL1 : Fld := ⟨0x800, 31, 1⟩
def IMG_RGN_RETAIN1 : Fld := ⟨0x800, 27, 1⟩
def IMG_RGN_VALID1 : Fld := ⟨0x800, 26, 1⟩
def IMG_RGN_DOM1 : Fld := ⟨0x800, 22, 4⟩
def IMG_RGN_TASK1 : Fld := ⟨0x800, 16, 6⟩
def IMG_RGN_SEL : Fld := ⟨0x800, 15, 1⟩
def IMG_RGN_RETAIN : Fld := ⟨0x800, 11, 1⟩
def IMG_RGN_VALID : Fld := ⟨0x800, 10, 1⟩
def IMG_RGN_DOM : Fld := ⟨0x800, 6, 4⟩
def IMG_RGN_TASK : Fld := ⟨0x800, 0, 6⟩
def DOM_IRQ_RAW_VIOL : Fld := ⟨0x010, 0, 1⟩
def DOM_PIDX_WORD : Fld := ⟨0x040, 0, 11⟩
def DOM_PDATA_P3 : Fld := ⟨0x044, 24, 8⟩
def DOM_PDATA_P2 : Fld := ⟨0x044, 16, 8⟩
def DOM_PDATA_P1 : Fld := ⟨0x044, 8, 8⟩
def DOM_PDATA_P0 : Fld := ⟨0x044, 0, 8⟩
def DOM_SSET_MASK : Fld := ⟨0x048, 0, 16⟩
def DOM_LASTV_ADDR_ADDR : Fld := ⟨0x064, 0, 32⟩
def DOM_LASTV_SRC_DOM : Fld := ⟨0x068, 26, 4⟩
def DOM_LASTV_SRC_KIND : Fld := ⟨0x068, 23, 3⟩
def DOM_LASTV_SRC_TASK : Fld := ⟨0x068, 17, 6⟩
def DOM_LASTV_SRC_JOB : Fld := ⟨0x068, 0, 12⟩
def DOM_VCNT_COUNT : Fld := ⟨0x06C, 0, 32⟩
def DOM_PGOWN_OWN : Fld := ⟨0x100, 0, 32⟩
def DOM_PGOWNM_OWN : Fld := ⟨0x120, 0, 32⟩
def FB_CTRL_UNMATCHED : Fld := ⟨0x008, 7, 1⟩
def FB_CTRL_AUTOREC : Fld := ⟨0x008, 6, 1⟩
def FB_CTRL_RECOVER : Fld := ⟨0x008, 5, 1⟩
def FB_CTRL_SCHED : Fld := ⟨0x008, 4, 1⟩
def FB_CTRL_ROLE : Fld := ⟨0x008, 3, 1⟩
def FB_CTRL_MODE : Fld := ⟨0x008, 0, 2⟩
def FB_STAT_CYCCNT : Fld := ⟨0x00C, 8, 6⟩
def FB_STAT_BANK : Fld := ⟨0x00C, 7, 1⟩
def FB_STAT_FAILED : Fld := ⟨0x00C, 6, 1⟩
def FB_STAT_ERRSTATE : Fld := ⟨0x00C, 4, 2⟩
def FB_STAT_TSTATE : Fld := ⟨0x00C, 1, 3⟩
def FB_IRQ_RAW_CFGERR : Fld := ⟨0x010, 11, 1⟩
def FB_IRQ_RAW_RINGOVF : Fld := ⟨0x010, 10, 1⟩
def FB_IRQ_RAW_CHOK : Fld := ⟨0x010, 9, 1⟩
def FB_IRQ_RAW_CHFAIL : Fld := ⟨0x010, 8, 1⟩
def FB_IRQ_RAW_SYNCLOST : Fld := ⟨0x010, 7, 1⟩
def FB_IRQ_RAW_REFMISS : Fld := ⟨0x010, 6, 1⟩
def FB_IRQ_RAW_TXSKIP : Fld := ⟨0x010, 5, 1⟩
def FB_IRQ_RAW_TXMISS : Fld := ⟨0x010, 4, 1⟩
def FB_IRQ_RAW_RXMISS : Fld := ⟨0x010, 3, 1⟩
def FB_IRQ_RAW_BUSOFF : Fld := ⟨0x010, 2, 1⟩
def FB_IRQ_RAW_ERRPASS : Fld := ⟨0x010, 1, 1⟩
def FB_IRQ_RAW_CYCLE : Fld := ⟨0x010, 0, 1⟩
def FB_NBT_BRP : Fld := ⟨0x040, 24, 8⟩
def FB_NBT_TSEG1 : Fld := ⟨0x040, 16, 8⟩
def FB_NBT_TSEG2 : Fld := ⟨0x040, 8, 7⟩
def FB_NBT_SJW : Fld := ⟨0x040, 0, 7⟩
def FB_DBT_BRP : Fld := ⟨0x044, 24, 5⟩
def FB_DBT_TSEG1 : Fld := ⟨0x044, 16, 5⟩
def FB_DBT_TSEG2 : Fld := ⟨0x044, 8, 4⟩
def FB_DBT_SJW : Fld := ⟨0x044, 0, 4⟩
def FB_TDC_TDCO : Fld := ⟨0x048, 16, 7⟩
def FB_TDC_TDCEN : Fld := ⟨0x048, 8, 1⟩
def FB_TDC_TDCV : Fld := ⟨0x048, 0, 7⟩
def FB_ERR_LEC : Fld := ⟨0x04C, 24, 3⟩
def FB_ERR_RP : Fld := ⟨0x04C, 15, 1⟩
def FB_ERR_REC : Fld := ⟨0x04C, 8, 7⟩
def FB_ERR_TEC : Fld := ⟨0x04C, 0, 8⟩
def FB_CYCLE_REFLIM : Fld := ⟨0x050, 24, 4⟩
def FB_CYCLE_LOG2NCYC : Fld := ⟨0x050, 16, 3⟩
def FB_CYCLE_CYCLEN : Fld := ⟨0x050, 0, 16⟩
def FB_PHASE_PHASE : Fld := ⟨0x054, 0, 16⟩
def FB_REFID_IDE : Fld := ⟨0x058, 29, 1⟩
def FB_REFID_ID : Fld := ⟨0x058, 0, 29⟩
def FB_ARBGUARD_GUARD : Fld := ⟨0x05C, 0, 16⟩
def FB_CYCSTART_S : Fld := ⟨0x060, 0, 32⟩
def FB_STAMPCOMP_TXCOMP : Fld := ⟨0x064, 8, 8⟩
def FB_STAMPCOMP_RXCOMP : Fld := ⟨0x064, 0, 8⟩
def FB_CNT_RX_COUNT : Fld := ⟨0x068, 0, 32⟩
def FB_CNT_TX_COUNT : Fld := ⟨0x06C, 0, 32⟩
def FB_CNT_LOST_UNMATCHED : Fld := ⟨0x070, 16, 16⟩
def FB_CNT_LOST_RINGOVF : Fld := ⟨0x070, 0, 16⟩
def FB_CNT_MISS_RXMISS : Fld := ⟨0x074, 16, 16⟩
def FB_CNT_MISS_TXMISS : Fld := ⟨0x074, 0, 16⟩
def FBT_CTRL_REDUNDANT : Fld := ⟨0x008, 8, 1⟩
def FBT_CTRL_BANK1 : Fld := ⟨0x008, 1, 1⟩
def FBT_CTRL_BANK0 : Fld := ⟨0x008, 0, 1⟩
def FBT_STAT_REDUNDANT : Fld := ⟨0x00C, 8, 1⟩
def FBT_STAT_ACT1 : Fld := ⟨0x00C, 1, 1⟩
def FBT_STAT_ACT0 : Fld := ⟨0x00C, 0, 1⟩
def FBT_IRQ_RAW_CFGERR : Fld := ⟨0x010, 5, 1⟩
def FBT_IRQ_RAW_REDDIFF : Fld := ⟨0x010, 4, 1⟩
def FBT_IRQ_RAW_WRACT : Fld := ⟨0x010, 3, 1⟩
def FBT_IRQ_RAW_CELLERR : Fld := ⟨0x010, 2, 1⟩
def FBT_IRQ_RAW_BANKSW1 : Fld := ⟨0x010, 1, 1⟩
def FBT_IRQ_RAW_BANKSW0 : Fld := ⟨0x010, 0, 1⟩
def FBT_MIDX_CHAN : Fld := ⟨0x040, 12, 1⟩
def FBT_MIDX_BANK : Fld := ⟨0x040, 11, 1⟩
def FBT_MIDX_CYC : Fld := ⟨0x040, 5, 6⟩
def FBT_MIDX_WIN : Fld := ⟨0x040, 0, 5⟩
def FBT_MDATA_CELL : Fld := ⟨0x044, 0, 32⟩
def FBT_CELLERR_REASON : Fld := ⟨0x048, 16, 3⟩
def FBT_CELLERR_INDEX : Fld := ⟨0x048, 0, 13⟩
def FBT_RFAIL_RFAIL : Fld := ⟨0x04C, 0, 4⟩
def RIO_CTRL_EN : Fld := ⟨0x008, 0, 1⟩
def RIO_STAT_NLOST : Fld := ⟨0x00C, 0, 7⟩
def RIO_IRQ_RAW_CFGERR : Fld := ⟨0x010, 4, 1⟩
def RIO_IRQ_RAW_SEQERR : Fld := ⟨0x010, 3, 1⟩
def RIO_IRQ_RAW_UNCONF : Fld := ⟨0x010, 2, 1⟩
def RIO_IRQ_RAW_REJOIN : Fld := ⟨0x010, 1, 1⟩
def RIO_IRQ_RAW_LOST : Fld := ⟨0x010, 0, 1⟩
def RIO_SIDX_STN : Fld := ⟨0x040, 0, 7⟩
def RIO_SCFG_EN : Fld := ⟨0x044, 31, 1⟩
def RIO_SCFG_DOM : Fld := ⟨0x044, 27, 4⟩
def RIO_SCFG_STALE_LIMIT : Fld := ⟨0x044, 23, 4⟩
def RIO_SCFG_INFR : Fld := ⟨0x044, 20, 3⟩
def RIO_SCFG_ONFR : Fld := ⟨0x044, 17, 3⟩
def RIO_SCFG_OLAST : Fld := ⟨0x044, 7, 7⟩
def RIO_SCFG_ILAST : Fld := ⟨0x044, 0, 7⟩
def RIO_SIOBJ_OBJ3 : Fld := ⟨0x048, 24, 8⟩
def RIO_SIOBJ_OBJ2 : Fld := ⟨0x048, 16, 8⟩
def RIO_SIOBJ_OBJ1 : Fld := ⟨0x048, 8, 8⟩
def RIO_SIOBJ_OBJ0 : Fld := ⟨0x048, 0, 8⟩
def RIO_SOOBJ_OBJ3 : Fld := ⟨0x04C, 24, 8⟩
def RIO_SOOBJ_OBJ2 : Fld := ⟨0x04C, 16, 8⟩
def RIO_SOOBJ_OBJ1 : Fld := ⟨0x04C, 8, 8⟩
def RIO_SOOBJ_OBJ0 : Fld := ⟨0x04C, 0, 8⟩
def RIO_SIBASE_BASE : Fld := ⟨0x050, 4, 28⟩
def RIO_SOBASE_BASE : Fld := ⟨0x054, 4, 28⟩
def RIO_SSTAT_ECHO : Fld := ⟨0x058, 24, 8⟩
def RIO_SSTAT_ISEQ : Fld := ⟨0x058, 16, 8⟩
def RIO_SSTAT_AGE : Fld := ⟨0x058, 8, 8⟩
def RIO_SSTAT_CFGERR : Fld := ⟨0x058, 5, 1⟩
def RIO_SSTAT_OUT_UNCONFIRMED : Fld := ⟨0x058, 4, 1⟩
def RIO_SSTAT_REJOINED : Fld := ⟨0x058, 3, 1⟩
def RIO_SSTAT_LOST : Fld := ⟨0x058, 2, 1⟩
def RIO_SSTAT_STALE : Fld := ⟨0x058, 1, 1⟩
def RIO_SSTAT_VALID : Fld := ⟨0x058, 0, 1⟩
def RIO_SCNT_MISSES : Fld := ⟨0x05C, 16, 16⟩
def RIO_SCNT_SEQERRS : Fld := ⟨0x05C, 0, 16⟩
def RIO_LOST_STN : Fld := ⟨0x060, 0, 32⟩
def AIO_CTRL_IMGEN : Fld := ⟨0x008, 0, 1⟩
def AIO_STAT_FAILDIR : Fld := ⟨0x00C, 2, 1⟩
def AIO_STAT_FIELDLOW : Fld := ⟨0x00C, 1, 1⟩
def AIO_STAT_IMGEN : Fld := ⟨0x00C, 0, 1⟩
def AIO_IRQ_RAW_IMGERR : Fld := ⟨0x010, 2, 1⟩
def AIO_IRQ_RAW_FIELDLOW : Fld := ⟨0x010, 1, 1⟩
def AIO_IRQ_RAW_BUDGET : Fld := ⟨0x010, 0, 1⟩
def AIO_GCTRL_FAILDIR : Fld := ⟨0x040, 1, 1⟩
def AIO_GCTRL_FAILSRC : Fld := ⟨0x040, 0, 1⟩
def AIO_INBASE_BASE : Fld := ⟨0x044, 4, 28⟩
def AIO_OUTBASE_BASE : Fld := ⟨0x048, 4, 28⟩
def AIO_ALMLO_LEVEL : Fld := ⟨0x04C, 0, 16⟩
def AIO_ALMHI_LEVEL : Fld := ⟨0x050, 0, 16⟩
def AIO_FIELD_RESV : Fld := ⟨0x054, 16, 16⟩
def AIO_FIELD_VOLT : Fld := ⟨0x054, 0, 16⟩
def AIOC_STAT_COMPL : Fld := ⟨0x00C, 8, 8⟩
def AIOC_STAT_FAULT : Fld := ⟨0x00C, 0, 8⟩
def AIOC_IRQ_RAW_FLAGS : Fld := ⟨0x010, 0, 32⟩
def AIOC_CFG_FAULTACT : Fld := ⟨0x040, 9, 2⟩
def AIOC_CFG_OPENDET : Fld := ⟨0x040, 8, 1⟩
def AIOC_CFG_FILT : Fld := ⟨0x040, 7, 1⟩
def AIOC_CFG_RANGE : Fld := ⟨0x040, 5, 2⟩
def AIOC_CFG_HARTRES : Fld := ⟨0x040, 4, 1⟩
def AIOC_CFG_LOOPPWR : Fld := ⟨0x040, 3, 1⟩
def AIOC_CFG_MODE : Fld := ⟨0x040, 0, 3⟩
def AIOC_STS_TICK : Fld := ⟨0x044, 24, 8⟩
def AIOC_STS_CLASS : Fld := ⟨0x044, 16, 3⟩
def AIOC_STS_SETTLE : Fld := ⟨0x044, 15, 1⟩
def AIOC_STS_REFUSED : Fld := ⟨0x044, 14, 1⟩
def AIOC_STS_HELD : Fld := ⟨0x044, 13, 1⟩
def AIOC_STS_SAFEOUT : Fld := ⟨0x044, 12, 1⟩
def AIOC_STS_ALARMOUT : Fld := ⟨0x044, 11, 1⟩
def AIOC_STS_NEWVAL : Fld := ⟨0x044, 10, 1⟩
def AIOC_STS_CMDCLAMP : Fld := ⟨0x044, 7, 1⟩
def AIOC_STS_MISWIRE : Fld := ⟨0x044, 6, 1⟩
def AIOC_STS_RBERR : Fld := ⟨0x044, 5, 1⟩
def AIOC_STS_COMPLIANCE : Fld := ⟨0x044, 4, 1⟩
def AIOC_STS_OVERLOAD : Fld := ⟨0x044, 3, 1⟩
def AIOC_STS_SHORT : Fld := ⟨0x044, 2, 1⟩
def AIOC_STS_OPEN : Fld := ⟨0x044, 1, 1⟩
def AIOC_STS_VALID : Fld := ⟨0x044, 0, 1⟩
def AIOC_VAL_VALUE : Fld := ⟨0x048, 0, 32⟩
def AIOC_RAW_RAW : Fld := ⟨0x04C, 0, 32⟩
def AIOC_AUX_AUX : Fld := ⟨0x050, 0, 32⟩
def AIOC_OFFS_OFFS : Fld := ⟨0x054, 0, 32⟩
def AIOC_SAFE_SAFE : Fld := ⟨0x058, 0, 32⟩
def DIO_CTRL_IMGEN : Fld := ⟨0x008, 0, 1⟩
def DIO_STAT_ANYLIMIT : Fld := ⟨0x00C, 1, 1⟩
def DIO_STAT_IMGEN : Fld := ⟨0x00C, 0, 1⟩
def DIO_IRQ_RAW_IMGERR : Fld := ⟨0x010, 2, 1⟩
def DIO_IRQ_RAW_DOLIM : Fld := ⟨0x010, 1, 1⟩
def DIO_IRQ_RAW_DICHG : Fld := ⟨0x010, 0, 1⟩
def DIO_INBASE_BASE : Fld := ⟨0x040, 4, 28⟩
def DIO_OUTBASE_BASE : Fld := ⟨0x044, 4, 28⟩
def DIO_DI_LO_STATE : Fld := ⟨0x048, 0, 32⟩
def DIO_DI_HI_TICK : Fld := ⟨0x04C, 24, 8⟩
def DIO_DI_HI_STATE : Fld := ⟨0x04C, 0, 16⟩
def DIO_DO_DRIVEN : Fld := ⟨0x050, 0, 24⟩
def DIO_DOLIM_LIMIT : Fld := ⟨0x054, 0, 24⟩
def DIO_DIMASK_LO_MASK : Fld := ⟨0x058, 0, 32⟩
def DIO_DIMASK_HI_MASK : Fld := ⟨0x05C, 0, 32⟩
def DIO_DOTRIPS_COUNT : Fld := ⟨0x060, 0, 16⟩
def HRT_CTRL_EN : Fld := ⟨0x008, 0, 1⟩
def HRT_STAT_ACTIVE : Fld := ⟨0x00C, 0, 32⟩
def HRT_IRQ_RAW_CFGERR : Fld := ⟨0x010, 4, 1⟩
def HRT_IRQ_RAW_SUPPR : Fld := ⟨0x010, 3, 1⟩
def HRT_IRQ_RAW_TIMEOUT : Fld := ⟨0x010, 2, 1⟩
def HRT_IRQ_RAW_RXERR : Fld := ⟨0x010, 1, 1⟩
def HRT_IRQ_RAW_RESLOST : Fld := ⟨0x010, 0, 1⟩
def HRT_TIMEOUT_STO : Fld := ⟨0x040, 16, 16⟩
def HRT_TIMEOUT_RTO : Fld := ⟨0x040, 0, 16⟩
def HRT_QUIET_QUIETS : Fld := ⟨0x044, 16, 16⟩
def HRT_QUIET_QUIETP : Fld := ⟨0x044, 0, 16⟩
def HRT_POLLINT_INT : Fld := ⟨0x048, 0, 16⟩
def HRT_BUSY_BUSY : Fld := ⟨0x04C, 0, 32⟩
def HRT_CNT_TIMEOUTS : Fld := ⟨0x050, 16, 16⟩
def HRT_CNT_RXERRS : Fld := ⟨0x050, 0, 16⟩
def HRT_LOSTCNT_LATE : Fld := ⟨0x054, 16, 16⟩
def HRT_LOSTCNT_LOST : Fld := ⟨0x054, 0, 16⟩
def MTV_CTRL_COMMIT : Fld := ⟨0x008, 2, 1⟩
def MTV_CTRL_FNOM : Fld := ⟨0x008, 1, 1⟩
def MTV_CTRL_EN : Fld := ⟨0x008, 0, 1⟩
def MTV_STAT_RESTOLD : Fld := ⟨0x00C, 3, 1⟩
def MTV_STAT_RESTORED : Fld := ⟨0x00C, 2, 1⟩
def MTV_STAT_SEEDED : Fld := ⟨0x00C, 1, 1⟩
def MTV_STAT_RUN : Fld := ⟨0x00C, 0, 1⟩
def MTV_IRQ_RAW_CFGERR : Fld := ⟨0x010, 5, 1⟩
def MTV_IRQ_RAW_COMMITDONE : Fld := ⟨0x010, 4, 1⟩
def MTV_IRQ_RAW_FREQERR : Fld := ⟨0x010, 3, 1⟩
def MTV_IRQ_RAW_VLOSS : Fld := ⟨0x010, 2, 1⟩
def MTV_IRQ_RAW_STUCK : Fld := ⟨0x010, 1, 1⟩
def MTV_IRQ_RAW_CLIP : Fld := ⟨0x010, 0, 1⟩
def MTV_CH_STUCK : Fld := ⟨0x040, 15, 1⟩
def MTV_CH_CLIP : Fld := ⟨0x040, 14, 1⟩
def MTV_CH_DELAY : Fld := ⟨0x040, 0, 12⟩
def MTV_FCFG_EN : Fld := ⟨0x0C0, 31, 1⟩
def MTV_FCFG_DOM : Fld := ⟨0x0C0, 8, 4⟩
def MTV_FCFG_REFPH : Fld := ⟨0x0C0, 4, 2⟩
def MTV_FCFG_VSET : Fld := ⟨0x0C0, 3, 1⟩
def MTV_FCFG_PHEN : Fld := ⟨0x0C0, 0, 3⟩
def MTR_CTRL_IMGEN : Fld := ⟨0x008, 0, 1⟩
def MTR_STAT_IMGEN : Fld := ⟨0x00C, 0, 1⟩
def MTR_IRQ_RAW_IMGGAP : Fld := ⟨0x010, 1, 1⟩
def MTR_IRQ_RAW_WINDOW : Fld := ⟨0x010, 0, 1⟩
def MTR_IMGBASE_BASE : Fld := ⟨0x040, 4, 28⟩
def MTR_RMS_RMS : Fld := ⟨0x080, 0, 32⟩
def MTR_FSTAT_NCYC : Fld := ⟨0x100, 16, 8⟩
def MTR_FSTAT_REF : Fld := ⟨0x100, 8, 2⟩
def MTR_FSTAT_VALID : Fld := ⟨0x100, 7, 1⟩
def MTR_FSTAT_FORCED : Fld := ⟨0x100, 6, 1⟩
def MTR_FSTAT_VLOSS : Fld := ⟨0x100, 5, 1⟩
def MTR_FSTAT_FREQERR : Fld := ⟨0x100, 4, 1⟩
def MTR_FSTAT_CHFAULT : Fld := ⟨0x100, 3, 1⟩
def MTR_FSTAT_CLIP : Fld := ⟨0x100, 2, 1⟩
def MTR_FSTAT_CALCHG : Fld := ⟨0x100, 1, 1⟩
def MTE_CTRL_SAVE : Fld := ⟨0x008, 0, 1⟩
def MTE_STAT_SAVEBUSY : Fld := ⟨0x00C, 0, 1⟩
def MTE_IRQ_RAW_CLEARED : Fld := ⟨0x010, 3, 1⟩
def MTE_IRQ_RAW_DEMAND : Fld := ⟨0x010, 2, 1⟩
def MTE_IRQ_RAW_SAVEERR : Fld := ⟨0x010, 1, 1⟩
def MTE_IRQ_RAW_WRAP : Fld := ⟨0x010, 0, 1⟩
def MTE_FCFG_LSB : Fld := ⟨0x040, 0, 3⟩
def MTE_SAVE_MIN : Fld := ⟨0x060, 0, 6⟩
def MTE_DCFG_PARTMAX : Fld := ⟨0x064, 8, 1⟩
def MTE_DCFG_DINT : Fld := ⟨0x064, 0, 6⟩
def MTE_CLR_GO : Fld := ⟨0x068, 31, 1⟩
def MTE_CLR_FEEDER : Fld := ⟨0x068, 0, 3⟩
def MTE_DSTAT_COUNT : Fld := ⟨0x318, 16, 16⟩
def MTE_DSTAT_PARTIAL : Fld := ⟨0x318, 0, 1⟩
def PLS_STAT_ON : Fld := ⟨0x00C, 8, 8⟩
def PLS_STAT_OVF : Fld := ⟨0x00C, 0, 8⟩
def PLS_IRQ_RAW_OVF : Fld := ⟨0x010, 0, 8⟩
def SER_CTRL_EN : Fld := ⟨0x008, 0, 1⟩
def SER_STAT_RXBUSY : Fld := ⟨0x00C, 2, 1⟩
def SER_STAT_TXBUSY : Fld := ⟨0x00C, 1, 1⟩
def SER_STAT_EN : Fld := ⟨0x00C, 0, 1⟩
def SER_IRQ_RAW_RINGOVF : Fld := ⟨0x010, 3, 1⟩
def SER_IRQ_RAW_TIMEOUT : Fld := ⟨0x010, 2, 1⟩
def SER_IRQ_RAW_FRAMEERR : Fld := ⟨0x010, 1, 1⟩
def SER_IRQ_RAW_RXFRAME : Fld := ⟨0x010, 0, 1⟩
def SER_CFG_ADDR : Fld := ⟨0x040, 24, 8⟩
def SER_CFG_ROLE : Fld := ⟨0x040, 7, 1⟩
def SER_CFG_OSDPMARK : Fld := ⟨0x040, 6, 1⟩
def SER_CFG_MODE : Fld := ⟨0x040, 4, 2⟩
def SER_CFG_PARITY : Fld := ⟨0x040, 2, 2⟩
def SER_CFG_STOP2 : Fld := ⟨0x040, 1, 1⟩
def SER_CFG_DATA7 : Fld := ⟨0x040, 0, 1⟩
def SER_BAUD_DIV : Fld := ⟨0x044, 0, 22⟩
def SER_TIMER_RESPTO : Fld := ⟨0x048, 16, 16⟩
def SER_TIMER_TURN : Fld := ⟨0x048, 8, 8⟩
def SER_TIMER_GAP : Fld := ⟨0x048, 0, 8⟩
def SER_CNT_ERRS : Fld := ⟨0x04C, 16, 16⟩
def SER_CNT_RINGOVF : Fld := ⟨0x04C, 0, 16⟩
def SVC_CTRL_EN : Fld := ⟨0x008, 0, 1⟩
def SVC_STAT_RXLEVEL : Fld := ⟨0x00C, 8, 8⟩
def SVC_STAT_TXFREE : Fld := ⟨0x00C, 0, 8⟩
def SVC_IRQ_RAW_OVERRUN : Fld := ⟨0x010, 2, 1⟩
def SVC_IRQ_RAW_RXDATA : Fld := ⟨0x010, 1, 1⟩
def SVC_IRQ_RAW_TXEMPTY : Fld := ⟨0x010, 0, 1⟩
def SVC_TXD_DATA : Fld := ⟨0x048, 0, 8⟩
def SVC_RXD_VALID : Fld := ⟨0x04C, 8, 1⟩
def SVC_RXD_DATA : Fld := ⟨0x04C, 0, 8⟩
def ETH_CTRL_P2EN : Fld := ⟨0x008, 1, 1⟩
def ETH_CTRL_P1EN : Fld := ⟨0x008, 0, 1⟩
def ETH_STAT_LINK2 : Fld := ⟨0x00C, 7, 1⟩
def ETH_STAT_FDX2 : Fld := ⟨0x00C, 6, 1⟩
def ETH_STAT_SPEED2 : Fld := ⟨0x00C, 4, 2⟩
def ETH_STAT_LINK1 : Fld := ⟨0x00C, 3, 1⟩
def ETH_STAT_FDX1 : Fld := ⟨0x00C, 2, 1⟩
def ETH_STAT_SPEED1 : Fld := ⟨0x00C, 0, 2⟩
def ETH_IRQ_RAW_TSLOST : Fld := ⟨0x010, 3, 1⟩
def ETH_IRQ_RAW_RXDROP : Fld := ⟨0x010, 2, 1⟩
def ETH_IRQ_RAW_LINKCHG2 : Fld := ⟨0x010, 1, 1⟩
def ETH_IRQ_RAW_LINKCHG1 : Fld := ⟨0x010, 0, 1⟩
def ETH_TXTS_TAG_VALID : Fld := ⟨0x040, 31, 1⟩
def ETH_TXTS_TAG_PORT : Fld := ⟨0x040, 16, 2⟩
def ETH_TXTS_TAG_TAG : Fld := ⟨0x040, 0, 16⟩
def ETH_TXTS_LO_MTB : Fld := ⟨0x044, 0, 32⟩
def ETH_TXTS_HI_MTB : Fld := ⟨0x048, 0, 32⟩
def ETH_CNT_RXDROP : Fld := ⟨0x04C, 16, 16⟩
def ETH_CNT_TXDROP : Fld := ⟨0x04C, 0, 16⟩
def ESW_CTRL_EN : Fld := ⟨0x008, 0, 1⟩
def ESW_IRQ_RAW_CFGERR : Fld := ⟨0x010, 2, 1⟩
def ESW_IRQ_RAW_VIDERR : Fld := ⟨0x010, 1, 1⟩
def ESW_IRQ_RAW_UNKNOWN : Fld := ⟨0x010, 0, 1⟩
def ESW_PVID_PVID2 : Fld := ⟨0x040, 16, 12⟩
def ESW_PVID_PVID1 : Fld := ⟨0x040, 0, 12⟩
def ESW_VLAN_VALID : Fld := ⟨0x080, 31, 1⟩
def ESW_VLAN_MEMBERS : Fld := ⟨0x080, 12, 3⟩
def ESW_VLAN_VID : Fld := ⟨0x080, 0, 12⟩
def CHR_STAT_CORRLOAD : Fld := ⟨0x00C, 5, 1⟩
def CHR_STAT_ONVBAT : Fld := ⟨0x00C, 4, 1⟩
def CHR_STAT_VBATLOW : Fld := ⟨0x00C, 3, 1⟩
def CHR_STAT_FALLBACK : Fld := ⟨0x00C, 2, 1⟩
def CHR_STAT_WBUSY : Fld := ⟨0x00C, 1, 1⟩
def CHR_STAT_VALID : Fld := ⟨0x00C, 0, 1⟩
def CHR_IRQ_RAW_VBATLOW : Fld := ⟨0x010, 6, 1⟩
def CHR_IRQ_RAW_OSCFAIL : Fld := ⟨0x010, 5, 1⟩
def CHR_IRQ_RAW_WERR : Fld := ⟨0x010, 4, 1⟩
def CHR_IRQ_RAW_SKIP1 : Fld := ⟨0x010, 3, 1⟩
def CHR_IRQ_RAW_SKIP0 : Fld := ⟨0x010, 2, 1⟩
def CHR_IRQ_RAW_ALM1 : Fld := ⟨0x010, 1, 1⟩
def CHR_IRQ_RAW_ALM0 : Fld := ⟨0x010, 0, 1⟩
def CHR_SEC_HI_SETHI : Fld := ⟨0x040, 8, 1⟩
def CHR_SEC_HI_SEC32 : Fld := ⟨0x040, 0, 1⟩
def CHR_SEC_LO_SEC : Fld := ⟨0x044, 0, 32⟩
def CHR_SUBSEC_SUBSEC : Fld := ⟨0x048, 0, 15⟩
def CHR_CORR_LO_MTB : Fld := ⟨0x04C, 0, 32⟩
def CHR_CORR_HI_MTB : Fld := ⟨0x050, 0, 32⟩
def CHR_CORR_SEC_SEC : Fld := ⟨0x054, 0, 32⟩
def CHR_OPSEC_OPSEC : Fld := ⟨0x058, 0, 32⟩
def CHR_OPFRAC_PEND : Fld := ⟨0x05C, 16, 16⟩
def CHR_OPFRAC_FRAC : Fld := ⟨0x05C, 0, 16⟩
def CHR_PWRCYC_COUNT : Fld := ⟨0x060, 0, 32⟩
def CHR_BOOTFAIL_COUNT : Fld := ⟨0x064, 0, 3⟩
def NVM_CTRL_COMPACT : Fld := ⟨0x008, 0, 1⟩
def NVM_STAT_DUPSEQ : Fld := ⟨0x00C, 4, 1⟩
def NVM_STAT_COMPACTING : Fld := ⟨0x00C, 3, 1⟩
def NVM_STAT_WAITENERGY : Fld := ⟨0x00C, 2, 1⟩
def NVM_STAT_BUSY : Fld := ⟨0x00C, 1, 1⟩
def NVM_STAT_READY : Fld := ⟨0x00C, 0, 1⟩
def NVM_IRQ_RAW_REFUSED : Fld := ⟨0x010, 5, 1⟩
def NVM_IRQ_RAW_DUPGEN : Fld := ⟨0x010, 4, 1⟩
def NVM_IRQ_RAW_DUPSEQ : Fld := ⟨0x010, 3, 1⟩
def NVM_IRQ_RAW_DED : Fld := ⟨0x010, 2, 1⟩
def NVM_IRQ_RAW_SEC : Fld := ⟨0x010, 1, 1⟩
def NVM_IRQ_RAW_DONE : Fld := ⟨0x010, 0, 1⟩
def NVM_CMD_GO : Fld := ⟨0x040, 31, 1⟩
def NVM_CMD_OP : Fld := ⟨0x040, 28, 3⟩
def NVM_CMD_OFFSET : Fld := ⟨0x040, 20, 8⟩
def NVM_CMD_LEN : Fld := ⟨0x040, 11, 9⟩
def NVM_CMD_PAGE : Fld := ⟨0x040, 0, 9⟩
def NVM_RES_STATUS : Fld := ⟨0x044, 24, 8⟩
def NVM_RES_SEQ : Fld := ⟨0x044, 0, 24⟩
def NVM_RAWADDR_ADDR : Fld := ⟨0x048, 0, 21⟩
def NVM_SECT_HEAD : Fld := ⟨0x04C, 16, 8⟩
def NVM_SECT_ERASED : Fld := ⟨0x04C, 0, 9⟩
def NVM_NEXTSEQ_SEQ : Fld := ⟨0x050, 0, 24⟩
def NVM_ECCCNT_SEC : Fld := ⟨0x054, 16, 16⟩
def NVM_ECCCNT_DED : Fld := ⟨0x054, 0, 16⟩
def NVM_ERRADDR_DED : Fld := ⟨0x058, 31, 1⟩
def NVM_ERRADDR_ADDR : Fld := ⟨0x058, 0, 21⟩
def NVM_CMDCNT_COUNT : Fld := ⟨0x05C, 0, 32⟩
def NVM_BUF_DATA : Fld := ⟨0x100, 0, 32⟩
def NCT_STAT_BUSY : Fld := ⟨0x00C, 16, 1⟩
def NCT_STAT_PEND : Fld := ⟨0x00C, 8, 8⟩
def NCT_STAT_SAT : Fld := ⟨0x00C, 0, 8⟩
def NCT_IRQ_RAW_TORN : Fld := ⟨0x010, 2, 1⟩
def NCT_IRQ_RAW_REFUSED : Fld := ⟨0x010, 1, 1⟩
def NCT_IRQ_RAW_DONE : Fld := ⟨0x010, 0, 1⟩
def NCT_CMD_GO : Fld := ⟨0x040, 31, 1⟩
def NCT_CMD_OP : Fld := ⟨0x040, 28, 1⟩
def NCT_CMD_COUNTER : Fld := ⟨0x040, 0, 3⟩
def NCT_ARG_VALUE : Fld := ⟨0x044, 0, 32⟩
def NCT_CMDCNT_COUNT : Fld := ⟨0x048, 0, 32⟩
def NCT_VAL_VALUE : Fld := ⟨0x080, 0, 32⟩
def NCT_GEN_GEN : Fld := ⟨0x0A0, 0, 32⟩
def EVR_STAT_QLEVEL : Fld := ⟨0x00C, 2, 6⟩
def EVR_STAT_CLEARING : Fld := ⟨0x00C, 1, 1⟩
def EVR_STAT_READY : Fld := ⟨0x00C, 0, 1⟩
def EVR_IRQ_RAW_REFUSED : Fld := ⟨0x010, 4, 1⟩
def EVR_IRQ_RAW_CLEARED : Fld := ⟨0x010, 3, 1⟩
def EVR_IRQ_RAW_LOST : Fld := ⟨0x010, 2, 1⟩
def EVR_IRQ_RAW_BADCRC : Fld := ⟨0x010, 1, 1⟩
def EVR_IRQ_RAW_RDONE : Fld := ⟨0x010, 0, 1⟩
def EVR_RCMD_GO : Fld := ⟨0x040, 31, 1⟩
def EVR_RCMD_OP : Fld := ⟨0x040, 16, 2⟩
def EVR_RCMD_RSLOT : Fld := ⟨0x040, 0, 13⟩
def EVR_RFILT_FEN : Fld := ⟨0x044, 4, 1⟩
def EVR_RFILT_FDOM : Fld := ⟨0x044, 0, 4⟩
def EVR_RSTAT_VALID : Fld := ⟨0x048, 31, 1⟩
def EVR_RSTAT_BADCRC : Fld := ⟨0x048, 30, 1⟩
def EVR_RSTAT_END : Fld := ⟨0x048, 29, 1⟩
def EVR_RSTAT_SLOT : Fld := ⟨0x048, 0, 13⟩
def EVR_COUNT_COUNT : Fld := ⟨0x04C, 0, 14⟩
def EVR_LOST_COUNT : Fld := ⟨0x050, 0, 16⟩
def EVR_BADCNT_COUNT : Fld := ⟨0x054, 0, 16⟩
def EVR_MSEQ_MSEQ : Fld := ⟨0x058, 0, 32⟩
def EVR_CLR_GO : Fld := ⟨0x05C, 31, 1⟩
def EVR_CLR_STATUS : Fld := ⟨0x05C, 0, 2⟩
def EVR_RDATA_DATA : Fld := ⟨0x060, 0, 32⟩
def EVR_MSG_DATA : Fld := ⟨0x200, 0, 32⟩
def KEY_STAT_WAITENERGY : Fld := ⟨0x00C, 2, 1⟩
def KEY_STAT_BUSY : Fld := ⟨0x00C, 1, 1⟩
def KEY_STAT_READY : Fld := ⟨0x00C, 0, 1⟩
def KEY_IRQ_RAW_EXPIRED : Fld := ⟨0x010, 4, 1⟩
def KEY_IRQ_RAW_LIMIT : Fld := ⟨0x010, 3, 1⟩
def KEY_IRQ_RAW_TAGFAIL : Fld := ⟨0x010, 2, 1⟩
def KEY_IRQ_RAW_UREFUSED : Fld := ⟨0x010, 1, 1⟩
def KEY_IRQ_RAW_UDONE : Fld := ⟨0x010, 0, 1⟩
def KEY_UCMD_GO : Fld := ⟨0x040, 31, 1⟩
def KEY_URES_STATUS : Fld := ⟨0x044, 24, 8⟩
def KEY_URES_SLOT : Fld := ⟨0x044, 0, 5⟩
def KEY_SIDX_SLOT : Fld := ⟨0x048, 0, 5⟩
def KEY_SATTR_TAGOK : Fld := ⟨0x04C, 31, 1⟩
def KEY_SATTR_EXPIRED : Fld := ⟨0x04C, 30, 1⟩
def KEY_SATTR_EXPRST : Fld := ⟨0x04C, 29, 1⟩
def KEY_SATTR_DOM : Fld := ⟨0x04C, 25, 4⟩
def KEY_SATTR_USES : Fld := ⟨0x04C, 16, 9⟩
def KEY_SATTR_LIMIT : Fld := ⟨0x04C, 8, 8⟩
def KEY_SATTR_TYPE : Fld := ⟨0x04C, 0, 3⟩
def KEY_SUSE_USED : Fld := ⟨0x050, 0, 8⟩
def KEY_SCTR_COUNTER : Fld := ⟨0x054, 0, 32⟩
def KEY_MSG_DATA : Fld := ⟨0x800, 0, 32⟩
def CRY_CTRL_EN : Fld := ⟨0x008, 0, 1⟩
def CRY_STAT_STAGED : Fld := ⟨0x00C, 16, 5⟩
def CRY_STAT_WBUSY : Fld := ⟨0x00C, 2, 1⟩
def CRY_STAT_PKBUSY : Fld := ⟨0x00C, 1, 1⟩
def CRY_STAT_SYMBUSY : Fld := ⟨0x00C, 0, 1⟩
def CRY_IRQ_RAW_DOMAIN : Fld := ⟨0x010, 4, 1⟩
def CRY_IRQ_RAW_WERR : Fld := ⟨0x010, 3, 1⟩
def CRY_IRQ_RAW_WDONE : Fld := ⟨0x010, 2, 1⟩
def CRY_IRQ_RAW_JOBERR : Fld := ⟨0x010, 1, 1⟩
def CRY_IRQ_RAW_JOBDONE : Fld := ⟨0x010, 0, 1⟩
def CRY_WCMD_GO : Fld := ⟨0x040, 31, 1⟩
def CRY_WCMD_OP : Fld := ⟨0x040, 24, 3⟩
def CRY_WCMD_WSLOT : Fld := ⟨0x040, 8, 6⟩
def CRY_WCMD_VSLOT : Fld := ⟨0x040, 0, 5⟩
def CRY_WARG_ADDR : Fld := ⟨0x044, 0, 32⟩
def CRY_WATTR_DOM : Fld := ⟨0x048, 25, 4⟩
def CRY_WATTR_USES : Fld := ⟨0x048, 16, 9⟩
def CRY_WATTR_TYPE : Fld := ⟨0x048, 0, 3⟩
def CRY_WRES_STATUS : Fld := ⟨0x04C, 24, 8⟩
def CRY_WRES_WSLOT : Fld := ⟨0x04C, 0, 6⟩
def CRY_WSIDX_SLOT : Fld := ⟨0x050, 0, 6⟩
def CRY_WSATTR_VALID : Fld := ⟨0x054, 31, 1⟩
def CRY_WSATTR_SOURCE : Fld := ⟨0x054, 29, 2⟩
def CRY_WSATTR_DOM : Fld := ⟨0x054, 25, 4⟩
def CRY_WSATTR_USES : Fld := ⟨0x054, 16, 9⟩
def CRY_WSATTR_VSLOT : Fld := ⟨0x054, 8, 5⟩
def CRY_WSATTR_TYPE : Fld := ⟨0x054, 0, 3⟩
def CRY_CNT_JOBS : Fld := ⟨0x058, 16, 16⟩
def CRY_CNT_ERRS : Fld := ⟨0x058, 0, 16⟩
def CRY_IMPORT_DATA : Fld := ⟨0x080, 0, 32⟩
def BOOT_CTRL_DRESTART : Fld := ⟨0x008, 0, 1⟩
def BOOT_STAT_RCAUSE : Fld := ⟨0x00C, 11, 3⟩
def BOOT_STAT_CAUSE : Fld := ⟨0x00C, 9, 2⟩
def BOOT_STAT_WSTATE : Fld := ⟨0x00C, 4, 4⟩
def BOOT_STAT_ESTATE : Fld := ⟨0x00C, 0, 4⟩
def BOOT_IRQ_RAW_CFGERR : Fld := ⟨0x010, 4, 1⟩
def BOOT_IRQ_RAW_FALLW : Fld := ⟨0x010, 3, 1⟩
def BOOT_IRQ_RAW_FALLE : Fld := ⟨0x010, 2, 1⟩
def BOOT_IRQ_RAW_DONEW : Fld := ⟨0x010, 1, 1⟩
def BOOT_IRQ_RAW_DONEE : Fld := ⟨0x010, 0, 1⟩
def BOOT_HBOOT_GO : Fld := ⟨0x040, 31, 1⟩
def BOOT_HBOOT_HALF : Fld := ⟨0x040, 8, 1⟩
def BOOT_HBOOT_SLOT : Fld := ⟨0x040, 0, 1⟩
def XFL_STAT_BUSY : Fld := ⟨0x00C, 0, 1⟩
def XFL_IRQ_RAW_REFUSED : Fld := ⟨0x010, 2, 1⟩
def XFL_IRQ_RAW_NORERR : Fld := ⟨0x010, 1, 1⟩
def XFL_IRQ_RAW_DONE : Fld := ⟨0x010, 0, 1⟩
def XFL_CMD_GO : Fld := ⟨0x040, 31, 1⟩
def XFL_CMD_OP : Fld := ⟨0x040, 28, 3⟩
def XFL_ADDR_VALUE : Fld := ⟨0x044, 0, 32⟩
def XFL_LEN_VALUE : Fld := ⟨0x048, 0, 32⟩
def XFL_SRC_VALUE : Fld := ⟨0x04C, 0, 32⟩
def XFL_RES_STATUS : Fld := ⟨0x050, 0, 8⟩
def XFL_PROT_B : Fld := ⟨0x054, 1, 1⟩
def XFL_PROT_A : Fld := ⟨0x054, 0, 1⟩
def XFL_HASH_DATA : Fld := ⟨0x060, 0, 32⟩
def PMU_CTRL_DOFF : Fld := ⟨0x008, 3, 1⟩
def PMU_CTRL_RESTORE : Fld := ⟨0x008, 2, 1⟩
def PMU_CTRL_DORMEN : Fld := ⟨0x008, 1, 1⟩
def PMU_CTRL_RETEN : Fld := ⟨0x008, 0, 1⟩
def PMU_STAT_DOFF : Fld := ⟨0x00C, 6, 1⟩
def PMU_STAT_PLAN : Fld := ⟨0x00C, 5, 1⟩
def PMU_STAT_SUPGOOD : Fld := ⟨0x00C, 4, 1⟩
def PMU_STAT_PFREADY : Fld := ⟨0x00C, 3, 1⟩
def PMU_STAT_RETRDY : Fld := ⟨0x00C, 2, 1⟩
def PMU_STAT_RETVALID : Fld := ⟨0x00C, 1, 1⟩
def PMU_STAT_RESTDONE : Fld := ⟨0x00C, 0, 1⟩
def PMU_IRQ_RAW_RESTMIS : Fld := ⟨0x010, 4, 1⟩
def PMU_IRQ_RAW_RETSKIP : Fld := ⟨0x010, 3, 1⟩
def PMU_IRQ_RAW_DEFER : Fld := ⟨0x010, 2, 1⟩
def PMU_IRQ_RAW_SUPGOOD : Fld := ⟨0x010, 1, 1⟩
def PMU_IRQ_RAW_SUPFAIL : Fld := ⟨0x010, 0, 1⟩
def PMU_EHOLD_VHOLD : Fld := ⟨0x040, 16, 16⟩
def PMU_EHOLD_EHOLD : Fld := ⟨0x040, 0, 16⟩
def PMU_CEFF_VALUE : Fld := ⟨0x044, 0, 16⟩
def PMU_PEND_VALUE : Fld := ⟨0x048, 0, 16⟩
def PMU_SUP_VALUE : Fld := ⟨0x04C, 0, 16⟩
def PMU_CAP_DEFER_CLASS : Fld := ⟨0x050, 24, 4⟩
def PMU_CAP_LIMIT : Fld := ⟨0x050, 0, 16⟩
def PMU_FIELD_CAP_CAP : Fld := ⟨0x054, 0, 13⟩
def PMU_FORECAST_HELD : Fld := ⟨0x058, 16, 7⟩
def PMU_FORECAST_PF : Fld := ⟨0x058, 0, 16⟩
def PMU_DEFCNT_HELD : Fld := ⟨0x05C, 16, 16⟩
def PMU_DEFCNT_DROPPED : Fld := ⟨0x05C, 0, 16⟩
def PMU_WAKE_ALM : Fld := ⟨0x060, 0, 2⟩
def PRF_CTRL_RETRY : Fld := ⟨0x008, 0, 1⟩
def PRF_STAT_PINS : Fld := ⟨0x00C, 9, 2⟩
def PRF_STAT_PINEN : Fld := ⟨0x00C, 8, 1⟩
def PRF_STAT_VALID : Fld := ⟨0x00C, 4, 4⟩
def PRF_STAT_ACTIVE : Fld := ⟨0x00C, 0, 2⟩
def PRF_IRQ_RAW_CMDREF : Fld := ⟨0x010, 3, 1⟩
def PRF_IRQ_RAW_BADIMG : Fld := ⟨0x010, 2, 1⟩
def PRF_IRQ_RAW_AIOREF : Fld := ⟨0x010, 1, 1⟩
def PRF_IRQ_RAW_SWITCH : Fld := ⟨0x010, 0, 1⟩
def PRF_CMD_GO : Fld := ⟨0x040, 31, 1⟩
def PRF_CMD_PROFILE : Fld := ⟨0x040, 0, 2⟩
def PRF_LOAD_GO : Fld := ⟨0x044, 31, 1⟩
def PRF_LOAD_PROFILE : Fld := ⟨0x044, 0, 2⟩
def PRF_BASE_BASE : Fld := ⟨0x048, 18, 14⟩
def PRF_SWSTAMP_MTB : Fld := ⟨0x04C, 0, 32⟩
def OHM_CTRL_RELEASE : Fld := ⟨0x008, 0, 1⟩
def OHM_STAT_SAFE : Fld := ⟨0x00C, 1, 1⟩
def OHM_STAT_ENGAGED : Fld := ⟨0x00C, 0, 1⟩
def OHM_IRQ_RAW_SAFE : Fld := ⟨0x010, 1, 1⟩
def OHM_IRQ_RAW_ENGAGED : Fld := ⟨0x010, 0, 1⟩
def OHM_HOLD_MS : Fld := ⟨0x040, 0, 16⟩
def OHM_DOSAFE_LEVEL : Fld := ⟨0x044, 0, 24⟩
def FLT_IRQ_RAW_CLASS : Fld := ⟨0x010, 0, 16⟩
def FLT_FAULTN_MASK : Fld := ⟨0x040, 0, 16⟩
def FLT_LAST_CODE : Fld := ⟨0x044, 16, 16⟩
def FLT_LAST_MASKED : Fld := ⟨0x044, 6, 1⟩
def FLT_LAST_ENGINE : Fld := ⟨0x044, 0, 6⟩
def FLT_LASTADDR_ADDR : Fld := ⟨0x048, 0, 32⟩
def FLT_CNT_MASKED : Fld := ⟨0x04C, 16, 16⟩
def FLT_CNT_DETECTED : Fld := ⟨0x04C, 0, 16⟩
def WDT_STAT_STAGE3 : Fld := ⟨0x00C, 6, 2⟩
def WDT_STAT_STAGE2 : Fld := ⟨0x00C, 4, 2⟩
def WDT_STAT_STAGE1 : Fld := ⟨0x00C, 2, 2⟩
def WDT_STAT_STAGE0 : Fld := ⟨0x00C, 0, 2⟩
def WDT_IRQ_RAW_BADKICK : Fld := ⟨0x010, 4, 1⟩
def WDT_IRQ_RAW_EXP : Fld := ⟨0x010, 0, 4⟩
def WDT_CFG_EN : Fld := ⟨0x040, 31, 1⟩
def WDT_CFG_ACT : Fld := ⟨0x040, 29, 2⟩
def WDT_CFG_TIMEOUT : Fld := ⟨0x040, 0, 16⟩
def WDT_KICK_KICK : Fld := ⟨0x050, 0, 32⟩
def INT_STAT_WFAIL : Fld := ⟨0x00C, 1, 1⟩
def INT_STAT_EFAIL : Fld := ⟨0x00C, 0, 1⟩
def INT_PEND_PEND : Fld := ⟨0x040, 0, 32⟩
def INT_SWSET_SW : Fld := ⟨0x050, 0, 16⟩
def INT_SWCLR_SW : Fld := ⟨0x054, 0, 16⟩
def INT_ROUTE_ROUTE : Fld := ⟨0x100, 0, 32⟩
def EVS_STAT_SEQVALID : Fld := ⟨0x00C, 31, 1⟩
def EVS_STAT_LEVEL : Fld := ⟨0x00C, 0, 11⟩
def EVS_IRQ_RAW_RECLOST : Fld := ⟨0x010, 1, 1⟩
def EVS_IRQ_RAW_Q29LOST : Fld := ⟨0x010, 0, 1⟩
def EVS_NEXT_SEQ : Fld := ⟨0x040, 0, 32⟩
def EVS_CNT_RECLOST : Fld := ⟨0x044, 16, 16⟩
def EVS_CNT_Q29LOST : Fld := ⟨0x044, 0, 16⟩
def QMG_IRQ_RAW_CFGERR : Fld := ⟨0x010, 0, 1⟩
def HRT_CFG_SADDR : Fld := ⟨0x100, 16, 6⟩
def HRT_CFG_PREAMBLE : Fld := ⟨0x100, 8, 5⟩
def HRT_CFG_MULTIDROP : Fld := ⟨0x100, 3, 1⟩
def HRT_CFG_ROLE : Fld := ⟨0x100, 0, 3⟩
def HRT_LADDRLO_ADDR : Fld := ⟨0x104, 0, 32⟩
def HRT_LADDRHI_ADDR : Fld := ⟨0x108, 0, 8⟩
def HRT_POLLLO_POLL : Fld := ⟨0x10C, 0, 32⟩
def HRT_POLLHI_POLL : Fld := ⟨0x110, 0, 32⟩
def HRT_STS_NEXTPOLL : Fld := ⟨0x114, 16, 6⟩
def HRT_STS_LASTST : Fld := ⟨0x114, 8, 8⟩
def HRT_STS_PARKED : Fld := ⟨0x114, 4, 1⟩
def HRT_STS_SUPPR : Fld := ⟨0x114, 3, 1⟩
def HRT_STS_CARRIER : Fld := ⟨0x114, 2, 1⟩
def HRT_STS_BUSY : Fld := ⟨0x114, 1, 1⟩
def HRT_STS_ACTIVE : Fld := ⟨0x114, 0, 1⟩
def HRT_FRCNT_TX : Fld := ⟨0x118, 16, 16⟩
def HRT_FRCNT_RX : Fld := ⟨0x118, 0, 16⟩
def MTC_GAIN_GAIN : Fld := ⟨0x040, 0, 24⟩
def MTC_OFFS_OFFSET : Fld := ⟨0x044, 0, 32⟩
def MTC_SCALE_SCALE : Fld := ⟨0x048, 0, 32⟩
def MTC_UN_VALUE : Fld := ⟨0x240, 0, 32⟩
def MTC_IN_VALUE : Fld := ⟨0x244, 0, 32⟩
def MTC_ACREEP_ACREEP : Fld := ⟨0x248, 0, 16⟩
def MTR_WINCNT_COUNT : Fld := ⟨0x104, 0, 32⟩
def MTR_FREQ_MHZ : Fld := ⟨0x108, 0, 32⟩
def MTR_TOT_P : Fld := ⟨0x10C, 0, 32⟩
def MTR_TOTQ_Q : Fld := ⟨0x110, 0, 32⟩
def MTR_TOTS_S : Fld := ⟨0x114, 0, 32⟩
def MTR_TOTPF_PF : Fld := ⟨0x118, 0, 32⟩
def MTR_STAMP_MTB : Fld := ⟨0x11C, 0, 32⟩
def MTR_PH1VRMS_VALUE : Fld := ⟨0x120, 0, 32⟩
def MTR_PH1IRMS_VALUE : Fld := ⟨0x124, 0, 32⟩
def MTR_PH1P_VALUE : Fld := ⟨0x128, 0, 32⟩
def MTR_PH1Q_VALUE : Fld := ⟨0x12C, 0, 32⟩
def MTR_PH1S_VALUE : Fld := ⟨0x130, 0, 32⟩
def MTR_PH1PF_VALUE : Fld := ⟨0x134, 0, 32⟩
def MTR_PH1ANGVI_VALUE : Fld := ⟨0x138, 0, 32⟩
def MTR_PH1ANGV_VALUE : Fld := ⟨0x13C, 0, 32⟩
def MTR_PH2VRMS_VALUE : Fld := ⟨0x140, 0, 32⟩
def MTR_PH2IRMS_VALUE : Fld := ⟨0x144, 0, 32⟩
def MTR_PH2P_VALUE : Fld := ⟨0x148, 0, 32⟩
def MTR_PH2Q_VALUE : Fld := ⟨0x14C, 0, 32⟩
def MTR_PH2S_VALUE : Fld := ⟨0x150, 0, 32⟩
def MTR_PH2PF_VALUE : Fld := ⟨0x154, 0, 32⟩
def MTR_PH2ANGVI_VALUE : Fld := ⟨0x158, 0, 32⟩
def MTR_PH2ANGV_VALUE : Fld := ⟨0x15C, 0, 32⟩
def MTR_PH3VRMS_VALUE : Fld := ⟨0x160, 0, 32⟩
def MTR_PH3IRMS_VALUE : Fld := ⟨0x164, 0, 32⟩
def MTR_PH3P_VALUE : Fld := ⟨0x168, 0, 32⟩
def MTR_PH3Q_VALUE : Fld := ⟨0x16C, 0, 32⟩
def MTR_PH3S_VALUE : Fld := ⟨0x170, 0, 32⟩
def MTR_PH3PF_VALUE : Fld := ⟨0x174, 0, 32⟩
def MTR_PH3ANGVI_VALUE : Fld := ⟨0x178, 0, 32⟩
def MTR_PH3ANGV_VALUE : Fld := ⟨0x17C, 0, 32⟩
def MTE_ACCLO_B : Fld := ⟨0x100, 0, 32⟩
def MTE_ACCHI_WRAP : Fld := ⟨0x104, 16, 16⟩
def MTE_ACCHI_B : Fld := ⟨0x104, 0, 16⟩
def MTE_DLAST_I_VALUE : Fld := ⟨0x300, 0, 32⟩
def MTE_DLAST_E_VALUE : Fld := ⟨0x304, 0, 32⟩
def MTE_DMAX_I_VALUE : Fld := ⟨0x308, 0, 32⟩
def MTE_DMAX_E_VALUE : Fld := ⟨0x30C, 0, 32⟩
def MTE_DMAXT_I_VALUE : Fld := ⟨0x310, 0, 32⟩
def MTE_DMAXT_E_VALUE : Fld := ⟨0x314, 0, 32⟩
def MTE_DCLR_DCLR : Fld := ⟨0x31C, 0, 1⟩
def PLS_CFG_EN : Fld := ⟨0x040, 31, 1⟩
def PLS_CFG_WIDTH : Fld := ⟨0x040, 16, 7⟩
def PLS_CFG_ACC : Fld := ⟨0x040, 4, 3⟩
def PLS_CFG_FEEDER : Fld := ⟨0x040, 0, 3⟩
def PLS_K_K : Fld := ⟨0x044, 0, 32⟩
def PLS_QUEUE_LOST : Fld := ⟨0x048, 16, 16⟩
def PLS_QUEUE_LEVEL : Fld := ⟨0x048, 0, 8⟩
def CHR_ALM_CTRL_EN : Fld := ⟨0x080, 31, 1⟩
def CHR_ALM_CTRL_MSK32 : Fld := ⟨0x080, 9, 1⟩
def CHR_ALM_CTRL_CMP32 : Fld := ⟨0x080, 8, 1⟩
def CHR_ALM_CTRL_CATCHUP : Fld := ⟨0x080, 2, 1⟩
def CHR_ALM_CTRL_ONESHOT : Fld := ⟨0x080, 1, 1⟩
def CHR_ALM_SEC_CMP : Fld := ⟨0x084, 0, 32⟩
def CHR_ALM_SECMSK_MSK : Fld := ⟨0x088, 0, 32⟩
def CHR_ALM_SUB_MSK : Fld := ⟨0x08C, 16, 15⟩
def CHR_ALM_SUB_CMP : Fld := ⟨0x08C, 0, 15⟩
def BOOT_INFO_FAIL : Fld := ⟨0x080, 28, 4⟩
def BOOT_INFO_FALLBACK : Fld := ⟨0x080, 25, 1⟩
def BOOT_INFO_SLOT : Fld := ⟨0x080, 24, 1⟩
def BOOT_INFO_HALFVER : Fld := ⟨0x080, 0, 16⟩
def BOOT_SECVER_VALUE : Fld := ⟨0x084, 0, 32⟩
def BOOT_SEQNO_VALUE : Fld := ⟨0x088, 0, 32⟩
def BOOT_HASH0_DATA : Fld := ⟨0x090, 0, 32⟩
def BOOT_HASH1_DATA : Fld := ⟨0x094, 0, 32⟩
def BOOT_HASH2_DATA : Fld := ⟨0x098, 0, 32⟩
def BOOT_HASH3_DATA : Fld := ⟨0x09C, 0, 32⟩
def BOOT_HASH4_DATA : Fld := ⟨0x0A0, 0, 32⟩
def BOOT_HASH5_DATA : Fld := ⟨0x0A4, 0, 32⟩
def BOOT_HASH6_DATA : Fld := ⟨0x0A8, 0, 32⟩
def BOOT_HASH7_DATA : Fld := ⟨0x0AC, 0, 32⟩
def QMG_ABASE_BASE : Fld := ⟨0x300, 4, 28⟩
def QMG_AIDX_PROD : Fld := ⟨0x304, 16, 13⟩
def QMG_AIDX_CONS : Fld := ⟨0x304, 0, 13⟩
def QMG_BBASE_BASE : Fld := ⟨0x308, 4, 28⟩
def QMG_BIDX_PROD : Fld := ⟨0x30C, 16, 13⟩
def QMG_BIDX_CONS : Fld := ⟨0x30C, 0, 13⟩
def QMG_QCFG_AEN : Fld := ⟨0x310, 31, 1⟩
def QMG_QCFG_BEN : Fld := ⟨0x310, 30, 1⟩
def QMG_QCFG_ALOG2 : Fld := ⟨0x310, 20, 4⟩
def QMG_QCFG_BLOG2 : Fld := ⟨0x310, 16, 4⟩
def SVC_BAUD_DIV : Fld := ⟨0x044, 0, 22⟩
def MSYS_HWTYPE_WORD : Fld := ⟨0x040, 0, 32⟩
def MSYS_UID_LO_UID : Fld := ⟨0x044, 0, 32⟩
def MSYS_UID_HI_UID : Fld := ⟨0x048, 0, 32⟩

end Reg

/-- The block registers of DDL. -/
def rowsDDL : List RegRow :=
  [⟨0x008, 4, 1, 0x0, 0x0, 0x0, 0x2, 0x0, 0x0, 0x5, 0x0, 0x1⟩,
   ⟨0x00C, 4, 1, 0xFF5F, 0x0, 0x0, 0x0, 0x0, 0x0, 0x0, 0x0, 0x0⟩,
   ⟨0x010, 4, 1, 0x0, 0x0, 0x3F, 0x0, 0x0, 0x0, 0x0, 0x0, 0x0⟩,
   ⟨0x040, 4, 1, 0x0, 0x0, 0x0, 0x0, 0x0, 0xFFFFFFFF, 0x0, 0x0, 0x0⟩,
   ⟨0x044, 4, 1, 0xFFFFFFFF, 0x0, 0x0, 0x0, 0x0, 0x0, 0x0, 0x0, 0x0⟩,
   ⟨0x048, 4, 1, 0xFFFFFFFF, 0x0, 0x0, 0x0, 0x0, 0x0, 0x0, 0x0, 0x0⟩]

/-- The block registers of DDL_M: MTBSTEP and MTBSYNC are its own (R43). -/
def rowsDDLM : List RegRow :=
  [⟨0x008, 4, 1, 0x0, 0x0, 0x0, 0x2, 0x0, 0x0, 0x5, 0x0, 0x1⟩,
   ⟨0x00C, 4, 1, 0x7F, 0x0, 0x0, 0x0, 0x0, 0x0, 0x0, 0x0, 0x0⟩,
   ⟨0x010, 4, 1, 0x0, 0x0, 0x7F, 0x0, 0x0, 0x0, 0x0, 0x0, 0x0⟩,
   ⟨0x040, 4, 1, 0x0, 0x0, 0x0, 0x0, 0x0, 0xFFFFFFFF, 0x0, 0x0, 0x0⟩,
   ⟨0x044, 4, 1, 0xFFFFFFFF, 0x0, 0x0, 0x0, 0x0, 0x0, 0x0, 0x0, 0x0⟩,
   ⟨0x048, 4, 1, 0xFFFFFFFF, 0x0, 0x0, 0x0, 0x0, 0x0, 0x0, 0x0, 0x0⟩,
   ⟨0x04C, 4, 1, 0xFE000FFF, 0x0, 0x0, 0x0, 0x0, 0x0, 0x0, 0x0, 0x0⟩,
   ⟨0x050, 4, 1, 0x1F, 0x0, 0x0, 0x0, 0x0, 0x0, 0x0, 0x0, 0x0⟩,
   ⟨0x054, 4, 1, 0xFFF, 0x0, 0x0, 0x0, 0x0, 0x0, 0x0, 0x0, 0x0⟩,
   ⟨0x058, 4, 1, 0xFFFFFFFF, 0x0, 0x0, 0x0, 0x0, 0x0, 0x0, 0x0, 0x0⟩,
   ⟨0x05C, 4, 1, 0x3FF, 0x0, 0x0, 0x0, 0x0, 0xFFFF0000, 0x0, 0x0, 0x0⟩]

/-- The block registers of MTB. -/
def rowsMTB : List RegRow :=
  [⟨0x00C, 4, 1, 0x1, 0x0, 0x0, 0x0, 0x0, 0x0, 0x0, 0x0, 0x0⟩,
   ⟨0x010, 4, 1, 0x0, 0x0, 0x7, 0x0, 0x0, 0x0, 0x0, 0x0, 0x0⟩,
   ⟨0x040, 4, 1, 0xFFFFFFFF, 0x0, 0x0, 0x0, 0x0, 0x0, 0x0, 0x0, 0x0⟩,
   ⟨0x044, 4, 1, 0xFFFFFFFF, 0x0, 0x0, 0x0, 0x0, 0x0, 0x0, 0x0, 0x0⟩,
   ⟨0x048, 4, 1, 0x0, 0x0, 0x0, 0x0, 0x0, 0x0, 0x0, 0xFFFFFFFF, 0x0⟩,
   ⟨0x04C, 4, 1, 0x0, 0x0, 0x0, 0x0, 0x0, 0x0, 0x0, 0xFFFFFFFF, 0x0⟩,
   ⟨0x050, 4, 1, 0x0, 0x0, 0x0, 0x0, 0x0, 0x0, 0x0, 0xFFFFFFFF, 0x0⟩,
   ⟨0x054, 4, 1, 0x0, 0x0, 0x0, 0x0, 0x0, 0x0, 0x0, 0xFFFFFFFF, 0x0⟩,
   ⟨0x058, 4, 1, 0x0, 0x0, 0x0, 0x0, 0x0, 0x0, 0x0, 0x3, 0x0⟩]

/-- The block registers of SYS. -/
def rowsSYS : List RegRow :=
  [⟨0x008, 4, 1, 0x0, 0x0, 0x0, 0x0, 0x0, 0x0, 0x1, 0x0, 0x0⟩,
   ⟨0x040, 4, 1, 0xFFFFFFFF, 0x0, 0x0, 0x0, 0x0, 0x0, 0x0, 0x0, 0x480011⟩,
   ⟨0x044, 4, 1, 0xFFFFFFFF, 0x0, 0x0, 0x0, 0x0, 0x0, 0x0, 0x0, 0x0⟩,
   ⟨0x048, 4, 1, 0xFFFFFFFF, 0x0, 0x0, 0x0, 0x0, 0x0, 0x0, 0x0, 0x0⟩,
   ⟨0x04C, 4, 1, 0x0, 0x0, 0x3F, 0x0, 0x0, 0x0, 0x0, 0x0, 0x0⟩,
   ⟨0x050, 4, 1, 0x1F7F, 0x0, 0x0, 0x0, 0x0, 0x0, 0x0, 0x0, 0x0⟩]

/-- The block registers of MSYS. -/
def rowsMSYS : List RegRow :=
  [⟨0x008, 4, 1, 0x0, 0x0, 0x0, 0x0, 0x0, 0x0, 0x1, 0x0, 0x0⟩,
   ⟨0x04C, 4, 1, 0x0, 0x0, 0xF, 0x0, 0x0, 0x0, 0x0, 0x0, 0x0⟩,
   ⟨0x050, 4, 1, 0x7, 0x0, 0x0, 0x0, 0x0, 0x0, 0x0, 0x0, 0x0⟩,
   ⟨0x040, 4, 1, 0xFFFFFFFF, 0x0, 0x0, 0x0, 0x0, 0x0, 0x0, 0x0, 0x0⟩,
   ⟨0x044, 4, 1, 0xFFFFFFFF, 0x0, 0x0, 0x0, 0x0, 0x0, 0x0, 0x0, 0x0⟩,
   ⟨0x048, 4, 1, 0xFFFFFFFF, 0x0, 0x0, 0x0, 0x0, 0x0, 0x0, 0x0, 0x0⟩]

/-- The block registers of ENG. -/
def rowsENG : List RegRow :=
  [⟨0x008, 4, 1, 0x0, 0x0, 0x0, 0x100, 0x0, 0x0, 0x0, 0xFF, 0x0⟩,
   ⟨0x00C, 4, 1, 0x1FFFFFF, 0x0, 0x0, 0x0, 0x0, 0x0, 0x0, 0x0, 0x10000⟩,
   ⟨0x010, 4, 1, 0x0, 0x0, 0x3F, 0x0, 0x0, 0x0, 0x0, 0x0, 0x0⟩,
   ⟨0x040, 4, 1, 0x0, 0x0, 0x0, 0x0, 0x0, 0xFFFFFFFF, 0x0, 0x0, 0x0⟩,
   ⟨0x044, 4, 1, 0xFF03FFFF, 0x0, 0x0, 0x0, 0x0, 0x0, 0x0, 0x0, 0x0⟩,
   ⟨0x048, 4, 1, 0xFFFFF, 0x0, 0x0, 0x0, 0x0, 0x0, 0x0, 0x0, 0x0⟩,
   ⟨0x04C, 4, 1, 0xFFFF, 0x0, 0x0, 0x0, 0x0, 0x0, 0x0, 0x0, 0x0⟩,
   ⟨0x050, 4, 1, 0xFFFFFFFF, 0x0, 0x0, 0x0, 0x0, 0x0, 0x0, 0x0, 0x0⟩]

/-- The block registers of FAB. -/
def rowsFAB : List RegRow :=
  [⟨0x008, 4, 1, 0x0, 0x0, 0x0, 0x0, 0x0, 0x0, 0x1, 0x0, 0x0⟩,
   ⟨0x00C, 4, 1, 0x1, 0x0, 0x0, 0x0, 0x0, 0x0, 0x0, 0x0, 0x0⟩,
   ⟨0x010, 4, 1, 0x0, 0x0, 0x3, 0x0, 0x0, 0x0, 0x0, 0x0, 0x0⟩,
   ⟨0x040, 4, 1, 0x0, 0x0, 0x0, 0x0, 0x0, 0x0, 0x0, 0xFFFFFFFF, 0xA00080⟩,
   ⟨0x044, 4, 1, 0x0, 0x33F, 0x0, 0x0, 0x0, 0x0, 0x0, 0x0, 0x0⟩,
   ⟨0x048, 4, 1, 0x0, 0x0, 0x0, 0x0, 0x0, 0xFFFFFFFF, 0x0, 0x0, 0x0⟩,
   ⟨0x04C, 4, 1, 0xFFFFFFFF, 0x0, 0x0, 0x0, 0x0, 0x0, 0x0, 0x0, 0x0⟩,
   ⟨0x050, 4, 1, 0xFFFFFFFF, 0x0, 0x0, 0x0, 0x0, 0x0, 0x0, 0x0, 0x0⟩,
   ⟨0x054, 4, 1, 0xFF3F, 0x0, 0x0, 0x0, 0x0, 0x0, 0x0, 0x0, 0x0⟩]

/-- The block registers of SCH. -/
def rowsSCH : List RegRow :=
  [⟨0x008, 4, 1, 0x0, 0x0, 0x0, 0x0, 0x0, 0x0, 0x1, 0x6, 0x0⟩,
   ⟨0x00C, 4, 1, 0x7F0003, 0x0, 0x0, 0x0, 0x0, 0x0, 0x0, 0x0, 0x0⟩,
   ⟨0x010, 4, 1, 0x0, 0x0, 0x7F, 0x0, 0x0, 0x0, 0x0, 0x0, 0x0⟩,
   ⟨0x040, 4, 1, 0x0, 0x0, 0x0, 0x0, 0x0, 0x0, 0x0, 0xFFFFF000, 0x0⟩,
   ⟨0x044, 4, 1, 0xFFFFFFFF, 0x0, 0x0, 0x0, 0x0, 0x0, 0x0, 0x0, 0x0⟩,
   ⟨0x048, 4, 1, 0x3FFFF, 0x0, 0x0, 0x0, 0x0, 0x0, 0x0, 0x0, 0x0⟩,
   ⟨0x04C, 4, 1, 0xFFFFFFFF, 0x0, 0x0, 0x0, 0x0, 0x0, 0x0, 0x0, 0x0⟩,
   ⟨0x050, 4, 1, 0xFFFFFFFF, 0x0, 0x0, 0x0, 0x0, 0x0, 0x0, 0x0, 0x0⟩,
   ⟨0x054, 4, 1, 0xFFFFFFFF, 0x0, 0x0, 0x0, 0x0, 0x0, 0x0, 0x0, 0x0⟩,
   ⟨0x058, 4, 1, 0xFFFFFFFF, 0x0, 0x0, 0x0, 0x0, 0x0, 0x0, 0x0, 0x0⟩,
   ⟨0x05C, 4, 1, 0xFFFFFFFF, 0x0, 0x0, 0x0, 0x0, 0x0, 0x0, 0x0, 0x0⟩,
   ⟨0x060, 4, 1, 0xFFFFFFFF, 0x0, 0x0, 0x0, 0x0, 0x0, 0x0, 0x0, 0x0⟩,
   ⟨0x064, 4, 1, 0xFFFFFFFF, 0x0, 0x0, 0x0, 0x0, 0x0, 0x0, 0x0, 0x0⟩,
   ⟨0x068, 4, 1, 0xFFFFFFFF, 0x0, 0x0, 0x0, 0x0, 0x0, 0x0, 0x0, 0x0⟩,
   ⟨0x06C, 4, 1, 0xFF807FFF, 0x0, 0x0, 0x0, 0x0, 0x0, 0x0, 0x0, 0x0⟩,
   ⟨0x070, 4, 1, 0x0, 0x0, 0x0, 0x0, 0x0, 0xFFFFFFFF, 0x0, 0x0, 0x0⟩,
   ⟨0x074, 4, 1, 0x7FFF, 0x0, 0x0, 0x0, 0x0, 0x0, 0x0, 0x0, 0x0⟩]

/-- The block registers of TSK. -/
def rowsTSK : List RegRow :=
  [⟨0x040, 4, 1, 0x0, 0x3F, 0x0, 0x0, 0x0, 0x0, 0x0, 0x0, 0x0⟩,
   ⟨0x044, 4, 1, 0xF70001FF, 0x0, 0x0, 0x0, 0x0, 0x0, 0x0, 0x0, 0x0⟩,
   ⟨0x048, 4, 1, 0xFFFFFFFF, 0x0, 0x0, 0x0, 0x0, 0x0, 0x0, 0x0, 0x0⟩,
   ⟨0x04C, 4, 1, 0x3FFFF, 0x0, 0x0, 0x0, 0x0, 0x0, 0x0, 0x0, 0x0⟩,
   ⟨0x050, 4, 1, 0x0, 0x0, 0x0, 0x0, 0x0, 0xFFFFFFFF, 0x0, 0x0, 0x0⟩,
   ⟨0x054, 4, 1, 0x0, 0x0, 0x0, 0x0, 0x0, 0xFFFFFFFF, 0x0, 0x0, 0x0⟩,
   ⟨0x058, 4, 1, 0x0, 0x0, 0x0, 0x0, 0x0, 0xFFFFFFFF, 0x0, 0x0, 0x0⟩,
   ⟨0x05C, 4, 1, 0xFFFFFFFF, 0x0, 0x0, 0x0, 0x0, 0x0, 0x0, 0x0, 0x0⟩,
   ⟨0x060, 4, 1, 0xFFFFFFFF, 0x0, 0x0, 0x0, 0x0, 0x0, 0x0, 0x0, 0x0⟩,
   ⟨0x064, 4, 1, 0x0, 0x0, 0x0, 0x0, 0x0, 0xFFFFFFFF, 0x0, 0x0, 0x0⟩]

/-- The block registers of IMG. -/
def rowsIMG : List RegRow :=
  [⟨0x008, 4, 1, 0x0, 0x0, 0x0, 0x0, 0x0, 0x0, 0x1, 0x0, 0x1⟩,
   ⟨0x00C, 4, 1, 0xFF, 0x0, 0x0, 0x0, 0x0, 0x0, 0x0, 0x0, 0x0⟩,
   ⟨0x010, 4, 1, 0x0, 0x0, 0x3, 0x0, 0x0, 0x0, 0x0, 0x0, 0x0⟩,
   ⟨0x040, 4, 1, 0x0, 0x3FF, 0x0, 0x80000000, 0x0, 0x0, 0x0, 0x0, 0x0⟩,
   ⟨0x044, 4, 1, 0xFFFFFFFF, 0x0, 0x0, 0x0, 0x0, 0x0, 0x0, 0x0, 0x0⟩,
   ⟨0x048, 4, 1, 0x1F, 0x0, 0x0, 0x0, 0x0, 0x0, 0x0, 0x0, 0x0⟩,
   ⟨0x800, 4, 512, 0x80008000, 0x0, 0x0, 0x0, 0x0, 0x0, 0x0, 0xFFF0FFF, 0x0⟩]

/-- The block registers of DOM. -/
def rowsDOM : List RegRow :=
  [⟨0x010, 4, 1, 0x0, 0x0, 0x1, 0x0, 0x0, 0x0, 0x0, 0x0, 0x0⟩,
   ⟨0x040, 4, 1, 0x0, 0x0, 0x0, 0x0, 0x0, 0x0, 0x0, 0x7FF, 0x0⟩,
   ⟨0x044, 4, 1, 0x0, 0x0, 0x0, 0x0, 0x0, 0x0, 0x0, 0xFFFFFFFF, 0x0⟩,
   ⟨0x048, 4, 7, 0x0, 0x0, 0x0, 0x0, 0x0, 0x0, 0x0, 0xFFFF, 0x0⟩,
   ⟨0x064, 4, 1, 0xFFFFFFFF, 0x0, 0x0, 0x0, 0x0, 0x0, 0x0, 0x0, 0x0⟩,
   ⟨0x068, 4, 1, 0x3FFE0FFF, 0x0, 0x0, 0x0, 0x0, 0x0, 0x0, 0x0, 0x0⟩,
   ⟨0x06C, 4, 1, 0x0, 0x0, 0x0, 0x0, 0x0, 0xFFFFFFFF, 0x0, 0x0, 0x0⟩,
   ⟨0x100, 4, 5, 0x0, 0x0, 0x0, 0x0, 0x0, 0x0, 0x0, 0xFFFFFFFF, 0x0⟩,
   ⟨0x120, 4, 3, 0x0, 0x0, 0x0, 0x0, 0x0, 0x0, 0x0, 0xFFFFFFFF, 0x0⟩]

/-- The block registers of FBn. -/
def rowsFB : List RegRow :=
  [⟨0x008, 4, 1, 0x0, 0xC0, 0x0, 0x20, 0x0, 0x0, 0x1B, 0x0, 0x40⟩,
   ⟨0x00C, 4, 1, 0x3FFE, 0x0, 0x0, 0x0, 0x0, 0x0, 0x0, 0x0, 0x0⟩,
   ⟨0x010, 4, 1, 0x0, 0x0, 0xFFF, 0x0, 0x0, 0x0, 0x0, 0x0, 0x0⟩,
   ⟨0x040, 4, 1, 0x0, 0x0, 0x0, 0x0, 0x0, 0x0, 0xFFFF7F7F, 0x0, 0x7E1F1F⟩,
   ⟨0x044, 4, 1, 0x0, 0x0, 0x0, 0x0, 0x0, 0x0, 0x1F1F0F0F, 0x0, 0x1C0909⟩,
   ⟨0x048, 4, 1, 0x7F, 0x7F0000, 0x0, 0x0, 0x0, 0x0, 0x100, 0x0, 0x0⟩,
   ⟨0x04C, 4, 1, 0xFFFF, 0x0, 0x0, 0x0, 0x0, 0x7000000, 0x0, 0x0, 0x0⟩,
   ⟨0x050, 4, 1, 0x0, 0x0, 0x0, 0x0, 0x0, 0x0, 0xF07FFFF, 0x0, 0x20007D0⟩,
   ⟨0x054, 4, 1, 0x0, 0x0, 0x0, 0x0, 0x0, 0x0, 0xFFFF, 0x0, 0x0⟩,
   ⟨0x058, 4, 1, 0x0, 0x0, 0x0, 0x0, 0x0, 0x0, 0x3FFFFFFF, 0x0, 0x0⟩,
   ⟨0x05C, 4, 1, 0x0, 0xFFFF, 0x0, 0x0, 0x0, 0x0, 0x0, 0x0, 0xC8⟩,
   ⟨0x060, 4, 1, 0xFFFFFFFF, 0x0, 0x0, 0x0, 0x0, 0x0, 0x0, 0x0, 0x0⟩,
   ⟨0x064, 4, 1, 0xFFFF, 0x0, 0x0, 0x0, 0x0, 0x0, 0x0, 0x0, 0x60C⟩,
   ⟨0x068, 4, 1, 0x0, 0x0, 0x0, 0x0, 0x0, 0xFFFFFFFF, 0x0, 0x0, 0x0⟩,
   ⟨0x06C, 4, 1, 0x0, 0x0, 0x0, 0x0, 0x0, 0xFFFFFFFF, 0x0, 0x0, 0x0⟩,
   ⟨0x070, 4, 1, 0x0, 0x0, 0x0, 0x0, 0x0, 0xFFFFFFFF, 0x0, 0x0, 0x0⟩,
   ⟨0x074, 4, 1, 0x0, 0x0, 0x0, 0x0, 0x0, 0xFFFFFFFF, 0x0, 0x0, 0x0⟩]

/-- The block registers of FBT. -/
def rowsFBT : List RegRow :=
  [⟨0x008, 4, 1, 0x0, 0x3, 0x0, 0x0, 0x0, 0x0, 0x100, 0x0, 0x0⟩,
   ⟨0x00C, 4, 1, 0x103, 0x0, 0x0, 0x0, 0x0, 0x0, 0x0, 0x0, 0x0⟩,
   ⟨0x010, 4, 1, 0x0, 0x0, 0x3F, 0x0, 0x0, 0x0, 0x0, 0x0, 0x0⟩,
   ⟨0x040, 4, 1, 0x0, 0x1FFF, 0x0, 0x0, 0x0, 0x0, 0x0, 0x0, 0x0⟩,
   ⟨0x044, 4, 1, 0x0, 0xFFFFFFFF, 0x0, 0x0, 0x0, 0x0, 0x0, 0x0, 0x0⟩,
   ⟨0x048, 4, 1, 0x71FFF, 0x0, 0x0, 0x0, 0x0, 0x0, 0x0, 0x0, 0x0⟩,
   ⟨0x04C, 4, 1, 0x0, 0x0, 0x0, 0x0, 0x0, 0x0, 0xF, 0x0, 0x2⟩]

/-- The block registers of RIO. -/
def rowsRIO : List RegRow :=
  [⟨0x008, 4, 1, 0x0, 0x0, 0x0, 0x0, 0x0, 0x0, 0x1, 0x0, 0x0⟩,
   ⟨0x00C, 4, 1, 0x7F, 0x0, 0x0, 0x0, 0x0, 0x0, 0x0, 0x0, 0x0⟩,
   ⟨0x010, 4, 1, 0x0, 0x0, 0x1F, 0x0, 0x0, 0x0, 0x0, 0x0, 0x0⟩,
   ⟨0x040, 4, 1, 0x0, 0x7F, 0x0, 0x0, 0x0, 0x0, 0x0, 0x0, 0x0⟩,
   ⟨0x044, 4, 1, 0x0, 0x0, 0x0, 0x0, 0x0, 0x0, 0x0, 0xFFFE3FFF, 0x1900000⟩,
   ⟨0x048, 4, 1, 0x0, 0x0, 0x0, 0x0, 0x0, 0x0, 0x0, 0xFFFFFFFF, 0x0⟩,
   ⟨0x04C, 4, 1, 0x0, 0x0, 0x0, 0x0, 0x0, 0x0, 0x0, 0xFFFFFFFF, 0x0⟩,
   ⟨0x050, 4, 1, 0x0, 0x0, 0x0, 0x0, 0x0, 0x0, 0x0, 0xFFFFFFF0, 0x0⟩,
   ⟨0x054, 4, 1, 0x0, 0x0, 0x0, 0x0, 0x0, 0x0, 0x0, 0xFFFFFFF0, 0x0⟩,
   ⟨0x058, 4, 1, 0xFFFFFF37, 0x0, 0x8, 0x0, 0x0, 0x0, 0x0, 0x0, 0x0⟩,
   ⟨0x05C, 4, 1, 0x0, 0x0, 0x0, 0x0, 0x0, 0xFFFFFFFF, 0x0, 0x0, 0x0⟩,
   ⟨0x060, 4, 4, 0xFFFFFFFF, 0x0, 0x0, 0x0, 0x0, 0x0, 0x0, 0x0, 0x0⟩]

/-- The block registers of AIO. -/
def rowsAIO : List RegRow :=
  [⟨0x008, 4, 1, 0x0, 0x0, 0x0, 0x0, 0x0, 0x0, 0x0, 0x1, 0x0⟩,
   ⟨0x00C, 4, 1, 0x7, 0x0, 0x0, 0x0, 0x0, 0x0, 0x0, 0x0, 0x0⟩,
   ⟨0x010, 4, 1, 0x0, 0x0, 0x7, 0x0, 0x0, 0x0, 0x0, 0x0, 0x0⟩,
   ⟨0x040, 4, 1, 0x0, 0x0, 0x0, 0x0, 0x0, 0x0, 0x3, 0x0, 0x0⟩,
   ⟨0x044, 4, 1, 0x0, 0x0, 0x0, 0x0, 0x0, 0x0, 0x0, 0xFFFFFFF0, 0x0⟩,
   ⟨0x048, 4, 1, 0x0, 0x0, 0x0, 0x0, 0x0, 0x0, 0x0, 0xFFFFFFF0, 0x0⟩,
   ⟨0x04C, 4, 1, 0x0, 0x0, 0x0, 0x0, 0x0, 0x0, 0xFFFF, 0x0, 0xDAC⟩,
   ⟨0x050, 4, 1, 0x0, 0x0, 0x0, 0x0, 0x0, 0x0, 0xFFFF, 0x0, 0x53FC⟩,
   ⟨0x054, 4, 1, 0xFFFFFFFF, 0x0, 0x0, 0x0, 0x0, 0x0, 0x0, 0x0, 0x0⟩]

/-- The block registers of AIO_x. -/
def rowsAIOx : List RegRow :=
  [⟨0x008, 4, 1, 0x0, 0x0, 0x0, 0x0, 0x0, 0x0, 0x0, 0x0, 0x0⟩,
   ⟨0x00C, 4, 1, 0xFFFF, 0x0, 0x0, 0x0, 0x0, 0x0, 0x0, 0x0, 0x0⟩,
   ⟨0x010, 4, 1, 0x0, 0x0, 0xFFFFFFFF, 0x0, 0x0, 0x0, 0x0, 0x0, 0x0⟩,
   ⟨0x040, 32, 8, 0x0, 0x0, 0x0, 0x0, 0x0, 0x0, 0x0, 0x7FF, 0x0⟩,
   ⟨0x044, 32, 8, 0xFF07FCBF, 0x0, 0x40, 0x0, 0x0, 0x0, 0x0, 0x0, 0x0⟩,
   ⟨0x048, 32, 8, 0xFFFFFFFF, 0x0, 0x0, 0x0, 0x0, 0x0, 0x0, 0x0, 0x0⟩,
   ⟨0x04C, 32, 8, 0xFFFFFFFF, 0x0, 0x0, 0x0, 0x0, 0x0, 0x0, 0x0, 0x0⟩,
   ⟨0x050, 32, 8, 0xFFFFFFFF, 0x0, 0x0, 0x0, 0x0, 0x0, 0x0, 0x0, 0x0⟩,
   ⟨0x054, 32, 8, 0x0, 0x0, 0x0, 0x0, 0x0, 0x0, 0x0, 0xFFFFFFFF, 0x0⟩,
   ⟨0x058, 32, 8, 0x0, 0x0, 0x0, 0x0, 0x0, 0x0, 0x0, 0xFFFFFFFF, 0x0⟩]

/-- The block registers of DIO. -/
def rowsDIO : List RegRow :=
  [⟨0x008, 4, 1, 0x0, 0x0, 0x0, 0x0, 0x0, 0x0, 0x0, 0x1, 0x0⟩,
   ⟨0x00C, 4, 1, 0x3, 0x0, 0x0, 0x0, 0x0, 0x0, 0x0, 0x0, 0x0⟩,
   ⟨0x010, 4, 1, 0x0, 0x0, 0x7, 0x0, 0x0, 0x0, 0x0, 0x0, 0x0⟩,
   ⟨0x040, 4, 1, 0x0, 0x0, 0x0, 0x0, 0x0, 0x0, 0x0, 0xFFFFFFF0, 0x0⟩,
   ⟨0x044, 4, 1, 0x0, 0x0, 0x0, 0x0, 0x0, 0x0, 0x0, 0xFFFFFFF0, 0x0⟩,
   ⟨0x048, 4, 1, 0xFFFFFFFF, 0x0, 0x0, 0x0, 0x0, 0x0, 0x0, 0x0, 0x0⟩,
   ⟨0x04C, 4, 1, 0xFF00FFFF, 0x0, 0x0, 0x0, 0x0, 0x0, 0x0, 0x0, 0x0⟩,
   ⟨0x050, 4, 1, 0xFFFFFF, 0x0, 0x0, 0x0, 0x0, 0x0, 0x0, 0x0, 0x0⟩,
   ⟨0x054, 4, 1, 0xFFFFFF, 0x0, 0x0, 0x0, 0x0, 0x0, 0x0, 0x0, 0x0⟩,
   ⟨0x058, 4, 1, 0x0, 0x0, 0x0, 0x0, 0x0, 0x0, 0x0, 0xFFFFFFFF, 0x0⟩,
   ⟨0x05C, 4, 1, 0x0, 0x0, 0x0, 0x0, 0x0, 0x0, 0x0, 0xFFFF, 0x0⟩,
   ⟨0x060, 4, 1, 0x0, 0x0, 0x0, 0x0, 0x0, 0xFFFF, 0x0, 0x0, 0x0⟩]

/-- The block registers of HRT. -/
def rowsHRT : List RegRow :=
  [⟨0x008, 4, 1, 0x0, 0x0, 0x0, 0x0, 0x0, 0x0, 0x0, 0x1, 0x0⟩,
   ⟨0x00C, 4, 1, 0xFFFFFFFF, 0x0, 0x0, 0x0, 0x0, 0x0, 0x0, 0x0, 0x0⟩,
   ⟨0x010, 4, 1, 0x0, 0x0, 0x1F, 0x0, 0x0, 0x0, 0x0, 0x0, 0x0⟩,
   ⟨0x040, 4, 1, 0x0, 0x0, 0x0, 0x0, 0x0, 0x0, 0x0, 0xFFFFFFFF, 0x1000100⟩,
   ⟨0x044, 4, 1, 0x0, 0x0, 0x0, 0x0, 0x0, 0x0, 0x0, 0xFFFFFFFF, 0x96004B⟩,
   ⟨0x048, 4, 1, 0x0, 0x0, 0x0, 0x0, 0x0, 0x0, 0x0, 0xFFFF, 0x3E8⟩,
   ⟨0x04C, 4, 1, 0xFFFFFFFF, 0x0, 0x0, 0x0, 0x0, 0x0, 0x0, 0x0, 0x0⟩,
   ⟨0x050, 4, 1, 0x0, 0x0, 0x0, 0x0, 0x0, 0xFFFFFFFF, 0x0, 0x0, 0x0⟩,
   ⟨0x054, 4, 1, 0x0, 0x0, 0x0, 0x0, 0x0, 0xFFFFFFFF, 0x0, 0x0, 0x0⟩,
   ⟨0x100, 32, 32, 0x0, 0x0, 0x0, 0x0, 0x0, 0x0, 0x0, 0x3F1F0F, 0x500⟩,
   ⟨0x104, 32, 32, 0x0, 0x0, 0x0, 0x0, 0x0, 0x0, 0x0, 0xFFFFFFFF, 0x0⟩,
   ⟨0x108, 32, 32, 0x0, 0x0, 0x0, 0x0, 0x0, 0x0, 0x0, 0xFF, 0x0⟩,
   ⟨0x10C, 32, 32, 0x0, 0x0, 0x0, 0x0, 0x0, 0x0, 0x0, 0xFFFFFFFF, 0x0⟩,
   ⟨0x110, 32, 32, 0x0, 0x0, 0x0, 0x0, 0x0, 0x0, 0x0, 0xFFFFFFFF, 0x0⟩,
   ⟨0x114, 32, 32, 0x3FFF1F, 0x0, 0x0, 0x0, 0x0, 0x0, 0x0, 0x0, 0x0⟩,
   ⟨0x118, 32, 32, 0x0, 0x0, 0x0, 0x0, 0x0, 0xFFFFFFFF, 0x0, 0x0, 0x0⟩]

/-- The block registers of MTV. -/
def rowsMTV : List RegRow :=
  [⟨0x008, 4, 1, 0x0, 0x0, 0x0, 0x4, 0x0, 0x0, 0x3, 0x0, 0x0⟩,
   ⟨0x00C, 4, 1, 0xF, 0x0, 0x0, 0x0, 0x0, 0x0, 0x0, 0x0, 0x0⟩,
   ⟨0x010, 4, 1, 0x0, 0x0, 0x3F, 0x0, 0x0, 0x0, 0x0, 0x0, 0x0⟩,
   ⟨0x040, 4, 32, 0xC000, 0x0, 0x0, 0x0, 0x0, 0x0, 0xFFF, 0x0, 0x0⟩,
   ⟨0x0C0, 4, 8, 0x0, 0x0, 0x0, 0x0, 0x0, 0x0, 0x80000F3F, 0x0, 0x17⟩]

/-- The block registers of MTR. -/
def rowsMTR : List RegRow :=
  [⟨0x008, 4, 1, 0x0, 0x0, 0x0, 0x0, 0x0, 0x0, 0x0, 0x1, 0x0⟩,
   ⟨0x00C, 4, 1, 0x1, 0x0, 0x0, 0x0, 0x0, 0x0, 0x0, 0x0, 0x0⟩,
   ⟨0x010, 4, 1, 0x0, 0x0, 0x3, 0x0, 0x0, 0x0, 0x0, 0x0, 0x0⟩,
   ⟨0x040, 4, 1, 0x0, 0x0, 0x0, 0x0, 0x0, 0x0, 0x0, 0xFFFFFFF0, 0x0⟩,
   ⟨0x080, 4, 32, 0xFFFFFFFF, 0x0, 0x0, 0x0, 0x0, 0x0, 0x0, 0x0, 0x0⟩,
   ⟨0x100, 128, 8, 0xFF03FE, 0x0, 0x0, 0x0, 0x0, 0x0, 0x0, 0x0, 0x0⟩,
   ⟨0x104, 128, 8, 0xFFFFFFFF, 0x0, 0x0, 0x0, 0x0, 0x0, 0x0, 0x0, 0x0⟩,
   ⟨0x108, 128, 8, 0xFFFFFFFF, 0x0, 0x0, 0x0, 0x0, 0x0, 0x0, 0x0, 0x0⟩,
   ⟨0x10C, 128, 8, 0xFFFFFFFF, 0x0, 0x0, 0x0, 0x0, 0x0, 0x0, 0x0, 0x0⟩,
   ⟨0x110, 128, 8, 0xFFFFFFFF, 0x0, 0x0, 0x0, 0x0, 0x0, 0x0, 0x0, 0x0⟩,
   ⟨0x114, 128, 8, 0xFFFFFFFF, 0x0, 0x0, 0x0, 0x0, 0x0, 0x0, 0x0, 0x0⟩,
   ⟨0x118, 128, 8, 0xFFFFFFFF, 0x0, 0x0, 0x0, 0x0, 0x0, 0x0, 0x0, 0x0⟩,
   ⟨0x11C, 128, 8, 0xFFFFFFFF, 0x0, 0x0, 0x0, 0x0, 0x0, 0x0, 0x0, 0x0⟩,
   ⟨0x120, 128, 8, 0xFFFFFFFF, 0x0, 0x0, 0x0, 0x0, 0x0, 0x0, 0x0, 0x0⟩,
   ⟨0x124, 128, 8, 0xFFFFFFFF, 0x0, 0x0, 0x0, 0x0, 0x0, 0x0, 0x0, 0x0⟩,
   ⟨0x128, 128, 8, 0xFFFFFFFF, 0x0, 0x0, 0x0, 0x0, 0x0, 0x0, 0x0, 0x0⟩,
   ⟨0x12C, 128, 8, 0xFFFFFFFF, 0x0, 0x0, 0x0, 0x0, 0x0, 0x0, 0x0, 0x0⟩,
   ⟨0x130, 128, 8, 0xFFFFFFFF, 0x0, 0x0, 0x0, 0x0, 0x0, 0x0, 0x0, 0x0⟩,
   ⟨0x134, 128, 8, 0xFFFFFFFF, 0x0, 0x0, 0x0, 0x0, 0x0, 0x0, 0x0, 0x0⟩,
   ⟨0x138, 128, 8, 0xFFFFFFFF, 0x0, 0x0, 0x0, 0x0, 0x0, 0x0, 0x0, 0x0⟩,
   ⟨0x13C, 128, 8, 0xFFFFFFFF, 0x0, 0x0, 0x0, 0x0, 0x0, 0x0, 0x0, 0x0⟩,
   ⟨0x140, 128, 8, 0xFFFFFFFF, 0x0, 0x0, 0x0, 0x0, 0x0, 0x0, 0x0, 0x0⟩,
   ⟨0x144, 128, 8, 0xFFFFFFFF, 0x0, 0x0, 0x0, 0x0, 0x0, 0x0, 0x0, 0x0⟩,
   ⟨0x148, 128, 8, 0xFFFFFFFF, 0x0, 0x0, 0x0, 0x0, 0x0, 0x0, 0x0, 0x0⟩,
   ⟨0x14C, 128, 8, 0xFFFFFFFF, 0x0, 0x0, 0x0, 0x0, 0x0, 0x0, 0x0, 0x0⟩,
   ⟨0x150, 128, 8, 0xFFFFFFFF, 0x0, 0x0, 0x0, 0x0, 0x0, 0x0, 0x0, 0x0⟩,
   ⟨0x154, 128, 8, 0xFFFFFFFF, 0x0, 0x0, 0x0, 0x0, 0x0, 0x0, 0x0, 0x0⟩,
   ⟨0x158, 128, 8, 0xFFFFFFFF, 0x0, 0x0, 0x0, 0x0, 0x0, 0x0, 0x0, 0x0⟩,
   ⟨0x15C, 128, 8, 0xFFFFFFFF, 0x0, 0x0, 0x0, 0x0, 0x0, 0x0, 0x0, 0x0⟩,
   ⟨0x160, 128, 8, 0xFFFFFFFF, 0x0, 0x0, 0x0, 0x0, 0x0, 0x0, 0x0, 0x0⟩,
   ⟨0x164, 128, 8, 0xFFFFFFFF, 0x0, 0x0, 0x0, 0x0, 0x0, 0x0, 0x0, 0x0⟩,
   ⟨0x168, 128, 8, 0xFFFFFFFF, 0x0, 0x0, 0x0, 0x0, 0x0, 0x0, 0x0, 0x0⟩,
   ⟨0x16C, 128, 8, 0xFFFFFFFF, 0x0, 0x0, 0x0, 0x0, 0x0, 0x0, 0x0, 0x0⟩,
   ⟨0x170, 128, 8, 0xFFFFFFFF, 0x0, 0x0, 0x0, 0x0, 0x0, 0x0, 0x0, 0x0⟩,
   ⟨0x174, 128, 8, 0xFFFFFFFF, 0x0, 0x0, 0x0, 0x0, 0x0, 0x0, 0x0, 0x0⟩,
   ⟨0x178, 128, 8, 0xFFFFFFFF, 0x0, 0x0, 0x0, 0x0, 0x0, 0x0, 0x0, 0x0⟩,
   ⟨0x17C, 128, 8, 0xFFFFFFFF, 0x0, 0x0, 0x0, 0x0, 0x0, 0x0, 0x0, 0x0⟩]

/-- The block registers of MTE. -/
def rowsMTE : List RegRow :=
  [⟨0x008, 4, 1, 0x0, 0x0, 0x0, 0x1, 0x0, 0x0, 0x0, 0x0, 0x0⟩,
   ⟨0x00C, 4, 1, 0x1, 0x0, 0x0, 0x0, 0x0, 0x0, 0x0, 0x0, 0x0⟩,
   ⟨0x010, 4, 1, 0x0, 0x0, 0xF, 0x0, 0x0, 0x0, 0x0, 0x0, 0x0⟩,
   ⟨0x040, 4, 8, 0x0, 0x0, 0x0, 0x0, 0x0, 0x0, 0x7, 0x0, 0x3⟩,
   ⟨0x060, 4, 1, 0x0, 0x0, 0x0, 0x0, 0x0, 0x0, 0x3F, 0x0, 0xF⟩,
   ⟨0x064, 4, 1, 0x0, 0x0, 0x0, 0x0, 0x0, 0x0, 0x13F, 0x0, 0xF⟩,
   ⟨0x068, 4, 1, 0x0, 0x7, 0x0, 0x0, 0x0, 0x0, 0x80000000, 0x0, 0x0⟩,
   ⟨0x318, 32, 8, 0xFFFF0001, 0x0, 0x0, 0x0, 0x0, 0x0, 0x0, 0x0, 0x0⟩,
   ⟨0x100, 8, 64, 0xFFFFFFFF, 0x0, 0x0, 0x0, 0x0, 0x0, 0x0, 0x0, 0x0⟩,
   ⟨0x104, 8, 64, 0xFFFFFFFF, 0x0, 0x0, 0x0, 0x0, 0x0, 0x0, 0x0, 0x0⟩,
   ⟨0x300, 32, 8, 0xFFFFFFFF, 0x0, 0x0, 0x0, 0x0, 0x0, 0x0, 0x0, 0x0⟩,
   ⟨0x304, 32, 8, 0xFFFFFFFF, 0x0, 0x0, 0x0, 0x0, 0x0, 0x0, 0x0, 0x0⟩,
   ⟨0x308, 32, 8, 0xFFFFFFFF, 0x0, 0x0, 0x0, 0x0, 0x0, 0x0, 0x0, 0x0⟩,
   ⟨0x30C, 32, 8, 0xFFFFFFFF, 0x0, 0x0, 0x0, 0x0, 0x0, 0x0, 0x0, 0x0⟩,
   ⟨0x310, 32, 8, 0xFFFFFFFF, 0x0, 0x0, 0x0, 0x0, 0x0, 0x0, 0x0, 0x0⟩,
   ⟨0x314, 32, 8, 0xFFFFFFFF, 0x0, 0x0, 0x0, 0x0, 0x0, 0x0, 0x0, 0x0⟩,
   ⟨0x31C, 32, 8, 0x0, 0x0, 0x0, 0x1, 0x0, 0x0, 0x0, 0x0, 0x0⟩]

/-- The block registers of PLS. -/
def rowsPLS : List RegRow :=
  [⟨0x00C, 4, 1, 0xFFFF, 0x0, 0x0, 0x0, 0x0, 0x0, 0x0, 0x0, 0x0⟩,
   ⟨0x010, 4, 1, 0x0, 0x0, 0xFF, 0x0, 0x0, 0x0, 0x0, 0x0, 0x0⟩,
   ⟨0x040, 16, 8, 0x0, 0x0, 0x0, 0x0, 0x0, 0x0, 0x807F0077, 0x0, 0x320000⟩,
   ⟨0x044, 16, 8, 0x0, 0x0, 0x0, 0x0, 0x0, 0x0, 0xFFFFFFFF, 0x0, 0x3E8⟩,
   ⟨0x048, 16, 8, 0xFF, 0x0, 0x0, 0x0, 0x0, 0xFFFF0000, 0x0, 0x0, 0x0⟩]

/-- The block registers of SERn. -/
def rowsSER : List RegRow :=
  [⟨0x008, 4, 1, 0x0, 0x0, 0x0, 0x0, 0x0, 0x0, 0x0, 0x1, 0x0⟩,
   ⟨0x00C, 4, 1, 0x7, 0x0, 0x0, 0x0, 0x0, 0x0, 0x0, 0x0, 0x0⟩,
   ⟨0x010, 4, 1, 0x0, 0x0, 0xF, 0x0, 0x0, 0x0, 0x0, 0x0, 0x0⟩,
   ⟨0x040, 4, 1, 0x0, 0x0, 0x0, 0x0, 0x0, 0x0, 0x0, 0xFF0000FF, 0x4⟩,
   ⟨0x044, 4, 1, 0x0, 0x0, 0x0, 0x0, 0x0, 0x0, 0x0, 0x3FFFFF, 0x65B9B⟩,
   ⟨0x048, 4, 1, 0x0, 0x0, 0x0, 0x0, 0x0, 0x0, 0x0, 0xFFFFFFFF, 0xC86414⟩,
   ⟨0x04C, 4, 1, 0x0, 0x0, 0x0, 0x0, 0x0, 0xFFFFFFFF, 0x0, 0x0, 0x0⟩]

/-- The block registers of SVC. -/
def rowsSVC : List RegRow :=
  [⟨0x008, 4, 1, 0x0, 0x0, 0x0, 0x0, 0x0, 0x0, 0x0, 0x1, 0x0⟩,
   ⟨0x00C, 4, 1, 0xFFFF, 0x0, 0x0, 0x0, 0x0, 0x0, 0x0, 0x0, 0x40⟩,
   ⟨0x010, 4, 1, 0x0, 0x0, 0x7, 0x0, 0x0, 0x0, 0x0, 0x0, 0x0⟩,
   ⟨0x048, 4, 1, 0x0, 0x0, 0x0, 0x0, 0xFF, 0x0, 0x0, 0x0, 0x0⟩,
   ⟨0x04C, 4, 1, 0x0, 0x0, 0x0, 0x0, 0x0, 0x1FF, 0x0, 0x0, 0x0⟩,
   ⟨0x044, 4, 1, 0x0, 0x0, 0x0, 0x0, 0x0, 0x0, 0x0, 0x3FFFFF, 0x87A2⟩]

/-- The block registers of ETH. -/
def rowsETH : List RegRow :=
  [⟨0x008, 4, 1, 0x0, 0x0, 0x0, 0x0, 0x0, 0x0, 0x0, 0x3, 0x0⟩,
   ⟨0x00C, 4, 1, 0xFF, 0x0, 0x0, 0x0, 0x0, 0x0, 0x0, 0x0, 0x0⟩,
   ⟨0x010, 4, 1, 0x0, 0x0, 0xF, 0x0, 0x0, 0x0, 0x0, 0x0, 0x0⟩,
   ⟨0x040, 4, 1, 0x8003FFFF, 0x0, 0x0, 0x0, 0x0, 0x0, 0x0, 0x0, 0x0⟩,
   ⟨0x044, 4, 1, 0xFFFFFFFF, 0x0, 0x0, 0x0, 0x0, 0x0, 0x0, 0x0, 0x0⟩,
   ⟨0x048, 4, 1, 0xFFFFFFFF, 0x0, 0x0, 0x0, 0x0, 0x0, 0x0, 0x0, 0x0⟩,
   ⟨0x04C, 4, 1, 0x0, 0x0, 0x0, 0x0, 0x0, 0xFFFFFFFF, 0x0, 0x0, 0x0⟩]

/-- The block registers of ESW. -/
def rowsESW : List RegRow :=
  [⟨0x008, 4, 1, 0x0, 0x0, 0x0, 0x0, 0x0, 0x0, 0x1, 0x0, 0x0⟩,
   ⟨0x010, 4, 1, 0x0, 0x0, 0x7, 0x0, 0x0, 0x0, 0x0, 0x0, 0x0⟩,
   ⟨0x040, 4, 1, 0x0, 0x0, 0x0, 0x0, 0x0, 0x0, 0x0, 0xFFF0FFF, 0x10001⟩,
   ⟨0x080, 4, 16, 0x0, 0x0, 0x0, 0x0, 0x0, 0x0, 0x0, 0x80007FFF, 0x0⟩]

/-- The block registers of CHR. -/
def rowsCHR : List RegRow :=
  [⟨0x00C, 4, 1, 0x3F, 0x0, 0x0, 0x0, 0x0, 0x0, 0x0, 0x0, 0x0⟩,
   ⟨0x010, 4, 1, 0x0, 0x0, 0x7F, 0x0, 0x0, 0x0, 0x0, 0x0, 0x0⟩,
   ⟨0x040, 4, 1, 0x1, 0x0, 0x0, 0x0, 0x0, 0x0, 0x0, 0x100, 0x0⟩,
   ⟨0x044, 4, 1, 0x0, 0x0, 0x0, 0x0, 0x0, 0x0, 0x0, 0xFFFFFFFF, 0x0⟩,
   ⟨0x048, 4, 1, 0x7FFF, 0x0, 0x0, 0x0, 0x0, 0x0, 0x0, 0x0, 0x0⟩,
   ⟨0x04C, 4, 1, 0xFFFFFFFF, 0x0, 0x0, 0x0, 0x0, 0x0, 0x0, 0x0, 0x0⟩,
   ⟨0x050, 4, 1, 0xFFFFFFFF, 0x0, 0x0, 0x0, 0x0, 0x0, 0x0, 0x0, 0x0⟩,
   ⟨0x054, 4, 1, 0xFFFFFFFF, 0x0, 0x0, 0x0, 0x0, 0x0, 0x0, 0x0, 0x0⟩,
   ⟨0x058, 4, 1, 0xFFFFFFFF, 0x0, 0x0, 0x0, 0x0, 0x0, 0x0, 0x0, 0x0⟩,
   ⟨0x05C, 4, 1, 0xFFFFFFFF, 0x0, 0x0, 0x0, 0x0, 0x0, 0x0, 0x0, 0x0⟩,
   ⟨0x060, 4, 1, 0xFFFFFFFF, 0x0, 0x0, 0x0, 0x0, 0x0, 0x0, 0x0, 0x0⟩,
   ⟨0x064, 4, 1, 0x0, 0x0, 0x0, 0x0, 0x0, 0x0, 0x0, 0x7, 0x0⟩,
   ⟨0x080, 16, 2, 0x0, 0x0, 0x0, 0x0, 0x0, 0x0, 0x0, 0x80000306, 0x0⟩,
   ⟨0x084, 16, 2, 0x0, 0x0, 0x0, 0x0, 0x0, 0x0, 0x0, 0xFFFFFFFF, 0x0⟩,
   ⟨0x088, 16, 2, 0x0, 0x0, 0x0, 0x0, 0x0, 0x0, 0x0, 0xFFFFFFFF, 0x0⟩,
   ⟨0x08C, 16, 2, 0x0, 0x0, 0x0, 0x0, 0x0, 0x0, 0x0, 0x7FFF7FFF, 0x0⟩]

/-- The block registers of NVM. -/
def rowsNVM : List RegRow :=
  [⟨0x008, 4, 1, 0x0, 0x0, 0x0, 0x1, 0x0, 0x0, 0x0, 0x0, 0x0⟩,
   ⟨0x00C, 4, 1, 0x1F, 0x0, 0x0, 0x0, 0x0, 0x0, 0x0, 0x0, 0x0⟩,
   ⟨0x010, 4, 1, 0x0, 0x0, 0x3F, 0x0, 0x0, 0x0, 0x0, 0x0, 0x0⟩,
   ⟨0x040, 4, 1, 0x0, 0x0, 0x0, 0x80000000, 0x0, 0x0, 0x0, 0x7FFFF9FF, 0x0⟩,
   ⟨0x044, 4, 1, 0xFFFFFFFF, 0x0, 0x0, 0x0, 0x0, 0x0, 0x0, 0x0, 0x0⟩,
   ⟨0x048, 4, 1, 0x0, 0x0, 0x0, 0x0, 0x0, 0x0, 0x0, 0x1FFFFF, 0x0⟩,
   ⟨0x04C, 4, 1, 0xFF01FF, 0x0, 0x0, 0x0, 0x0, 0x0, 0x0, 0x0, 0x0⟩,
   ⟨0x050, 4, 1, 0xFFFFFF, 0x0, 0x0, 0x0, 0x0, 0x0, 0x0, 0x0, 0x0⟩,
   ⟨0x054, 4, 1, 0x0, 0x0, 0x0, 0x0, 0x0, 0xFFFFFFFF, 0x0, 0x0, 0x0⟩,
   ⟨0x058, 4, 1, 0x801FFFFF, 0x0, 0x0, 0x0, 0x0, 0x0, 0x0, 0x0, 0x0⟩,
   ⟨0x05C, 4, 1, 0xFFFFFFFF, 0x0, 0x0, 0x0, 0x0, 0x0, 0x0, 0x0, 0x0⟩,
   ⟨0x100, 4, 64, 0x0, 0x0, 0x0, 0x0, 0x0, 0x0, 0x0, 0xFFFFFFFF, 0x0⟩]

/-- The block registers of NCT. -/
def rowsNCT : List RegRow :=
  [⟨0x00C, 4, 1, 0x1FFFF, 0x0, 0x0, 0x0, 0x0, 0x0, 0x0, 0x0, 0x0⟩,
   ⟨0x010, 4, 1, 0x0, 0x0, 0x7, 0x0, 0x0, 0x0, 0x0, 0x0, 0x0⟩,
   ⟨0x040, 4, 1, 0x0, 0x0, 0x0, 0x80000000, 0x0, 0x0, 0x0, 0x10000007, 0x0⟩,
   ⟨0x044, 4, 1, 0x0, 0x0, 0x0, 0x0, 0x0, 0x0, 0x0, 0xFFFFFFFF, 0x0⟩,
   ⟨0x048, 4, 1, 0xFFFFFFFF, 0x0, 0x0, 0x0, 0x0, 0x0, 0x0, 0x0, 0x0⟩,
   ⟨0x080, 4, 8, 0xFFFFFFFF, 0x0, 0x0, 0x0, 0x0, 0x0, 0x0, 0x0, 0x0⟩,
   ⟨0x0A0, 4, 8, 0xFFFFFFFF, 0x0, 0x0, 0x0, 0x0, 0x0, 0x0, 0x0, 0x0⟩]

/-- The block registers of EVR. -/
def rowsEVR : List RegRow :=
  [⟨0x00C, 4, 1, 0xFF, 0x0, 0x0, 0x0, 0x0, 0x0, 0x0, 0x0, 0x0⟩,
   ⟨0x010, 4, 1, 0x0, 0x0, 0x1F, 0x0, 0x0, 0x0, 0x0, 0x0, 0x0⟩,
   ⟨0x040, 4, 1, 0x0, 0x31FFF, 0x0, 0x80000000, 0x0, 0x0, 0x0, 0x0, 0x0⟩,
   ⟨0x044, 4, 1, 0x0, 0x0, 0x0, 0x0, 0x0, 0x0, 0x0, 0x1F, 0x0⟩,
   ⟨0x048, 4, 1, 0xE0001FFF, 0x0, 0x0, 0x0, 0x0, 0x0, 0x0, 0x0, 0x0⟩,
   ⟨0x04C, 4, 1, 0x3FFF, 0x0, 0x0, 0x0, 0x0, 0x0, 0x0, 0x0, 0x0⟩,
   ⟨0x050, 4, 1, 0x0, 0x0, 0x0, 0x0, 0x0, 0xFFFF, 0x0, 0x0, 0x0⟩,
   ⟨0x054, 4, 1, 0x0, 0x0, 0x0, 0x0, 0x0, 0xFFFF, 0x0, 0x0, 0x0⟩,
   ⟨0x058, 4, 1, 0xFFFFFFFF, 0x0, 0x0, 0x0, 0x0, 0x0, 0x0, 0x0, 0x0⟩,
   ⟨0x05C, 4, 1, 0x3, 0x0, 0x0, 0x80000000, 0x0, 0x0, 0x0, 0x0, 0x0⟩,
   ⟨0x060, 4, 8, 0xFFFFFFFF, 0x0, 0x0, 0x0, 0x0, 0x0, 0x0, 0x0, 0x0⟩,
   ⟨0x200, 4, 128, 0x0, 0x0, 0x0, 0x0, 0x0, 0x0, 0x0, 0xFFFFFFFF, 0x0⟩]

/-- The block registers of KEY. -/
def rowsKEY : List RegRow :=
  [⟨0x00C, 4, 1, 0x7, 0x0, 0x0, 0x0, 0x0, 0x0, 0x0, 0x0, 0x0⟩,
   ⟨0x010, 4, 1, 0x0, 0x0, 0x1F, 0x0, 0x0, 0x0, 0x0, 0x0, 0x0⟩,
   ⟨0x040, 4, 1, 0x0, 0x0, 0x0, 0x80000000, 0x0, 0x0, 0x0, 0x0, 0x0⟩,
   ⟨0x044, 4, 1, 0xFF00001F, 0x0, 0x0, 0x0, 0x0, 0x0, 0x0, 0x0, 0x0⟩,
   ⟨0x048, 4, 1, 0x0, 0x1F, 0x0, 0x0, 0x0, 0x0, 0x0, 0x0, 0x0⟩,
   ⟨0x04C, 4, 1, 0xFFFFFF07, 0x0, 0x0, 0x0, 0x0, 0x0, 0x0, 0x0, 0x0⟩,
   ⟨0x050, 4, 1, 0xFF, 0x0, 0x0, 0x0, 0x0, 0x0, 0x0, 0x0, 0x0⟩,
   ⟨0x054, 4, 1, 0xFFFFFFFF, 0x0, 0x0, 0x0, 0x0, 0x0, 0x0, 0x0, 0x0⟩,
   ⟨0x800, 4, 512, 0x0, 0x0, 0x0, 0x0, 0x0, 0x0, 0x0, 0xFFFFFFFF, 0x0⟩]

/-- The block registers of CRY. -/
def rowsCRY : List RegRow :=
  [⟨0x008, 4, 1, 0x0, 0x0, 0x0, 0x0, 0x0, 0x0, 0x1, 0x0, 0x0⟩,
   ⟨0x00C, 4, 1, 0x1F0007, 0x0, 0x0, 0x0, 0x0, 0x0, 0x0, 0x0, 0x0⟩,
   ⟨0x010, 4, 1, 0x0, 0x0, 0x1F, 0x0, 0x0, 0x0, 0x0, 0x0, 0x0⟩,
   ⟨0x040, 4, 1, 0x0, 0x0, 0x0, 0x80000000, 0x0, 0x0, 0x0, 0x7003F1F, 0x0⟩,
   ⟨0x044, 4, 1, 0x0, 0x0, 0x0, 0x0, 0x0, 0x0, 0x0, 0xFFFFFFFF, 0x0⟩,
   ⟨0x048, 4, 1, 0x0, 0x0, 0x0, 0x0, 0x0, 0x0, 0x0, 0x1FFF0007, 0x0⟩,
   ⟨0x04C, 4, 1, 0xFF00003F, 0x0, 0x0, 0x0, 0x0, 0x0, 0x0, 0x0, 0x0⟩,
   ⟨0x050, 4, 1, 0x0, 0x3F, 0x0, 0x0, 0x0, 0x0, 0x0, 0x0, 0x0⟩,
   ⟨0x054, 4, 1, 0xFFFF1F07, 0x0, 0x0, 0x0, 0x0, 0x0, 0x0, 0x0, 0x0⟩,
   ⟨0x058, 4, 1, 0x0, 0x0, 0x0, 0x0, 0x0, 0xFFFFFFFF, 0x0, 0x0, 0x0⟩,
   ⟨0x080, 4, 8, 0x0, 0x0, 0x0, 0x0, 0xFFFFFFFF, 0x0, 0x0, 0x0, 0x0⟩]

/-- The block registers of BOOT. -/
def rowsBOOT : List RegRow :=
  [⟨0x008, 4, 1, 0x0, 0x0, 0x0, 0x0, 0x0, 0x0, 0x1, 0x0, 0x0⟩,
   ⟨0x00C, 4, 1, 0x3EFF, 0x0, 0x0, 0x0, 0x0, 0x0, 0x0, 0x0, 0x11⟩,
   ⟨0x010, 4, 1, 0x0, 0x0, 0x1F, 0x0, 0x0, 0x0, 0x0, 0x0, 0x0⟩,
   ⟨0x040, 4, 1, 0x0, 0x0, 0x0, 0x80000000, 0x0, 0x0, 0x0, 0x101, 0x0⟩,
   ⟨0x080, 64, 2, 0x0, 0x0, 0x0, 0x0, 0x0, 0x0, 0x0, 0xF300FFFF, 0x0⟩,
   ⟨0x084, 64, 2, 0x0, 0x0, 0x0, 0x0, 0x0, 0x0, 0x0, 0xFFFFFFFF, 0x0⟩,
   ⟨0x088, 64, 2, 0x0, 0x0, 0x0, 0x0, 0x0, 0x0, 0x0, 0xFFFFFFFF, 0x0⟩,
   ⟨0x090, 64, 2, 0x0, 0x0, 0x0, 0x0, 0x0, 0x0, 0x0, 0xFFFFFFFF, 0x0⟩,
   ⟨0x094, 64, 2, 0x0, 0x0, 0x0, 0x0, 0x0, 0x0, 0x0, 0xFFFFFFFF, 0x0⟩,
   ⟨0x098, 64, 2, 0x0, 0x0, 0x0, 0x0, 0x0, 0x0, 0x0, 0xFFFFFFFF, 0x0⟩,
   ⟨0x09C, 64, 2, 0x0, 0x0, 0x0, 0x0, 0x0, 0x0, 0x0, 0xFFFFFFFF, 0x0⟩,
   ⟨0x0A0, 64, 2, 0x0, 0x0, 0x0, 0x0, 0x0, 0x0, 0x0, 0xFFFFFFFF, 0x0⟩,
   ⟨0x0A4, 64, 2, 0x0, 0x0, 0x0, 0x0, 0x0, 0x0, 0x0, 0xFFFFFFFF, 0x0⟩,
   ⟨0x0A8, 64, 2, 0x0, 0x0, 0x0, 0x0, 0x0, 0x0, 0x0, 0xFFFFFFFF, 0x0⟩,
   ⟨0x0AC, 64, 2, 0x0, 0x0, 0x0, 0x0, 0x0, 0x0, 0x0, 0xFFFFFFFF, 0x0⟩]

/-- The block registers of XFL. -/
def rowsXFL : List RegRow :=
  [⟨0x00C, 4, 1, 0x1, 0x0, 0x0, 0x0, 0x0, 0x0, 0x0, 0x0, 0x0⟩,
   ⟨0x010, 4, 1, 0x0, 0x0, 0x7, 0x0, 0x0, 0x0, 0x0, 0x0, 0x0⟩,
   ⟨0x040, 4, 1, 0x0, 0x0, 0x0, 0x80000000, 0x0, 0x0, 0x0, 0x70000000, 0x0⟩,
   ⟨0x044, 4, 1, 0x0, 0x0, 0x0, 0x0, 0x0, 0x0, 0x0, 0xFFFFFFFF, 0x0⟩,
   ⟨0x048, 4, 1, 0x0, 0x0, 0x0, 0x0, 0x0, 0x0, 0x0, 0xFFFFFFFF, 0x0⟩,
   ⟨0x04C, 4, 1, 0x0, 0x0, 0x0, 0x0, 0x0, 0x0, 0x0, 0xFFFFFFFF, 0x0⟩,
   ⟨0x050, 4, 1, 0xFF, 0x0, 0x0, 0x0, 0x0, 0x0, 0x0, 0x0, 0x0⟩,
   ⟨0x054, 4, 1, 0x3, 0x0, 0x0, 0x0, 0x0, 0x0, 0x0, 0x0, 0x0⟩,
   ⟨0x060, 4, 8, 0xFFFFFFFF, 0x0, 0x0, 0x0, 0x0, 0x0, 0x0, 0x0, 0x0⟩]

/-- The block registers of PMU. -/
def rowsPMU : List RegRow :=
  [⟨0x008, 4, 1, 0x0, 0x2, 0x0, 0xC, 0x0, 0x0, 0x1, 0x0, 0x3⟩,
   ⟨0x00C, 4, 1, 0x7F, 0x0, 0x0, 0x0, 0x0, 0x0, 0x0, 0x0, 0x0⟩,
   ⟨0x010, 4, 1, 0x0, 0x0, 0x1F, 0x0, 0x0, 0x0, 0x0, 0x0, 0x0⟩,
   ⟨0x040, 4, 1, 0xFFFFFFFF, 0x0, 0x0, 0x0, 0x0, 0x0, 0x0, 0x0, 0x0⟩,
   ⟨0x044, 4, 1, 0xFFFF, 0x0, 0x0, 0x0, 0x0, 0x0, 0x0, 0x0, 0x3E8⟩,
   ⟨0x048, 4, 1, 0xFFFF, 0x0, 0x0, 0x0, 0x0, 0x0, 0x0, 0x0, 0x0⟩,
   ⟨0x04C, 4, 1, 0xFFFF, 0x0, 0x0, 0x0, 0x0, 0x0, 0x0, 0x0, 0x0⟩,
   ⟨0x050, 4, 1, 0x0, 0x0, 0x0, 0x0, 0x0, 0x0, 0x0, 0xF00FFFF, 0x80036B0⟩,
   ⟨0x054, 4, 1, 0x0, 0x0, 0x0, 0x0, 0x0, 0x0, 0x0, 0x1FFF, 0x1388⟩,
   ⟨0x058, 4, 1, 0x7FFFFF, 0x0, 0x0, 0x0, 0x0, 0x0, 0x0, 0x0, 0x0⟩,
   ⟨0x05C, 4, 1, 0x0, 0x0, 0x0, 0x0, 0x0, 0xFFFFFFFF, 0x0, 0x0, 0x0⟩,
   ⟨0x060, 4, 1, 0x0, 0x0, 0x0, 0x0, 0x0, 0x0, 0x0, 0x3, 0x0⟩]

/-- The block registers of PRF. -/
def rowsPRF : List RegRow :=
  [⟨0x008, 4, 1, 0x0, 0x0, 0x0, 0x1, 0x0, 0x0, 0x0, 0x0, 0x0⟩,
   ⟨0x00C, 4, 1, 0x7F3, 0x0, 0x0, 0x0, 0x0, 0x0, 0x0, 0x0, 0x0⟩,
   ⟨0x010, 4, 1, 0x0, 0x0, 0xF, 0x0, 0x0, 0x0, 0x0, 0x0, 0x0⟩,
   ⟨0x040, 4, 1, 0x0, 0x0, 0x0, 0x80000000, 0x0, 0x0, 0x0, 0x3, 0x0⟩,
   ⟨0x044, 4, 1, 0x0, 0x0, 0x0, 0x80000000, 0x0, 0x0, 0x0, 0x3, 0x0⟩,
   ⟨0x048, 4, 1, 0x0, 0x0, 0x0, 0x0, 0x0, 0x0, 0x0, 0xFFFC0000, 0x0⟩,
   ⟨0x04C, 4, 1, 0xFFFFFFFF, 0x0, 0x0, 0x0, 0x0, 0x0, 0x0, 0x0, 0x0⟩]

/-- The block registers of OHM. -/
def rowsOHM : List RegRow :=
  [⟨0x008, 4, 1, 0x0, 0x0, 0x0, 0x1, 0x0, 0x0, 0x0, 0x0, 0x0⟩,
   ⟨0x00C, 4, 1, 0x3, 0x0, 0x0, 0x0, 0x0, 0x0, 0x0, 0x0, 0x0⟩,
   ⟨0x010, 4, 1, 0x0, 0x0, 0x3, 0x0, 0x0, 0x0, 0x0, 0x0, 0x0⟩,
   ⟨0x040, 4, 1, 0x0, 0x0, 0x0, 0x0, 0x0, 0x0, 0xFFFF, 0x0, 0x3E8⟩,
   ⟨0x044, 4, 1, 0x0, 0x0, 0x0, 0x0, 0x0, 0x0, 0xFFFFFF, 0x0, 0x0⟩]

/-- The block registers of FLT. -/
def rowsFLT : List RegRow :=
  [⟨0x010, 4, 1, 0x0, 0x0, 0xFFFF, 0x0, 0x0, 0x0, 0x0, 0x0, 0x0⟩,
   ⟨0x040, 4, 1, 0x0, 0x0, 0x0, 0x0, 0x0, 0x0, 0xFFFF, 0x0, 0xC40⟩,
   ⟨0x044, 4, 1, 0xFFFF007F, 0x0, 0x0, 0x0, 0x0, 0x0, 0x0, 0x0, 0x0⟩,
   ⟨0x048, 4, 1, 0xFFFFFFFF, 0x0, 0x0, 0x0, 0x0, 0x0, 0x0, 0x0, 0x0⟩,
   ⟨0x04C, 4, 1, 0x0, 0x0, 0x0, 0x0, 0x0, 0xFFFFFFFF, 0x0, 0x0, 0x0⟩]

/-- The block registers of WDT. -/
def rowsWDT : List RegRow :=
  [⟨0x00C, 4, 1, 0xFF, 0x0, 0x0, 0x0, 0x0, 0x0, 0x0, 0x0, 0x0⟩,
   ⟨0x010, 4, 1, 0x0, 0x0, 0x1F, 0x0, 0x0, 0x0, 0x0, 0x0, 0x0⟩,
   ⟨0x040, 4, 4, 0x0, 0x0, 0x0, 0x0, 0x0, 0x0, 0xE000FFFF, 0x0, 0x3E8⟩,
   ⟨0x050, 4, 4, 0x0, 0x0, 0x0, 0x0, 0xFFFFFFFF, 0x0, 0x0, 0x0, 0x0⟩]

/-- The block registers of INT. -/
def rowsINT : List RegRow :=
  [⟨0x00C, 4, 1, 0x3, 0x0, 0x0, 0x0, 0x0, 0x0, 0x0, 0x0, 0x0⟩,
   ⟨0x040, 4, 4, 0xFFFFFFFF, 0x0, 0x0, 0x0, 0x0, 0x0, 0x0, 0x0, 0x0⟩,
   ⟨0x050, 4, 1, 0x0, 0x0, 0x0, 0x0, 0xFFFF, 0x0, 0x0, 0x0, 0x0⟩,
   ⟨0x054, 4, 1, 0x0, 0x0, 0x0, 0x0, 0xFFFF, 0x0, 0x0, 0x0, 0x0⟩,
   ⟨0x100, 4, 16, 0x0, 0x0, 0x0, 0x0, 0x0, 0x0, 0x0, 0xFFFFFFFF, 0x88888888⟩]

/-- The block registers of EVS. -/
def rowsEVS : List RegRow :=
  [⟨0x00C, 4, 1, 0x800007FF, 0x0, 0x0, 0x0, 0x0, 0x0, 0x0, 0x0, 0x0⟩,
   ⟨0x010, 4, 1, 0x0, 0x0, 0x3, 0x0, 0x0, 0x0, 0x0, 0x0, 0x0⟩,
   ⟨0x040, 4, 1, 0xFFFFFFFF, 0x0, 0x0, 0x0, 0x0, 0x0, 0x0, 0x0, 0x0⟩,
   ⟨0x044, 4, 1, 0x0, 0x0, 0x0, 0x0, 0x0, 0xFFFFFFFF, 0x0, 0x0, 0x0⟩]

/-- The block registers of QMG. -/
def rowsQMG : List RegRow :=
  [⟨0x010, 4, 1, 0x0, 0x0, 0x1, 0x0, 0x0, 0x0, 0x0, 0x0, 0x0⟩,
   ⟨0x300, 32, 16, 0x0, 0x0, 0x0, 0x0, 0x0, 0x0, 0x0, 0xFFFFFFF0, 0x0⟩,
   ⟨0x304, 32, 16, 0x1FFF, 0x0, 0x0, 0x0, 0x0, 0x0, 0x0, 0x1FFF0000, 0x0⟩,
   ⟨0x308, 32, 16, 0x0, 0x0, 0x0, 0x0, 0x0, 0x0, 0x0, 0xFFFFFFF0, 0x0⟩,
   ⟨0x30C, 32, 16, 0x1FFF0000, 0x0, 0x0, 0x0, 0x0, 0x0, 0x0, 0x1FFF, 0x0⟩,
   ⟨0x310, 32, 16, 0x0, 0x0, 0x0, 0x0, 0x0, 0x0, 0x0, 0xC0FF0000, 0x0⟩]

/-- The block registers of MTC. -/
def rowsMTC : List RegRow :=
  [⟨0x040, 16, 32, 0x0, 0x0, 0x0, 0x0, 0x0, 0x0, 0xFFFFFF, 0x0, 0x400000⟩,
   ⟨0x044, 16, 32, 0x0, 0x0, 0x0, 0x0, 0x0, 0x0, 0xFFFFFFFF, 0x0, 0x0⟩,
   ⟨0x048, 16, 32, 0x0, 0x0, 0x0, 0x0, 0x0, 0x0, 0xFFFFFFFF, 0x0, 0x0⟩,
   ⟨0x240, 16, 8, 0x0, 0x0, 0x0, 0x0, 0x0, 0x0, 0xFFFFFFFF, 0x0, 0x43660000⟩,
   ⟨0x244, 16, 8, 0x0, 0x0, 0x0, 0x0, 0x0, 0x0, 0xFFFFFFFF, 0x0, 0x40A00000⟩,
   ⟨0x248, 16, 8, 0x0, 0x0, 0x0, 0x0, 0x0, 0x0, 0xFFFF, 0x0, 0xC8⟩]

/-- The block registers of page `p`: Damask page n is `n`, Muslin page n is `64 + n`. The 64 task
windows of TSK are pages 128 to 191, the 124 station windows of RIO are pages 192 to 315, and the 64
working-slot windows of CRY are pages 320 to 383: the bus shows the selected one (R49, R59, R60). -/
def pageRows (p : Nat) : List RegRow :=
  match p with
  | 0 => rowsSYS
  | 1 => rowsFAB
  | 2 => rowsMTB
  | 3 => rowsSCH
  | 4 => rowsTSK
  | 5 => rowsIMG
  | 6 => rowsDOM
  | 7 => rowsINT
  | 8 => rowsEVS
  | 9 => rowsFLT
  | 10 => rowsWDT
  | 11 => rowsBOOT
  | 12 => rowsPRF
  | 13 => rowsXFL
  | 14 => rowsCRY
  | 15 => rowsDDL
  | 16 => rowsENG
  | 17 => rowsENG
  | 18 => rowsENG
  | 19 => rowsENG
  | 20 => rowsENG
  | 21 => rowsENG
  | 22 => rowsENG
  | 23 => rowsENG
  | 24 => rowsFB
  | 25 => rowsFB
  | 26 => rowsFBT
  | 27 => rowsRIO
  | 28 => rowsETH
  | 29 => rowsESW
  | 30 => rowsSER
  | 31 => rowsSER
  | 32 => rowsSER
  | 33 => rowsSER
  | 34 => rowsSVC
  | 35 => rowsQMG
  | 64 => rowsMSYS
  | 65 => rowsDDLM
  | 66 => rowsCHR
  | 67 => rowsPMU
  | 68 => rowsNVM
  | 69 => rowsNCT
  | 70 => rowsEVR
  | 71 => rowsKEY
  | 72 => rowsAIO
  | 73 => rowsAIOx
  | 74 => rowsAIOx
  | 75 => rowsAIOx
  | 76 => rowsAIOx
  | 77 => rowsHRT
  | 78 => rowsMTR
  | 79 => rowsMTC
  | 80 => rowsMTV
  | 81 => rowsMTE
  | 82 => rowsPLS
  | 83 => rowsDIO
  | 84 => rowsOHM
  | _ =>
    if p < 128 then []
    else if p < 192 then rowsTSK
    else if p < 316 then rowsRIO
    else if 320 ≤ p ∧ p < 384 then rowsCRY
    else []

/-- The unlock value of each page (R51). -/
def unlockValue (p : Nat) : Word :=
  match p with
  | 0 => 0x53595331
  | 1 => 0x46414231
  | 2 => 0x4D544231
  | 3 => 0x53434831
  | 4 => 0x54534B31
  | 5 => 0x494D4731
  | 6 => 0x444F4D31
  | 7 => 0x494E5431
  | 8 => 0x45565331
  | 9 => 0x464C5431
  | 10 => 0x57445431
  | 11 => 0x424F5431
  | 12 => 0x50524631
  | 13 => 0x58464C31
  | 14 => 0x43525931
  | 15 => 0x4C4E4B31
  | 16 => 0x454E4731
  | 17 => 0x454E4731
  | 18 => 0x454E4731
  | 19 => 0x454E4731
  | 20 => 0x454E4731
  | 21 => 0x454E4731
  | 22 => 0x454E4731
  | 23 => 0x454E4731
  | 24 => 0x46423031
  | 25 => 0x46423131
  | 26 => 0x46425431
  | 27 => 0x52494F31
  | 28 => 0x45544831
  | 29 => 0x45535731
  | 30 => 0x53523031
  | 31 => 0x53523131
  | 32 => 0x53523231
  | 33 => 0x53523331
  | 34 => 0x53564331
  | 35 => 0x514D4731
  | 64 => 0x4D535931
  | 65 => 0x4C4E4B31
  | 66 => 0x43485231
  | 67 => 0x504D5531
  | 68 => 0x4E564D31
  | 69 => 0x4E435431
  | 70 => 0x45565231
  | 71 => 0x4B455931
  | 72 => 0x41494F31
  | 73 => 0x41494F41
  | 74 => 0x41494F42
  | 75 => 0x41494F43
  | 76 => 0x41494F44
  | 77 => 0x48525431
  | 78 => 0x4D545231
  | 79 => 0x4D544331
  | 80 => 0x4D545631
  | 81 => 0x4D544531
  | 82 => 0x504C5331
  | 83 => 0x44494F31
  | 84 => 0x4F484D31
  | _ => 0

/-- TYPE and INSTANCE of each page, as PAGE_ID shows them (R59, R60). -/
def pageType (p : Nat) : Nat × Nat :=
  match p with
  | 0 => (0x01, 0)
  | 1 => (0x02, 0)
  | 2 => (0x03, 0)
  | 3 => (0x04, 0)
  | 4 => (0x05, 0)
  | 5 => (0x06, 0)
  | 6 => (0x07, 0)
  | 7 => (0x08, 0)
  | 8 => (0x09, 0)
  | 9 => (0x0A, 0)
  | 10 => (0x0B, 0)
  | 11 => (0x0C, 0)
  | 12 => (0x0D, 0)
  | 13 => (0x0E, 0)
  | 14 => (0x0F, 0)
  | 15 => (0x10, 0)
  | 16 => (0x11, 0)
  | 17 => (0x11, 1)
  | 18 => (0x11, 2)
  | 19 => (0x11, 3)
  | 20 => (0x11, 4)
  | 21 => (0x11, 5)
  | 22 => (0x11, 6)
  | 23 => (0x11, 7)
  | 24 => (0x12, 0)
  | 25 => (0x12, 1)
  | 26 => (0x13, 0)
  | 27 => (0x14, 0)
  | 28 => (0x15, 0)
  | 29 => (0x16, 0)
  | 30 => (0x17, 0)
  | 31 => (0x17, 1)
  | 32 => (0x17, 2)
  | 33 => (0x17, 3)
  | 34 => (0x18, 0)
  | 35 => (0x19, 0)
  | 64 => (0x41, 0)
  | 65 => (0x42, 0)
  | 66 => (0x43, 0)
  | 67 => (0x44, 0)
  | 68 => (0x45, 0)
  | 69 => (0x46, 0)
  | 70 => (0x47, 0)
  | 71 => (0x48, 0)
  | 72 => (0x49, 0)
  | 73 => (0x4A, 0)
  | 74 => (0x4A, 1)
  | 75 => (0x4A, 2)
  | 76 => (0x4A, 3)
  | 77 => (0x4B, 0)
  | 78 => (0x4C, 0)
  | 79 => (0x4D, 0)
  | 80 => (0x4E, 0)
  | 81 => (0x4F, 0)
  | 82 => (0x50, 0)
  | 83 => (0x51, 0)
  | 84 => (0x52, 0)
  | _ => (0, 0)

abbrev pSYS : Nat := 0
abbrev pFAB : Nat := 1
abbrev pMTB : Nat := 2
abbrev pSCH : Nat := 3
abbrev pTSK : Nat := 4
abbrev pIMG : Nat := 5
abbrev pDOM : Nat := 6
abbrev pINT : Nat := 7
abbrev pEVS : Nat := 8
abbrev pFLT : Nat := 9
abbrev pWDT : Nat := 10
abbrev pBOOT : Nat := 11
abbrev pPRF : Nat := 12
abbrev pXFL : Nat := 13
abbrev pCRY : Nat := 14
abbrev pDDL : Nat := 15
abbrev pENG : Nat := 16
abbrev pFB : Nat := 24
abbrev pFBT : Nat := 26
abbrev pRIO : Nat := 27
abbrev pETH : Nat := 28
abbrev pESW : Nat := 29
abbrev pSER : Nat := 30
abbrev pSVC : Nat := 34
abbrev pQMG : Nat := 35
abbrev pMSYS : Nat := 64
abbrev pDDLM : Nat := 65
abbrev pCHR : Nat := 66
abbrev pPMU : Nat := 67
abbrev pNVM : Nat := 68
abbrev pNCT : Nat := 69
abbrev pEVR : Nat := 70
abbrev pKEY : Nat := 71
abbrev pAIO : Nat := 72
abbrev pAIOC : Nat := 73
abbrev pHRT : Nat := 77
abbrev pMTR : Nat := 78
abbrev pMTC : Nat := 79
abbrev pMTV : Nat := 80
abbrev pMTE : Nat := 81
abbrev pPLS : Nat := 82
abbrev pDIO : Nat := 83
abbrev pOHM : Nat := 84
abbrev pTask : Nat := 128
abbrev pStn : Nat := 192
abbrev pWslot : Nat := 320

end Sys2Proof.Machine
end

