-- ==== Sys2Proof/Machine/Tables.lean ====
section
/-! DEFINITION. Sparse tables: the one form in which the model keeps everything that is found by a number
(memory bytes, register words, the records of engines, tasks, stations and so on). A table is a list of
(key, value) pairs in one canonical form: keys strictly rising, and no entry equal to what an unlisted key reads as. -/

namespace Sys2Proof.Machine

/-- A sparse table: pairs of a key and a value. -/
abbrev Tbl (α : Type) := List (Nat × α)

/-- What the table holds at `k`: its entry, else the default `d k` of an unlisted key. -/
def tget (d : Nat → α) : Tbl α → Nat → α
  | [], k => d k
  | (k', v) :: t, k => if k' = k then v else tget d t k

/-- Every entry for key `k` taken out. -/
def tdrop : Tbl α → Nat → Tbl α
  | [], _ => []
  | (k', v) :: t, k => if k' = k then tdrop t k else (k', v) :: tdrop t k

/-- An entry put in before the first larger key. -/
def tput : Tbl α → Nat → α → Tbl α
  | [], k, v => [(k, v)]
  | (k', v') :: t, k, v => if k < k' then (k, v) :: (k', v') :: t else (k', v') :: tput t k v

/-- The table with `v` at `k`; a value equal to the default leaves no entry. -/
def tset [DecidableEq α] (d : Nat → α) (t : Tbl α) (k : Nat) (v : α) : Tbl α :=
  if v = d k then tdrop t k else tput (tdrop t k) k v

/-- The table without the entries whose key satisfies `p`: those keys read their defaults again. -/
def tclear (p : Nat → Bool) (t : Tbl α) : Tbl α := t.filter fun e => !p e.1

/-- The canonical form: keys strictly rising above `lo`, no entry equal to its default. -/
def tcanonFrom [DecidableEq α] (d : Nat → α) : Nat → Tbl α → Bool
  | _, [] => true
  | lo, (k, v) :: t => decide (lo ≤ k) && decide (v ≠ d k) && tcanonFrom d (k + 1) t

/-- The table is in canonical form. -/
def tcanon [DecidableEq α] (d : Nat → α) (t : Tbl α) : Bool := tcanonFrom d 0 t

end Sys2Proof.Machine
end

