-- ==== Sys2Proof/Machine/State.lean ====
section
/-! DEFINITION. The state of the module: every register, memory, queue, counter, latch and pin that the spec gives
either die, as plain data, and the state right after reset. -/

namespace Sys2Proof.Machine

/-- A machine that stops: the spec gives the block none. Every command of the table has an effect or is ignored. -/
inductive Fault where
  /-- Raised by no meaning: kept for a carrier fault that would stop the whole module; safe. -/
  | halted
  deriving DecidableEq, Repr

/-- Why a command has no meaning. -/
inductive Refusal where
  /-- Raised by the arms of `exec` for a row that has no meaning yet; safe. -/
  | notModelled (mnemonic : String)
  deriving DecidableEq, Repr

/-- What the record of a key written at manufacture holds beside the TYPE, USES and COUNTER that R337 and R343 give it. -/
structure MadeKey where
  dsl : Byte
  limit : Byte
  material : List Byte
  deriving DecidableEq, Repr

/-- What is fixed at assembly (R2, R59, R39, R340, R343, R430): nothing in the module changes it. -/
structure Fused where
  /-- The S variant (JPX-U48S); otherwise the A variant (R2, R3). -/
  variantS : Bool
  uid : BitVec 64
  /-- The 256-bit pairing secret of each die (R39). -/
  pairDamask : List Byte
  pairMuslin : List Byte
  /-- The 256-bit OTP secret of the vault (R340). -/
  otp : List Byte
  /-- The keys of vault slots 0 to 4 as they were written at manufacture (R343). -/
  keys : List MadeKey
  deriving DecidableEq, Repr

/-! ## The link -/

/-- A sequenced packet held for replay (R23): since when it has waited, and how often it was replayed. -/
structure Sent where
  pkt : Packet
  since : Nat
  replays : Nat
  deriving DecidableEq, Repr

/-- One die's end of the link. Its state, credits and counters that registers show stand in the DDL page. -/
structure LinkDie where
  txSeq : BitVec 7
  rxSeq : BitVec 7
  nakSent : Bool
  /-- sequenced packets sent and not acknowledged, oldest first -/
  unacked : List Sent
  /-- sequenced packets that wait for a credit or for the replay buffer, oldest first -/
  waiting : List Packet
  /-- packets accepted since the last ACK, and when the first of them was -/
  accepted : Nat
  acceptedAt : Nat
  /-- start of the last valid packet (R35) -/
  lastValid : Nat
  /-- when the present link state was entered -/
  since : Nat
  nonce : List Byte
  sessionKey : List Byte
  /-- message counters of sealed transfers sent and last accepted (R42) -/
  sealTx : Nat
  sealRx : Nat
  sealIn : List Byte
  /-- open inbound bulk transfers: XID and the words so far (R31) -/
  bulkIn : List (Nat × List Word)
  /-- packets on the lanes toward the other die, oldest first -/
  lanes : List Packet
  /-- when the last heartbeat was sent -/
  hbAt : Nat
  deriving DecidableEq, Repr

/-- How a load delivers its datum (R93). -/
inductive LoadKind where
  | w | h | hu | b | bu
  deriving DecidableEq, Repr

/-- A transaction that crosses the link under its tag (R28). -/
structure Txn where
  eng : EngNo
  load : Option (LoadKind × Reg)
  addr : Word
  dom : Dom
  sup : Bool
  /-- the word of a control primitive's record that it brings (R57, R99) -/
  word : Option Nat
  /-- its job has ended: it holds its slot and brings the engine nothing (R66, R103) -/
  orphan : Bool
  /-- retired by a half boot: the tag is withheld until the late response (R37) -/
  withheld : Bool
  deriving DecidableEq, Repr

/-! ## Events -/

/-- An event on its way to a sequence number (R404, R407). -/
structure Event where
  /-- MTB or replica at which it was raised -/
  stamp : Nat
  source : Byte
  dom : Dom
  severity : BitVec 3
  code : BitVec 16
  data : List Byte
  /-- order within one fabric clock (R405): FLT 0, Damask pages 1 + n, engines 64 + e, the link 128 -/
  rank : Nat
  /-- Damask MTB count at which it became ready -/
  ready : Nat
  recorded : Bool
  mseq : Word
  deriving DecidableEq, Repr

/-- An event with its number, waiting for the recorder (R408). -/
structure Numbered where
  seq : Word
  ev : Event
  deriving DecidableEq, Repr

/-! ## Engines -/

/-- What an engine is doing. -/
inductive EngMode where
  /-- a non-supervisor engine with no job, or an engine stopped by a reset -/
  | idle
  /-- executing instructions -/
  | run
  /-- a supervisor engine in SLEEP (R107) -/
  | sleep
  /-- waiting for the solver (R102) -/
  | solver
  /-- waiting in YIELD for its transaction slots (R104) -/
  | yielding
  /-- halted by a double exception, its job timer or a crystal loss (R79, R110, R395) -/
  | halted
  deriving DecidableEq, Repr

/-- The domain violations of a job, collected until its YIELD (R96, R151). -/
structure Violations where
  count : Nat
  addr : Word
  kind : Nat
  deriving DecidableEq, Repr

/-- A job running on an engine. -/
structure JobRun where
  task : TaskNo
  job : Nat
  dom : Dom
  xb : Word
  yb : Word
  /-- MTB count and WCET from which the job timer runs (R79) -/
  start : Nat
  wcet : Nat
  /-- its scan is dead (R137) -/
  dead : Bool
  viol : Violations
  deriving DecidableEq, Repr

/-- One engine: registers, special registers (R81, R82) and what it is doing. -/
structure Eng where
  g : Vector Word 16
  pc : Word
  fl : Word
  ib : Word
  xb : Word
  yb : Word
  tt : Word
  sp : Word
  jobid : Word
  epc : Word
  efl : Word
  ecause : Word
  eaddr : Word
  vbase : Word
  mode : EngMode
  job : Option JobRun
  /-- address of the first remote access error not yet taken (R111) -/
  remErr : Option Word
  /-- PC and FL of a supervisor engine while it runs a job out of SLEEP (R107) -/
  supPc : Word
  supFl : Word
  /-- the error of its own that such an engine has still to take (R111) -/
  supErr : Option Word
  /-- the words of the record that a control primitive is reading from Muslin, as far as they have come (R57) -/
  record : Option (List (Option Word))
  /-- MTB count since which it has been executing, for ENG_ACTIVITY -/
  busyFrom : Nat
  deriving DecidableEq, Repr

/-- A request that waits in the fabric: its engine, the instruction that makes it, and its target (R66, R76). -/
structure Request where
  eng : EngNo
  pc : Word
  target : Nat
  deriving DecidableEq, Repr

/-- An arbiter for one target: the port it served last, and the grants left to that port in this round (R76). -/
structure Arbiter where
  port : Nat
  deficit : Nat
  deriving DecidableEq, Repr

/-- The fabric's arbiters: the waiting requests in order of arrival, each arbiter, and the first fabric clock in which each
target is free. -/
structure Fabric where
  waiting : List Request
  arbiters : Tbl Arbiter
  free : Tbl Nat
  deriving DecidableEq, Repr

/-- The four solver operations (R73). -/
inductive SolverFn where
  | gemv | gemm | chol | solve
  deriving DecidableEq, Repr

/-- A solver operation issued by MAT, waiting or running (R75, R102). -/
structure SolverOp where
  eng : EngNo
  rd : Reg
  fn : SolverFn
  a : Word
  b : Word
  c : Word
  m : Nat
  k : Nat
  n : Nat
  deriving DecidableEq, Repr

/-! ## Scans -/

/-- The fields of a task's entry and of the active profile that hold while it is enabled (R112, R116). -/
structure TaskEntry where
  dom : Dom
  cls : Fin 8
  abort : Bool
  phase : Nat
  period : Nat
  graph : Word
  rcbase : Word
  xb : Word
  snapList : Word
  snapCnt : Nat
  pubCnt : Nat
  yb : Word
  pubList : Word
  njobs : Nat
  deriving DecidableEq, Repr

/-- Where a live scan stands (R120). -/
inductive ScanPhase where
  /-- SNAPSHOT waits for its half's copy engine -/
  | due
  /-- SNAPSHOT at entry `k` -/
  | snapshot (k : Nat)
  /-- SNAPSHOT has ended; EXECUTE waits for copy-forward and copy-back -/
  | ready
  | execute
  deriving DecidableEq, Repr

/-- A job that failed in this scan: how often, and on which engines (R134). -/
structure JobRetry where
  job : Nat
  count : Nat
  avoid : List EngNo
  deriving DecidableEq, Repr

/-- A live scan. -/
structure Scan where
  btick : Nat
  profile : Nat
  phase : ScanPhase
  done : Nat
  retries : List JobRetry
  /-- an entry of this release was refused: its one violation event is raised (R122, R131) -/
  violated : Bool
  /-- the last base tick at which an overrun of this scan was handled (R136) -/
  overrunAt : Nat
  /-- SKIPPED as it stood at this release: later drops count on after the commit (R121) -/
  skippedBase : Nat
  /-- FIRST and RESTORED of this release, which its commit clears (R139) -/
  first : Bool
  /-- the task became enabled anew since the release, whose commit then leaves FIRST set (R139) -/
  renewed : Bool
  restored : Bool
  deriving DecidableEq, Repr

/-- What the scheduler keeps of a task beside its TSK registers. -/
structure Task where
  entry : Option TaskEntry
  scan : Option Scan
  /-- SKIPPED and ABORTED of the next header (R121) -/
  skipped : Nat
  aborted : Nat
  /-- profile and half of the last commit (R139); before a first commit, the profile under which the task became enabled -/
  lastProfile : Nat
  lastWest : Bool
  committed : Bool
  /-- the last base tick whose release was determined -/
  lastRel : Option Nat
  /-- a release held by the power cap (R384): its base tick and its profile -/
  heldRel : Option (Nat × Nat)
  /-- the profile that was accepted last enables it while EN is 1: it has become enabled (R116) -/
  chosen : Bool
  /-- the task has taken its home half since module start (R112) -/
  placed : Bool
  deriving DecidableEq, Repr

/-- A phase that waits for or occupies a copy engine (R118). -/
structure CopyPhase where
  task : TaskNo
  /-- PUBLISH rather than SNAPSHOT -/
  publish : Bool
  entry : Nat
  at_ : Nat
  started : Bool
  /-- publish list as of the release: staging base, list and count, and the domain -/
  base : Word
  list : Word
  count : Nat
  dom : Dom
  violated : Bool
  deriving DecidableEq, Repr

/-- Lines of one task in one cluster that copy-forward or copy-back has still to copy (R127, R128). -/
structure LineCopy where
  task : TaskNo
  cluster : Nat
  lines : List Nat
  deriving DecidableEq, Repr

/-- Which job dirtied a line of the work image. -/
structure LineTag where
  task : TaskNo
  job : Nat
  deriving DecidableEq, Repr

/-- The scheduler's tables: the 64 tasks, the deques, the copy engines, the dirty lines. -/
structure Sched where
  tasks : Tbl Task
  /-- deque of class c, half h and cluster k at 4 × (c + 8h) + k: (task, job), head first (R123) -/
  deques : Tbl (List (TaskNo × Nat))
  /-- the phase each copy engine is working on, and those that are due, in order -/
  copyE : List CopyPhase
  copyW : List CopyPhase
  /-- MTB counts at which the copy engines last became free (R122) -/
  freeE : Nat
  freeW : Nat
  /-- writer of each dirty line of the work image (R71) -/
  dirty : Tbl (Option LineTag)
  /-- lines pending at the clusters' bank ports, in order -/
  copies : List LineCopy
  /-- number of the last base tick that the scheduler has begun -/
  btick : Nat
  /-- tasks that became enabled and wait for their validation (R116) -/
  toValidate : List TaskNo
  /-- MTB counts of execution in the present base tick, per cluster: engines, and the solver -/
  laneBusy : Tbl Nat
  solvBusy : Tbl Nat
  /-- each cluster's solver: the operation running, then those that wait, in arrival order (R75) -/
  solver : Tbl (List SolverOp)
  solverFrom : Tbl Nat
  /-- profile in force before the last acceptance, and the MTB count of that acceptance (R119) -/
  prevProfile : Nat
  acceptedAt : Nat
  /-- the base tick whose releases of this class and above the power cap holds (R384) -/
  defer : Option (Nat × Nat)
  /-- MTB count of the last cut-off (R132) -/
  cutoff : Nat
  deriving DecidableEq, Repr

/-- Event sequencer, interrupt inputs and Muslin's event buffer. -/
structure EvState where
  /-- raised and not yet numbered, in the order EVS takes them (R405) -/
  waiting : List Event
  /-- numbered and not yet sent to the recorder (R408) -/
  recWait : List Numbered
  /-- events numbered but never recorded since the last report (R408) -/
  recLost : Nat
  /-- Muslin events held while the link is not UP, and those counted only (R36) -/
  mbuf : List Event
  mlost : Nat
  /-- the request levels of the Muslin pages as INT holds them, and as Muslin last reported them (R402) -/
  levels : BitVec 21
  reported : BitVec 21
  /-- software sources 112 to 127 (R401) -/
  sw : BitVec 16
  deriving DecidableEq, Repr
/-! ## Floor bus -/

/-- One window of a row of the schedule matrix (R169). -/
structure Cell where
  type : Nat
  obj : Nat
  start : Nat
  deriving DecidableEq, Repr

/-- What a channel is sending or about to send. -/
inductive TxWhat where
  | object (k : Nat)
  | ring
  | reference
  deriving DecidableEq, Repr

/-- A frame of the module's own. -/
structure TxFrame where
  what : TxWhat
  frame : CanFrame
  deriving DecidableEq, Repr

/-- An exclusive window that is open, or closed with a frame still on the bus (R172, R194). -/
structure ExWin where
  obj : Nat
  transmit : Bool
  open_ : Nat
  close : Nat
  /-- first valid copy of an exclusive receive cell, and the channels that supplied one (R184) -/
  copy : Option CanFrame
  from0 : Bool
  from1 : Bool
  /-- channels on which a frame of the window was on the bus at its close and has not ended (R172, R194) -/
  wait0 : Bool
  wait1 : Bool
  /-- channels on which the transmit object was sent, on which its last attempt met an ACK error, and on which an attempt has
  ended; the channel miss of such a difference is counted (R185) -/
  sent0 : Bool
  sent1 : Bool
  ack0 : Bool
  ack1 : Bool
  end0 : Bool
  end1 : Bool
  counted : Bool
  deriving DecidableEq, Repr

/-- One channel behind its registers. -/
structure FbChan where
  /-- S of the current basic cycle as a 64-bit count, while a cycle is open -/
  cycle : Option Nat
  /-- nominal start of the current cycle, master (R177) -/
  nominal : Nat
  /-- index of the open window -/
  win : Option Nat
  /-- the open exclusive window, and those that are closed but not yet settled, oldest first -/
  ex : Option ExWin
  late : List ExWin
  /-- the active bank passed its validation (R170) -/
  bankOk : Bool
  /-- banks requested and validated, and when, oldest first (R179) -/
  req : List (Nat × Nat)
  /-- object read for window `i` (R165) -/
  fetched : Option (Nat × TxFrame)
  /-- the frame that is on the bus or starts when the bus is idle, one that follows it, and the ring entry read at its first
  attempt while it has not been sent (R174, R182) -/
  tx : Option TxFrame
  next : Option TxFrame
  held : Option CanFrame
  /-- nominal start of the cycle whose reference is being sent (R177) -/
  refAt : Option Nat
  /-- consecutive channel misses and windows with a copy (R185) -/
  misses : Nat
  goods : Nat
  /-- consecutive cycles without a reference (R178) -/
  refMiss : Nat
  /-- stamp of the module's previous reference frame (R176) -/
  lastRef : Word
  /-- cycle count of the cycle before the current one, its start, the close of its last window, and its row (R172) -/
  prev : Nat
  before : Option (Nat × Nat × List Cell)
  /-- a copy of the reference of the current nominal start that failed on this channel and is still owed (R177, R184) -/
  refOwed : Option CanFrame
  deriving DecidableEq, Repr

/-- One remote station behind its registers (R189 to R200). -/
structure Station where
  /-- it passed its last validation -/
  served : Bool
  /-- input frames of this row settled so far, in order: hit or miss -/
  settled : List Bool
  /-- the last OSEQ taken, and the set being sent: its OSEQ and the frames sent -/
  oseq : Nat
  sending : Option (Nat × List Nat)
  /-- OSEQ of the two sets most recently sent completely, newest first; 0 none -/
  done1 : Nat
  done2 : Nat
  misses : Nat
  stamp : Word
  rjcnt : Nat
  dstamp : Word
  /-- the image of the last accepted set; a write into point space that waits: with or without the image, and the status
  record of its decision (R195) -/
  image : List Byte
  write : Option (Bool × List Byte)
  /-- start of the basic cycle for whose row an output set has been built (R199) -/
  built : Option Nat
  deriving DecidableEq, Repr

/-! ## Analog channels, digital inputs and outputs, output hold manager -/

/-- What an output channel drives in a tick (R210). -/
structure Drive where
  alarm : Bool
  /-- the alarm asked for is the high one (R214) -/
  high : Bool
  safe : Bool
  held : Bool
  clamp : Bool
  deriving DecidableEq, Repr

/-- One analog channel behind its registers. -/
structure Ain where
  /-- configuration in force -/
  cfg : Word
  /-- field ticks of the OFF interval left (R220) -/
  offLeft : Nat
  /-- ticks of SETTLE left (R215) -/
  settle : Nat
  /-- float32 target of the present tick; none at high impedance -/
  target : Option Word
  drive : Drive
  /-- last output record since the channel entered its output mode: CMD, REQ (R209) -/
  last : Option (Word × Byte)
  /-- it enters its output mode at this boundary -/
  entering : Bool
  /-- consecutive samples toward a change of OPEN, SHORT, OVERLOAD, COMPLIANCE and RBERR -/
  counts : List Nat
  prot : Bool
  rearm : Bool
  /-- consecutive samples with FILT, and the last filter output -/
  samples : Nat
  filtered : Option Word
  deriving DecidableEq, Repr

/-- Digital inputs and outputs behind their registers. -/
structure Dio where
  /-- the field tick sampled last -/
  sampled : Nat
  /-- last sample, and how often in a row it was seen, per input -/
  last : BitVec 48
  runs : List Nat
  deb : BitVec 48
  known : BitVec 48
  /-- what the table of R224 decides, before the current limit -/
  want : BitVec 24
  held : Bool
  safe : BitVec 24
  lim : BitVec 24
  trip : BitVec 24
  /-- replica counts at which each output entered its limit, or turned off -/
  limAt : Tbl Nat
  /-- conducting, and in the limit or off by it, at any time in the tick -/
  acc : BitVec 24
  limAcc : BitVec 24
  /-- driving its safe level at any time in the tick -/
  safeAcc : BitVec 24
  /-- IMGEN was set since reset, and a whole transfer has come since it was last set -/
  seen : Bool
  got : Bool
  deriving DecidableEq, Repr

/-- A state of an indicator (R420). -/
inductive Led where
  | on | off | slow | fast
  deriving DecidableEq, Repr

/-- The field side as a whole. -/
structure Field where
  /-- the field tick in progress -/
  tick : Nat
  /-- the output transfer that has arrived whole since the last boundary -/
  xfer : Option (List Byte)
  /-- the analog and the digital output records had a base at the last cut-off (R431) -/
  aoBased : Bool
  doBased : Bool
  /-- deliveries not sent: key 1 analog, 2 digital, 3 + k feeder k (R32) -/
  missed : Tbl Nat
  chans : Tbl Ain
  dio : Dio
  /-- end of the hold interval on the replica, and whether it has come (R367) -/
  holdEnd : Nat
  holdOver : Bool
  leds : List Led
  deriving DecidableEq, Repr


/-! ## HART -/

/-- What a channel's HART transaction is for. -/
inductive HartKind where
  /-- request of firmware in a master role -/
  | master
  /-- answer of firmware in the field-device role -/
  | answer
  /-- poll of a multidrop master -/
  | poll
  deriving DecidableEq, Repr

/-- A request that a channel holds (R235). -/
structure HartReq where
  kind : HartKind
  tag : BitVec 16
  preambles : Nat
  /-- delimiter to last data byte -/
  frame : List Byte
  deriving DecidableEq, Repr

/-- Where the active transaction stands. -/
inductive HartPhase where
  /-- waiting for the quiet time, or for the end of the carrier -/
  | waiting
  /-- transmitting since a replica count -/
  | sending (start : Nat)
  /-- waiting for a response: end of the check byte, deadline -/
  | response (sent : Nat) (deadline : Nat)
  deriving DecidableEq, Repr

/-- One channel's modem behind its registers. -/
structure Hart where
  /-- the transaction in progress or next to start: the active request, or a poll -/
  active : Option HartReq
  /-- the requests that wait: one, or two behind a poll (a poll takes no slot of R237) -/
  staged : List HartReq
  phase : HartPhase
  /-- the frame on the loop, check byte included -/
  line : List Byte
  /-- the result of the transaction on the line will be discarded (R240) -/
  discard : Bool
  /-- replica count since which carrier has been absent -/
  quietFrom : Nat
  /-- end of the check byte of the STX received last -/
  stxEnd : Option Nat
  /-- a poll is due, behind this many requests -/
  pollDue : Option Nat
  pollAt : Nat
  /-- address polled last -/
  polled : Nat
  deriving DecidableEq, Repr

/-- The 32 modems, and what Damask keeps of the requests it has handed over: channel, KIND and TAG (R240). -/
structure HartAll where
  chans : Tbl Hart
  taken : List (ChanNo × Byte × BitVec 16)
  /-- something was discarded while the link was away: RESLOST is set when it returns -/
  lost : Bool
  deriving DecidableEq, Repr

/-! ## Metering -/

/-- Sums of one phase over the samples of a cycle or window, in codes after step 5 (R245, R251). -/
structure PhaseSums where
  vv : Nat
  ii : Nat
  vi : Int
  qi : Int
  deriving DecidableEq, Repr

/-- What a feeder keeps of its window in progress. -/
structure Window where
  cycles : Nat
  samples : Nat
  p1 : PhaseSums
  p2 : PhaseSums
  p3 : PhaseSums
  forced : Bool
  calchg : Bool
  /-- first and last interpolated crossing of the reference, in 1/1,024 samples; cycles closed since the first, and of these
  the ones up to the last -/
  first : Option Nat
  last : Nat
  passed : Nat
  whole : Nat
  /-- sums of the lags of V2 and V3 behind V1, in 1/1,024 samples, how many, and the first of each -/
  lag2 : Int
  lag3 : Int
  lags2 : Nat
  lags3 : Nat
  base2 : Int
  base3 : Int
  deriving DecidableEq, Repr

/-- The crossings of one voltage of a feeder: whether one is armed, sample number and interpolated place of the one taken
last, and its distance from the one before (R248). -/
structure PhaseCross where
  armed : Bool
  last : Option (Nat × Nat)
  period : Nat
  deriving DecidableEq, Repr

/-- How a cycle ends: with a crossing at its interpolated place, at the 180th sample without one, or by its length (R248,
R249, R269). -/
inductive Closing where
  | crossing (place : Nat)
  | forced
  | timed
  deriving DecidableEq, Repr

/-- One feeder behind its registers. -/
structure Feeder where
  /-- residues in fWh (R255) -/
  acc : List Nat
  /-- billing value with WRAP above bit 48 -/
  bill : List Nat
  win : Window
  /-- reference phase in use; 0 free-running (R249) -/
  ref : Nat
  vloss : Bool
  freqerr : Bool
  /-- a cycle is in progress: its sums and its samples, without the newest sample; its end, once that sample shows it; and
  how many free-running cycles have ended -/
  running : Bool
  c1 : PhaseSums
  c2 : PhaseSums
  c3 : PhaseSums
  count : Nat
  due : Option Closing
  turn : Nat
  x1 : PhaseCross
  x2 : PhaseCross
  x3 : PhaseCross
  /-- energy in fWh of the demand interval in progress, of the one closed last, and of the one to be opened (R260) -/
  impE : Nat
  expE : Nat
  prevI : Nat
  prevE : Nat
  nextI : Nat
  nextE : Nat
  deriving DecidableEq, Repr

/-- The sinc³ stage by 64 of a decimator (R244): its three integrators, and what its three differences took last. -/
structure Sinc where
  i1 : BitVec 20
  i2 : BitVec 20
  i3 : BitVec 20
  d1 : BitVec 20
  d2 : BitVec 20
  d3 : BitVec 20
  deriving DecidableEq, Repr

/-- The signal chain of one metering channel (R244 to R247, R265). -/
structure MeterChan where
  /-- the decimator: its first stage, the values that left it, over which the half-band stages lie, and the codes that left
  the last of these, newest first (R244) -/
  sinc : Sinc
  decim : List Int
  raw : List Int
  /-- sum of the first 1,600 samples, and the mean that step 3 takes off, in 2^-14 codes -/
  sum : Int
  dc : Int
  /-- the last samples after step 3 and after step 5, newest first, in 2^-14 codes -/
  past : List Int
  out : List Int
  /-- the block of 1,600 samples in progress: sum of squares after step 5, and a sample at the limit after step 1 -/
  squares : Nat
  clip : Bool
  /-- the last bit of the bitstream and how many in a row were like it; the four sample values seen most recently with their
  sample numbers; whether a stuck condition holds, and the sample at which one held last -/
  bit : Bool
  run : Nat
  values : List (Int × Nat)
  stuck : Bool
  badAt : Nat
  deriving DecidableEq, Repr

/-- One pulse output: its count, and the tick at which its ON or OFF time ends (R262). -/
structure Pulse where
  count : Nat
  on : Bool
  endTick : Nat
  deriving DecidableEq, Repr

/-- The meter as a whole. -/
structure Meter where
  feeders : Tbl Feeder
  pulses : Tbl Pulse
  /-- the demand interval: SEC that opened it, whether one is in progress, and whether it is PARTIAL (R260, R261) -/
  openSec : Nat
  inInterval : Bool
  partialNow : Bool
  /-- replica count of its opening; of the interval closed last the length in ticks of 1/32,768 s, the SEC that opened it,
  and whether it counts for DMAX -/
  openAt : Nat
  closed : Option (Nat × Nat × Bool)
  /-- samples taken since sampling started, replica counts at which the last of them left the decimator, newest first, the
  channels, and the samples of the block in progress (R244, R250) -/
  count : Nat
  stamps : List Nat
  chans : Tbl MeterChan
  block : Nat
  /-- EN was written 0: the cycles in progress are still to be booked (R269) -/
  stopping : Bool
  /-- replica counts of the next periodic save and of its retry (R267) -/
  saveAt : Nat
  retryAt : Option Nat
  /-- the save counter, and whether the save made last went to the second copy -/
  saves : Nat
  second : Bool
  /-- feeders whose clear waits for its save (R272) -/
  clearing : List Nat
  /-- the 24.576 MHz crystal is lost (R396) -/
  xtalLost : Bool
  deriving DecidableEq, Repr

/-! ## Serial ports and Ethernet -/

/-- What the driver of a serial port is sending: the entry's TAG, whether a response is expected, its first byte or
address, the characters on the line in their order, and the MTB count of the first start bit. -/
structure SerTx where
  tag : Nat
  expect : Bool
  addr : Byte
  line : List Byte
  start : Nat
  deriving DecidableEq, Repr

/-- What a serial port has received of the frame in progress: its characters, the MTB counts of the first start bit and of
the end of the last stop bit with its part of a count in 80ths, a character with wrong parity or no stop bit, and a gap that
was too long. -/
structure SerRx where
  bytes : List Byte
  first : Nat
  last : Nat
  part : Nat
  badChar : Bool
  badGap : Bool
  deriving DecidableEq, Repr

/-- One RS-485 port behind its registers. -/
structure SerPort where
  tx : Option SerTx
  rx : Option SerRx
  /-- TAG and deadline of the response a master waits for -/
  await : Option (Nat × Nat)
  /-- address of the OSDP command sent last -/
  addr : Byte
  /-- MTB count since which the line is silent, and before which the master starts nothing (TURN) -/
  idleFrom : Nat
  turn : Nat
  deriving DecidableEq, Repr

/-- An address the switch has learned: VID, address, port and the MTB count of its last use (R284). -/
structure Learned where
  vid : Nat
  mac : List Byte
  port : Nat
  used : Nat
  deriving DecidableEq, Repr

/-- A frame at an egress of the switch: port, MTB count of its arrival there, PCP, TAG of a transmit stamp, and its bytes, which
for port 0 are its Q22 entry (R284). -/
structure EthOut where
  port : Nat
  at_ : Nat
  pcp : Nat
  tag : Option Nat
  bytes : List Byte
  deriving DecidableEq, Repr

/-- The serial ports, the service UART, the Ethernet ports and the switch. -/
structure Comms where
  ser : Tbl SerPort
  svcTx : List Byte
  svcRx : List Byte
  /-- MTB counts at which the byte that SVC is sending started, and at which the one received last ended (R282) -/
  svcStart : Option Nat
  svcRxEnd : Nat
  learned : List Learned
  /-- the TXTS FIFO: port, TAG and stamp -/
  stamps : List (Nat × Nat × Nat)
  /-- the frames that the last command put on the wire of a port, without FCS -/
  wire : List (Nat × List Byte)
  /-- frames that wait for their port, in order of arrival, and the MTB count from which each port takes its next one (R284) -/
  egress : List EthOut
  freeAt : Tbl Nat
  deriving DecidableEq, Repr

/-! ## Charon -/

/-- Charon's own state: the 48-bit count, a pending time write, the captured edge, the operating-time prescaler. -/
structure Charon where
  /-- C = SEC × 32,768 + SUBSEC (R289) -/
  count : Nat
  /-- SEC of a time write that waits for its edges, and whether E1 has passed (R292) -/
  load : Option (Nat × Bool)
  /-- the captured second edge, before a read latches it (R298) -/
  corrMtb : Nat
  corrSec : Nat
  /-- SUP_24V is present: OPSEC runs (R300) -/
  opRun : Bool
  opPre : Nat
  /-- an alarm named in PMU_WAKE has fired while Damask is OFF (R382) -/
  wake : Bool
  /-- no source is left: the next start is a Charon start (R303) -/
  stopped : Bool
  deriving DecidableEq, Repr

/-! ## Flash -/

/-- A program or erase as its user asks for it; where it goes is settled when it starts. -/
inductive FlashWork where
  /-- granules at a flash offset -/
  | program (off : Nat) (data : List Byte)
  | erase (sector : Nat)
  /-- a record of the emulation layer: page, offset, data, SEQ when compaction keeps it, COMPACT (R312 to R314) -/
  | record (page off : Nat) (data : List Byte) (seq : Option Nat) (compact : Bool)
  /-- an increment of a counter (R322) -/
  | count (n : Nat)
  /-- a base of a counter with a value (R323, R325) -/
  | base (n : Nat) (value : Nat)
  /-- the oldest queued record of the event recorder (R329) -/
  | log
  /-- several steps under one admission: offsets with their data, sectors to erase; energy in 0.01 mJ. The steps of a commit
  of the vault are settled when it starts (R346, R378) -/
  | batch (erases : List Nat) (programs : List (Nat × List Byte)) (energy : Nat)
  deriving DecidableEq, Repr

/-- Why the metering state is saved (R267): the periodic timer, a register write, a supply failure or module reset. -/
inductive SaveKind where
  | periodic
  | asked
  | final
  deriving DecidableEq, Repr

/-- Who asked for an operation, and so what follows when it is done. -/
inductive FlashUser where
  /-- the command of NVM_CMD -/
  | nvm
  /-- a copy that compaction makes, the erase of its victim, the erase of a sector with a bad header -/
  | copy
  | victim
  | badSector
  /-- increments and advances: by NCT_CMD, Charon (NC0 or NC1), the vault (NC3), an event clear (NC4) -/
  | counter (cmd : Bool)
  | clearCount
  /-- the erase of NCn's old sector, and whether NCT_CMD waits for it; a step of a repair, the last or not -/
  | oldSector (n : Nat) (cmd : Bool)
  | repair (n : Nat) (last : Bool)
  /-- event record; erase ahead; CLEARED record; an erase of a clear -/
  | event
  | aheadErase
  | cleared
  | clearErase
  /-- a metering save or commit, its last record or not; a periodic save may be refused -/
  | save (kind : SaveKind) (last : Bool)
  | config (last : Bool)
  /-- vault: use log granule, commit of an update, EXPIRY granule of a slot -/
  | useLog (slot : Nat)
  | keyCommit
  | expiry (slot : Nat)
  /-- retain area: its data, the erase of one of its sectors -/
  | retain
  | retainErase
  deriving DecidableEq, Repr

/-- An operation that waits or runs, with its precedence (R311). -/
structure FlashOp where
  prec : Nat
  work : FlashWork
  user : FlashUser
  deriving DecidableEq, Repr

/-- A step of a running operation: a sector erased, or bytes programmed at an offset. -/
inductive FlashStep where
  | erase (sector : Nat)
  | program (off : Nat) (data : List Byte)
  deriving DecidableEq, Repr

/-- An operation that has been admitted. -/
structure FlashRun where
  op : FlashOp
  steps : List FlashStep
  energy : Nat
  deriving DecidableEq, Repr

/-- A command of NVM_CMD in progress: its result, STATUS and SEQ, once it is known (R319). -/
structure NvmCmd where
  op : Nat
  result : Option (Nat × Nat)
  page : Nat
  deriving DecidableEq, Repr

/-- The flash array and its controller. -/
structure Flash where
  /-- granules that have been programmed since their last erase -/
  programmed : Tbl Bool
  /-- granules that hold a bit error: 1 single, 2 double (R308) -/
  errors : Tbl Nat
  /-- vault slots whose record still stands as it was written at manufacture (R343) -/
  made : List Nat
  waiting : List FlashOp
  running : Option FlashRun
  cmd : Option NvmCmd
  /-- compaction: the victim and the pages still to handle -/
  compact : Option (Nat × List Nat)
  /-- counters whose repair is owed (R325) -/
  repairing : List Nat
  /-- waiting operations that admission has refused (R309) -/
  refused : List FlashOp
  deriving DecidableEq, Repr

/-! ## Event recorder -/

/-- How far an authorised clear has come (R334). -/
inductive ClearStage where
  | none
  /-- step 1: the signature is being verified -/
  | verify
  /-- step 2: NC4 is being incremented -/
  | count
  /-- step 3: the CLEARED record is being written -/
  | record
  /-- step 4: sectors still to erase, oldest first -/
  | erase (sectors : List Nat)
  deriving DecidableEq, Repr

/-- The recorder behind its registers. -/
structure Recorder where
  /-- accepted records of 32 bytes, oldest first, at most 64 (R329) -/
  queue : List (List Byte)
  /-- records discarded since the last LOST record -/
  dropped : Nat
  /-- the write point, a slot number (R330) -/
  wp : Nat
  clear : ClearStage
  /-- the outstanding read command: operation, slot, and filter domain (R331) -/
  read : Option (Nat × Nat × Option Dom)
  deriving DecidableEq, Repr

/-! ## Keys and cryptography -/

/-- A request of the vault's queue (R347). -/
inductive VaultReq where
  /-- LOADVAULT of a vault slot into a working slot -/
  | load (vslot wslot : Nat)
  /-- LOADVAULT of slot 2 by the ROM of a half (R361) -/
  | boot (h : Half)
  /-- LOADBLOB of a blob into a working slot -/
  | blob (bytes : List Byte) (wslot : Nat)
  /-- GENERATE: CRY_WATTR and the working slot -/
  | generate (attr : Word) (wslot : Nat)
  /-- the key update in KEY_MSG -/
  | update
  /-- the signature of an event-clear message -/
  | evauth
  deriving DecidableEq, Repr

/-- How far the vault has come with the request at the head of its queue. -/
inductive VaultStage where
  /-- not begun -/
  | new
  /-- the use log granule of this slot is being programmed, before the use -/
  | use (slot : Nat)
  /-- the verifier is running -/
  | verify
  /-- the payload is with CRY -/
  | transport
  /-- the commit waits or is running -/
  | commit
  deriving DecidableEq, Repr

/-- The vault behind its registers and its flash region. -/
structure Vault where
  queue : List VaultReq
  stage : VaultStage
  /-- the update message as GO found it, and the material that CRY returned -/
  msg : List Byte
  material : List Byte
  /-- slots marked expired since the reset (R342) -/
  expired : List Nat
  deriving DecidableEq, Repr

/-- A working slot of CRY (R348). -/
structure WSlot where
  valid : Bool
  source : Nat
  dom : Dom
  uses : Nat
  vslot : Nat
  typ : Nat
  material : List Byte
  deriving DecidableEq, Repr

/-- A slot command that has been started; `sent` once its request is with Muslin. -/
structure WCmd where
  op : Nat
  wslot : Nat
  vslot : Nat
  addr : Nat
  attr : Word
  sent : Bool
  deriving DecidableEq, Repr

/-- A job that a unit of CRY has run: its entry, STATUS and OUTLEN. -/
structure CryRun where
  entry : List Byte
  status : Nat
  outLen : Nat
  deriving DecidableEq, Repr

/-- The crypto engine behind its registers. -/
structure Cry where
  slots : Tbl WSlot
  /-- the hidden transport slot -/
  hidden : Option (List Byte)
  /-- staged request entries, oldest first -/
  staged : List (List Byte)
  sym : Option CryRun
  pk : Option CryRun
  wcmd : Option WCmd
  deriving DecidableEq, Repr
/-! ## Boot -/

/-- The command XFL is carrying out (R364). -/
structure NorCmd where
  op : Nat
  addr : Nat
  len : Nat
  src : Nat
  deriving DecidableEq, Repr

/-- A download session of recovery (R368 to R370). -/
structure Session where
  path : DlPath
  lastSeq : Nat
  lastReply : List Byte
  /-- MTB count of the last valid frame -/
  at_ : Nat
  /-- slot, total length and bytes written so far -/
  slot : Option (Nat × Nat × Nat)
  deriving DecidableEq, Repr

/-- How far ROM has come with the LOADVAULT of step 7 (R361). -/
inductive BootKey where
  /-- not asked for -/
  | none
  /-- the vault has the request -/
  | asked
  /-- the working slot holds the key -/
  | loaded
  /-- the vault refused it, or the link failed -/
  | refused
  deriving DecidableEq, Repr

/-- The ROM of one half. -/
structure Rom where
  /-- the half is in a half boot: it has not left ROM since (R80) -/
  half : Bool
  /-- MTB count at which the half started (R361) -/
  start : Nat
  /-- the slot being tried, once it has been chosen -/
  slot : Option Nat
  /-- attempts that have failed since the start -/
  tries : Nat
  key : BootKey
  /-- the attempt is the repetition of one that a check of R79 ended -/
  again : Bool
  deriving DecidableEq, Repr

/-- The ROMs of both halves, the NOR command and the download session. -/
structure Boot where
  east : Rom
  west : Rom
  nor : Option NorCmd
  session : Option Session
  deriving DecidableEq, Repr


/-! ## Power -/

/-- A retain area being written: which, its granules asked for so far, and whether all of it has been (R376, R378). -/
structure RetainWrite where
  area : Nat
  asked : Nat
  whole : Bool
  deriving DecidableEq, Repr

/-- The PMU and the profile logic behind their registers. -/
structure Power where
  /-- supply failure was declared and supply-good has not been since (R375) -/
  failed : Bool
  /-- E_PEND in units of 0.01 mJ -/
  pend : Nat
  /-- Damask is going OFF since an MTB count; it loses its power at the first field tick that ends at or after a replica
  count, if not before (R376, R382) -/
  leaving : Bool
  leaveAt : Nat
  cutAt : Nat
  /-- the retain area that is being written -/
  area : Option RetainWrite
  /-- profile pins: the value sampled last and how often in a row; a refused value; RETRY waits for the next sample (R388) -/
  pinLast : Nat
  pinRun : Nat
  refused : Option Nat
  retry : Bool
  /-- the module is held in reset: RESET_N is still low (R421) -/
  held : Bool
  /-- bit of RSTCAUSE of a module reset that waits for the end of the plan -/
  reset : Option Nat
  /-- Damask's 25 MHz crystal has stopped (R395) -/
  noClock : Bool
  deriving DecidableEq, Repr

/-! ## Watchdogs and block transfers -/

/-- A watchdog of WDT behind its registers: it runs, and the MTB count that closes its interval (R398). -/
structure Watchdog where
  running : Bool
  close : Nat
  deriving DecidableEq, Repr

/-- The Q31 transfer in flight: its entry's fields (R412). -/
structure BlockXfer where
  target : Nat
  fromMuslin : Bool
  addr : Nat
  off : Nat
  len : Nat
  tag : Nat
  deriving DecidableEq, Repr

/-! ## Deliveries on Damask, the replica -/

/-- A whole delivery of a field tick: KIND, tick, MTB count at which its last packet arrived, bytes. -/
structure Delivery where
  kind : Nat
  tick : Nat
  at_ : Nat
  bytes : List Byte
  deriving DecidableEq, Repr

/-- SAMPLE deliveries as Damask assembles and holds them (R32, R122, R253). -/
structure Inputs where
  /-- deliveries not yet whole: key (1 analog, 2 digital, 3 + k feeder k), word 1, bytes so far -/
  parts : List (Nat × Word × List Byte)
  /-- whole deliveries of a field tick not yet written, in order of arrival -/
  locals : List Delivery
  /-- whole feeder records not yet written: feeder, MTB count of arrival, bytes -/
  feeders : List (Nat × Nat × List Byte)
  deriving DecidableEq, Repr

/-- What Muslin keeps to follow the MTB (R38). -/
structure Replica where
  /-- consecutive heartbeats with |e| at most 2, up to 8 -/
  synced : Nat
  /-- replica count of the last heartbeat, and 1/2,000 counts of rate adjustment carried over -/
  at_ : Nat
  acc : Nat
  deriving DecidableEq, Repr

/-- The whole module. -/
structure State where
  /-- commands that wait, first in, first out -/
  pending : List Instr
  fused : Fused
  /-- the module time base on Damask and its replica on Muslin, in counts of 10 ns (R38) -/
  mtb : Nat
  replica : Nat
  /-- the stored bits of every register of every page, keyed by 1,024 × page + word index -/
  regs : Tbl Word
  /-- every byte memory, at its physical address -/
  mem : List Host.Cell
  /-- the tag byte of each point: owner domain in [3:0], share set in [6:4] (R148) -/
  points : Tbl Byte
  /-- when each page's lock was opened (R52) -/
  lockAt : Tbl Nat
  damask : LinkDie
  muslin : LinkDie
  /-- the transactions that hold the 128 tags (R28) -/
  txns : Tbl (Option Txn)
  ev : EvState
  engs : Tbl Eng
  /-- the lines each engine's instruction cache holds, by number and with their eight words, newest first (R64) -/
  icache : Tbl (List (Nat × List Word))
  /-- MTB[63:32] as each engine's last read of MTB_LO latched it (R45) -/
  mtbHi : Tbl Word
  /-- the committed value of each compare unit (R46) -/
  cmp : Tbl Nat
  /-- running total of the observed arbiter's grants (R76) -/
  grants : Nat
  fabric : Fabric
  /-- random bytes drawn, and free values used, since power-on -/
  drawn : Nat
  freed : Nat
  boot : Boot
  fb0 : FbChan
  fb1 : FbChan
  stations : Tbl Station
  field : Field
  hart : HartAll
  flash : Flash
  power : Power
  meter : Meter
  sched : Sched
  chr : Charon
  evr : Recorder
  vault : Vault
  cry : Cry
  comms : Comms
  wdts : Tbl Watchdog
  q31 : Option BlockXfer
  inputs : Inputs
  rep : Replica
  /-- levels at the strap pins, which a reset samples at its release (R61) -/
  pins : Straps
  /-- the value that the last read command returned to its reader -/
  answer : Word
  deriving DecidableEq, Repr

/-! ## Reset -/

/-- An event of a block of Muslin's page 5 that State.reset holds, with its MSEQ: the counters of a new module have no base (R325,
R392). -/
def resetEvent (sev : BitVec 3) (code : BitVec 16) (m : Nat) : Event :=
  { stamp := 0, source := 0x85, dom := 0, severity := sev, code := code, data := List.replicate 10 0
    rank := 128, ready := 0, recorded := true, mseq := BitVec.ofNat 32 m }

/-- The record of such an event: MSEQ, DSL, the bytes of CODE and the CRC. -/
def resetRecord (m dsl c0 c1 : Byte) (crc : List Byte) : List Byte :=
  [m] ++ List.replicate 13 0 ++ [0x85, dsl, c0, c1] ++ List.replicate 10 0 ++ crc

/-- The module right after a power-on reset of a module whose flash holds the five vault records of manufacture (log entry 126)
and whose NOR holds nothing, the straps at their pulls (R11, R13, R61, R80, R325, R343, R360, R419, R427). -/
def State.reset : State where
  pending := []
  fused := { variantS := false, uid := 0, pairDamask := List.replicate 32 0, pairMuslin := List.replicate 32 0,
             otp := List.replicate 32 0,
             keys := [⟨0, 0, List.replicate 384 0 ++ [1, 0, 1, 0]⟩, ⟨0, 0, List.replicate 960 0 ++ [1, 0, 1, 0]⟩,
                      ⟨0, 0, List.replicate 384 0 ++ [1, 0, 1, 0]⟩, ⟨0, 0, List.replicate 384 0 ++ [1, 0, 1, 0]⟩,
                      ⟨0, 0, List.replicate 960 0 ++ [1, 0, 1, 0]⟩] }
  mtb := 0
  replica := 0
  regs := [(19, 0x1), (3074, 0x6), (15363, 0x1), (17411, 0), (18435, 0), (19459, 0), (21507, 0), (22531, 0), (23555, 0),
           (65555, 0x1), (66563, 0x1), (66583, 0x9), (68611, 0x4), (70659, 0xFF00), (70660, 0x4), (71683, 0x24),
           (71702, 0x9), (72707, 0x1)]
  mem := []
  points := []
  lockAt := []
  damask := { txSeq := 0, rxSeq := 0, nakSent := false, unacked := [], waiting := [], accepted := 0, acceptedAt := 0,
              lastValid := 0, since := 0, nonce := [], sessionKey := [], sealTx := 0, sealRx := 0, sealIn := [],
              bulkIn := [], lanes := [], hbAt := 0 }
  muslin := { txSeq := 0, rxSeq := 0, nakSent := false, unacked := [], waiting := [], accepted := 0, acceptedAt := 0,
              lastValid := 0, since := 0, nonce := [], sessionKey := [], sealTx := 0, sealRx := 0, sealIn := [],
              bulkIn := [], lanes := [], hbAt := 0 }
  txns := []
  ev := { waiting := [], recWait := [], recLost := 0
          mbuf := resetEvent 1 0x0102 0 :: (List.range 8).map fun i => resetEvent 3 0x020C (i + 1)
          mlost := 0, levels := 0, reported := 0, sw := 0 }
  engs := []
  icache := []
  mtbHi := []
  cmp := []
  grants := 0
  fabric := { waiting := [], arbiters := [], free := [] }
  drawn := 0
  freed := 0
  boot := { east := { half := false, start := 0, slot := none, tries := 0, key := .none, again := false },
            west := { half := false, start := 0, slot := none, tries := 0, key := .none, again := false }
            nor := none, session := none }
  fb0 := { cycle := none, nominal := 0, win := none, ex := none, late := [], bankOk := false, req := [],
           fetched := none, tx := none, next := none, held := none, refAt := none, misses := 0, goods := 0, refMiss := 0, lastRef := 0, prev := 0,
           before := none, refOwed := none }
  fb1 := { cycle := none, nominal := 0, win := none, ex := none, late := [], bankOk := false, req := [],
           fetched := none, tx := none, next := none, held := none, refAt := none, misses := 0, goods := 0, refMiss := 0, lastRef := 0, prev := 0,
           before := none, refOwed := none }
  stations := []
  field := { tick := 0, xfer := none, aoBased := false, doBased := false, missed := [], chans := []
             dio := { sampled := 0, last := 0, runs := [], deb := 0, known := 0, want := 0, held := false, safe := 0,
                      lim := 0, trip := 0, limAt := [], acc := 0, limAcc := 0, safeAcc := 0, seen := false, got := false }
             holdEnd := 0, holdOver := false, leds := [.off, .on, .off, .off] }
  hart := { chans := [], taken := [], lost := false }
  flash := { programmed := [], errors := [], made := [0, 1, 2, 3, 4], refused := []
             waiting := (List.range 8).map fun n => ⟨1, .base n 0, .repair n true⟩
             running := none, cmd := none, compact := none, repairing := List.range 8 }
  power := { failed := false, pend := 0, leaving := false, leaveAt := 0, cutAt := 0, area := none, pinLast := 0, pinRun := 0, refused := none, retry := false,
             held := false, reset := none, noClock := false }
  meter := { feeders := [], pulses := [], openSec := 0, inInterval := false, partialNow := true, openAt := 0, closed := none,
             count := 0, stamps := [], chans := [], block := 0, stopping := false, saveAt := 90000000000,
             retryAt := none, saves := 0, second := false, clearing := [], xtalLost := false }
  sched := { tasks := [], deques := [], copyE := [], copyW := [], freeE := 0, freeW := 0, dirty := [], copies := [], btick := 0,
             toValidate := [], laneBusy := [], solvBusy := [], solver := [], solverFrom := [], prevProfile := 0,
             acceptedAt := 0, defer := none, cutoff := 0 }
  chr := { count := 0, load := none, corrMtb := 0, corrSec := 0, opRun := false, opPre := 0, wake := false,
           stopped := false }
  evr := { queue := [resetRecord 0 0x90 0x02 0x01 [0x76, 0x3e, 0x9d, 0x82],
                     resetRecord 1 0xB0 0x0C 0x02 [0xa7, 0xce, 0x9e, 0xb3],
                     resetRecord 2 0xB0 0x0C 0x02 [0x0a, 0x25, 0x4c, 0x50],
                     resetRecord 3 0xB0 0x0C 0x02 [0x3e, 0xae, 0x59, 0xf2],
                     resetRecord 4 0xB0 0x0C 0x02 [0xa1, 0x84, 0x05, 0x92],
                     resetRecord 5 0xB0 0x0C 0x02 [0x95, 0x0f, 0x10, 0x30],
                     resetRecord 6 0xB0 0x0C 0x02 [0x38, 0xe4, 0xc2, 0xd3],
                     resetRecord 7 0xB0 0x0C 0x02 [0x0c, 0x6f, 0xd7, 0x71],
                     resetRecord 8 0xB0 0x0C 0x02 [0x06, 0xb1, 0x7a, 0x13]], dropped := 0, wp := 0, clear := .none, read := none }
  vault := { queue := [], stage := .new, msg := [], material := [], expired := [] }
  cry := { slots := [], hidden := none, staged := [], sym := none, pk := none, wcmd := none }
  comms := { ser := [], svcTx := [], svcRx := [], svcStart := none, svcRxEnd := 0, learned := [], stamps := [], wire := [], egress := [], freeAt := [] }
  wdts := []
  q31 := none
  inputs := { parts := [], locals := [], feeders := [] }
  rep := { synced := 0, at_ := 0, acc := 0 }
  pins := ⟨false, false, false⟩
  answer := 0

end Sys2Proof.Machine
end

