-- ==== Sys2Proof/Machine/Ops.lean ====
section
/-! DEFINITION. The operations over registers, memory, time and the tables of the state that every meaning is built from. -/

namespace Sys2Proof

/-- East is half 0, West half 1. -/
def Half.ix : Half → Nat
  | .east => 0
  | .west => 1
def Half.other : Half → Half
  | .east => .west
  | .west => .east

def Die.other : Die → Die
  | .damask => .muslin
  | .muslin => .damask

end Sys2Proof

namespace Sys2Proof.Machine

open Reg

/-! ## Registers -/

/-- Whether a row of registers holds the one at byte offset `off`. -/
def RegRow.holds (r : RegRow) (off : Nat) : Bool :=
  r.off ≤ off && (off - r.off) % r.stride == 0 && (off - r.off) / r.stride < r.count

/-- The row of the register at `off` of page `p`, when its block implements one. -/
def rowOf (p off : Nat) : Option RegRow := (pageRows p).find? fun r => r.holds off

/-- Key of the register at byte offset `off` of page `p` in the register table. -/
def regKey (p off : Nat) : Nat := 1024 * p + off / 4

/-- What an unlisted register reads as: its reset value (R11). ESW_VLAN0 alone of its row resets to a valid entry. -/
def regDefault (k : Nat) : Word :=
  if k = regKey pESW 0x080 then 0x80007001
  else match rowOf (k / 1024) (4 * (k % 1024)) with
    | some r => r.reset
    | none => 0

/-- The stored word of a register. -/
def State.reg (s : State) (p off : Nat) : Word := tget regDefault s.regs (regKey p off)

def State.setReg (s : State) (p off : Nat) (w : Word) : State :=
  { s with regs := tset regDefault s.regs (regKey p off) w }

/-- A field of a word. -/
def Fld.get (f : Fld) (w : Word) : Nat := (w.extractLsb' f.lo f.wid).toNat

/-- The bits of a field. -/
def Fld.mask (f : Fld) : Word := word ((2 ^ f.wid - 1) * 2 ^ f.lo)

/-- A word with a field replaced; the value is cut to the field's width. -/
def Fld.ins (f : Fld) (w : Word) (v : Nat) : Word :=
  (w &&& ~~~f.mask) ||| word ((v % 2 ^ f.wid) * 2 ^ f.lo)

/-- A register field. -/
def State.g (s : State) (p : Nat) (f : Fld) : Nat := f.get (s.reg p f.off)

/-- Whether a one-bit field is set. -/
def State.bit (s : State) (p : Nat) (f : Fld) : Bool := s.g p f != 0

/-- A register field written by the hardware. -/
def State.put (s : State) (p : Nat) (f : Fld) (v : Nat) : State := s.setReg p f.off (f.ins (s.reg p f.off) v)

def State.putBit (s : State) (p : Nat) (f : Fld) (b : Bool) : State := s.put p f b.toNat

/-- A counter field that saturates at its largest value. -/
def State.bump (s : State) (p : Nat) (f : Fld) (n : Nat := 1) : State :=
  s.put p f (min (s.g p f + n) (2 ^ f.wid - 1))

/-- A counter field that wraps to 0. -/
def State.incr (s : State) (p : Nat) (f : Fld) : State := s.put p f (s.g p f + 1)

/-- Every register of the pages in `[a, b)` back at its reset value. -/
def State.resetPages (s : State) (a b : Nat) : State :=
  { s with regs := tclear (fun k => a ≤ k / 1024 && k / 1024 < b) s.regs }

/-- The fields of the common page layout (R49). -/
def irqRawOff : Nat := 0x010
def irqEnOff : Nat := 0x014
def LOCK_BADCNT : Fld := ⟨0x020, 16, 16⟩
def LOCK_OPENER : Fld := ⟨0x020, 4, 6⟩
def LOCK_OPEN : Fld := ⟨0x020, 0, 1⟩

/-- IRQ_PEND of a page: IRQ_RAW AND IRQ_EN (R49). -/
def State.irqPend (s : State) (p : Nat) : Word := s.reg p irqRawOff &&& s.reg p irqEnOff

/-- Register page of Muslin page `n` or Damask page `n`. -/
def isMuslinPage (p : Nat) : Bool := 64 ≤ p && p < 85

/-! ## Memory -/

/-- What a byte reads as that nothing has written: erased flash is 0xFF (R47, R308), every RAM 0. -/
def memDefault (a : Nat) : Byte :=
  if 0x58000000 ≤ a ∧ a < 0x58200000 ∨ 0x60000000 ≤ a ∧ a < 0x64000000 then 0xFF else 0

/-- The canonical form of the memory list. -/
def Memory.wf (m : List Host.Cell) : Bool := tcanon memDefault m

def State.rb (s : State) (a : Nat) : Byte := tget memDefault s.mem a
def State.wb (s : State) (a : Nat) (b : Byte) : State := { s with mem := tset memDefault s.mem a b }

/-- A word of memory, little-endian. -/
def State.rw (s : State) (a : Nat) : Word :=
  s.rb (a + 3) ++ s.rb (a + 2) ++ s.rb (a + 1) ++ s.rb a

/-- A word stored, little-endian. -/
def State.ww (s : State) (a : Nat) (w : Word) : State :=
  (((s.wb a (w.extractLsb' 0 8)).wb (a + 1) (w.extractLsb' 8 8)).wb (a + 2) (w.extractLsb' 16 8)).wb (a + 3)
    (w.extractLsb' 24 8)

/-- A 16-bit number of memory, little-endian. -/
def State.rh (s : State) (a : Nat) : Nat := (s.rb a).toNat + 256 * (s.rb (a + 1)).toNat

def State.wh (s : State) (a : Nat) (n : Nat) : State := (s.wb a (byte n)).wb (a + 1) (byte (n / 256))

/-- `n` bytes from `a`. -/
def State.bytes (s : State) (a : Nat) : Nat → List Byte
  | 0 => []
  | n + 1 => s.rb a :: s.bytes (a + 1) n

/-- A byte string stored from `a`. -/
def State.wbytes (s : State) (a : Nat) : List Byte → State
  | [] => s
  | b :: bs => (s.wb a b).wbytes (a + 1) bs

/-- Every byte of `[a, b)` back at what nothing has written: cleared RAM, erased flash. -/
def State.clearMem (s : State) (a b : Nat) : State :=
  { s with mem := tclear (fun k => a ≤ k && k < b) s.mem }

/-! ## Physical places -/

/-- Global SRAM (R47). -/
def gsramBase : Nat := 0x10000000
def inGsram (a : Nat) : Bool := 0x10000000 ≤ a && a < 0x10800000
/-- `n` bytes from `a` lie in global SRAM. -/
def gsramRange (a n : Nat) : Bool := 0x10000000 ≤ a && a + n ≤ 0x10800000
def flashBase : Nat := 0x58000000
def norBase : Nat := 0x60000000
/-- Code SRAM of a half: one physical place each, East at 0x0800_0000 and West at 0x0810_0000. -/
def codeBase : Half → Nat
  | .east => 0x08000000
  | .west => 0x08100000
/-- Image `i` of instance space; the second copy has no address of its own in the engines' map (R47). -/
def imageBase (i : Nat) : Nat := 0x20000000 + 0x1000000 * i
/-- Local data of an engine: the engines' map shows each its own at 0x3000_0000 (R65). -/
def localBase (e : EngNo) : Nat := 0x30000000 + 0x2000 * e.val

/-! ## Time -/

/-- `n` counts of 10 ns pass; both counts wrap at 2^64. -/
def State.pass (s : State) (n : Nat) : State :=
  { s with mtb := (s.mtb + n) % 2 ^ 64, replica := (s.replica + n) % 2 ^ 64 }

/-- A happening that is due at MTB count `t`: time passes up to it when it has not been reached. -/
def State.untilMtb (s : State) (t : Nat) : State := if s.mtb < t then s.pass (t - s.mtb) else s

/-- A happening that is due at replica count `t`. -/
def State.untilReplica (s : State) (t : Nat) : State := if s.replica < t then s.pass (t - s.replica) else s

/-- The time base of a die (R8, R35). -/
def State.now (s : State) : Die → Nat
  | .damask => s.mtb
  | .muslin => s.replica

/-! ## Engines, tasks and the link ends -/

def halfOf (e : EngNo) : Half := if e.val < 32 then .east else .west
def clusterOf (e : EngNo) : Nat := e.val / 8
def laneOf (e : EngNo) : Nat := e.val % 8
def halfAt (n : Nat) : Half := if n % 2 = 0 then .east else .west
/-- The ENG page of an engine's cluster. -/
def engPage (e : EngNo) : Nat := pENG + clusterOf e

/-- FL bits (R83). -/
def flZ : Nat := 0
def flN : Nat := 1
def flC : Nat := 2
def flV : Nat := 3
def flU : Nat := 4
def flIE : Nat := 13
def flS : Nat := 14
def flEX : Nat := 15

/-- An engine as a reset leaves it (R80, R82): stopped, every register zero. -/
def engStopped : Eng :=
  { g := Vector.replicate 16 0, pc := 0, fl := 0, ib := 0, xb := 0, yb := 0, tt := 0, sp := 0, jobid := 0,
    epc := 0, efl := 0, ecause := 0, eaddr := 0, vbase := 0, mode := .idle, job := none, remErr := none,
    supPc := 0, supFl := 0, supErr := none, record := none, busyFrom := 0 }

/-- A supervisor engine as ROM starts it: supervisor mode, at the first address of ROM (log entry 7). -/
def engRom : Eng := { engStopped with mode := .run, fl := 0x4000 }

/-- What an unlisted engine is: engines 0 and 32 run the ROM of their halves, the others are stopped (R69). -/
def engDefault (e : Nat) : Eng := if e = 0 ∨ e = 32 then engRom else engStopped

def State.eng (s : State) (e : EngNo) : Eng := tget engDefault s.engs e.val
def State.setEng (s : State) (e : EngNo) (x : Eng) : State := { s with engs := tset engDefault s.engs e.val x }

/-- A task as module start leaves it: no entry, no scan, home half not yet known. -/
def taskDefault (_ : Nat) : Task :=
  { entry := none, scan := none, skipped := 0, aborted := 0, lastProfile := 0, lastWest := false, committed := false,
    lastRel := none, heldRel := none, chosen := false, placed := false }

def State.task (s : State) (t : TaskNo) : Task := tget taskDefault s.sched.tasks t.val
def State.setTask (s : State) (t : TaskNo) (x : Task) : State :=
  { s with sched := { s.sched with tasks := tset taskDefault s.sched.tasks t.val x } }

def State.link (s : State) : Die → LinkDie
  | .damask => s.damask
  | .muslin => s.muslin

def State.setLink (s : State) (d : Die) (l : LinkDie) : State :=
  match d with
  | .damask => { s with damask := l }
  | .muslin => { s with muslin := l }

/-- The DDL page of a die. -/
def ddlPage : Die → Nat
  | .damask => pDDL
  | .muslin => pDDLM


/-! ## Lists of bits -/

/-- Bit `i` of a word set or cleared. -/
def setBit (w : Word) (i : Nat) (b : Bool) : Word := if b then w ||| word (2 ^ i) else w &&& ~~~word (2 ^ i)

/-- A 64-bit set of tasks kept in two registers 4 bytes apart (SCH_ENABLED0 and so on). -/
def State.taskBit (s : State) (off : Nat) (t : TaskNo) : Bool :=
  (s.reg pSCH (off + 4 * (t.val / 32))).getLsbD (t.val % 32)

def State.putTaskBit (s : State) (off : Nat) (t : TaskNo) (b : Bool) : State :=
  s.setReg pSCH (off + 4 * (t.val / 32)) (setBit (s.reg pSCH (off + 4 * (t.val / 32))) (t.val % 32) b)

/-- Every task number, in order. -/
def allTasks : List TaskNo := List.finRange 64

/-- A function applied for each element of a list, in order. -/
def forAll (l : List α) (f : α → State → State) (s : State) : State := l.foldl (fun s a => f a s) s

/-! ## The end of a command -/

/-- The state `t` with what is fixed at assembly and the queue of waiting commands as in `s`. -/
def kept (s t : State) : State := { t with fused := s.fused, pending := s.pending }

/-- The command has its effect `t`. It changes neither what is fixed at assembly nor the queue of waiting commands. -/
def ok (s t : State) : Host.Outcome State Fault Refusal := .next (kept s t)

end Sys2Proof.Machine
end

