-- ==== Sys2Proof/Machine/LinkTx.lean ====
section
/-! DEFINITION. The transmitting side of the link: packets, sequence numbers, credits, the replay buffer (R19 to R31). -/

namespace Sys2Proof

open Sys2Proof.Machine

/-! ## Packets -/

/-- Header fields of R21. -/
def Packet.sup (p : Packet) : Bool := p.hdr.getLsbD 29
def Packet.dom (p : Packet) : Dom := p.hdr.extractLsb' 25 4
def Packet.tag (p : Packet) : Nat := (p.hdr.extractLsb' 18 7).toNat
def Packet.len (p : Packet) : Nat := (p.hdr.extractLsb' 13 5).toNat
def Packet.seq (p : Packet) : BitVec 7 := p.hdr.extractLsb' 6 7
def Packet.vc (p : Packet) : Nat := (p.hdr.extractLsb' 4 2).toNat
def Packet.type (p : Packet) : Nat := (p.hdr.extractLsb' 0 4).toNat
/-- Data word `i`. -/
def Packet.word (p : Packet) (i : Nat) : Word := p.data.getD i 0

/-- Packet types of R22. -/
def tRdReq : Nat := 0
def tWrReq : Nat := 1
def tRdRsp : Nat := 2
def tWrRsp : Nat := 3
def tBulk : Nat := 4
def tSample : Nat := 5
def tEvent : Nat := 6
def tSealed : Nat := 7
def tAck : Nat := 8
def tNak : Nat := 9
def tCredit : Nat := 10
def tHeartbeat : Nat := 11

/-- The virtual channel of a type (R22). -/
def vcOf (type : Nat) : Nat :=
  if type = tBulk ∨ type = tSealed then 1 else if type = tSample then 2 else if type = tEvent then 3 else 0

/-- The CRC of a packet, over header and data words (R20). -/
def Packet.crcOf (p : Packet) : BitVec 16 := crc16Link (wordsBytes (p.hdr :: p.data))

/-- A packet with its header built from its fields and its CRC computed. -/
def mkPacket (type : Nat) (sup : Bool) (dom : Dom) (tag : Nat) (seq : BitVec 7) (data : List Word) : Packet :=
  let hdr := word ((if sup then 2 ^ 29 else 0) + dom.toNat * 2 ^ 25 + (tag % 128) * 2 ^ 18
    + (data.length % 32) * 2 ^ 13 + seq.toNat * 2 ^ 6 + vcOf type * 2 ^ 4 + type % 16)
  let p : Packet := ⟨hdr, data, 0⟩
  { p with crc := p.crcOf }

/-- The packet with sequence number `n`, sealed by its CRC. -/
def Packet.numbered (p : Packet) (n : BitVec 7) : Packet := mkPacket p.type p.sup p.dom p.tag n p.data

/-- A packet that the receiver may take: CRC, LEN and reserved bits hold, and its TYPE exists (R20, R21, R22). The spec does
not state what becomes of one whose VC or LEN is not that of its TYPE: the model discards the first uncounted and takes the
second (log entry 116). -/
def Packet.crcGood (p : Packet) : Bool := p.crc == p.crcOf && p.len ≤ 16 && p.len == p.data.length
def Packet.wellFormed (p : Packet) : Bool := p.hdr.extractLsb' 30 2 == 0#2 && p.type < 12 && p.vc == vcOf p.type
def Packet.sequenced (p : Packet) : Bool := p.type < 8
def Packet.isResponse (p : Packet) : Bool := p.type == tRdRsp || p.type == tWrRsp

/-- XID, FIRST, LAST and OFFSET of a BULK packet's transfer header (R31). -/
def Packet.xid (p : Packet) : Nat := ((p.word 0).extractLsb' 24 8).toNat
def Packet.first (p : Packet) : Bool := (p.word 0).getLsbD 23
def Packet.last (p : Packet) : Bool := (p.word 0).getLsbD 22
def Packet.offset (p : Packet) : Nat := ((p.word 0).extractLsb' 0 16).toNat

/-- The class whose order a packet keeps: responses pass requests (R29). -/
def Packet.lane (p : Packet) : Nat := if p.isResponse then 4 else p.vc

end Sys2Proof

namespace Sys2Proof.Machine

open Reg

/-! ## Link state -/

def stDown : Nat := 0
def stTrain : Nat := 1
def stPair : Nat := 2
def stUp : Nat := 3

def State.linkState (s : State) (d : Die) : Nat := s.g (ddlPage d) DDL_STAT_STATE
/-- A die's own copy of the link state is UP (R34), and the die has its clock: without it Damask neither sends nor receives
(R395). -/
def State.linkUp (s : State) (d : Die) : Bool := s.linkState d == stUp && !(d == .damask && s.power.noClock)

def creditFld : Nat → Fld
  | 0 => DDL_CREDIT_VC0
  | 1 => DDL_CREDIT_VC1
  | 2 => DDL_CREDIT_VC2
  | _ => DDL_CREDIT_VC3

/-- The credits a die holds at the end of training (R27). -/
def initialCredits : Die → Word
  | .damask => 0x04041020
  | .muslin => 0x10101020

/-! ## Sending -/

/-- A packet put on the die's lanes. -/
def putLanes (d : Die) (p : Packet) (s : State) : State :=
  s.setLink d { s.link d with lanes := (s.link d).lanes ++ [p] }

/-- A link-control packet: no number of its own, no credit, never replayed (R22). -/
def sendCtrl (d : Die) (type : Nat) (seq : BitVec 7) (data : List Word) (s : State) : State :=
  putLanes d (mkPacket type false 0 0 seq data) s

/-- A sequenced packet transmitted: numbered, held for replay, its credit taken unless it is a response (R23, R27, R29). -/
def transmit (d : Die) (p : Packet) (s : State) : State :=
  let l := s.link d
  let q := p.numbered l.txSeq
  let s := s.setLink d { l with txSeq := l.txSeq + 1, unacked := l.unacked ++ [⟨q, s.now d, 0⟩], lanes := l.lanes ++ [q] }
  if p.isResponse then s else s.put (ddlPage d) (creditFld p.vc) (s.g (ddlPage d) (creditFld p.vc) - 1)

/-- Whether a packet may be transmitted now: room in the replay buffer, and a credit unless it is a response. -/
def mayTransmit (d : Die) (p : Packet) (s : State) : Bool :=
  (s.link d).unacked.length < 32 && (p.isResponse || 0 < s.g (ddlPage d) (creditFld p.vc))

/-- The waiting packets, oldest first: each is sent when it may be and none of its class waits before it. -/
def pumpGo (d : Die) : List Packet → List Nat → List Packet → State → State
  | [], _, kept, s => s.setLink d { s.link d with waiting := kept.reverse }
  | p :: ps, blocked, kept, s =>
    if !blocked.contains p.lane && mayTransmit d p s then pumpGo d ps blocked kept (transmit d p s)
    else pumpGo d ps (p.lane :: blocked) (p :: kept) s

/-- EVQ.LEVEL: the events of Muslin's buffer, and those that wait for a credit (R36, R43). -/
def syncEvq (s : State) : State :=
  s.put pDDLM DDL_M_EVQ_LEVEL (min 512 (s.ev.mbuf.length
    + (s.muslin.waiting.filter fun p => p.type == tEvent && p.word 0 &&& 0xFFFF != 0).length))

/-- What may be sent of the packets that wait. -/
def pump (d : Die) (s : State) : State :=
  let t := pumpGo d (s.link d).waiting [] [] s
  if d = .muslin ∧ (s.link d).waiting ≠ [] then syncEvq t else t

/-- A packet of XID 0x01 goes ahead of every other bulk packet not yet sent (R31). -/
def isOther (p : Packet) : Bool := p.vc == 1 && !(p.type == tBulk && p.xid == 0x01)
def enqueued (w : List Packet) (p : Packet) : List Packet :=
  if p.type == tBulk && p.xid == 0x01 then
    w.takeWhile (fun q => !isOther q) ++ [p] ++ w.dropWhile (fun q => !isOther q)
  else w ++ [p]

/-- A sequenced packet handed to the link of die `d`; while the link is not UP nothing is taken. -/
def sendPacket (d : Die) (p : Packet) (s : State) : State :=
  if s.linkUp d then pump d (s.setLink d { s.link d with waiting := enqueued (s.link d).waiting p })
  else s

/-- The packets of one bulk transfer: up to 15 payload words each, FIRST and LAST marked (R31). -/
def bulkPacketsGo (xid : Nat) : Nat → Nat → List Word → List Packet
  | 0, _, _ => []
  | n + 1, off, ws =>
    let first := if off = 0 then 2 ^ 23 else 0
    let last := if ws.length ≤ 15 then 2 ^ 22 else 0
    mkPacket tBulk false 0 0 0 (word (xid * 2 ^ 24 + first + last + off) :: ws.take 15)
      :: bulkPacketsGo xid n (off + 15) (ws.drop 15)

def bulkPackets (xid : Nat) (ws : List Word) : List Packet := bulkPacketsGo xid ((ws.length + 14) / 15) 0 ws

/-- A bulk transfer handed to the link. -/
def sendBulk (d : Die) (xid : Nat) (ws : List Word) (s : State) : State :=
  forAll (bulkPackets xid ws) (sendPacket d) s

/-- The packets of one SAMPLE delivery: words 0 to 2 of R32, then up to 13 words of records. -/
def samplePacketsGo (kind : Nat) (gap : Bool) (w1 w2 : Word) : Nat → Nat → List Word → List Packet
  | 0, _, _ => []
  | n + 1, off, ws =>
    let last := if ws.length ≤ 13 then 2 ^ 26 else 0
    mkPacket tSample false 0 0 0
      (word (kind * 2 ^ 28 + (if gap then 2 ^ 27 else 0) + last + off) :: w1 :: w2 :: ws.take 13)
      :: samplePacketsGo kind gap w1 w2 n (off + 52) (ws.drop 13)

def sendSample (kind : Nat) (gap : Bool) (w1 w2 : Word) (bs : List Byte) (s : State) : State :=
  let ws := bytesWords bs
  forAll (samplePacketsGo kind gap w1 w2 ((ws.length + 12) / 13) 0 ws) (sendPacket .muslin) s

/-- The packets of one sealed transfer: consecutive SEALED packets of up to 16 words (R41). -/
def sealedPacketsGo : Nat → List Word → List Packet
  | 0, _ => []
  | n + 1, ws => mkPacket tSealed false 0 0 0 (ws.take 16) :: sealedPacketsGo n (ws.drop 16)

end Sys2Proof.Machine
end

