-- ==== Sys2Proof/Machine/Events.lean ====
section
/-! DEFINITION. Events, faults and interrupt requests: how a flag is raised, how an event reaches the sequencer,
the recorder and Muslin's buffer (R36, R328, R329, R391 to R410). -/

namespace Sys2Proof.Machine

open Reg

/-! ## Records -/

/-- OPFRAC: the 15-bit operating prescaler shifted left by 1 (R301). -/
def opFrac (s : State) : Nat := 2 * s.chr.opPre

/-- The 32 bytes of a record, stamped with the operating life at its acceptance (R327). -/
def recordBytes (s : State) (seq : Word) (source : Byte) (dsl : Byte) (code : BitVec 16) (data : List Byte) : List Byte :=
  let b := wordBytes seq ++ wordBytes (s.reg pCHR 0x058) ++ leBytes 2 (opFrac s)
    ++ wordBytes (s.reg pNCT (0x080 + 4)) ++ [source, dsl] ++ leBytes 2 code.toNat ++ padTo 10 data
  b ++ wordBytes (crc32c b)

/-- DSL: domain, severity and LOCAL (R327). -/
def dslByte (dom : Dom) (sev : BitVec 3) (local_ : Bool) : Byte :=
  byte (dom.toNat + 16 * sev.toNat + if local_ then 128 else 0)

/-- QLEVEL: records queued; 64 reads as 63. -/
def syncQlevel (s : State) : State := s.put pEVR EVR_STAT_QLEVEL (min s.evr.queue.length 63)

/-- The recorder accepts a record of 32 bytes, or discards it when 64 wait (R329). -/
def recAccept (r : List Byte) (s : State) : State :=
  if s.evr.queue.length < 64 then
    syncQlevel { s with evr := { s.evr with queue := s.evr.queue ++ [r] } }
  else
    State.bump { s with evr := { s.evr with dropped := s.evr.dropped + 1 } } pEVR EVR_LOST_COUNT

/-- Muslin records one of its own events at once: LOCAL = 1, SEQ = MSEQ (R328). -/
def recordLocal (page : Nat) (dom : Dom) (sev : BitVec 3) (code : BitVec 16) (data : List Byte) (s : State) : State :=
  let m := s.reg pEVR 0x058
  (recAccept (recordBytes s m (byte (128 + page)) (dslByte dom sev true) code data) s).incr pEVR EVR_MSEQ_MSEQ

/-! ## Muslin events -/

/-- The EVENT packet of R33. -/
def eventPacket (page : Nat) (e : Event) : Packet :=
  let w0 := (if e.recorded then 2 ^ 31 else 0) + page * 2 ^ 24 + e.severity.toNat * 2 ^ 20 + e.dom.toNat * 2 ^ 16 + e.code.toNat
  mkPacket tEvent false 0 0 0
    (word w0 :: word e.stamp :: word (e.stamp / 2 ^ 32) :: bytesWords (padTo 12 (padTo 10 e.data))
      ++ if e.recorded then [e.mseq] else [])

/-- A Muslin event: over the link when it is UP, otherwise recorded as LOCAL and held in the buffer of 512 (R36, R328). -/
def muslinEventOnce (page : Nat) (dom : Dom) (sev : BitVec 3) (code : BitVec 16) (data : List Byte) (s : State) : State :=
  let e : Event :=
    { stamp := s.replica, source := byte (128 + page), dom := dom, severity := sev, code := code,
      data := padTo 10 data, rank := 128, ready := 0, recorded := false, mseq := 0 }
  if s.linkUp .muslin then sendPacket .muslin (eventPacket page e) s
  else
    let m := s.reg pEVR 0x058
    let s := recordLocal page dom sev code data s
    if s.ev.mbuf.length < 512 then
      let s := { s with ev := { s.ev with mbuf := s.ev.mbuf ++ [{ e with recorded := true, mseq := m }] } }
      s.put pDDLM DDL_M_EVQ_LEVEL s.ev.mbuf.length
    else
      State.bump { s with ev := { s.ev with mlost := s.ev.mlost + 1 } } pDDLM DDL_M_EVQ_LOST

/-- Between `s` and `t` the recorder discarded a record: the bit of EVR_IRQ_RAW that this sets, with its own event when it was
clear (R329, R404). -/
def tellDiscarded (s t : State) : State :=
  if s.evr.dropped < t.evr.dropped ∧ !t.bit pEVR EVR_IRQ_RAW_LOST then
    muslinEventOnce 6 0 1 0x0102 [] (t.put pEVR EVR_IRQ_RAW_LOST 1)
  else t

/-- A Muslin event, and what follows when its record is discarded. -/
def muslinEvent (page : Nat) (dom : Dom) (sev : BitVec 3) (code : BitVec 16) (data : List Byte) (s : State) : State :=
  tellDiscarded s (muslinEventOnce page dom sev code data s)

/-- The request levels of the 21 Muslin pages: bit n is set while page n's IRQ_PEND is non-zero (R50, R402). -/
def muslinLevels (s : State) : BitVec 21 :=
  BitVec.ofNat 21 ((List.range 21).foldl (fun a n => a + if s.irqPend (64 + n) = 0 then 0 else 2 ^ n) 0)

/-- Muslin reports its request levels when they have changed since its last report (R402). -/
def syncLevels (s : State) : State :=
  let l := muslinLevels s
  if s.linkUp .muslin && l != s.ev.reported then
    let e : Event :=
    { stamp := s.replica, source := 0x80, dom := 0, severity := 0, code := 0, data := leBytes 10 l.toNat,
        rank := 128, ready := 0, recorded := false, mseq := 0 }
    sendPacket .muslin (eventPacket 0 e) { s with ev := { s.ev with reported := l } }
  else s

/-! ## Damask events -/

/-- An event takes its place among those waiting for a number: by the clock in which it became ready, then in the
fixed order of R405, then in the order of raising. -/
def evInsert (e : Event) : List Event → List Event
  | [] => [e]
  | x :: xs => if e.ready < x.ready ∨ (e.ready = x.ready ∧ e.rank < x.rank) then e :: x :: xs else x :: evInsert e xs

def evsTake (e : Event) (s : State) : State := { s with ev := { s.ev with waiting := evInsert e s.ev.waiting } }

/-- An event raised on Damask. -/
def damaskEvent (rank : Nat) (source : Byte) (dom : Dom) (sev : BitVec 3) (code : BitVec 16) (data : List Byte) (s : State) :
    State :=
  evsTake
    { stamp := s.mtb, source := source, dom := dom, severity := sev, code := code, data := padTo 10 data,
      rank := rank, ready := s.mtb, recorded := false, mseq := 0 } s

/-- An event of severity 1 of register page `p` (R404). -/
def pageEvent (p : Nat) (dom : Dom) (code : BitVec 16) (data : List Byte) (s : State) : State :=
  if isMuslinPage p then muslinEvent (p - 64) dom 1 code data s
  else damaskEvent (1 + p) (byte p) dom 1 code data s

/-- Any other event of a page: CODE 0x01FF (R404). -/
def otherEvent (p : Nat) (dom : Dom) (data : List Byte) (s : State) : State := pageEvent p dom 0x01FF data s

/-- A hardware setting of bit `f` of a page's IRQ_RAW. It raises the event 0x0100 + b when the bit was 0, and always
where the chapter says that the happening logs an event (`always`); Muslin reports a changed request level. -/
def raiseWith (p : Nat) (f : Fld) (always : Bool) (dom : Dom) (data : List Byte) (s : State) : State :=
  let was := s.bit p f
  let s := s.put p f 1
  let s := if !was || always then pageEvent p dom (BitVec.ofNat 16 (0x0100 + f.lo)) data s else s
  if isMuslinPage p then syncLevels s else s

/-- A flag raised by the hardware. -/
def raise (p : Nat) (f : Fld) (s : State) : State := raiseWith p f false 0 [] s

/-- A flag whose chapter says that the happening logs an event, with its data. -/
def raiseLog (p : Nat) (f : Fld) (data : List Byte) (s : State) : State := raiseWith p f true 0 data s

/-! ## Faults -/

/-- Severity of a class event: 4 in classes 6, 10 and 11, else 2 when masked and 3 when detected (R393). -/
def faultSeverity (c : Nat) (masked : Bool) : BitVec 3 :=
  if c = 6 ∨ c = 10 ∨ c = 11 then 4 else if masked then 2 else 3

/-- A fault of class `c` with the data its chapter names (R393). -/
def raiseFaultWith (c : Nat) (masked : Bool) (eng : Nat) (addr : Word) (data : List Byte) (s : State) : State :=
  let code := 0x0200 + c
  let s := s.setReg pFLT irqRawOff (setBit (s.reg pFLT irqRawOff) c true)
  let s := s.setReg pFLT 0x044 (word (code * 2 ^ 16 + (if masked then 64 else 0) + eng % 64))
  let s := s.setReg pFLT 0x048 addr
  let s := s.bump pFLT (if masked then FLT_CNT_MASKED else FLT_CNT_DETECTED)
  damaskEvent 0 (byte pFLT) 0 (faultSeverity c masked) (BitVec.ofNat 16 code) data s

def raiseFault (c : Nat) (masked : Bool) (eng : Nat) (addr : Word) (s : State) : State :=
  raiseFaultWith c masked eng addr [] s

/-- A fault that a Muslin block finds: it reaches FLT while the link is UP, and is otherwise recorded by Muslin as an event of
the block's page `p` (R392, log entry 123). -/
def muslinFault (p c : Nat) (masked : Bool) (addr : Word) (s : State) : State :=
  if s.linkUp .muslin && s.linkUp .damask then raiseFault c masked 0 addr s
  else muslinEvent (p - 64) 0 (faultSeverity c masked) (BitVec.ofNat 16 (0x0200 + c)) [] s

/-- FAULT_N as Muslin drives it: low (true) while the link is not UP on Muslin, and while an unmasked class stands (R397). -/
def faultNLow (s : State) : Bool :=
  !s.linkUp .muslin || (s.reg pFLT irqRawOff &&& s.reg pFLT 0x040) != 0

end Sys2Proof.Machine
end

