-- ==== Sys2Proof/Machine/Queues.lean ====
section
/-! DEFINITION. The rings of the hardware queues Q16 to Q31 in global SRAM (R411). -/

namespace Sys2Proof.Machine

open Reg

/-- Entry size of ring A and ring B of each queue; 0 where the queue lacks the ring (R411). -/
def ringSizes : Nat → Nat × Nat
  | 16 | 17 | 18 | 19 => (0, 80)
  | 20 | 21 => (80, 0)
  | 22 => (0, 1568)
  | 23 => (1568, 0)
  | 24 | 25 | 26 | 27 => (528, 528)
  | 28 => (288, 288)
  | 29 => (0, 32)
  | 30 => (64, 16)
  | 31 => (32, 16)
  | _ => (0, 0)

/-- One ring's descriptor as QMG holds it. -/
structure Ring where
  base : Nat
  prod : Nat
  cons : Nat
  enabled : Bool
  /-- entries the ring holds, 2^LOG2; LOG2 13 to 15 act as 12 -/
  cap : Nat
  size : Nat
  deriving DecidableEq, Repr

def qf (f : Fld) (q : Nat) : Fld := f.at 0x20 (q - 16)

def ringA (s : State) (q : Nat) : Ring :=
  { base := s.g pQMG (qf QMG_ABASE_BASE q) * 16, prod := s.g pQMG (qf QMG_AIDX_PROD q), cons := s.g pQMG (qf QMG_AIDX_CONS q),
    enabled := s.bit pQMG (qf QMG_QCFG_AEN q), cap := 2 ^ min (s.g pQMG (qf QMG_QCFG_ALOG2 q)) 12, size := (ringSizes q).1 }

def ringB (s : State) (q : Nat) : Ring :=
  { base := s.g pQMG (qf QMG_BBASE_BASE q) * 16, prod := s.g pQMG (qf QMG_BIDX_PROD q), cons := s.g pQMG (qf QMG_BIDX_CONS q),
    enabled := s.bit pQMG (qf QMG_QCFG_BEN q), cap := 2 ^ min (s.g pQMG (qf QMG_QCFG_BLOG2 q)) 12, size := (ringSizes q).2 }

/-- Entries in a ring. -/
def Ring.level (r : Ring) : Nat := (r.prod + 8192 - r.cons) % 8192
/-- Address of the entry with index `i`. -/
def Ring.slot (r : Ring) (i : Nat) : Nat := r.base + r.size * (i % r.cap)

/-- The module writes an entry into ring B and advances PROD; none when the ring is disabled or full. -/
def pushB (q : Nat) (entry : List Byte) (s : State) : Option State :=
  let r := ringB s q
  if r.enabled && r.level < r.cap then
    some ((s.wbytes (r.slot r.prod) (padTo r.size entry)).put pQMG (qf QMG_BIDX_PROD q) (r.prod + 1))
  else none

/-- The oldest entry of ring A, when the ring is enabled and holds one. -/
def headA (q : Nat) (s : State) : Option (List Byte) :=
  let r := ringA s q
  if r.enabled && r.level != 0 then some (s.bytes (r.slot r.cons) r.size) else none

/-- The module has taken the oldest entry of ring A: CONS advances. -/
def takeA (q : Nat) (s : State) : State :=
  s.put pQMG (qf QMG_AIDX_CONS q) ((ringA s q).cons + 1)

end Sys2Proof.Machine
end

