-- ==== Sys2Proof/Machine/Domains.lean ====
section
/-! DEFINITION. Tenant domains: page owners, the point rules, and how violations are collected and reported (R53 to R56,
R95, R96, R146 to R155). -/

namespace Sys2Proof.Machine

open Reg

/-! ## Pages -/

/-- Pages whose owner is fixed at D0 (R55). -/
def fixedOwner (p : Nat) : Bool := p == pSYS || p == pMSYS || p == pDOM

/-- Register of DOM_PGOWN that holds the owner of page `p`, and the bit its nibble starts at (R155). -/
def pgownPlace (p : Nat) : Nat × Nat :=
  if p < 64 then (0x100 + 4 * (p / 8), 4 * (p % 8)) else (0x120 + 4 * ((p - 64) / 8), 4 * ((p - 64) % 8))

/-- Owner of a page (R153). -/
def pageOwner (p : Nat) (s : State) : Dom :=
  if fixedOwner p then 0 else (s.reg pDOM (pgownPlace p).1).extractLsb' (pgownPlace p).2 4

def setPageOwner (p : Nat) (d : Dom) (s : State) : State :=
  if fixedOwner p then s
  else
    let (off, lo) := pgownPlace p
    s.put pDOM ⟨off, lo, 4⟩ d.toNat

/-! ## Points (R148) -/

def pointBase : Nat := 0x10040000
def inPoints (a : Nat) : Bool := 0x10040000 ≤ a && a < 0x10060000
def pointOf (a : Nat) : Nat := (a - pointBase) / 16

def pointTag (p : Nat) (s : State) : Byte := tget (fun _ => 0) s.points p
def setPointTag (p : Nat) (b : Byte) (s : State) : State := { s with points := tset (fun _ => 0) s.points p (b &&& 0x7F) }

def pointOwner (p : Nat) (s : State) : Dom := (pointTag p s).extractLsb' 0 4

/-- MASK of share set `n`; set 0 grants nothing. -/
def shareMask (n : Nat) (s : State) : Word := if n = 0 then 0 else s.reg pDOM (0x048 + 4 * (n - 1))

def pointReadable (d : Dom) (p : Nat) (s : State) : Bool :=
  pointOwner p s == d || (shareMask ((pointTag p s).extractLsb' 4 3).toNat s).getLsbD d.toNat

def pointWritable (d : Dom) (p : Nat) (s : State) : Bool := pointOwner p s == d

/-- Task-mode access of domain `d` to one place of global SRAM, with the task's two windows (R148, R149). -/
def gsramReadable (d : Dom) (xb yb : Nat) (a : Nat) (s : State) : Bool :=
  if inPoints a then pointReadable d (pointOf a) s
  else (xb ≤ a && a < xb + 0x8000) || (yb ≤ a && a < yb + 0x10000)

def gsramWritable (d : Dom) (yb : Nat) (a : Nat) (s : State) : Bool :=
  if inPoints a then pointWritable d (pointOf a) s else yb ≤ a && a < yb + 0x10000

/-- The words of a copy entry (R113). -/
def entryWords (a len : Nat) : List Nat := (List.range ((len + 3) / 4)).map fun i => a + 4 * i

/-- A copy entry is granted only when every word in it is, as an access of the task would be (R148, R149). -/
def entryReadable (d : Dom) (xb yb a len : Nat) (s : State) : Bool := (entryWords a len).all fun w => gsramReadable d xb yb w s

def entryWritable (d : Dom) (yb a len : Nat) (s : State) : Bool := (entryWords a len).all fun w => gsramWritable d yb w s

/-! ## Violations -/

/-- Kinds of R151. -/
def vkRead : Nat := 0
def vkWrite : Nat := 1
def vkSnapshot : Nat := 2
def vkPublish : Nat := 3
def vkPage : Nat := 4
def vkRws : Nat := 5

/-- One more violation of the job that runs on an engine: the count, and address and kind of the first (R96). -/
def collect (e : EngNo) (addr : Word) (kind : Nat) (s : State) : State :=
  let x := s.eng e
  match x.job with
  | none => s
  | some j =>
    let v := if j.viol.count = 0 then ⟨1, addr, kind⟩ else { j.viol with count := min 255 (j.viol.count + 1) }
    s.setEng e { x with job := some { j with viol := v } }

/-- A violation event released: its DATA, VIOL set without a second event, the last violation and the count (R151). -/
def releaseViolation (rank : Nat) (d : Dom) (t : TaskNo) (job : Nat) (addr : Word) (count kind : Nat) (s : State) : State :=
  let data := byte t.val :: leBytes 2 job ++ wordBytes addr ++ [byte count, byte kind, 0]
  let s := damaskEvent rank (byte pDOM) d 1 0x0100 data s
  let s := s.put pDOM DOM_IRQ_RAW_VIOL 1
  let s := s.setReg pDOM 0x064 addr
  let s := s.setReg pDOM 0x068
    (word (d.toNat * 2 ^ 26 + kind * 2 ^ 23 + t.val * 2 ^ 17 + if job < 4096 then job else 0))
  s.bump pDOM DOM_VCNT_COUNT count

end Sys2Proof.Machine
end

