-- ==== Sys2Proof/Machine/Images.lean ====
section
/-! DEFINITION. Twin images of instance space: selectors, dirty lines, commit, copy-forward and copy-back (R71, R72,
R127 to R130, R145). -/

namespace Sys2Proof.Machine

open Reg

def instBase : Nat := 0x20000000
def inInstance (a : Nat) : Bool := 0x20000000 ≤ a && a < 0x20400000
/-- Region and 32-byte line of an address of instance space. -/
def regionOf (a : Nat) : Nat := (a - instBase) / 4096
def lineOf (a : Nat) : Nat := (a - instBase) / 32
/-- Cluster whose banks hold a line, and the region of a line. -/
def lineCluster (l : Nat) : Nat := l / 16384
def lineRegion (l : Nat) : Nat := l / 128

/-- The 16-bit IMG_RGN entry of region `k`. -/
def rgnEntry (k : Nat) (s : State) : BitVec 16 := (s.reg pIMG (0x800 + 4 * (k / 2))).extractLsb' (16 * (k % 2)) 16
def rgnSel (k : Nat) (s : State) : Nat := ((rgnEntry k s).extractLsb' 15 1).toNat
def rgnRetain (k : Nat) (s : State) : Bool := (rgnEntry k s).getLsbD 11
def rgnValid (k : Nat) (s : State) : Bool := (rgnEntry k s).getLsbD 10
def rgnDom (k : Nat) (s : State) : Dom := (rgnEntry k s).extractLsb' 6 4
def rgnTaskField (k : Nat) (s : State) : TaskNo := ⟨((rgnEntry k s).extractLsb' 0 6).toNat, BitVec.isLt _⟩
/-- The task a region belongs to: none while VALID is 0 (R130, R145). -/
def rgnTask (k : Nat) (s : State) : Option TaskNo := if rgnValid k s then some (rgnTaskField k s) else none
def allRegions : List Nat := List.range 1024
/-- The regions of a task. -/
def regionsOfTask (t : TaskNo) (s : State) : List Nat := allRegions.filter fun k => rgnTask k s == some t
def flipSel (k : Nat) (s : State) : State :=
  s.put pIMG ⟨0x800 + 4 * (k / 2), 16 * (k % 2) + 15, 1⟩ (1 - rgnSel k s)

/-- Physical address of an instance byte in image `i`. -/
def imageAddr (i a : Nat) : Nat := imageBase i + (a - instBase)
def baseAddr (a : Nat) (s : State) : Nat := imageAddr (rgnSel (regionOf a) s) a
def workAddr (a : Nat) (s : State) : Nat := imageAddr (1 - rgnSel (regionOf a) s) a

def lineTag (l : Nat) (s : State) : Option LineTag := tget (fun _ => none) s.sched.dirty l
def setLineTag (l : Nat) (t : Option LineTag) (s : State) : State :=
  { s with sched := { s.sched with dirty := tset (fun _ => none) s.sched.dirty l t } }

/-- Copy-forward or copy-back of a line is pending. -/
def linePending (l : Nat) (s : State) : Bool := s.sched.copies.any fun c => c.lines.contains l

/-- The line is in sync: neither dirty nor pending at the bank port (R72). -/
def lineInSync (l : Nat) (s : State) : Bool := lineTag l s == none && !linePending l s

/-- A task has lines pending at a bank port. -/
def taskPending (t : TaskNo) (s : State) : Bool := s.sched.copies.any fun c => c.task == t

/-- Where a load of a job, or of a supervisor (no tag), finds its bytes (R71, R130). -/
def loadPlace (tag : Option LineTag) (a : Nat) (s : State) : Nat :=
  if tag != none && lineTag (lineOf a) s == tag then workAddr a s else baseAddr a s

/-- CFBUSY: clusters with lines pending. -/
def syncCfBusy (s : State) : State :=
  s.put pIMG IMG_STAT_CFBUSY
    ((List.range 8).foldl (fun a k => a + if s.sched.copies.any (fun c => c.cluster == k) then 2 ^ k else 0) 0)

/-- One line copied from the base image into the work image. -/
def copyLine (l : Nat) (s : State) : State :=
  let a := instBase + 32 * l
  s.wbytes (workAddr a s) (s.bytes (baseAddr a s) 32)

/-- A line leaves every pending list. -/
def dropPending (l : Nat) (s : State) : State :=
  { s with sched := { s.sched with
      copies := (s.sched.copies.map fun c => { c with lines := c.lines.filter (· != l) }).filter fun c => c.lines != [] } }

/-- A store to a line in copy-back waits until that line is copied (R128): the copy happens first. -/
def settleLine (l : Nat) (s : State) : State := if linePending l s then syncCfBusy (dropPending l (copyLine l s)) else s

/-- Lines handed to the bank ports, cluster by cluster (R127, R128). -/
def pendLines (t : TaskNo) (lines : List Nat) (s : State) : State :=
  let per := (List.range 8).filterMap fun k =>
    let ls := lines.filter fun l => lineCluster l == k
    if ls = [] then none else some (⟨t, k, ls⟩ : LineCopy)
  syncCfBusy { s with sched := { s.sched with copies := s.sched.copies ++ per } }

/-- The dirty lines that satisfy `p`, in address order. -/
def dirtyLines (p : LineTag → Bool) (s : State) : List Nat :=
  s.sched.dirty.filterMap fun (l, t) => match t with
    | some tag => if p tag then some l else none
    | none => none

/-- Dirty lines that lose their tags and go to the bank ports. -/
def retireLines (t : TaskNo) (p : LineTag → Bool) (s : State) : State :=
  let ls := dirtyLines p s
  if ls = [] then s else pendLines t ls (forAll ls (fun l s => setLineTag l none s) s)

/-- The writes of a job are discarded: its lines enter copy-back (R128). -/
def discardJobLines (t : TaskNo) (job : Nat) (s : State) : State :=
  retireLines t (fun tag => tag.task == t && tag.job == job) s

/-- Every dirty line of a task enters copy-back (a dead scan, R137), or copy-forward after COMMIT (R127). -/
def retireTaskLines (t : TaskNo) (s : State) : State := retireLines t (fun tag => tag.task == t) s

/-- COMMIT: every selector of the task's regions flips, then its lines are pending for copy-forward (R127). -/
def commitImages (t : TaskNo) (s : State) : State :=
  let ks := regionsOfTask t s
  retireTaskLines t ((forAll ks flipSel s).incr pIMG IMG_COMMITS_COUNT)

/-- The port of one cluster has copied everything up to the last lines of task `t`. -/
def copyUpTo (t : TaskNo) (k : Nat) (s : State) : State :=
  let mine := s.sched.copies.filter fun c => c.cluster == k
  let rest := mine.reverse.dropWhile fun c => c.task != t
  forAll rest.reverse (fun c s => forAll c.lines (fun l s => dropPending l (copyLine l s)) s) s

/-- Copy-forward and copy-back of a task's lines finish (R127, R129). -/
def copyDone (t : TaskNo) (s : State) : State := syncCfBusy (forAll (List.range 8) (copyUpTo t) s)

/-- Both images of a region cleared to zero (R141, R145). -/
def clearRegion (k : Nat) (s : State) : State :=
  (s.clearMem (imageBase 0 + 4096 * k) (imageBase 0 + 4096 * k + 4096)).clearMem
    (imageBase 1 + 4096 * k) (imageBase 1 + 4096 * k + 4096)

/-- IMG_RETAIN.COUNT: regions with VALID = 1 and RETAIN = 1. -/
def retainCount (s : State) : Nat := (allRegions.filter fun k => rgnValid k s && rgnRetain k s).length
def syncRetain (s : State) : State := s.put pIMG IMG_RETAIN_COUNT (retainCount s)

/-- The region's task has a live scan or lines pending (R130, R145). -/
def taskBusy (t : Option TaskNo) (s : State) : Bool :=
  match t with
  | none => false
  | some t => (s.task t).scan != none || taskPending t s

end Sys2Proof.Machine
end

