-- ==== Sys2Proof/Machine/Sched.lean ====
section
/-! DEFINITION. The scheduler: task entries and their validation, releases, job graphs, commits, recomputation,
overruns and migration (R112 to R145). -/

namespace Sys2Proof.Machine

open Reg

/-! ## Profiles as the scheduler reads them (R386, R387) -/

def prfImage (n : Nat) (s : State) : Nat := s.g pPRF PRF_BASE_BASE * 2 ^ 18 + 0x10000 * (n % 4)
def activeProfile (s : State) : Nat := s.g pPRF PRF_STAT_ACTIVE
def profileValid (n : Nat) (s : State) : Bool := (s.g pPRF PRF_STAT_VALID).testBit n
/-- PERIOD of task `t` in profile `n`; 0 means disabled. -/
def profilePeriod (n : Nat) (t : TaskNo) (s : State) : Nat := (s.rw (prfImage n s + 64 + 4 * t.val)).toNat
/-- The profile in force for releases at base tick `b`: the one accepted below 25,000 × b (R119). -/
def profileAt (b : Nat) (s : State) : Nat :=
  if s.sched.acceptedAt < 25000 * b ∨ s.sched.acceptedAt = 0 then activeProfile s else s.sched.prevProfile
/-- The value that an active override gives the word at global SRAM address `a` (R387, R389): the last one wins. -/
def overrideAt (a : Nat) (s : State) : Option Word :=
  let img := prfImage (activeProfile s) s
  if profileValid (activeProfile s) s && inPoints a then
    (List.range (s.rh (img + 6))).foldl (fun acc i =>
      let o := img + 448 + 8 * i
      if pointBase + 16 * s.rh o + 4 * ((s.rb (o + 2)).toNat % 4) = a then some (s.rw (o + 4)) else acc) none
  else none

/-! ## Task registers -/

/-- The TSK window of a task. -/
def tskPage (t : TaskNo) : Nat := pTask + t.val
def offEnabled : Nat := 0x04C
def offActive : Nat := 0x054
def offWest : Nat := 0x05C
def offMigPend : Nat := 0x064

def taskEnabled (t : TaskNo) (s : State) : Bool := s.taskBit offEnabled t
def taskWest (t : TaskNo) (s : State) : Bool := s.taskBit offWest t
def taskMigPend (t : TaskNo) (s : State) : Bool := s.taskBit offMigPend t
def taskHalf (t : TaskNo) (s : State) : Half := if taskWest t s then .west else .east
/-- The half whose deques take jobs that become ready (R143). -/
def targetHalf (t : TaskNo) (s : State) : Half := if taskMigPend t s then (taskHalf t s).other else taskHalf t s

/-- JOBSUM: jobs of all enabled tasks. -/
def jobSum (s : State) : Nat :=
  (allTasks.filter fun t => taskEnabled t s).foldl (fun a t =>
    a + match (s.task t).entry with | some e => e.njobs | none => 0) 0

/-- ENABLED shown in SCH and TSK, and JOBSUM. -/
def setEnabled (t : TaskNo) (b : Bool) (s : State) : State :=
  let s := (s.putTaskBit offEnabled t b).putBit (tskPage t) TSK_TSTAT_ENABLED b
  s.put pSCH SCH_JOBSUM_JOBS (jobSum s)

/-- A live scan shown in SCH_ACTIVE, SCANS and TSK_TSTAT.SCANNING. -/
def setScanning (t : TaskNo) (b : Bool) (s : State) : State :=
  let s := (s.putTaskBit offActive t b).putBit (tskPage t) TSK_TSTAT_SCANNING b
  s.put pSCH SCH_STAT_SCANS (allTasks.filter fun t => s.taskBit offActive t).length

def setWest (t : TaskNo) (b : Bool) (s : State) : State :=
  (s.putTaskBit offWest t b).putBit (tskPage t) TSK_TSTAT_WEST b

/-- MIGPEND of a task, and MIGBUSY. -/
def setMigPend (t : TaskNo) (b : Bool) (s : State) : State :=
  let s := s.putTaskBit offMigPend t b
  s.putBit pSCH SCH_STAT_MIGBUSY (allTasks.any fun t => taskMigPend t s)

/-! ## Entry, lists and graph -/

def taskEntryAddr (t : TaskNo) (s : State) : Nat := s.g pSCH SCH_TBASE_BASE * 4096 + 64 * t.val

/-- A copy list entry: ADDR, OFF, LEN (R113). -/
structure CopyEntry where
  addr : Nat
  off : Nat
  len : Nat
  deriving DecidableEq, Repr

def copyEntry (list k : Nat) (s : State) : CopyEntry :=
  ⟨(s.rw (list + 8 * k)).toNat, s.rh (list + 8 * k + 4), s.rh (list + 8 * k + 6)⟩

def copyList (list n : Nat) (s : State) : List CopyEntry := (List.range n).map fun k => copyEntry list k s

/-- The limits of R113 on one list: `lo` is the least OFF, `area` the greatest extent. -/
def listGood (es : List CopyEntry) (lo area : Nat) : Bool :=
  (es.all fun e => e.addr % 4 == 0 && gsramRange e.addr e.len && e.off % 4 == 0 && lo ≤ e.off && e.len % 4 == 0
    && 4 ≤ e.len && e.len ≤ 16384 && e.off + e.len ≤ area)
  && decide (es.Pairwise fun a b => a.off + a.len ≤ b.off ∨ b.off + b.len ≤ a.off)

/-- A job descriptor (R115). -/
structure JobDesc where
  entry : Word
  inst : Word
  arg : Word
  wcet : Nat
  npred : Nat
  nsuc : Nat
  succ : Nat
  home : Nat
  deriving DecidableEq, Repr

def jobAddr (graph j : Nat) : Nat := graph + 32 + 32 * j

def jobDesc (graph j : Nat) (s : State) : JobDesc :=
  let a := jobAddr graph j
  ⟨s.rw a, s.rw (a + 4), s.rw (a + 8), (s.rw (a + 12)).toNat, s.rh (a + 16), s.rh (a + 18), (s.rw (a + 20)).toNat,
   (s.rb (a + 24)).toNat⟩

/-- The successors of a job, in array order. -/
def successors (graph njobs : Nat) (d : JobDesc) (s : State) : List Nat :=
  (List.range d.nsuc).map fun i => s.rh (graph + 32 + 32 * njobs + 2 * (d.succ + i))

def zeroBytes (a n : Nat) (s : State) : Bool := (s.bytes a n).all (· == 0)

/-- How often job `j` stands in the successor slices of all jobs. -/
def predCount (graph njobs j : Nat) (s : State) : Nat :=
  (List.range njobs).foldl (fun a i => a + ((successors graph njobs (jobDesc graph i s) s).filter (· == j)).length) 0

/-- The graph, its edges and its ready counts hold (R114 to R116). -/
def graphGood (graph : Nat) (s : State) : Bool :=
  let njobs := s.rh (graph + 4)
  let nroots := s.rh (graph + 6)
  let nsucc := (s.rw (graph + 8)).toNat
  let total := 32 + 32 * njobs + 2 * nsucc
  let ds := (List.range njobs).map fun j => jobDesc graph j s
  s.bytes graph 4 == ascii "JG01" && 1 ≤ njobs && njobs ≤ 4096 && 1 ≤ nroots && nroots ≤ njobs && nsucc ≤ 65536
  && zeroBytes (graph + 16) 12 s && gsramRange graph total
  && s.rw (graph + 28) == crc32c (s.bytes graph 28 ++ s.bytes (graph + 32) (total - 32))
  && (ds.all fun d => 0x08000000 ≤ d.entry.toNat && d.entry.toNat < 0x08100000 && d.entry.toNat % 4 == 0
        && inInstance d.inst.toNat && 1 ≤ d.wcet && d.wcet ≤ 0x3FFFFFFF && d.npred ≤ 4095 && d.nsuc ≤ 4095 && d.home < 4
        && d.succ + d.nsuc ≤ nsucc)
  && ((List.range njobs).all fun j => zeroBytes (jobAddr graph j + 25) 7 s
        && ((successors graph njobs (jobDesc graph j s) s).all fun k => k < njobs && k != j)
        && (jobDesc graph j s).npred == predCount graph njobs j s)
  && (ds.filter fun d => d.npred == 0).length == nroots

/-- The checks of R116 on a task's entry under period `p`: the entry that holds while the task is enabled. -/
def validate (t : TaskNo) (p : Nat) (s : State) : Option TaskEntry :=
  let a := taskEntryAddr t s
  let ctl := s.rw a
  let phase := (s.rw (a + 4)).toNat
  let graph := (s.rw (a + 8)).toNat
  let rcbase := (s.rw (a + 12)).toNat
  let xb := (s.rw (a + 16)).toNat
  let snap := (s.rw (a + 20)).toNat
  let snapCnt := s.rh (a + 24)
  let pubCnt := s.rh (a + 26)
  let yb := (s.rw (a + 28)).toNat
  let pub := (s.rw (a + 32)).toNat
  let njobs := s.rh (graph + 4)
  let others := (allTasks.filter fun u => u != t && taskEnabled u s).foldl (fun n u =>
    n + match (s.task u).entry with | some e => e.njobs | none => 0) 0
  let good := gsramRange a 64 && ctl.extractLsb' 10 22 == 0#22 && phase < 14400000 && graph % 32 == 0
    && rcbase % 4 == 0 && gsramRange rcbase (2 * njobs) && xb % 16 == 0 && inGsram xb && snapCnt ≤ 256 && pubCnt ≤ 256
    && yb % 16 == 0 && inGsram yb && zeroBytes (a + 36) 28 s && 1 ≤ p && p ≤ 14400000
    && gsramRange snap (8 * snapCnt) && gsramRange pub (8 * pubCnt)
    && listGood (copyList snap snapCnt s) 16 0x8000 && listGood (copyList pub pubCnt s) 0 0x10000
    && graphGood graph s && njobs + others ≤ 16384
  if good then
    some { dom := ctl.extractLsb' 0 4, cls := ⟨(ctl.extractLsb' 4 3).toNat, BitVec.isLt _⟩, abort := ctl.getLsbD 8,
           phase := phase, period := p, graph := word graph, rcbase := word rcbase, xb := word xb,
           snapList := word snap, snapCnt := snapCnt, pubCnt := pubCnt, yb := word yb, pubList := word pub, njobs := njobs }
  else none

/-! ## Deques -/

def dequeKey (cls : Nat) (h : Half) (k : Nat) : Nat := 4 * (cls + 8 * h.ix) + k
def State.deque (s : State) (k : Nat) : List (TaskNo × Nat) := tget (fun _ => []) s.sched.deques k
def State.setDeque (s : State) (k : Nat) (q : List (TaskNo × Nat)) : State :=
  { s with sched := { s.sched with deques := tset (fun _ => []) s.sched.deques k q } }

/-- The queued jobs of a task leave every deque. -/
def dropQueued (t : TaskNo) (s : State) : State :=
  forAll (List.range 64) (fun k s => s.setDeque k ((s.deque k).filter fun j => j.1 != t)) s

def anyQueued (t : TaskNo) (s : State) : Bool :=
  (List.range 64).any fun k => (s.deque k).any fun j => j.1 == t

/-- An engine that runs a job of the task's live scan. -/
def runsLive (t : TaskNo) (x : Eng) : Bool :=
  match x.job with
  | some j => j.task == t && !j.dead
  | none => false

def allEngines : List EngNo := List.finRange 64
def anyRunning (t : TaskNo) (s : State) : Bool := allEngines.any fun e => runsLive t (s.eng e)

/-! ## Engines that start and stop -/

def isSupervisor (e : EngNo) (s : State) : Bool :=
  let w := s.reg pFAB 0x040
  (List.range 4).any fun r => (w.extractLsb' (8 * r) 8).getLsbD 7 && ((w.extractLsb' (8 * r) 6).toNat == e.val)

/-- The JOBS bit of a supervisor engine's role (R70). -/
def supervisorJobs (e : EngNo) (s : State) : Bool :=
  let w := s.reg pFAB 0x040
  (List.range 4).any fun r =>
    let b := w.extractLsb' (8 * r) 8
    b.getLsbD 7 && b.getLsbD 6 && ((b.extractLsb' 0 6).toNat == e.val)

def engBusy (m : EngMode) : Bool := m == .run || m == .solver || m == .yielding

/-- An engine changes what it is doing; time executed is added to its cluster's activity. -/
def setMode (e : EngNo) (m : EngMode) (s : State) : State :=
  let x := s.eng e
  let k := clusterOf e
  let s := if engBusy x.mode && !engBusy m then
      { s with sched := { s.sched with
          laneBusy := tset (fun _ => 0) s.sched.laneBusy k (tget (fun _ => 0) s.sched.laneBusy k + (s.mtb - x.busyFrom)) } }
    else s
  s.setEng e { x with mode := m, busyFrom := if engBusy m && !engBusy x.mode then s.mtb else x.busyFrom }

/-- INJOB of a lane. -/
def setInJob (e : EngNo) (b : Bool) (s : State) : State :=
  s.put (engPage e) ⟨0x00C, 8 + laneOf e, 1⟩ b.toNat

/-- Transactions of an engine that hold a slot (R66). -/
def slotsUsed (e : EngNo) (s : State) : Nat :=
  (s.txns.filter fun t => match t.2 with | some x => x.eng == e && !x.withheld | none => false).length

/-- The transactions that an ended job has left keep their slots and bring the engine nothing (R66, R103). -/
def orphanTxns (e : EngNo) (s : State) : State :=
  { s with txns := s.txns.map fun t => match t.2 with
      | some x => (t.1, some { x with orphan := x.orphan || x.eng == e })
      | none => t }

/-- The engine's job is over: a supervisor engine is back in its SLEEP, another idles (R104). The general registers and IB,
XB, YB and SP stay as the job left them (log entry 31). -/
def leaveJob (e : EngNo) (s : State) : State :=
  let s := orphanTxns e s
  let x := s.eng e
  let s := setInJob e false (s.setEng e { x with job := none, jobid := 0, remErr := x.supErr, supErr := none, record := none })
  if isSupervisor e s then
    setMode e .sleep (s.setEng e { s.eng e with pc := x.supPc, fl := x.supFl })
  else setMode e .idle s

/-! ## Scans -/

def setScan (t : TaskNo) (sc : Option Scan) (s : State) : State := s.setTask t { s.task t with scan := sc }

/-- A pending migration completes: the task runs in the other half (R142, R143). -/
def finishMigration (t : TaskNo) (s : State) : State :=
  if taskMigPend t s then
    raise pSCH SCH_IRQ_RAW_MIGDONE (setMigPend t false (setWest t (!taskWest t s) s))
  else s

def State.copyQ (s : State) : Half → List CopyPhase
  | .east => s.sched.copyE
  | .west => s.sched.copyW

/-- When the copy engine of a half last became free. -/
def State.copyFree (s : State) : Half → Nat
  | .east => s.sched.freeE
  | .west => s.sched.freeW

/-- The phase at the head of a list occupies its engine. -/
def copyOccupied (q : List CopyPhase) : Bool := (q.head?.map (·.started)).getD false

/-- The phases of a copy engine change; when the one that occupied it is gone, the engine has become free. -/
def State.setCopyQ (s : State) (h : Half) (q : List CopyPhase) : State :=
  let free := if copyOccupied (s.copyQ h) && !copyOccupied q then s.mtb else s.copyFree h
  match h with
  | .east => { s with sched := { s.sched with copyE := q, freeE := free } }
  | .west => { s with sched := { s.sched with copyW := q, freeW := free } }

/-- A SNAPSHOT that waits or runs leaves its copy engine; a PUBLISH of an earlier commit stays. -/
def dropSnapshot (t : TaskNo) (s : State) : State :=
  let keep := fun (c : CopyPhase) => c.publish || c.task != t
  forAll [.east, .west] (fun h s => s.setCopyQ h ((s.copyQ h).filter keep)) s

/-- The scan becomes dead (R137): queued jobs removed, dirty lines into copy-back, running jobs cut off. -/
def killScan (t : TaskNo) (s : State) : State :=
  match (s.task t).scan with
  | none => s
  | some _ =>
    let s := dropSnapshot t (dropQueued t s)
    let s := forAll allEngines (fun e s =>
      let x := s.eng e
      if runsLive t x then
        match x.job with
        | some j => s.setEng e { x with job := some { j with dead := true, viol := ⟨0, 0, 0⟩ } }
        | none => s
      else s) s
    let s := retireTaskLines t s
    let s := s.setTask t { s.task t with scan := none, aborted := min ((s.task t).aborted + 1) 0xFFFFFFFF }
    let s := (setScanning t false s).bump (tskPage t) TSK_ABORTS_COUNT
    finishMigration t s

/-- A scan aborted under R126, R134 or R135: SCH_FAIL, the flag, the count, class 15, and the scan is dead. -/
def failScan (t : TaskNo) (reason kind job : Nat) (flag : Fld) (eng : Nat) (addr : Word) (data : List Byte) (s : State) :
    State :=
  let s := s.setReg pSCH 0x06C (word (reason * 2 ^ 29 + t.val * 2 ^ 23 + kind * 2 ^ 12 + job))
  let s := (raise pSCH flag s).bump pSCH SCH_CNT_FAILS
  killScan t (raiseFaultWith 15 false eng addr data s)

/-- EXECUTE of a scan has no job queued or running while jobs are missing: graph stall (R126). -/
def checkStall (t : TaskNo) (s : State) : State :=
  match (s.task t).scan, (s.task t).entry with
  | some sc, some e =>
    if sc.phase == .execute && sc.done < e.njobs && !anyQueued t s && !anyRunning t s then
      failScan t 3 0 0 SCH_IRQ_RAW_SCANFAIL 0 0 [] s
    else s
  | _, _ => s

/-- A job becomes ready: the tail of its HOME cluster's deque, in the half that takes new jobs (R123, R143). -/
def queueJob (t : TaskNo) (e : TaskEntry) (j : Nat) (s : State) : State :=
  let k := dequeKey e.cls.val (targetHalf t s) ((jobDesc e.graph.toNat j s).home % 4)
  s.setDeque k (s.deque k ++ [(t, j)])

/-- The first base tick after `b` at which a task with this period and phase is due (R117). -/
def nextDue (period phase b : Nat) : Nat := b + 1 + (phase % period + period - (b + 1) % period) % period

/-- Half `h` releases no tasks (R144). -/
def halfHeld (h : Half) (s : State) : Bool :=
  match h with
  | .east => s.bit pSCH SCH_CTRL_HOLDE
  | .west => s.bit pSCH SCH_CTRL_HOLDW

/-- The base tick of a task's next release after `b`: under the period in force, or, from the first base tick after the
last switch on, under the active profile's (R119). -/
def dueAfter (t : TaskNo) (e : TaskEntry) (b : Nat) (s : State) : Option Nat :=
  let d := nextDue e.period e.phase b
  let c := s.sched.acceptedAt / 25000 + 1
  if s.sched.acceptedAt = 0 ∨ c ≤ s.sched.btick ∨ d < c then some d
  else
    let p := if profileValid (activeProfile s) s then profilePeriod (activeProfile s) t s else 0
    if p = 0 then none else some (nextDue p e.phase (max b (c - 1)))

/-- The deadline of a task's live scan as a base tick; none for a task that has no next release (R136). -/
def deadlineTick (t : TaskNo) (s : State) : Option Nat :=
  match (s.task t).scan, (s.task t).entry with
  | some sc, some e =>
    if taskEnabled t s && s.bit pSCH SCH_STAT_EN && !halfHeld (taskHalf t s) s then
      dueAfter t e (max sc.btick sc.overrunAt) s
    else none
  | _, _ => none

/-- A release is dropped: counted in TSK_SKIPS and in the next header (R121, R136). -/
def dropRelease (t : TaskNo) (s : State) : State :=
  State.bump (s.setTask t { s.task t with skipped := min ((s.task t).skipped + 1) 0xFFFFFFFF }) (tskPage t) TSK_SKIPS_COUNT


def taskClass (t : TaskNo) (s : State) : Nat := match (s.task t).entry with | some e => e.cls.val | none => 8

/-- Phases wait in the order they become due; in one clock by class, then by task (R118). One that has started stays first. -/
def copyInsert (s : State) (c : CopyPhase) : List CopyPhase → List CopyPhase
  | [] => [c]
  | x :: xs =>
    if !x.started && (c.at_ < x.at_ || (c.at_ == x.at_ && (taskClass c.task s < taskClass x.task s
        || (taskClass c.task s == taskClass x.task s && c.task < x.task)))) then c :: x :: xs
    else x :: copyInsert s c xs

def copyDue (h : Half) (c : CopyPhase) (s : State) : State := s.setCopyQ h (copyInsert s c (s.copyQ h))

/-- The next release carries PRFCHG or MIGRATED (R139): already carried by a release since the last commit, or due now. For a task
that has never committed the profile it was enabled under stands in for that of its last commit, and it has no half to have
migrated from (log 40). -/
def carriesPrfchg (t : TaskNo) (p : Nat) (s : State) : Bool :=
  s.bit (tskPage t) TSK_TSTAT_PRFCHG || ((s.task t).entry.isSome && (s.task t).lastProfile != p)
def carriesMigrated (t : TaskNo) (s : State) : Bool :=
  s.bit (tskPage t) TSK_TSTAT_MIGRATED || ((s.task t).committed && (s.task t).lastWest != taskWest t s)

/-- A release at base tick `b`, under profile `p`, becomes a scan whose SNAPSHOT is due (R118, R119). -/
def startRelease (t : TaskNo) (b p : Nat) (s : State) : State :=
  match (s.task t).entry with
  | none => s
  | some e =>
    let s := s.putBit (tskPage t) TSK_TSTAT_PRFCHG (carriesPrfchg t p s)
    let s := s.putBit (tskPage t) TSK_TSTAT_MIGRATED (carriesMigrated t s)
    let sc : Scan :=
      { btick := b, profile := p, phase := .due, done := 0, retries := [], violated := false, overrunAt := 0,
        skippedBase := (s.task t).skipped, first := s.bit (tskPage t) TSK_TSTAT_FIRST, renewed := false,
        restored := s.bit (tskPage t) TSK_TSTAT_RESTORED }
    let s := setScanning t true (setScan t (some sc) s)
    copyDue (taskHalf t s)
      { task := t, publish := false, entry := 0, at_ := s.mtb, started := false, base := e.xb, list := e.snapList,
        count := e.snapCnt, dom := e.dom, violated := false } s

/-- The power cap holds this release (R384). -/
def isDeferred (t : TaskNo) (b : Nat) (s : State) : Bool :=
  match s.sched.defer with
  | some (b', c) => b' == b && c ≤ taskClass t s
  | none => false

/-- A deferrable release is held. -/
def holdRelease (t : TaskNo) (b : Nat) (s : State) : State :=
  raise pPMU PMU_IRQ_RAW_DEFER ((s.setTask t { s.task t with heldRel := some (b, profileAt b s) }).bump pPMU PMU_DEFCNT_HELD)

/-- A release held by the power cap is dropped (R144, R384). -/
def loseHeld (t : TaskNo) (s : State) : State :=
  if (s.task t).heldRel.isSome then dropRelease t (s.setTask t { s.task t with heldRel := none }) else s

/-- The release of a task at base tick `b` is determined: dropped in a half that is held, held by the power cap, or
started. -/
def determineRelease (t : TaskNo) (b : Nat) (s : State) : State :=
  let s := s.setTask t { s.task t with lastRel := some b }
  if halfHeld (taskHalf t s) s then dropRelease t s
  else if isDeferred t b s then holdRelease t b s
  else startRelease t b (profileAt b s) s

/-- A due release that finds its task's scan not committed (R136). -/
def overrun (t : TaskNo) (b : Nat) (s : State) : State :=
  match (s.task t).scan, (s.task t).entry with
  | some sc, some e =>
    if sc.overrunAt = b then s
    else if e.abort then
      determineRelease t b (killScan t (raise pSCH SCH_IRQ_RAW_ABORT s))
    else
      let s := setScan t (some { sc with overrunAt := b }) (raise pSCH SCH_IRQ_RAW_SKIP s)
      dropRelease t (s.setTask t { s.task t with lastRel := some b })
  | _, _ => s

/-- COMMIT of a scan whose last job has yielded (R127), in time or after its deadline was handled under SKIP. Of the header
flags it clears FIRST and RESTORED when its own release carried them. A scan whose commit completes a migration publishes in
the half it ran in, which the spec leaves open (log entry 115). -/
def commitScan (t : TaskNo) (s : State) : State :=
  match (s.task t).scan, (s.task t).entry with
  | some sc, some e =>
    let s := commitImages t s
    let time := min (s.mtb - 25000 * sc.btick) 0xFFFFFFFF
    let s := s.incr (tskPage t) TSK_COMMITS_COUNT
    let s := s.put (tskPage t) TSK_LAST_TIME time
    let s := s.put (tskPage t) TSK_MAX_TIME (max time (s.g (tskPage t) TSK_MAX_TIME))
    let s := if sc.first && !sc.renewed then s.put (tskPage t) TSK_TSTAT_FIRST 0 else s
    let s := if sc.restored then s.put (tskPage t) TSK_TSTAT_RESTORED 0 else s
    let s := s.put (tskPage t) TSK_TSTAT_PRFCHG 0
    let s := s.put (tskPage t) TSK_TSTAT_MIGRATED 0
    let x := s.task t
    let s := s.setTask t { x with
      scan := none, aborted := 0, skipped := x.skipped - sc.skippedBase, committed := true,
      lastProfile := sc.profile, lastWest := taskWest t s }
    let h := taskHalf t s
    let s := setScanning t false s
    let s := if e.pubCnt = 0 then s else
      copyDue h
        { task := t, publish := true, entry := 0, at_ := s.mtb, started := false, base := e.yb, list := e.pubList,
          count := e.pubCnt, dom := e.dom, violated := sc.violated } s
    finishMigration t s
  | _, _ => s

/-- The last job has completed: an overrun whose deadline has been reached is handled first (R136), then COMMIT. -/
def endExecute (t : TaskNo) (s : State) : State :=
  let s := match deadlineTick t s with
    | some b => if 25000 * b ≤ s.mtb then overrun t b s else s
    | none => s
  match (s.task t).scan, (s.task t).entry with
  | some sc, some e => if sc.phase == .execute && e.njobs ≤ sc.done then commitScan t s else s
  | _, _ => s

/-- Ready count of job `j` in the area at RCBASE. -/
def readyCount (e : TaskEntry) (j : Nat) (s : State) : Nat := s.rh (e.rcbase.toNat + 2 * j)

/-- A job has completed: its successors' ready counts fall, in array order, and those at zero are queued (R123). -/
def completeJob (t : TaskNo) (j : Nat) (s : State) : State :=
  match (s.task t).scan, (s.task t).entry with
  | some sc, some e =>
    let s := setScan t (some { sc with done := sc.done + 1 }) s
    let s := forAll (successors e.graph.toNat e.njobs (jobDesc e.graph.toNat j s) s) (fun k s =>
      let n := readyCount e k s - 1
      let s := s.wh (e.rcbase.toNat + 2 * k) n
      if n = 0 then queueJob t e k s else s) s
    checkStall t (endExecute t s)
  | _, _ => s

/-! ## Job errors and faults -/

def retryOf (j : Nat) (rs : List JobRetry) : JobRetry := (rs.find? fun r => r.job == j).getD ⟨j, 0, []⟩

/-- Fault class of an R79 KIND (R392). -/
def kindClass : Nat → Nat
  | 2 => 1
  | 4 | 5 => 2
  | 7 => 3
  | _ => 0

/-- A job error (R134): writes discarded, the engine avoided, the job back at the head of its deque; the third one in a
scan aborts it. A dead job only ends (R137). -/
def jobError (e : EngNo) (kind : Nat) (addr : Word) (s : State) : State :=
  match (s.eng e).job with
  | none => s
  | some j =>
    if j.dead then
      leaveJob e (if kind = 7 then raiseFault 3 false e.val addr s else s)
    else
      let t := j.task
      let s := leaveJob e (discardJobLines t j.job s)
      match (s.task t).scan with
      | none => s
      | some sc =>
        let r := retryOf j.job sc.retries
        let r' : JobRetry := ⟨j.job, r.count + 1, if r.avoid.contains e then r.avoid else r.avoid ++ [e]⟩
        let s := setScan t (some { sc with retries := r' :: sc.retries.filter fun x => x.job != j.job }) s
        let again := r'.count ≤ 2
        let s := raiseFault (kindClass kind) (again && kindClass kind != 1) e.val addr s
        if again then
          let s := ((raise pSCH SCH_IRQ_RAW_RETRY s).bump pSCH SCH_CNT_RETRIES).bump (tskPage t) TSK_RETRIES_COUNT
          let k := dequeKey (taskClass t s) (halfOf e) (clusterOf e % 4)
          s.setDeque k ((t, j.job) :: s.deque k)
        else failScan t 0 kind j.job SCH_IRQ_RAW_SCANFAIL e.val addr [] s

/-- A job fault, REASON 1, or a remote access error, REASON 2 (R109, R135); the event names task, job, code and address.
A dead job only ends (R137). -/
def jobFault (e : EngNo) (reason code : Nat) (addr : Word) (s : State) : State :=
  match (s.eng e).job with
  | none => s
  | some j =>
    if j.dead then leaveJob e s
    else
      let s := leaveJob e (discardJobLines j.task j.job s)
      failScan j.task reason 0 j.job SCH_IRQ_RAW_JOBFAULT e.val addr
        (byte j.task.val :: leBytes 2 j.job ++ leBytes 2 code ++ wordBytes addr) s

/-- The scan of a job, or of a copy entry (job 0), that read a double-bit error of global SRAM becomes dead: REASON 1 and
JOBFAULT, and no class but 4 (R394). -/
def gsramDead (t : TaskNo) (job : Nat) (s : State) : State :=
  let s := s.setReg pSCH 0x06C (word (1 * 2 ^ 29 + t.val * 2 ^ 23 + job))
  killScan t ((raise pSCH SCH_IRQ_RAW_JOBFAULT s).bump pSCH SCH_CNT_FAILS)

/-! ## Taking jobs (R124) -/

/-- EXCL of a lane. -/
def excluded (e : EngNo) (s : State) : Bool := (s.reg (engPage e) 0x008).getLsbD (laneOf e)

/-- An engine that may take a job now: its half is in RUN, its lane is not excluded, its cluster has power; the accesses
that a supervisor engine made before its SLEEP have come to their ends (log entry 31). -/
def mayTake (e : EngNo) (s : State) : Bool :=
  (if e.val < 32 then s.g pBOOT BOOT_STAT_ESTATE == 2 else s.g pBOOT BOOT_STAT_WSTATE == 2) && !excluded e s
  && !s.bit (engPage e) ENG_STAT_GATED &&
  (if isSupervisor e s then (s.eng e).mode == .sleep && supervisorJobs e s && slotsUsed e s == 0
    else (s.eng e).mode == .idle)

def avoids (e : EngNo) (s : State) (j : TaskNo × Nat) : Bool :=
  match (s.task j.1).scan with
  | some sc => (retryOf j.2 sc.retries).avoid.contains e
  | none => false

/-- The deques an engine searches for class `c`: its own from the head, the others of its half from the tail in ring
order, then those of the other half for scans migrating here (R124, R143). -/
def findJob (e : EngNo) (c : Nat) (s : State) : Option (Nat × (TaskNo × Nat)) :=
  let h := halfOf e
  let k := clusterOf e % 4
  let own := dequeKey c h k
  let try_ := fun (key : Nat) (l : List (TaskNo × Nat)) => (l.find? fun j => !avoids e s j).map fun j => (key, j)
  let ring := (List.range 3).map fun i => dequeKey c h ((k + 1 + i) % 4)
  let far := (List.range 4).map fun i => dequeKey c h.other i
  (try_ own (s.deque own))
    <|> ring.findSome? (fun key => try_ key (s.deque key).reverse)
    <|> far.findSome? (fun key => try_ key ((s.deque key).reverse.filter fun j =>
          taskMigPend j.1 s && targetHalf j.1 s == h))

/-- The engine starts a job in task mode: registers as R82 and R103 set them. -/
def startJob (e : EngNo) (t : TaskNo) (j : Nat) (s : State) : State :=
  match (s.task t).entry, (s.task t).scan with
  | some en, some sc =>
    let d := jobDesc en.graph.toNat j s
    let x := s.eng e
    let x' : Eng := { x with
      g := (Vector.replicate 16 (0 : Word)).set 1 d.arg, pc := d.entry, fl := 0, ib := d.inst, xb := en.xb, yb := en.yb,
      tt := word sc.btick, sp := 0x30002000, jobid := word (2 ^ 31 + t.val * 2 ^ 16 + j), supPc := x.pc, supFl := x.fl,
      remErr := none, supErr := x.remErr,
      job := some ⟨t, j, en.dom, en.xb, en.yb, s.mtb, d.wcet, false, ⟨0, 0, 0⟩⟩ }
    setInJob e true (setMode e .run (s.setEng e x'))
  | _, _ => s

/-- An idle engine takes the first job it finds. -/
def takeJob (e : EngNo) (s : State) : State :=
  if mayTake e s then
    match (List.range 8).findSome? (fun c => findJob e c s) with
    | some (k, (t, j)) => startJob e t j (s.setDeque k ((s.deque k).erase (t, j)))
    | none => s
  else s

end Sys2Proof.Machine
end

