-- ==== Sys2Proof/Machine/Access.lean ====
section
/-! DEFINITION. Register access as every page has it: access codes, LOCK, OWNER, the interrupt registers and the domain
checks (R10 to R12, R49 to R56, R153). What a block does beyond this stands in the block's own file. -/

namespace Sys2Proof.Machine

open Reg

/-- A write as a page sees it: who writes, the value, and whether the page's lock is open for the writer. -/
structure Access where
  req : Requester
  val : Word
  unlocked : Bool
  deriving DecidableEq, Repr

/-! ## Access codes (R10) -/

/-- A field of the value being written. -/
def Access.f (a : Access) (f : Fld) : Nat := f.get a.val
def Access.b (a : Access) (f : Fld) : Bool := f.get a.val != 0

/-- The stored word after a write under the access codes. A WO field stores nothing. -/
def RegRow.written (r : RegRow) (a : Access) (old : Word) : Word :=
  let take := r.rw ||| (if a.req.sup then r.rws else 0) ||| (if a.unlocked then r.rwl else 0)
  (((old &&& ~~~take) ||| (a.val &&& take)) &&& ~~~(a.val &&& r.w1c)) ||| (a.val &&& r.w1s)

/-- A write that does what the access codes say and nothing else; an offset without a register ignores it. -/
def plainWrite (p off : Nat) (a : Access) (s : State) : State :=
  match rowOf p off with
  | some r => s.setReg p off (r.written a (s.reg p off))
  | none => s

/-- A read: WO fields and places without a register read as zero; RC fields are cleared. -/
def plainRead (p off : Nat) (s : State) : Word × State :=
  match rowOf p off with
  | some r =>
    let w := s.reg p off
    (w &&& ~~~r.wo, if r.rc = 0 then s else s.setReg p off (w &&& ~~~r.rc))
  | none => (0, s)

/-- Whether the register at `off` holds RWS fields. -/
def holdsRws (p off : Nat) : Bool :=
  if off = 0x024 then !fixedOwner p
  else match rowOf p off with
    | some r => r.rws != 0
    | none => false

/-! ## LOCK (R51, R52) -/

def dieOf (p : Nat) : Die := if isMuslinPage p then .muslin else .damask

/-- What OPENER holds of a writer: the engine on Damask; domain and supervisor flag on Muslin. -/
def openerOf (p : Nat) (r : Requester) : Nat :=
  if isMuslinPage p then 2 * r.dom.toNat + r.sup.toNat else r.eng.val

def lockAtOf (p : Nat) (s : State) : Nat := tget (fun _ => 0) s.lockAt p

/-- The lock is open and 400 counts have not passed since it was opened. -/
def lockOpen (p : Nat) (s : State) : Bool := s.bit p LOCK_OPEN && s.now (dieOf p) < lockAtOf p s + 400

def lockOpenFor (p : Nat) (r : Requester) (s : State) : Bool := lockOpen p s && s.g p LOCK_OPENER == openerOf p r

/-- The lock closes. OPENER keeps the last opener: R51 and R52 do not say what it reads while the lock is closed (log
entry 113). -/
def closeLock (p : Nat) (s : State) : State := s.put p LOCK_OPEN 0

/-- A write of LOCK: the unlock value opens the lock for the writer; any other closes it and counts. -/
def lockWrite (p : Nat) (a : Access) (s : State) : State :=
  if a.val = unlockValue p then
    let s := (s.put p LOCK_OPEN 1).put p LOCK_OPENER (openerOf p a.req)
    { s with lockAt := tset (fun _ => 0) s.lockAt p (s.now (dieOf p)) }
  else (closeLock p s).bump p LOCK_BADCNT

/-- The timeout of an open lock that nothing used. -/
def lockTimeout (p : Nat) (s : State) : State :=
  if s.bit p LOCK_OPEN then
    let s := match dieOf p with
      | .damask => s.untilMtb (lockAtOf p s + 400)
      | .muslin => s.untilReplica (lockAtOf p s + 400)
    closeLock p s
  else s

/-! ## The common registers (R49, R50) -/

/-- The bits of IRQ_RAW that the page has. -/
def irqMask (p : Nat) : Word :=
  match rowOf p irqRawOff with
  | some r => r.ro ||| r.rw ||| r.w1c ||| r.w1s ||| r.wo ||| r.rc ||| r.rwl ||| r.rws
  | none => 0

/-- IRQ_FORCE sets bits of IRQ_RAW; each that was 0 raises its event (R404), those of FLT none. -/
def irqForce (p : Nat) (v : Word) (s : State) : State :=
  let new := v &&& irqMask p &&& ~~~s.reg p irqRawOff
  let s := s.setReg p irqRawOff (s.reg p irqRawOff ||| (v &&& irqMask p))
  let s := if p = pFLT then s else
    forAll (List.range 32) (fun b s =>
      if new.getLsbD b then pageEvent p 0 (BitVec.ofNat 16 (0x0100 + b)) [] s else s) s
  if isMuslinPage p then syncLevels s else s

/-- PAGE_ID. -/
def pageIdWord (p : Nat) : Word := word ((pageType p).1 * 2 ^ 24 + (pageType p).2 * 2 ^ 16 + 0x0100)

/-- BLOCKCAP: the channels present on the pages AIO_A to AIO_D; the spec gives no other value. -/
def blockCapWord (p : Nat) (s : State) : Word :=
  let free := (Config.blockCap p s.fused.variantS).setWidth 32
  if p = pAIOC ∨ p = pAIOC + 1 then free &&& 0xFFFFFF00 ||| 0xFF
  else if p = pAIOC + 2 ∨ p = pAIOC + 3 then free &&& 0xFFFFFF00 ||| (if s.fused.variantS then 0 else 0xFF)
  else free

/-- PAGE_CAP: REMOTE, and the block's capabilities. -/
def pageCapWord (p : Nat) (s : State) : Word :=
  (if isMuslinPage p then 0x80000000 else 0) ||| blockCapWord p s

/-- LOCK as it reads. -/
def lockWord (p : Nat) (s : State) : Word :=
  LOCK_OPEN.ins (s.reg p 0x020) (lockOpen p s).toNat

/-- A read of a common register that no block changes; none for the registers of the block. -/
def commonRead (p off : Nat) (s : State) : Option Word :=
  if off = 0x000 then some (pageIdWord p)
  else if off = 0x004 then some (pageCapWord p s)
  else if off = 0x014 then some (s.reg p irqEnOff)
  else if off = 0x018 then some (s.irqPend p)
  else if off = 0x01C then some 0
  else if off = 0x020 then some (lockWord p s)
  else if off = 0x024 then some ((pageOwner p s).setWidth 32)
  else if 0x028 ≤ off ∧ off < 0x040 then some 0
  else none

/-- A write of a common register that no block changes; none for the registers of the block. -/
def commonWrite (p off : Nat) (a : Access) (s : State) : Option State :=
  if off = 0x000 ∨ off = 0x004 ∨ off = 0x018 then some s
  else if off = 0x014 then
    let s := s.setReg p irqEnOff (a.val &&& irqMask p)
    some (if isMuslinPage p then syncLevels s else s)
  else if off = 0x01C then some (irqForce p a.val s)
  else if off = 0x020 then some (lockWrite p a s)
  else if off = 0x024 then some (if a.req.sup then setPageOwner p (a.val.extractLsb' 0 4) s else s)
  else if 0x028 ≤ off ∧ off < 0x040 then some s
  else none

/-- The W1C and W1S bits of the register at `off`. -/
def flagBits (p off : Nat) : Word :=
  match rowOf p off with
  | some r => r.w1c ||| r.w1s
  | none => 0

/-- The access that a write of a block register is: RWL fields change when the lock is open for the writer, and that
write closes the lock. A W1C or W1S bit that the hardware updates in the same clock counts as written 0 (R12). -/
def lockStep (p off : Nat) (r : Requester) (v : Word) (s : State) (tie : Word := 0) : Access × State :=
  let u := (off = 0x008 ∨ 0x040 ≤ off) && lockOpenFor p r s
  (⟨r, v &&& ~~~(tie &&& flagBits p off), u⟩, if u then closeLock p s else s)

/-! ## Domain checks (R53 to R56) -/

/-- A task-mode access that a page refuses: the page has another owner, or it is a write to SYS, MSYS or DOM. -/
def pageRefuses (r : Requester) (p : Nat) (write : Bool) (s : State) : Bool :=
  !r.sup && (r.dom != pageOwner p s || (write && fixedOwner p))

/-- Address of a page's register in the engines' map. -/
def pageAddr (p off : Nat) : Word :=
  word (if isMuslinPage p then 0x50000000 + 0x1000 * (p - 64) + off else 0x40000000 + 0x1000 * p + off)

end Sys2Proof.Machine
end

