-- ==== Sys2Proof/Machine/Package.lean ====
section
/-! DEFINITION. Exram packages in NOR: header, segments and slots (R358, R359), and the state of the two halves. -/

namespace Sys2Proof.Machine

open Reg

/-- Address of a slot in the NOR window. -/
def slotBase (slot : Nat) : Nat := norBase + 0x1000000 * slot

/-- One segment entry. -/
structure Segment where
  offset : Nat
  length : Nat
  load : Nat
  kind : Nat
  pad : List Byte
  hash : List Byte
  deriving DecidableEq, Repr

def segment (slot i : Nat) (s : State) : Segment :=
  let a := slotBase slot + 64 + 48 * i
  ⟨(s.rw a).toNat, (s.rw (a + 4)).toNat, (s.rw (a + 8)).toNat, (s.rb (a + 12)).toNat, s.bytes (a + 13) 3,
   s.bytes (a + 16) 32⟩

/-- Segments in use. -/
def nseg (slot : Nat) (s : State) : Nat := s.rh (slotBase slot + 38)
def segments (slot : Nat) (s : State) : List Segment := (List.range (nseg slot s)).map fun i => segment slot i s
def codeSegments (slot : Nat) (s : State) : List Segment := (segments slot s).filter fun g => g.kind == 0

/-! ## State of a half -/

def hsOff : Nat := 0
def hsRom : Nat := 1
def hsRun : Nat := 2
def hsFailed : Nat := 3
def hsRecovery : Nat := 4

def halfStateFld : Half → Fld
  | .east => BOOT_STAT_ESTATE
  | .west => BOOT_STAT_WSTATE
def halfState (h : Half) (s : State) : Nat := s.g pBOOT (halfStateFld h)
def halfRuns (h : Half) (s : State) : Bool := halfState h s == hsRun
/-- A half boot of `h` has begun and has not reached RUN (R80). -/
def inHalfBoot (h : Half) (s : State) : Bool :=
  match h with
  | .east => s.boot.east.half
  | .west => s.boot.west.half

/-- The measurement block of a half (R361). -/
def infoOff : Half → Nat
  | .east => 0x080
  | .west => 0x0C0
/-- SLOT of the measurement block: the slot whose package the half runs. -/
def runSlot (h : Half) (s : State) : Nat := s.g pBOOT ⟨infoOff h, 24, 1⟩

/-- The bytes of a code SRAM line as the package holds them: zeros outside every CODE segment (R364). -/
def packageLine (h : Half) (off : Nat) (s : State) : List Byte :=
  match (codeSegments (runSlot h s) s).find? fun g => g.load ≤ off && off < g.load + g.length with
  | some g => s.bytes (slotBase (runSlot h s) + g.offset + (off - g.load)) 32
  | none => List.replicate 32 0

/-- A line of code SRAM fetched again from NOR and rewritten (R79). -/
def refetchLine (h : Half) (off : Nat) (s : State) : State :=
  s.wbytes (codeBase h + off / 32 * 32) (packageLine h (off / 32 * 32) s)

end Sys2Proof.Machine
end

