-- ==== Sys2Proof/Machine/Fabric.lean ====
section
/-! DEFINITION. The regions of the address space as the engines see them, and the fabric's arbiters: who may be granted next,
and what a grant changes (R47, R76 to R78). -/

namespace Sys2Proof.Machine

open Reg

/-! ## Regions (R47) -/

def inRom (a : Nat) : Bool := a < 0x10000
def inCode (a : Nat) : Bool := 0x08000000 ≤ a && a < 0x08200000
def inLocal (a : Nat) : Bool := 0x30000000 ≤ a && a < 0x30002000
def inDamaskPages (a : Nat) : Bool := 0x40000000 ≤ a && a < 0x40024000
def inMsgRam (a : Nat) : Bool := 0x48000000 ≤ a && a < 0x48020000
def inMuslinPages (a : Nat) : Bool := 0x50000000 ≤ a && a < 0x50015000
def inFlashWindow (a : Nat) : Bool := 0x58000000 ≤ a && a < 0x58200000
def inNorWindow (a : Nat) : Bool := 0x60000000 ≤ a && a < 0x64000000

/-- The register page that holds an address of the two page areas. -/
def pageNo (a : Nat) : Nat := if inMuslinPages a then 64 + (a - 0x50000000) / 4096 else (a - 0x40000000) / 4096

/-- The address lies on Muslin. -/
def isRemote (a : Nat) : Bool := inMuslinPages a || inFlashWindow a

/-- The half whose code SRAM holds an address, in the map of engine `e`. -/
def codeHalf (e : EngNo) (a : Nat) : Half := if a < 0x08100000 then halfOf e else (halfOf e).other
/-- Physical place of a code SRAM address. -/
def codePlace (e : EngNo) (a : Nat) : Nat := codeBase (codeHalf e a) + a % 0x100000

/-! ## Targets -/

/-- The target of an access: one of the eight banks of a cluster (lines follow each other through the banks), global SRAM,
the link, the NOR, ROM, a half's code SRAM, message RAM, a Damask page. -/
def targetOf (e : EngNo) (a : Nat) : Nat :=
  if inInstance a then 8 * lineCluster (lineOf a) + lineOf a % 8
  else if inGsram a then 64
  else if isRemote a then 65
  else if inNorWindow a then 66
  else if inRom a then 67
  else if inCode a then 68 + (codeHalf e a).ix
  else if inMsgRam a then 70
  else 71 + pageNo a

/-- The solver of cluster `k`, and its steal/bridge port, through which everything outside the cluster is reached. -/
def solverTarget (k : Nat) : Nat := 160 + k
def portTarget (k : Nat) : Nat := 168 + k

/-- A target at the crossbar of the engine's own cluster: its banks and its solver. -/
def ownTarget (e : EngNo) (target : Nat) : Bool :=
  target == solverTarget (clusterOf e) || target / 8 == clusterOf e

/-- The path of a request of the engine goes through an arbiter of this level: 0 crossbar, 1 ring, 2 bridge. Code SRAM of the
other half and banks of its clusters lie behind the bridge, as global SRAM, the link, the NOR and ROM do. -/
def passesLevel (level : Nat) (e : EngNo) (target : Nat) : Bool :=
  let far := (target < 64 && target / 32 != (halfOf e).ix) || target == 68 + (halfOf e).other.ix
  if level = 0 then true
  else if level = 1 then !ownTarget e target
  else far || (64 ≤ target && target < 68)

/-- What the request asks of an arbiter: at the crossbar, the steal/bridge port for all that lies outside the cluster. -/
def levelTarget (level : Nat) (e : EngNo) (target : Nat) : Nat :=
  if level = 0 && !ownTarget e target then portTarget (clusterOf e) else target

/-! ## Arbiters -/

/-- Two engines stand at the same arbiter of a level. -/
def sameArbiter (level : Nat) (e f : EngNo) : Bool :=
  if level = 0 then clusterOf e == clusterOf f else if level = 1 then halfOf e == halfOf f else true

/-- The port of an engine at its arbiter of a level: lane, cluster or half; how many ports it has; and the arbiter itself,
one for each target. -/
def portAt (level : Nat) (e : EngNo) : Nat :=
  if level = 0 then laneOf e else if level = 1 then clusterOf e % 4 else (halfOf e).ix
def portsAt (level : Nat) : Nat := if level = 0 then 8 else if level = 1 then 4 else 2
def arbiterKey (level : Nat) (e : EngNo) (target : Nat) : Nat :=
  16 * levelTarget level e target + (if level = 0 then clusterOf e else if level = 1 then 8 + (halfOf e).ix else 10)

def arbiterOf (k : Nat) (s : State) : Arbiter := tget (fun _ => ⟨0, 0⟩) s.fabric.arbiters k
def setArbiter (k : Nat) (x : Arbiter) (s : State) : State :=
  { s with fabric := { s.fabric with arbiters := tset (fun _ => ⟨0, 0⟩) s.fabric.arbiters k x } }

/-- A waiting request still stands: its engine is at the instruction that made it. -/
def standing (r : Request) (s : State) : Bool :=
  (s.eng r.eng).mode == .run && (s.eng r.eng).pc == r.pc

/-- The requests that compete when `e` asks for a target: engine and target. -/
def rivals (e : EngNo) (target : Nat) (s : State) : List (EngNo × Nat) :=
  (e, target) :: ((s.fabric.waiting.filter fun r => r.eng != e && standing r s).map fun r => (r.eng, r.target))

/-- The port that an arbiter serves next: the one in service while its round lasts, else the next with a request. -/
def nextPort (n : Nat) (busy : Nat → Bool) (x : Arbiter) : Nat :=
  if busy x.port && x.deficit != 0 then x.port
  else (((List.range n).map fun i => (x.port + 1 + i) % n).find? busy).getD x.port

/-- Request `r` stands at the arbiter of `e` at a level, and asks the same of it as `e` does for its target. -/
def standsAt (level : Nat) (e : EngNo) (target : Nat) (r : EngNo × Nat) : Bool :=
  sameArbiter level e r.1 && passesLevel level r.1 r.2 && levelTarget level r.1 r.2 == levelTarget level e target

/-- The arbiter of `e` at a level serves the port of `e` next, among the requests that the level below presents to it. -/
def served (level : Nat) (e : EngNo) (target : Nat) (rs : List (EngNo × Nat)) (s : State) : Bool :=
  nextPort (portsAt level) (fun p => rs.any fun r => standsAt level e target r && portAt level r.1 == p)
    (arbiterOf (arbiterKey level e target) s) == portAt level e

/-- Every arbiter on its path serves engine `e` next: the crossbar its lane, the ring its cluster, the bridge its half. The
ring chooses among the requests that the crossbars present, the bridge among those that the rings present. An instance bank has no
arbiter of its own between its cluster's crossbar and what comes from outside: all pass the arbiters of the path (log 125). -/
def chosen (e : EngNo) (target : Nat) (s : State) : Bool :=
  let rs := rivals e target s
  let atRing := rs.filter fun r => served 0 r.1 r.2 rs s
  let atBridge := atRing.filter fun r => served 1 r.1 r.2 atRing s
  served 0 e target rs s && (!passesLevel 1 e target || served 1 e target atRing s)
    && (!passesLevel 2 e target || served 2 e target atBridge s)

/-- The fabric clocks of an MTB count: five in two counts. -/
def clockEnd (m : Nat) : Nat := 5 * (m + 1) / 2

/-- A target, or the port on the way to it, grants a request in this MTB count: one per fabric clock. -/
def targetFree (target : Nat) (s : State) : Bool := tget (fun _ => 0) s.fabric.free target < clockEnd s.mtb

/-- A request waits in the fabric. A bank has no arbiter of its own between its crossbar and requests from outside: it takes
the first whose arbiters serve it (log entry 125). -/
def targetWaits (e : EngNo) (target : Nat) (s : State) : Bool :=
  !(targetFree (levelTarget 0 e target) s && targetFree target s && chosen e target s)

/-- The quantum of a port: the active requesters behind it on ring and bridge in REQUESTER mode, else one grant. -/
def quantum (level : Nat) (e : EngNo) (target : Nat) (rs : List (EngNo × Nat)) (s : State) : Nat :=
  if level = 0 ∨ s.bit pFAB FAB_STAT_FAIRMODE then 1
  else (rs.filter fun r => standsAt level e target r && portAt level r.1 == portAt level e).length

/-- An arbiter's grant to the port of engine `e`: one of its round, or the first of a new round. -/
def takeGrant (e : EngNo) (target : Nat) (rs : List (EngNo × Nat)) (level : Nat) (s : State) : State :=
  if passesLevel level e target then
    let k := arbiterKey level e target
    let x := arbiterOf k s
    let p := portAt level e
    setArbiter k ⟨p, if x.port = p ∧ x.deficit ≠ 0 then x.deficit - 1 else quantum level e target rs s - 1⟩ s
  else s

/-- A target is taken for one fabric clock. -/
def takeClock (target : Nat) (s : State) : State :=
  let clock := max (tget (fun _ => 0) s.fabric.free target) (5 * s.mtb / 2)
  { s with fabric := { s.fabric with free := tset (fun _ => 0) s.fabric.free target (clock + 1) } }

/-- The grants of one access, at every arbiter on its path; its request no longer waits, and its target is taken for one
fabric clock, with the port on the way to it. -/
def arbitrate (e : EngNo) (target : Nat) (s : State) : State :=
  let rs := rivals e target s
  let s := forAll [0, 1, 2] (takeGrant e target rs) s
  let s := { s with fabric := { s.fabric with waiting := s.fabric.waiting.filter fun r => r.eng != e && standing r s } }
  takeClock target (if ownTarget e target then s else takeClock (portTarget (clusterOf e)) s)

/-- FAB_GRANTCNT and the running total of the observed arbiter. -/
def countGrant (e : EngNo) (target : Nat) (s : State) : State :=
  let level := min 2 (s.g pFAB FAB_OBSSEL_LEVEL)
  let o : EngNo := ⟨s.g pFAB FAB_OBSSEL_ENGINE % 64, Nat.mod_lt _ (by decide)⟩
  if passesLevel level e target && sameArbiter level e o then
    let s := { s with grants := (s.grants + 1) % 2 ^ 32 }
    if e = o then s.incr pFAB FAB_GRANTCNT_COUNT else s
  else s

/-- A request of an engine is granted. -/
def grantTarget (e : EngNo) (target : Nat) (s : State) : State := countGrant e target (arbitrate e target s)

/-- A request waits; one that waits keeps its place (R78). -/
def waitForTarget (e : EngNo) (target : Nat) (s : State) : State :=
  let mine : Request := ⟨e, (s.eng e).pc, target⟩
  let stand := s.fabric.waiting.filter fun r => standing r s
  { s with fabric := { s.fabric with waiting := if stand.contains mine then stand else stand ++ [mine] } }

end Sys2Proof.Machine
end

