-- ==== Sys2Proof/Machine/Engine.lean ====
section
/-! DEFINITION. What every instruction of an engine shares: when it can execute, the fetch, the checks of R79, access
errors, exceptions, and the write of its result (R62 to R67, R79, R81, R89, R109 to R111). -/

namespace Sys2Proof.Machine

open Reg

/-! ## Who executes -/

/-- The engine runs a job, in task mode; otherwise it is in supervisor mode. -/
def inTask (e : EngNo) (s : State) : Bool := (s.eng e).job.isSome

/-- The requester that an engine's access carries (R57, R94): firmware carries D0. -/
def requesterOf (e : EngNo) (s : State) : Requester :=
  match (s.eng e).job with
  | some j => ⟨e, false, j.dom⟩
  | none => ⟨e, true, 0⟩

/-- The domain of an access by an engine. -/
def domOf (e : EngNo) (s : State) : Dom := (requesterOf e s).dom

/-! ## Transactions across the link (R66) -/

def txnOf (tag : Nat) (s : State) : Option Txn := tget (fun _ => none) s.txns tag
def setTxn (tag : Nat) (x : Option Txn) (s : State) : State := { s with txns := tset (fun _ => none) s.txns tag x }

/-- OUTSTANDING: tags in use, withheld ones too. -/
def syncOutstanding (s : State) : State := s.put pDDL DDL_STAT_OUTSTANDING s.txns.length

/-- The engine runs a job of a dead scan (R137). -/
def jobDead (e : EngNo) (s : State) : Bool :=
  match (s.eng e).job with
  | some j => j.dead
  | none => false

/-- The register waits for the data of a load. -/
def awaits (e : EngNo) (r : Reg) (s : State) : Bool :=
  s.txns.any fun t => match t.2 with
    | some x => x.eng == e && !x.withheld && !x.orphan && (match x.load with | some (_, d) => d == r && d != 0 | none => false)
    | none => false

/-- A later result for `r` is not overwritten by the data of an earlier load. -/
def dropLoad (e : EngNo) (r : Reg) (s : State) : State :=
  if awaits e r s then
    { s with txns := s.txns.map fun t => match t.2 with
        | some x => (t.1, some (if x.eng == e then
            { x with load := match x.load with | some (k, d) => some (k, if d = r then 0 else d) | none => none } else x))
        | none => t }
  else s

/-! ## Registers -/

/-- A general register; g0 reads as zero (R81). -/
def gr (e : EngNo) (r : Reg) (s : State) : Word := if r = 0 then 0 else (s.eng e).g[r]

/-- A general register written; g0 discards it. -/
def setGr (e : EngNo) (r : Reg) (v : Word) (s : State) : State :=
  if r = 0 then s
  else
    let s := dropLoad e r s
    s.setEng e { s.eng e with g := (s.eng e).g.set r v }

def setPc (e : EngNo) (a : Word) (s : State) : State := s.setEng e { s.eng e with pc := a }
/-- The next instruction in order. -/
def advance (e : EngNo) (s : State) : State := setPc e ((s.eng e).pc + 4) s
def setFl (e : EngNo) (w : Word) (s : State) : State := s.setEng e { s.eng e with fl := w }

/-- The end of an instruction with a result. -/
def result (e : EngNo) (rd : Reg) (v : Word) (s : State) : State := advance e (setGr e rd v s)

/-! ## Access errors (R47, R48) -/

/-- FAB_ERRADDR and FAB_ERRSRC hold the first error until ACCERR is cleared. -/
def fabError (r : Requester) (kind : Nat) (addr : Word) (s : State) : State :=
  if s.bit pFAB FAB_IRQ_RAW_ACCERR then s
  else
    let s := s.setReg pFAB 0x050 addr
    let s := s.setReg pFAB 0x054
      (word (kind * 2 ^ 13 + r.dom.toNat * 2 ^ 9 + (if r.sup then 256 else 0) + r.eng.val))
    raise pFAB FAB_IRQ_RAW_ACCERR s

/-- The link arbiter completes a request at once with an access error: the link is not UP (R57). -/
def arbiterError (r : Requester) (addr : Word) (s : State) : State :=
  let s := fabError r 4 addr s
  s.setEng r.eng { s.eng r.eng with remErr := some ((s.eng r.eng).remErr.getD addr) }

/-! ## Exceptions (R109, R110) -/

def xIllegal : Nat := 0x01
def xPrivileged : Nat := 0x02
def xAlign : Nat := 0x03
def xAccess : Nat := 0x04
def xRemote : Nat := 0x05
def xMat : Nat := 0x06
def xFault : Nat := 0x07
def xJobError : Nat := 0x08
def xInterrupt : Nat := 0x10

/-- EXCL of an engine's lane set. -/
def setExcl (e : EngNo) (s : State) : State := s.put (engPage e) ⟨0x008, laneOf e, 1⟩ 1

/-- ECAUSE. -/
def ecauseWord (code detail : Nat) (imprecise : Bool) : Word :=
  word (detail % 65536 * 65536 + (if imprecise then 0x8000 else 0) + code)

/-- An exception raised while FL.EX is 1: the engine halts and its lane is excluded. -/
def doubleException (e : EngNo) (s : State) : State :=
  raiseFault 5 false e.val 0 (setExcl e (setMode e .halted s))

/-- Exception entry in supervisor mode. -/
def enterException (e : EngNo) (code detail : Nat) (addr : Word) (imprecise : Bool) (s : State) : State :=
  let x := s.eng e
  if x.fl.getLsbD flEX then doubleException e s
  else s.setEng e
    { x with epc := x.pc, efl := x.fl, fl := setBit (setBit x.fl flIE false) flEX true,
             ecause := ecauseWord code detail imprecise, eaddr := addr, pc := x.vbase }

/-- An exception other than the remote-access one: a job fault in task mode, entry in supervisor mode. A check of R79
(code 8) is a job error in task mode. The fault code of FAULT stands for its job's code. -/
def exception (e : EngNo) (code detail : Nat) (addr : Word) (s : State) : State :=
  if inTask e s then
    if code = xJobError then jobError e detail addr s
    else jobFault e 1 (if code = xFault then detail else code) addr s
  else enterException e code detail (if 3 ≤ code ∧ code ≤ 6 then addr else 0) false s

/-- An access error: recorded, then the exception with its KIND. A dead job ends silently (R137). -/
def accessError (e : EngNo) (kind : Nat) (addr : Word) (s : State) : State :=
  if jobDead e s then leaveJob e s
  else exception e xAccess kind addr (fabError (requesterOf e s) kind addr s)

/-! ## Checks of R79 -/

/-- ENG_ERRCNT, ENG_ERRLOC and the flag of a KIND. -/
def errCount (e : EngNo) (kind : Nat) (wordIx : Nat) (masked : Bool) (s : State) : State :=
  let p := engPage e
  let s := match kind with
    | 0 | 1 => s.bump p ENG_ERRCNT_RESIDUE
    | 2 => s.bump p ENG_ERRCNT_INSTERR
    | 3 => s.bump p ENG_ERRCNT_SOLVCHK
    | 4 | 5 | 6 => s.bump p ENG_ERRCNT_PARITY
    | _ => s
  let s := s.setReg p 0x044
    (word ((if masked then 2 ^ 31 else 0) + laneOf e * 2 ^ 28 + kind * 2 ^ 24 + wordIx % 2 ^ 18))
  match kind with
  | 0 | 1 => raise p ENG_IRQ_RAW_RESIDUE s
  | 2 => raise p ENG_IRQ_RAW_INSTERR s
  | 3 => raise p ENG_IRQ_RAW_SOLVCHK s
  | 4 | 5 => raise p ENG_IRQ_RAW_PARITY s
  | 6 => raise p ENG_IRQ_RAW_LDPAR s
  | _ => raise p ENG_IRQ_RAW_HUNG s

/-- A check that fails: counted, then a job error, or in supervisor mode its class and the job-error exception. -/
def checkFails (e : EngNo) (kind : Nat) (wordIx : Nat) (addr : Word) (s : State) : State :=
  let s := errCount e kind wordIx false s
  if inTask e s then jobError e kind addr s
  else enterException e xJobError kind 0 false (raiseFault (kindClass kind) false e.val addr s)

/-! ## Fetch -/

/-- The KIND with which a fetch from `a` fails; none where it is allowed (R47, R80). -/
def fetchError (e : EngNo) (a : Nat) (s : State) : Option Nat :=
  if 0x08000000 ≤ a ∧ a < 0x08200000 then
    if codeHalf e a != halfOf e && inHalfBoot (codeHalf e a) s then some 6 else none
  else if a < 0x10000 ∨ (0x60000000 ≤ a ∧ a < 0x64000000) then (if inTask e s then some 2 else none)
  else if (0x10000000 ≤ a ∧ a < 0x10800000) ∨ (0x20000000 ≤ a ∧ a < 0x20400000) ∨ (0x30000000 ≤ a ∧ a < 0x30002000)
      ∨ (0x40000000 ≤ a ∧ a < 0x40024000) ∨ (0x48000000 ≤ a ∧ a < 0x48020000) ∨ (0x50000000 ≤ a ∧ a < 0x50015000)
      ∨ (0x58000000 ≤ a ∧ a < 0x58200000) then some 2
  else some 0

/-- The aligned word at an address that an engine can fetch from: ROM, code SRAM, the NOR window. -/
def codeWord (e : EngNo) (a : Nat) (s : State) : Word :=
  if a < 0x10000 then Config.rom (a + 3) ++ Config.rom (a + 2) ++ Config.rom (a + 1) ++ Config.rom a
  else if 0x08000000 ≤ a ∧ a < 0x08200000 then s.rw (codePlace e a)
  else s.rw a

def icacheOf (e : EngNo) (s : State) : List (Nat × List Word) := tget (fun _ => []) s.icache e.val
def setIcache (e : EngNo) (l : List (Nat × List Word)) (s : State) : State :=
  { s with icache := tset (fun _ => []) s.icache e.val l }

/-- A line as a refill reads it. -/
def refill (e : EngNo) (line : Nat) (s : State) : Nat × List Word :=
  (line, (List.range 8).map fun i => codeWord e (32 * line + 4 * i) s)

/-- The line of the next instruction is in the engine's cache. -/
def lineCached (e : EngNo) (s : State) : Bool := (icacheOf e s).any fun l => l.1 == (s.eng e).pc.toNat / 32

/-- The line enters the cache: two ways of 256 sets. Which way of a full set it replaces is not stated: a free value (R64). -/
def fillLine (e : EngNo) (s : State) : State :=
  let line := (s.eng e).pc.toNat / 32
  let ls := icacheOf e s
  let same := ls.filter fun l => l.1 % 256 == line % 256
  if same.length < 2 then setIcache e (refill e line s :: ls) s
  else
    let victim := (same.getD (if (Config.freeWord s.freed).getLsbD 0 then 1 else 0) (line, [])).1
    setIcache e (refill e line s :: ls.filter fun l => l.1 != victim) { s with freed := s.freed + 1 }

/-- The line of the instruction is in the cache; a refill is an access of the fabric (R64, R76). A line once there keeps its
words, whatever is written to the memory behind it. -/
def fetched (e : EngNo) (s : State) : State :=
  if lineCached e s then s else grantTarget e (targetOf e (s.eng e).pc.toNat) (fillLine e s)

/-- The refill that the engine's next fetch needs waits in the fabric. -/
def fetchWaits (e : EngNo) (s : State) : Bool := !lineCached e s && targetWaits e (targetOf e (s.eng e).pc.toNat) s

/-- The word that the engine's next fetch gives: the cached line's, or the memory's. -/
def fetchWord (e : EngNo) (s : State) : Word :=
  let pc := (s.eng e).pc.toNat
  match (icacheOf e s).find? fun l => l.1 == pc / 32 with
  | some l => l.2.getD (pc % 32 / 4) 0
  | none => codeWord e pc s

/-- A parity error of the cached line: counted, the line invalid and refilled, no effect on the job (R64, R79). It is not
masked from another image: ENG_ERRLOC.MASKED reads 0 (R72). -/
def icacheParity (e : EngNo) (s : State) : State :=
  let s := setIcache e ((icacheOf e s).filter fun l => l.1 != (s.eng e).pc.toNat / 32) s
  let t := errCount e 4 0 false (fetched e s)
  if jobDead e s then t else raiseFault 2 true e.val (s.eng e).pc t

/-- A parity error of the code SRAM line of an address: the line comes again from NOR, then a job error (R79, R364). -/
def codeParity (e : EngNo) (a : Nat) (s : State) : State :=
  checkFails e 5 (a % 0x100000 / 4) (word a) (refetchLine (codeHalf e a) (a % 0x100000) s)

/-! ## Execution of an instruction -/

/-- The engine is at its next instruction: it runs and is not within one, the fetch is allowed, no remote error waits to be
taken, and the registers it reads hold their data. -/
def atIssue (e : EngNo) (srcs : List Reg) (s : State) : Bool :=
  (s.eng e).mode == .run && (s.eng e).record == none && fetchError e (s.eng e).pc.toNat s == none
    && (s.eng e).remErr == none && !srcs.any fun r => awaits e r s

/-- The engine executes its next instruction now: its fetch does not wait either. -/
def canIssue (e : EngNo) (srcs : List Reg) (s : State) : Bool := atIssue e srcs s && !fetchWaits e s

/-- One execution: the fetch with its checks, then the instruction. An engine whose refill waits joins the requests of the
fabric; one that cannot execute the instruction now does nothing. -/
def issue (x : Issue) (srcs : List Reg) (run : State → State) (s : State) : State :=
  if canIssue x.eng srcs s then
    let s := fetched x.eng s
    match x.upset with
    | .icache => run (icacheParity x.eng s)
    | .codeSram => codeParity x.eng (s.eng x.eng).pc.toNat s
    | _ => run s
  else if atIssue x.eng srcs s then waitForTarget x.eng (targetOf x.eng (s.eng x.eng).pc.toNat) s
  else s

/-- A result that the integer residue covers: written unless the residue fails (R89). -/
def residued (x : Issue) (run : State → State) (s : State) : State :=
  if x.upset = .residue then checkFails x.eng 0 0 0 s else run s

/-- A result that the significand residue covers. -/
def floatResidued (x : Issue) (run : State → State) (s : State) : State :=
  if x.upset = .floatResidue then checkFails x.eng 1 0 0 s else run s

/-- An instruction of supervisor mode: privileged in task mode (R109). -/
def privileged (e : EngNo) (run : State → State) (s : State) : State :=
  if inTask e s then exception e xPrivileged 0 0 s else run s

end Sys2Proof.Machine
end

