-- ==== Sys2Proof/Machine/Float.lean ====
section
/-! DEFINITION. IEEE 754 binary32 arithmetic with the fixed choices of R90 and R91, computed exactly on
integers and rounded once, to nearest, ties to even. The metering chapters use the same rounding. -/

namespace Sys2Proof.Machine

/-- The five sticky flags of FL (R83). -/
structure FFlags where
  nv : Bool := false
  dz : Bool := false
  ov : Bool := false
  uf : Bool := false
  nx : Bool := false
  deriving DecidableEq, Repr

/-- The one NaN that operations return (R90). -/
def fNaN : Word := 0x7FC00000

def fSign (w : Word) : Bool := w.getLsbD 31
def fExp (w : Word) : Nat := (w.extractLsb' 23 8).toNat
def fFrac (w : Word) : Nat := (w.extractLsb' 0 23).toNat

def fIsNaN (w : Word) : Bool := fExp w == 255 && fFrac w != 0
def fIsSNaN (w : Word) : Bool := fIsNaN w && !w.getLsbD 22
def fIsInf (w : Word) : Bool := fExp w == 255 && fFrac w == 0
def fIsZero (w : Word) : Bool := fExp w == 0 && fFrac w == 0

/-- The significand of a finite value. -/
def fMant (w : Word) : Nat := if fExp w = 0 then fFrac w else fFrac w + 2 ^ 23

/-- The exponent of a finite value, moved up by 149 so that it is a natural number:
the value's magnitude is `fMant w * 2 ^ fPow w / 2 ^ 149`. -/
def fPow (w : Word) : Nat := if fExp w = 0 then 0 else fExp w - 1

/-- A finite value as an integer, in units of 2^−149. -/
def fInt (w : Word) : Int := (if fSign w then -1 else 1) * Int.ofNat (fMant w * 2 ^ fPow w)

def fSigned (neg : Bool) (magnitude : Nat) : Word := word (magnitude + if neg then 2 ^ 31 else 0)

def fInf (neg : Bool) : Word := fSigned neg 0x7F800000
def fZero (neg : Bool) : Word := fSigned neg 0

/-- `n / d` scaled by `2 ^ (-e)`, rounded to an integer, ties to even, and whether it was inexact. -/
def roundScaled (n d : Nat) (e : Int) : Nat × Bool :=
  let num := n * 2 ^ (-e).toNat
  let den := d * 2 ^ e.toNat
  let q := num / den
  let r := num % den
  (if 2 * r > den ∨ (2 * r = den ∧ q % 2 = 1) then q + 1 else q, r != 0)

/-- The exponent at which `n / d` has a significand of 24 bits. -/
def normExp (n d : Nat) : Int :=
  let e := (Int.ofNat n.log2 - Int.ofNat d.log2) - 23
  if n * 2 ^ (-e).toNat < 2 ^ 23 * (d * 2 ^ e.toNat) then e - 1 else e

/-- The exact value `± n / d` as binary32, rounded to nearest even, tininess judged after rounding (R90). -/
def roundRat (neg : Bool) (n d : Nat) : Word × FFlags :=
  if n = 0 then (fZero neg, {})
  else
    let e := normExp n d
    let tiny :=
      let m := (roundScaled n d e).1
      decide ((if m = 2 ^ 24 then e + 1 else e) + 23 < -126)
    let eb := if e < -149 then -149 else e
    let (m, inexact) := roundScaled n d eb
    let (m, eb) := if m = 2 ^ 24 then (2 ^ 23, eb + 1) else (m, eb)
    if m < 2 ^ 23 then (fSigned neg m, { uf := tiny && inexact, nx := inexact })
    else if eb + 150 ≥ 255 then (fInf neg, { ov := true, nx := true })
    else (fSigned neg ((eb + 150).toNat * 2 ^ 23 + (m - 2 ^ 23)), { uf := tiny && inexact, nx := inexact })

/-- The invalid-operation result. -/
def fInvalid : Word × FFlags := (fNaN, { nv := true })

/-- The result for NaN operands: NV only for a signalling one. -/
def fNaN2 (a b : Word) : Word × FFlags := (fNaN, { nv := fIsSNaN a || fIsSNaN b })

/-- FADD (R90). A sum of exact zeros of unlike sign, and a sum that cancels, is +0. -/
def fAdd (a b : Word) : Word × FFlags :=
  if fIsNaN a || fIsNaN b then fNaN2 a b
  else if fIsInf a then
    if fIsInf b && fSign a != fSign b then fInvalid else (a, {})
  else if fIsInf b then (b, {})
  else
    let v := fInt a + fInt b
    if v = 0 then (fZero (fSign a && fSign b), {})
    else roundRat (decide (v < 0)) v.natAbs (2 ^ 149)

/-- FNEG: bit 31 inverted, every other bit unchanged (R90). -/
def fNeg (a : Word) : Word := a ^^^ 0x80000000

/-- FABS: bit 31 cleared (R90). -/
def fAbs (a : Word) : Word := a &&& 0x7FFFFFFF

def fSub (a b : Word) : Word × FFlags :=
  if fIsNaN a || fIsNaN b then fNaN2 a b else fAdd a (fNeg b)

def fMul (a b : Word) : Word × FFlags :=
  let neg := fSign a != fSign b
  if fIsNaN a || fIsNaN b then fNaN2 a b
  else if fIsInf a || fIsInf b then
    if fIsZero a || fIsZero b then fInvalid else (fInf neg, {})
  else roundRat neg (fMant a * 2 ^ fPow a * (fMant b * 2 ^ fPow b)) (2 ^ 298)

def fDiv (a b : Word) : Word × FFlags :=
  let neg := fSign a != fSign b
  if fIsNaN a || fIsNaN b then fNaN2 a b
  else if fIsInf a then (if fIsInf b then fInvalid else (fInf neg, {}))
  else if fIsInf b then (fZero neg, {})
  else if fIsZero b then (if fIsZero a then fInvalid else (fInf neg, { dz := true }))
  else roundRat neg (fMant a * 2 ^ fPow a) (fMant b * 2 ^ fPow b)

/-- The integer square root, bit by bit from bit `k − 1`. -/
def isqrtGo (n : Nat) : Nat → Nat → Nat
  | 0, r => r
  | k + 1, r => if (r + 2 ^ k) * (r + 2 ^ k) ≤ n then isqrtGo n k (r + 2 ^ k) else isqrtGo n k r

def isqrt (n : Nat) : Nat := isqrtGo n (n.log2 / 2 + 1) 0

/-- The square root of `n / d` as binary32, rounded to nearest even: 64 more bits and a sticky bit decide every tie. -/
def sqrtRat (n d : Nat) : Word × FFlags :=
  let k := d.log2 + 320
  let x := n * 2 ^ (2 * k) / d
  let r := isqrt x
  let sticky := if r * r = x ∧ x * d = n * 2 ^ (2 * k) then 0 else 1
  roundRat false (2 * r + sticky) (2 * 2 ^ k)

def fSqrt (a : Word) : Word × FFlags :=
  if fIsNaN a then fNaN2 a a
  else if fIsZero a then (a, {})
  else if fSign a then fInvalid
  else if fIsInf a then (a, {})
  else sqrtRat (fMant a * 2 ^ fPow a) (2 ^ 149)

/-- The order of two values that are not NaN, −0 and +0 equal: an infinity lies beyond every finite value. -/
def fKey (a : Word) : Int := (if fSign a then -1 else 1) * Int.ofNat (a &&& 0x7FFFFFFF).toNat

def fMin (a b : Word) : Word × FFlags :=
  if fIsNaN a || fIsNaN b then fNaN2 a b
  else if fIsZero a && fIsZero b then (fZero (fSign a || fSign b), {})
  else (if fKey a ≤ fKey b then a else b, {})

def fMax (a b : Word) : Word × FFlags :=
  if fIsNaN a || fIsNaN b then fNaN2 a b
  else if fIsZero a && fIsZero b then (fZero (fSign a && fSign b), {})
  else (if fKey b ≤ fKey a then a else b, {})

/-- ITOF: a signed integer to nearest even. -/
def fOfInt (v : Int) : Word × FFlags := roundRat (decide (v < 0)) v.natAbs 1

/-- FTOI and FTOIZ of R91: `nearest` chooses ties to even, else rounding is toward zero. -/
def fToInt (nearest : Bool) (a : Word) : Word × FFlags :=
  if fIsNaN a then (0, { nv := true })
  else if fIsInf a then (if fSign a then 0x80000000 else 0x7FFFFFFF, { nv := true })
  else
    let n := fMant a * 2 ^ fPow a
    let (m, inexact) := if nearest then roundScaled n (2 ^ 149) 0 else (n / 2 ^ 149, n % 2 ^ 149 != 0)
    if fSign a then
      if m > 2 ^ 31 then (0x80000000, { nv := true }) else (BitVec.ofInt 32 (-(Int.ofNat m)), { nx := inexact })
    else
      if m ≥ 2 ^ 31 then (0x7FFFFFFF, { nv := true }) else (word m, { nx := inexact })

/-- The binary32 value nearest to an exact rational, flags dropped: the float fields of the Muslin records. -/
def fOfRat (num : Int) (den : Nat) : Word := (roundRat (decide (num < 0)) num.natAbs den).1

end Sys2Proof.Machine
end

