-- ==== Sys2Proof/Machine/Flags.lean ====
section
/-! DEFINITION. Every computation of FL: the flags of CMP and FCMP, the sticky float flags, the writable bits (R83, R88,
R90, R91). -/

namespace Sys2Proof.Machine

/-- FL with Z, N, C, V and U replaced. -/
def withCond (fl : Word) (z n c v u : Bool) : Word :=
  setBit (setBit (setBit (setBit (setBit fl flZ z) flN n) flC c) flV v) flU u

/-- Signed overflow of `a − b`. -/
def subOverflow (a b : Word) : Bool := (a.msb != b.msb) && ((a - b).msb != a.msb)

/-- CMP and CMPI (R88). -/
def cmpFlags (fl a b : Word) : Word :=
  withCond fl (a - b == 0) (a - b).msb (b ≤ a) (subOverflow a b) false

/-- Sticky flags set by a float operation; none is ever cleared by one (R90). -/
def stickyFlags (fl : Word) (f : FFlags) : Word :=
  fl ||| word (f.nx.toNat * 2 ^ 8 + f.uf.toNat * 2 ^ 9 + f.ov.toNat * 2 ^ 10 + f.dz.toNat * 2 ^ 11 + f.nv.toNat * 2 ^ 12)

/-- FCMP (R91). -/
def fcmpFlags (fl a b : Word) : Word :=
  if fIsNaN a || fIsNaN b then
    stickyFlags (withCond fl false false false false true) { nv := fIsSNaN a || fIsSNaN b }
  else withCond fl (fKey a == fKey b) (fKey a < fKey b) (fKey b ≤ fKey a) false false

/-- MTS to FL: task mode writes Z, N, C, V, U and the sticky flags; supervisor mode everything but S (R82, R83). -/
def flWritable (task : Bool) : Word := if task then 0x00001F1F else 0x0000BF1F
def writeFl (task : Bool) (fl v : Word) : Word := (fl &&& ~~~flWritable task) ||| (v &&& flWritable task)

/-- The sixteen branch conditions on FL (R97). -/
def condHolds (c : Sys2Proof.Cond) (fl : Word) : Bool :=
  let z := fl.getLsbD flZ
  let n := fl.getLsbD flN
  let cy := fl.getLsbD flC
  let v := fl.getLsbD flV
  match c with
  | .eq => z
  | .ne => !z
  | .lt => n != v
  | .ge => n == v
  | .gt => !z && n == v
  | .le => z || n != v
  | .ltu => !cy
  | .geu => cy
  | .gtu => cy && !z
  | .leu => !cy || z
  | .flt => n
  | .fge => cy
  | .fgt => cy && !z
  | .fle => n || z
  | .un => fl.getLsbD flU
  | .al => true

end Sys2Proof.Machine
end

