-- ==== Sys2Proof/Machine/Operands.lean ====
section
/-! DEFINITION. Operand forms of the engine instructions: immediates, base addresses, offsets (R85, R88, R93, R97). -/

namespace Sys2Proof.Machine

/-- A signed or unsigned 18-bit immediate as 32 bits. -/
def sext18 (i : BitVec 18) : Word := i.signExtend 32
def zext18 (i : BitVec 18) : Word := i.setWidth 32
/-- The byte distance of a branch: 4 × the signed word offset. -/
def branchOff (o : BitVec 22) : Word := o.signExtend 32 * 4
def sext15 (o : BitVec 15) : Word := o.signExtend 32

/-- The shift amount in bits [4:0]. -/
def shiftOf (w : Word) : Nat := (w.extractLsb' 0 5).toNat
def shiftImm (i : BitVec 5) : Nat := i.toNat

/-- The base register a load or store adds (R93). -/
def baseValue (e : EngNo) (b : Sys2Proof.Base) (s : State) : Word :=
  match b with
  | .zero => 0
  | .ib => (s.eng e).ib
  | .xb => (s.eng e).xb
  | .yb => (s.eng e).yb
  | .sp => (s.eng e).sp

/-- The address of a load or store. -/
def dataAddr (e : EngNo) (ra : Reg) (b : Sys2Proof.Base) (off : BitVec 15) (s : State) : Word :=
  baseValue e b s + gr e ra s + sext15 off

/-- Address of the record that EDGE, TMR and CNT work on: IB + 4 × woff. -/
def recordAddr (e : EngNo) (woff : BitVec 12) (s : State) : Word := (s.eng e).ib + woff.setWidth 32 * 4

/-- Signed quotient rounded toward zero, with the fixed results of R88. -/
def divSigned (a b : Word) : Word :=
  if b = 0 then 0 else if a = 0x80000000 ∧ b = 0xFFFFFFFF then 0x80000000 else BitVec.ofInt 32 (a.toInt.tdiv b.toInt)
def remSigned (a b : Word) : Word :=
  if b = 0 then a else if a = 0x80000000 ∧ b = 0xFFFFFFFF then 0 else BitVec.ofInt 32 (a.toInt.tmod b.toInt)
def divUnsigned (a b : Word) : Word := if b = 0 then 0 else word (a.toNat / b.toNat)
def remUnsigned (a b : Word) : Word := if b = 0 then a else word (a.toNat % b.toNat)

/-- The high half of a product. -/
def mulHigh (a b : Word) : Word := BitVec.ofInt 32 (a.toInt * b.toInt / 2 ^ 32)
def mulHighU (a b : Word) : Word := word (a.toNat * b.toNat / 2 ^ 32)

/-- 1 when the comparison holds, else 0. -/
def truth (b : Bool) : Word := if b then 1 else 0

end Sys2Proof.Machine
end

