-- ==== Sys2Proof/Machine/Alu.lean ====
section
/-! DEFINITION. The integer instructions (R88). -/

namespace Sys2Proof.Machine

/-- rd = f(ra, rb). -/
def aluRR (x : Issue) (rd ra rb : Reg) (f : Word → Word → Word) (s : State) : State :=
  issue x [ra, rb] (residued x fun s => result x.eng rd (f (gr x.eng ra s) (gr x.eng rb s)) s) s

/-- rd = f(ra). -/
def aluRI (x : Issue) (rd ra : Reg) (f : Word → Word) (s : State) : State :=
  issue x [ra] (residued x fun s => result x.eng rd (f (gr x.eng ra s)) s) s

/-- FL compared. -/
def aluCmp (x : Issue) (srcs : List Reg) (ra : Reg) (b : State → Word) (s : State) : State :=
  issue x srcs (residued x fun s =>
    advance x.eng (setFl x.eng (cmpFlags (s.eng x.eng).fl (gr x.eng ra s) (b s)) s)) s

/-- ADD (R88). -/
def execAdd (x : Issue) (rd ra rb : Reg) (s : State) : Host.Outcome State Fault Refusal :=
  ok s (aluRR x rd ra rb (fun a b => a + b) s)

/-- SUB (R88). -/
def execSub (x : Issue) (rd ra rb : Reg) (s : State) : Host.Outcome State Fault Refusal :=
  ok s (aluRR x rd ra rb (fun a b => a - b) s)

/-- AND (R88). -/
def execAnd (x : Issue) (rd ra rb : Reg) (s : State) : Host.Outcome State Fault Refusal :=
  ok s (aluRR x rd ra rb (fun a b => a &&& b) s)

/-- OR (R88). -/
def execOr (x : Issue) (rd ra rb : Reg) (s : State) : Host.Outcome State Fault Refusal :=
  ok s (aluRR x rd ra rb (fun a b => a ||| b) s)

/-- XOR (R88). -/
def execXor (x : Issue) (rd ra rb : Reg) (s : State) : Host.Outcome State Fault Refusal :=
  ok s (aluRR x rd ra rb (fun a b => a ^^^ b) s)

/-- SHL (R88). -/
def execShl (x : Issue) (rd ra rb : Reg) (s : State) : Host.Outcome State Fault Refusal :=
  ok s (aluRR x rd ra rb (fun a b => a <<< shiftOf b) s)

/-- SHR (R88). -/
def execShr (x : Issue) (rd ra rb : Reg) (s : State) : Host.Outcome State Fault Refusal :=
  ok s (aluRR x rd ra rb (fun a b => a >>> shiftOf b) s)

/-- SAR (R88). -/
def execSar (x : Issue) (rd ra rb : Reg) (s : State) : Host.Outcome State Fault Refusal :=
  ok s (aluRR x rd ra rb (fun a b => a.sshiftRight (shiftOf b)) s)

/-- SLT (R88). -/
def execSlt (x : Issue) (rd ra rb : Reg) (s : State) : Host.Outcome State Fault Refusal :=
  ok s (aluRR x rd ra rb (fun a b => truth (a.slt b)) s)

/-- SLTU (R88). -/
def execSltu (x : Issue) (rd ra rb : Reg) (s : State) : Host.Outcome State Fault Refusal :=
  ok s (aluRR x rd ra rb (fun a b => truth (a.ult b)) s)

/-- MIN (R88). -/
def execMin (x : Issue) (rd ra rb : Reg) (s : State) : Host.Outcome State Fault Refusal :=
  ok s (aluRR x rd ra rb (fun a b => if a.slt b then a else b) s)

/-- MAX (R88). -/
def execMax (x : Issue) (rd ra rb : Reg) (s : State) : Host.Outcome State Fault Refusal :=
  ok s (aluRR x rd ra rb (fun a b => if a.slt b then b else a) s)

/-- MUL (R88). -/
def execMul (x : Issue) (rd ra rb : Reg) (s : State) : Host.Outcome State Fault Refusal :=
  ok s (aluRR x rd ra rb (fun a b => a * b) s)

/-- MULH (R88). -/
def execMulh (x : Issue) (rd ra rb : Reg) (s : State) : Host.Outcome State Fault Refusal :=
  ok s (aluRR x rd ra rb (fun a b => mulHigh a b) s)

/-- MULHU (R88). -/
def execMulhu (x : Issue) (rd ra rb : Reg) (s : State) : Host.Outcome State Fault Refusal :=
  ok s (aluRR x rd ra rb (fun a b => mulHighU a b) s)

/-- DIV (R88). -/
def execDiv (x : Issue) (rd ra rb : Reg) (s : State) : Host.Outcome State Fault Refusal :=
  ok s (aluRR x rd ra rb (fun a b => divSigned a b) s)

/-- DIVU (R88). -/
def execDivu (x : Issue) (rd ra rb : Reg) (s : State) : Host.Outcome State Fault Refusal :=
  ok s (aluRR x rd ra rb (fun a b => divUnsigned a b) s)

/-- REM (R88). -/
def execRem (x : Issue) (rd ra rb : Reg) (s : State) : Host.Outcome State Fault Refusal :=
  ok s (aluRR x rd ra rb (fun a b => remSigned a b) s)

/-- REMU (R88). -/
def execRemu (x : Issue) (rd ra rb : Reg) (s : State) : Host.Outcome State Fault Refusal :=
  ok s (aluRR x rd ra rb (fun a b => remUnsigned a b) s)

/-- CMP (R88). -/
def execCmp (x : Issue) (ra rb : Reg) (s : State) : Host.Outcome State Fault Refusal :=
  ok s (aluCmp x [ra, rb] ra (fun s => gr x.eng rb s) s)

/-- ADDI (R88). -/
def execAddi (x : Issue) (rd ra : Reg) (imm : BitVec 18) (s : State) : Host.Outcome State Fault Refusal :=
  ok s (aluRI x rd ra (fun a => a + sext18 imm) s)

/-- ANDI (R88). -/
def execAndi (x : Issue) (rd ra : Reg) (imm : BitVec 18) (s : State) : Host.Outcome State Fault Refusal :=
  ok s (aluRI x rd ra (fun a => a &&& zext18 imm) s)

/-- ORI (R88). -/
def execOri (x : Issue) (rd ra : Reg) (imm : BitVec 18) (s : State) : Host.Outcome State Fault Refusal :=
  ok s (aluRI x rd ra (fun a => a ||| zext18 imm) s)

/-- XORI (R88). -/
def execXori (x : Issue) (rd ra : Reg) (imm : BitVec 18) (s : State) : Host.Outcome State Fault Refusal :=
  ok s (aluRI x rd ra (fun a => a ^^^ zext18 imm) s)

/-- SHLI (R88). -/
def execShli (x : Issue) (rd ra : Reg) (imm : BitVec 5) (s : State) : Host.Outcome State Fault Refusal :=
  ok s (aluRI x rd ra (fun a => a <<< shiftImm imm) s)

/-- SHRI (R88). -/
def execShri (x : Issue) (rd ra : Reg) (imm : BitVec 5) (s : State) : Host.Outcome State Fault Refusal :=
  ok s (aluRI x rd ra (fun a => a >>> shiftImm imm) s)

/-- SARI (R88). -/
def execSari (x : Issue) (rd ra : Reg) (imm : BitVec 5) (s : State) : Host.Outcome State Fault Refusal :=
  ok s (aluRI x rd ra (fun a => a.sshiftRight (shiftImm imm)) s)

/-- SLTI (R88). -/
def execSlti (x : Issue) (rd ra : Reg) (imm : BitVec 18) (s : State) : Host.Outcome State Fault Refusal :=
  ok s (aluRI x rd ra (fun a => truth (a.slt (sext18 imm))) s)

/-- LUI (R88). -/
def execLui (x : Issue) (rd : Reg) (imm : BitVec 16) (s : State) : Host.Outcome State Fault Refusal :=
  ok s (aluRI x rd 0 (fun _ => imm.setWidth 32 <<< 16) s)

/-- CMPI (R88). -/
def execCmpi (x : Issue) (ra : Reg) (imm : BitVec 18) (s : State) : Host.Outcome State Fault Refusal :=
  ok s (aluCmp x [ra] ra (fun _ => sext18 imm) s)

end Sys2Proof.Machine
end

