-- ==== Sys2Proof/Machine/Analog.lean ====
section
/-! DEFINITION. Analog channels, digital inputs and outputs and the output hold manager at a field-tick boundary (R202 to
R225, R367, R425, R431). -/

namespace Sys2Proof.Machine

open Reg

/-! ## Channels -/

def ainDefault (_ : Nat) : Ain :=
  { cfg := 0, offLeft := 0, settle := 0, target := none, drive := ⟨false, false, false, false, false⟩, last := none,
    entering := false, counts := [0, 0, 0, 0, 0], prot := false, rearm := false, samples := 0, filtered := none }

def State.ain (s : State) (n : ChanNo) : Ain := tget ainDefault s.field.chans n.val
def State.setAin (s : State) (n : ChanNo) (x : Ain) : State :=
  { s with field := { s.field with chans := tset ainDefault s.field.chans n.val x } }

def allChans : List ChanNo := List.finRange 32

/-- The page of a channel, and a register field of channel `n`. -/
def aioPage (n : ChanNo) : Nat := pAIOC + n.val / 8
def af (f : Fld) (n : ChanNo) : Fld := f.at 0x20 (n.val % 8)
/-- The channel is there: the S variant has 16 (R3). -/
def chanPresent (n : ChanNo) (s : State) : Bool := !s.fused.variantS || n.val < 16

def aiMa : Nat := 1
def aiV : Nat := 2
def aiRes : Nat := 3
def aoMa : Nat := 4
def aoV : Nat := 5

def cfgMode (w : Word) : Nat := (w.extractLsb' 0 3).toNat
def cfgLoop (w : Word) : Bool := w.getLsbD 3
def cfgRange (w : Word) : Nat := (w.extractLsb' 5 2).toNat
def cfgFilt (w : Word) : Bool := w.getLsbD 7
def cfgOpenDet (w : Word) : Bool := w.getLsbD 8
def cfgFault (w : Word) : Nat := (w.extractLsb' 9 2).toNat

/-- The mode in force now: OFF during the OFF interval. -/
def Ain.mode (x : Ain) : Nat := if x.offLeft = 0 then cfgMode x.cfg else 0
def isOutput (mode : Nat) : Bool := mode == aoMa || mode == aoV

/-! ## Field budget (R219, R385) -/

def reserved (w : Word) : Nat :=
  match cfgMode w with
  | 1 => if cfgLoop w then 25 else 0
  | 3 => 1
  | 4 => 25
  | 5 => 16
  | _ => 0

/-- Sum of the reservations of the accepted configurations, with channel `n` at `w`. -/
def reservation (n : ChanNo) (w : Word) (s : State) : Nat :=
  allChans.foldl (fun a m => a + reserved (if m = n then w else s.reg (aioPage m) (0x040 + 0x20 * (m.val % 8)))) 0

def fieldCap (s : State) : Nat := min 5000 (s.g pPMU PMU_FIELD_CAP_CAP)

/-- What a write would make of a channel's CFG. -/
def cfgAfter (n : ChanNo) (a : Access) (s : State) : Word :=
  let off := 0x040 + 0x20 * (n.val % 8)
  (plainWrite (aioPage n) off a s).reg (aioPage n) off

/-- The CFG word would raise the total reservation above the cap (R219). -/
def overBudget (n : ChanNo) (new : Word) (s : State) : Bool :=
  let after := reservation n new s
  decide (reservation n (s.reg (aioPage n) (0x040 + 0x20 * (n.val % 8))) s < after ∧ fieldCap s < after)

/-- A write of a channel's CFG: refused whole above the cap; in force from the next boundary (R219, R220). -/
def aioCfgWrite (n : ChanNo) (a : Access) (s : State) : State :=
  let p := aioPage n
  let new := cfgAfter n a s
  if !a.req.sup || 6 ≤ cfgMode new then s
  else if overBudget n new s then raise pAIO AIO_IRQ_RAW_BUDGET (s.put p (af AIOC_STS_REFUSED n) 1)
  else ((s.setReg p (0x040 + 0x20 * (n.val % 8)) new).put p (af AIOC_STS_REFUSED n) 0).put pAIO AIO_FIELD_RESV
    (reservation n new s)

/-! ## Fault flags (R215) -/

/-- Full scale of an AI_RES range in mΩ. -/
def resScale (range : Nat) : Int := [500000, 5000000, 50000000, 500000000].getD range 500000

/-- 2^149 × 10^6 times a float32 in mA or V: the target on the scale of nA or µV. -/
def scaled (w : Word) : Int := fInt w * 1000000
def unit_ : Int := 2 ^ 149

/-- The target of a channel on that scale; an alarm level is the whole number of microamperes it was set to (R213). -/
def Ain.aim (c : Ain) : Int :=
  let t := scaled (c.target.getD 0)
  if c.drive.alarm then (t + 500 * unit_) / (1000 * unit_) * (1000 * unit_) else t

/-- Whether |readback − target| exceeds `lim` nA or µV. -/
def deviates (readback aim lim : Int) : Bool := (readback * unit_ - aim).natAbs > (lim * unit_).natAbs

/-- The value of a sample in nA, µV or mΩ, OFFS included (R203, R206, R212). -/
def sampleValue (mode : Nat) (offs : Int) (x : AioSample) : Int :=
  if mode = aiMa then (if x.limiter then 25000000 else min 25000000 (x.value + offs))
  else if mode = aiV ∨ mode = aiRes then x.value + offs
  else x.value

/-- CLASS (R212). -/
def classOf (i : Int) : Nat :=
  if i ≤ 3600000 then 3 else if i < 3800000 then 1 else if i ≤ 20500000 then 0 else if i < 21000000 then 2 else 4

/-- Set and clearing condition of OPEN, SHORT, OVERLOAD, COMPLIANCE and RBERR in a mode; none where a flag has no row.
`compl`: the sample was taken while COMPLIANCE was set (R216). OFFS counts in AI_MA only (R212). -/
def conditions (cfg : Word) (mode : Nat) (aim : Int) (compl : Bool) (i : Int) (x : AioSample) :
    List (Option (Bool × Bool)) :=
  let both := fun (b : Bool) => some (b, !b)
  if mode = aiMa then
    [both (i < 200000), if cfgLoop cfg then both x.limit else none, both x.limiter, none, none]
  else if mode = aiV then [if cfgOpenDet cfg then both (x.value > 11500000) else none, none, none, none, none]
  else if mode = aiRes then
    let fs := resScale (cfgRange cfg)
    [both (x.value * 10 > fs * 11), both (x.value * 200 < fs), none, none, none]
  else if mode = aoMa then
    let lowH := x.aux < 50
    let open_ := i < 200000 && (3600000 * unit_ ≤ aim) && lowH
    let dev := deviates i aim 200000
    [both open_, none, none, some (lowH && !open_, 100 ≤ x.aux), some (dev && !lowH && !compl, !dev)]
  else if mode = aoV then
    let dev := deviates i aim 100000
    [none, none, both x.limit, none, some (dev && !x.limit, !dev)]
  else [none, none, none, none, none]

/-- One flag with its count: it changes after 5 consecutive samples. SETTLE leaves the RBERR count alone. -/
def flagStep (isSet frozen : Bool) (count : Nat) (c : Option (Bool × Bool)) : Bool × Nat :=
  match c with
  | none => (false, 0)
  | some (set, clear) =>
    if frozen then (isSet, count)
    else
      let n := if (if isSet then clear else set) then count + 1 else 0
      if 5 ≤ n then (!isSet, 0) else (isSet, n)

/-- OPEN and COMPLIANCE are never set together: OPEN, once its five samples are there, ends COMPLIANCE (R215; log 119). While
OPEN stands, COMPLIANCE goes on counting. -/
def openAlone (l : List (Bool × Nat)) : List (Bool × Nat) :=
  if (l.getD 0 (false, 0)).1 && (l.getD 3 (false, 0)).1 then l.set 3 (false, 0) else l

/-- The STS bit of flag `i` of the list: OPEN 1, SHORT 2, OVERLOAD 3, COMPLIANCE 4, RBERR 5. -/
def flagFld (n : ChanNo) (i : Nat) : Fld := ⟨0x044 + 0x20 * (n.val % 8), i + 1, 1⟩

def irqBit (n : ChanNo) (k : Nat) : Fld := ⟨0x010, 4 * (n.val % 8) + k, 1⟩

/-- The float32 that a value stands for: mA, V or Ω. -/
def valueFloat (mode : Nat) (i : Int) : Word := fOfRat i (if mode = aiRes then 1000 else 1000000)

/-- COMPL and FAULT of a page. -/
def syncAioStat (p : Nat) (s : State) : State :=
  let mine := allChans.filter fun n => aioPage n == p
  let mask := fun (pr : ChanNo → Bool) => mine.foldl (fun a n => a + if pr n then 2 ^ (n.val % 8) else 0) 0
  let bad := fun n => s.bit p (flagFld n 0) || s.bit p (flagFld n 1) || s.bit p (flagFld n 2) || s.bit p (flagFld n 4)
    || s.bit p (af AIOC_STS_MISWIRE n)
  (s.put p AIOC_STAT_COMPL (mask fun n => s.bit p (flagFld n 3))).put p AIOC_STAT_FAULT (mask bad)

/-- The sample of tick `f` of one channel evaluated under what was in force in that tick (R205, R215). -/
def evaluate (n : ChanNo) (f : Nat) (x : AioSample) (s : State) : State :=
  let p := aioPage n
  let c := s.ain n
  let mode := c.mode
  let offs := (s.reg p (0x054 + 0x20 * (n.val % 8))).toInt
  let i := sampleValue mode offs x
  let settle := isOutput mode && c.settle != 0
  let conds := conditions c.cfg mode c.aim (s.bit p (flagFld n 3)) i x
  let steps := openAlone ((List.range 5).map fun k =>
    flagStep (s.bit p (flagFld n k)) (settle && k == 4) (c.counts.getD k 0) (conds.getD k none))
  let was := (List.range 5).map fun k => s.bit p (flagFld n k)
  let new := (List.range 5).map fun k => (steps.getD k (false, 0)).1
  let newly := fun k => new.getD k false && !was.getD k false
  let cls := if mode = aiMa then classOf i else 0
  let clsWas := s.g p (af AIOC_STS_CLASS n)
  -- the 100 ms filter (R205)
  let samples := if mode = 0 ∨ !cfgFilt c.cfg then 0 else min 100 (c.samples + 1)
  let newval := samples == 100 && s.field.tick % 100 == 0
  let filtered := if samples = 0 then none
    else if newval then some (valueFloat mode (sampleValue mode offs { x with value := x.filtered, limiter := false })) else c.filtered
  let value := if mode = 0 then 0 else filtered.getD (valueFloat mode i)
  let aux := if mode = aoMa ∨ (mode = aiMa ∧ cfgLoop c.cfg) then fOfRat x.aux 100 else 0
  let s := s.setAin n { c with counts := steps.map (·.2), samples := samples, filtered := filtered, settle := c.settle - 1 }
  let s := forAll (List.range 5) (fun k s => s.putBit p (flagFld n k) (new.getD k false)) s
  let s := (s.put p (af AIOC_STS_TICK n) f).put p (af AIOC_STS_CLASS n) cls
  let s := (s.putBit p (af AIOC_STS_SETTLE n) settle).putBit p (af AIOC_STS_NEWVAL n) newval
  let s := (s.putBit p (af AIOC_STS_HELD n) c.drive.held).putBit p (af AIOC_STS_SAFEOUT n) c.drive.safe
  let s := (s.putBit p (af AIOC_STS_ALARMOUT n) c.drive.alarm).putBit p (af AIOC_STS_CMDCLAMP n) c.drive.clamp
  let s := s.putBit p (af AIOC_STS_VALID n) (mode != 0)
  let s := s.put p (af AIOC_VAL_VALUE n) value.toNat
  let s := s.put p (af AIOC_RAW_RAW n) (if mode = 0 then 0 else (x.raw.signExtend 32).toNat)
  let s := s.put p (af AIOC_AUX_AUX n) (Word.toNat' aux)
  let s := if newly 0 || newly 1 || newly 2 || newly 4 then raise p (irqBit n 0) s else s
  let s := if newly 0 || newly 1 || newly 4 then muslinFault p 8 false 0 s else s
  let s := if newly 3 then raise p (irqBit n 1) s else s
  if (cls = 3 ∨ cls = 4) ∧ cls ≠ clsWas then raise p (irqBit n 3) s else s
where
  Word.toNat' (w : Word) : Nat := w.toNat

/-! ## Configuration at the boundary (R218, R220) -/

/-- A change of MODE, LOOPPWR or RANGE starts the OFF interval: from this boundary on the channel has no samples, the one of
the tick that ends included. The count is that of the boundaries up to the entry, this one among them. -/
def startOff (n : ChanNo) (s : State) : State :=
  let c := s.ain n
  let new := s.reg (aioPage n) (0x040 + 0x20 * (n.val % 8))
  if (new ^^^ c.cfg) &&& 0x6F = 0 then s
  else s.setAin n { c with cfg := new, offLeft := 3, counts := [0, 0, 0, 0, 0], samples := 0, filtered := none }

/-- An accepted configuration takes effect, and the OFF interval goes on. -/
def advanceCfg (n : ChanNo) (s : State) : State :=
  let c := s.ain n
  let new := s.reg (aioPage n) (0x040 + 0x20 * (n.val % 8))
  let c := if c.rearm then { c with prot := false, rearm := false } else c
  let c :=
    if new = c.cfg then
      { c with offLeft := c.offLeft - 1, entering := c.offLeft == 1 && isOutput (cfgMode c.cfg) }
    else
      { c with cfg := new, offLeft := c.offLeft - 1, entering := c.offLeft == 1 && isOutput (cfgMode new),
               samples := if cfgFilt new && !cfgFilt c.cfg then 0 else c.samples,
               filtered := if cfgFilt new && !cfgFilt c.cfg then none else c.filtered }
  let c := if c.entering then { c with last := none, settle := 3 } else c
  s.setAin n c

/-! ## What an output drives (R209, R210, R213, R214) -/

/-- The hold manager at a boundary. -/
inductive HoldMode where
  | none | hold | safe
  deriving DecidableEq, Repr

def holdMode (s : State) : HoldMode :=
  if !s.bit pOHM OHM_STAT_ENGAGED then .none else if s.bit pOHM OHM_STAT_SAFE then .safe else .hold

/-- A float32 clamped to 0–24 mA or 0–11 V; a NaN is judged before. -/
def clampCmd (mode : Nat) (w : Word) : Word :=
  let hi : Word := if mode = aoMa then 0x41C00000 else 0x41300000
  if fKey w < 0 then 0 else if fKey hi < fKey w then hi else w

/-- High direction of an alarm on this variant (R214). -/
def alarmHigh (high : Bool) (s : State) : Bool :=
  if s.fused.variantS then
    (if s.bit pAIO AIO_GCTRL_FAILSRC then s.bit pAIO AIO_GCTRL_FAILDIR else s.bit pMSYS MSYS_STRAP_FAILDIR)
  else high

/-- The safe value of a channel. -/
def safeValue (n : ChanNo) (mode : Nat) (s : State) : Word :=
  let w := s.reg (aioPage n) (0x058 + 0x20 * (n.val % 8))
  clampCmd mode (if fIsNaN w then 0 else w)

/-- An alarm level, or the safe value in AO_V. -/
def alarmDrive (n : ChanNo) (mode : Nat) (high held : Bool) (s : State) : Word × Drive :=
  if mode = aoV then (safeValue n mode s, ⟨false, high, true, held, false⟩)
  else
    let level := if alarmHigh high s then s.g pAIO AIO_ALMHI_LEVEL else s.g pAIO AIO_ALMLO_LEVEL
    (fOfRat level 1000, ⟨true, high, false, held, false⟩)

/-- The fault action of a channel. -/
def faultDrive (n : ChanNo) (cfg : Word) (mode : Nat) (held : Bool) (s : State) : Word × Drive :=
  match cfgFault cfg with
  | 1 => alarmDrive n mode false held s
  | 2 => alarmDrive n mode true held s
  | _ => (safeValue n mode s, ⟨false, false, true, held, false⟩)

/-- The table of R210 for one channel in an output mode; a multidrop field device is parked at 4 mA (R234). In the hold
interval the target stays, but an alarm level follows its level and its direction (R213, R214). -/
def decide_ (n : ChanNo) (hold : HoldMode) (parked : Bool) (s : State) : Option Word × Drive :=
  let c := s.ain n
  let mode := c.mode
  let some_ := fun (x : Word × Drive) => (some x.1, x.2)
  if c.prot then (none, ⟨false, false, false, false, false⟩)
  else
    match hold, c.target with
    | .hold, some t => if c.drive.alarm then some_ (alarmDrive n mode c.drive.high true s) else (some t, { c.drive with held := true })
    | .safe, _ => some_ (faultDrive n c.cfg mode true s)
    | h, _ =>
      let held := h == .hold
      if parked then (some 0x40800000, ⟨false, false, false, held, false⟩)
      else match (if s.bit pAIO AIO_CTRL_IMGEN then c.last else none) with
      | none => some_ (faultDrive n c.cfg mode held s)
      | some (cmd, req) =>
        if 3 ≤ req ∨ fIsNaN cmd then some_ (faultDrive n c.cfg mode held s)
        else if req = 1 then some_ (alarmDrive n mode false held s)
        else if req = 2 then some_ (alarmDrive n mode true held s)
        else
          let t := clampCmd mode cmd
          (some t, ⟨false, false, false, held, fKey t != fKey cmd⟩)

/-- The record of channel `n` in an output transfer. -/
def outRecord (n : ChanNo) (x : List Byte) : Word × Byte := (leWord x (16 * n.val), x.getD (16 * n.val + 4) 0)

/-- The outputs of the tick that begins (R209, R210, R215). Records that had no base at their cut-off are none (R431; log 133). -/
def driveChan (n : ChanNo) (hold : HoldMode) (xfer : Option (List Byte)) (s : State) : State :=
  let c := s.ain n
  let mode := c.mode
  let c := match xfer with
    | some x => if c.entering || !s.field.aoBased then c else { c with last := some (outRecord n x) }
    | none => c
  if !isOutput mode then
    s.setAin n { c with target := none, drive := ⟨false, false, false, false, false⟩, entering := false }
  else
    let park := mode == aoMa && s.g pHRT (HRT_CFG_ROLE.at 0x20 n.val) == 3 && s.bit pHRT (HRT_CFG_MULTIDROP.at 0x20 n.val)
    let r := decide_ n hold park (s.setAin n c)
    let step : Int := if mode = aoMa then 200000 else 100000
    let d := { c with target := r.1, drive := r.2, entering := false }
    let moved := (d.aim - c.aim).natAbs > (step * unit_).natAbs
    s.setAin n { d with settle := if moved then max c.settle 3 else c.settle }

/-- The protection of a channel acts: high impedance at once (R218). -/
def protect (n : ChanNo) (s : State) : State :=
  let c := s.ain n
  if isOutput c.mode && chanPresent n s && !c.prot then
    let s := s.setAin n { c with prot := true, rearm := false, target := none, drive := ⟨false, false, false, false, false⟩ }
    let s := s.put (aioPage n) (af AIOC_STS_MISWIRE n) 1
    raise (aioPage n) (irqBit n 2) (syncAioStat (aioPage n) s)
  else s

/-! ## Deliveries (R32, R207, R208) -/

def missedOf (k : Nat) (s : State) : Nat := tget (fun _ => 0) s.field.missed k
def setMissed (k n : Nat) (s : State) : State :=
  { s with field := { s.field with missed := tset (fun _ => 0) s.field.missed k n } }

/-- One delivery sent, or counted as missed while the link is not UP. -/
def deliver (kind key : Nat) (w1 : Word) (bs : List Byte) (s : State) : State :=
  if s.linkUp .muslin then
    let m := missedOf key s
    sendSample kind (m != 0) w1 (word m) bs (setMissed key 0 s)
  else setMissed key (missedOf key s + 1) s

/-- The 16-byte record of one channel. -/
def aioRecord (n : ChanNo) (f : Nat) (s : State) : List Byte :=
  if !chanPresent n s then List.replicate 16 0
  else
    let p := aioPage n
    let w := s.reg p (0x044 + 0x20 * (n.val % 8))
    let st := (w.extractLsb' 16 3).toNat + (w.getLsbD 11).toNat * 8 + (w.getLsbD 12).toNat * 16
      + (w.getLsbD 13).toNat * 32 + (w.getLsbD 10).toNat * 64
    wordBytes (s.reg p (0x048 + 0x20 * (n.val % 8))) ++ wordBytes (s.reg p (0x04C + 0x20 * (n.val % 8)))
      ++ [byte st, w.extractLsb' 0 8] ++ leBytes 2 f ++ wordBytes (s.reg p (0x050 + 0x20 * (n.val % 8)))

/-! ## Digital inputs and outputs -/

def State.setDio (s : State) (x : Dio) : State := { s with field := { s.field with dio := x } }

/-- Outputs that conduct now: wanted, and not turned off by the limit; none without FIELD_24V (R225). -/
def conducting (x : Dio) (volts : Nat) : BitVec 24 := if volts = 0 then 0 else x.want &&& ~~~x.trip

/-- DRIVEN, LIMIT and ANYLIMIT. -/
def syncDio (s : State) : State :=
  let x := s.field.dio
  let on := conducting x (s.g pAIO AIO_FIELD_VOLT)
  let s := s.setDio { x with acc := x.acc ||| on, limAcc := x.limAcc ||| x.lim ||| x.trip,
                             safeAcc := x.safeAcc ||| (x.safe &&& ~~~(x.lim ||| x.trip)) }
  let s := (s.put pDIO DIO_DO_DRIVEN on.toNat).put pDIO DIO_DOLIM_LIMIT (x.lim ||| x.trip).toNat
  s.putBit pDIO DIO_STAT_ANYLIMIT ((x.lim ||| x.trip) != 0)

/-- One sample of every input: three in a row give a debounced state (R223, R424). -/
def debounce (inputs : BitVec 48) (x : Dio) : Dio × BitVec 48 :=
  let runs := (List.range 48).map fun i =>
    if inputs.getLsbD i = x.last.getLsbD i then min 3 (x.runs.getD i 0 + 1) else 1
  let settled : BitVec 48 := BitVec.ofNat 48 ((List.range 48).foldl (fun a i => a + if 3 ≤ runs.getD i 0 then 2 ^ i else 0) 0)
  let deb := (x.deb &&& ~~~settled) ||| (inputs &&& settled)
  ({ x with last := inputs, runs := runs, deb := deb, known := x.known ||| settled }, (deb ^^^ x.deb) &&& x.known)

/-- The nine records of a tick. -/
def dioRecords (f : Nat) (changed raw : BitVec 48) (x : Dio) : List Byte :=
  let ft := leBytes 2 f
  let ins := (List.range 6).flatMap fun r =>
    [byte (x.deb.extractLsb' (8 * r) 8).toNat, byte (changed.extractLsb' (8 * r) 8).toNat,
     byte (raw.extractLsb' (8 * r) 8).toNat, 0] ++ ft
    ++ [if x.known.extractLsb' (8 * r) 8 = 0xFF then 1 else 0] ++ List.replicate 9 0
  let outs := (List.range 3).flatMap fun g =>
    [byte (x.acc.extractLsb' (8 * g) 8).toNat, byte (x.limAcc.extractLsb' (8 * g) 8).toNat,
     byte (x.held.toNat + if x.safeAcc.extractLsb' (8 * g) 8 = 0 then 0 else 2), 0] ++ ft ++ [1] ++ List.replicate 9 0
  ins ++ outs

/-- The digital side of a boundary: inputs, which read off without FIELD_24V (R225), then the record of the tick that
ended (R223). -/
def dioSample (f : Nat) (x : FieldSample) (s : State) : State :=
  let inputs := if x.volts = 0 then 0 else x.inputs
  let (d, changed) := debounce inputs s.field.dio
  let s := s.setDio { d with sampled := f, lim := d.lim &&& x.limits }
  let s := s.put pDIO DIO_DI_LO_STATE (d.deb.extractLsb' 0 32).toNat
  let mask : BitVec 48 := (s.reg pDIO 0x05C).extractLsb' 0 16 ++ s.reg pDIO 0x058
  let s := if changed &&& mask = 0 then s else raise pDIO DIO_IRQ_RAW_DICHG s
  let s := if s.bit pDIO DIO_CTRL_IMGEN then
      deliver 2 2 (word f) (dioRecords f changed inputs s.field.dio) s else s
  s.setDio { s.field.dio with acc := 0, limAcc := 0, safeAcc := 0 }

/-- The outputs of the tick that begins (R224). Until IMGEN is first set every output is off (R225). -/
def dioDrive (hold : HoldMode) (xfer : Option (List Byte)) (s : State) : State :=
  let x := s.field.dio
  let imgen := s.bit pDIO DIO_CTRL_IMGEN
  let dosafe : BitVec 24 := BitVec.ofNat 24 (s.g pOHM OHM_DOSAFE_LEVEL)
  let bits := fun (k : Nat) (l : List Byte) => BitVec.ofNat 24
    ((l.getD (512 + k) 0).toNat + 256 * (l.getD (528 + k) 0).toNat + 65536 * (l.getD (544 + k) 0).toNat)
  let all : BitVec 24 := BitVec.allOnes 24
  let (y, err) : Dio × Bool :=
    match hold with
    | .hold => ({ x with held := true, safe := 0 }, false)
    | .safe =>
      if x.seen then ({ x with want := dosafe, held := true, safe := all }, false)
      else ({ x with want := 0, held := true, safe := 0 }, false)
    | .none =>
      if !x.seen then ({ x with want := 0, held := false, safe := 0 }, false)
      else if !imgen || !x.got then ({ x with want := dosafe, held := false, safe := all }, imgen && xfer.isNone)
      else match xfer with
        | none => (x, true)
        | some l =>
          let req := bits 1 l
          ({ x with want := (bits 0 l &&& ~~~req) ||| (dosafe &&& req), held := false, safe := req }, false)
  let s := s.setDio { y with lim := y.lim &&& y.want }
  let s := if err then raise pDIO DIO_IRQ_RAW_IMGERR s else s
  syncDio s

/-- OUTPUT_CURRENT_LIMIT (R425). -/
def execOutputCurrentLimit (n : Fin 24) (s : State) : Host.Outcome State Fault Refusal :=
  ok s (let x := s.field.dio
  if (conducting x (s.g pAIO AIO_FIELD_VOLT)).getLsbD n.val && !x.lim.getLsbD n.val then
    let s := s.setDio { x with lim := x.lim ||| BitVec.ofNat 24 (2 ^ n.val), limAt := tset (fun _ => 0) x.limAt n.val s.replica }
    raise pDIO DIO_IRQ_RAW_DOLIM (syncDio s)
  else s)

/-- LIMIT_TURNOFF (R425): 2 ms in the limit. -/
def execLimitTurnoff (n : Fin 24) (s : State) : Host.Outcome State Fault Refusal :=
  ok s (let x := s.field.dio
  if x.lim.getLsbD n.val then
    let s := s.untilReplica (tget (fun _ => 0) x.limAt n.val + 200000)
    let b : BitVec 24 := BitVec.ofNat 24 (2 ^ n.val)
    let s := s.setDio { x with lim := x.lim &&& ~~~b, trip := x.trip ||| b, limAt := tset (fun _ => 0) x.limAt n.val s.replica }
    syncDio (s.bump pDIO DIO_DOTRIPS_COUNT)
  else s)

/-- LIMIT_RETRY (R425): 100 ms after it was turned off. -/
def execLimitRetry (n : Fin 24) (s : State) : Host.Outcome State Fault Refusal :=
  ok s (let x := s.field.dio
  if x.trip.getLsbD n.val then
    let s := s.untilReplica (tget (fun _ => 0) x.limAt n.val + 10000000)
    syncDio (s.setDio { x with trip := x.trip &&& ~~~BitVec.ofNat 24 (2 ^ n.val) })
  else s)

/-! ## Output hold manager (R367) -/

/-- The manager engages when Muslin declares the link down; a second declaration starts no new interval. -/
def ohmEngage (s : State) : State :=
  if s.bit pOHM OHM_STAT_ENGAGED then s
  else
    let ms := min 60000 (max 100 (s.g pOHM OHM_HOLD_MS))
    let s := { s with field := { s.field with holdEnd := s.replica + ms * 100000, holdOver := false } }
    raise pOHM OHM_IRQ_RAW_ENGAGED (((s.put pOHM OHM_STAT_ENGAGED 1).put pOHM OHM_STAT_SAFE 0).put pOHM OHM_CTRL_RELEASE 0)

/-- HOLD_EXPIRY (R367): the hold interval ends; the fault actions begin at the next boundary. -/
def execHoldExpiry (s : State) : Host.Outcome State Fault Refusal :=
  ok s (if s.bit pOHM OHM_STAT_ENGAGED then
    let s := s.untilReplica s.field.holdEnd
    { s with field := { s.field with holdOver := true } }
  else s)

/-- The manager at a boundary: a release that is complete comes first, then the end of the hold interval. -/
def ohmBoundary (s : State) : State :=
  if !s.bit pOHM OHM_STAT_ENGAGED then s
  else if s.linkUp .muslin && s.bit pOHM OHM_CTRL_RELEASE && s.field.xfer.isSome then
    ((s.put pOHM OHM_STAT_ENGAGED 0).put pOHM OHM_STAT_SAFE 0).put pOHM OHM_CTRL_RELEASE 0
  else if (s.field.holdOver || s.field.holdEnd ≤ s.replica) && !s.bit pOHM OHM_STAT_SAFE then
    raise pOHM OHM_IRQ_RAW_SAFE (s.put pOHM OHM_STAT_SAFE 1)
  else s

def ohmWrite (off : Nat) (a : Access) (s : State) : State :=
  if off = 0x008 then
    (if a.b OHM_CTRL_RELEASE && s.bit pOHM OHM_STAT_ENGAGED then s.put pOHM OHM_CTRL_RELEASE 1 else s)
  else plainWrite pOHM off a s

/-! ## The boundary as a whole -/

/-- The analog and digital side of the boundary that ends tick `f`. -/
def fieldBoundary (f : Nat) (x : FieldSample) (s : State) : State :=
  let was := s.bit pAIO AIO_STAT_FIELDLOW
  let low := x.volts < 20000
  let s := (s.put pAIO AIO_FIELD_VOLT (min x.volts 65535)).putBit pAIO AIO_STAT_FIELDLOW low
  let s := if low && !was then raise pAIO AIO_IRQ_RAW_FIELDLOW s else s
  let s := s.putBit pAIO AIO_STAT_FAILDIR (s.fused.variantS && alarmHigh false s)
  let present := allChans.filter fun n => chanPresent n s
  let s := forAll present startOff s
  let s := forAll present (fun n s => evaluate n f (x.analog.getD n.val ⟨0, 0, 0, 0, false, false⟩) s) s
  let s := forAll (List.range 4) (fun k s => syncAioStat (pAIOC + k) s) s
  let s := if s.bit pAIO AIO_CTRL_IMGEN then
      deliver 1 1 (word f) (allChans.flatMap fun n => aioRecord n f s) s else s
  let s := dioSample f x s
  let s := ohmBoundary s
  let hold := holdMode s
  let xfer := s.field.xfer
  let s := forAll present advanceCfg s
  let s := if s.bit pAIO AIO_CTRL_IMGEN && xfer.isNone && hold == .none then raise pAIO AIO_IRQ_RAW_IMGERR s else s
  let s := forAll present (fun n s => driveChan n hold xfer s) s
  let s := dioDrive hold xfer s
  { s with field := { s.field with xfer := none } }

/-! ## Registers -/

/-- A record area of `n` bytes lies wholly in point space (R431). -/
def areaGood (a n : Nat) : Bool := 0x10040000 ≤ a && a + n ≤ 0x10060000

/-- A write of a record base: dropped while IMGEN is 1 or for an area outside point space. -/
def baseWrite (p off len : Nat) (ctrl : Fld) (a : Access) (s : State) : State :=
  if s.bit p ctrl || !areaGood (a.val.toNat / 16 * 16) len then s else plainWrite p off a s

/-- A write of the register that holds IMGEN: dropped whole when it would set IMGEN while a base is 0. -/
def imgenWrite (p : Nat) (ctrl stat : Fld) (bases : List Nat) (a : Access) (s : State) : State :=
  if a.req.sup && a.b ctrl && bases.any fun b => s.reg p b == 0 then s
  else
    let s := plainWrite p 0x008 a s
    s.putBit p stat (s.bit p ctrl)

def aioWrite (off : Nat) (a : Access) (s : State) : State :=
  if off = 0x008 then imgenWrite pAIO AIO_CTRL_IMGEN AIO_STAT_IMGEN [0x044, 0x048] a s
  else if off = 0x044 ∨ off = 0x048 then baseWrite pAIO off 512 AIO_CTRL_IMGEN a s
  else if off = 0x04C ∨ off = 0x050 then
    if a.unlocked then
      let lo := if off = 0x04C then 3200 else 21000
      let hi := if off = 0x04C then 3600 else 23000
      s.setReg pAIO off (word (min hi (max lo (a.val.toNat % 65536))))
    else s
  else plainWrite pAIO off a s

/-- A write of a channel page: absent channels ignore it; MISWIRE written 1 re-arms at the next boundary (R3, R218). -/
def aioChanWrite (p off : Nat) (a : Access) (s : State) : State :=
  if off < 0x040 then plainWrite p off a s
  else if h : (off - 0x040) / 0x20 < 8 ∧ p - pAIOC < 4 then
    let n : ChanNo := ⟨8 * (p - pAIOC) + (off - 0x040) / 0x20, by omega⟩
    if !chanPresent n s then s
    else if (off - 0x040) % 0x20 = 0 then aioCfgWrite n a s
    else if (off - 0x040) % 0x20 = 4 then
      if a.val.getLsbD 6 && s.bit p (af AIOC_STS_MISWIRE n) then
        syncAioStat p ((s.put p (af AIOC_STS_MISWIRE n) 0).setAin n { s.ain n with rearm := true })
      else s
    else plainWrite p off a s
  else s

/-- IMGEN set anew: the outputs wait for a whole transfer (R224, R225). -/
def dioWrite (off : Nat) (a : Access) (s : State) : State :=
  if off = 0x008 then
    let was := s.bit pDIO DIO_CTRL_IMGEN
    let s := imgenWrite pDIO DIO_CTRL_IMGEN DIO_STAT_IMGEN [0x040, 0x044] a s
    if !was && s.bit pDIO DIO_CTRL_IMGEN then s.setDio { s.field.dio with seen := true, got := false } else s
  else if off = 0x040 ∨ off = 0x044 then baseWrite pDIO off (if off = 0x040 then 144 else 48) DIO_CTRL_IMGEN a s
  else plainWrite pDIO off a s

/-- A read of DIO_DI_LO latches DIO_DI_HI. -/
def dioRead (off : Nat) (s : State) : Word × State :=
  if off = 0x048 then
    let x := s.field.dio
    (s.reg pDIO 0x048,
     (s.put pDIO DIO_DI_HI_TICK x.sampled).put pDIO DIO_DI_HI_STATE (x.deb.extractLsb' 32 16).toNat)
  else plainRead pDIO off s

end Sys2Proof.Machine
end

