-- ==== Sys2Proof/Machine/Angle.lean ====
section
/-! DEFINITION. The angle of a phasor in degrees (R251). -/

namespace Sys2Proof.Machine

/-- π × 2^128. -/
def piFix : Nat := 1069028584064966747859680373161870783301

/-- Euler's series for the arc tangent: `t` is term `k`, and each further one is `t × 2(k + 1) / (2k + 3) × n² / (n² + d²)`. -/
def atanTerms (n d : Nat) : Nat → Nat → Nat → Nat
  | 0, _, _ => 0
  | fuel + 1, k, t => t + atanTerms n d fuel (k + 1) (t * (2 * (k + 1) * n ^ 2) / ((2 * k + 3) * (n ^ 2 + d ^ 2)))

/-- atan(n / d) × 2^128 for n ≤ d: each term is less than half the one before. -/
def atanFix (n d : Nat) : Nat := atanTerms n d 130 0 (n * d * 2 ^ 128 / (n ^ 2 + d ^ 2))

/-- An angle of the first quadrant with tangent n / d, in degrees, as a fraction; a small tangent is its own arc. -/
def degreesUp (n d : Nat) : Nat × Nat :=
  if d < n then (90 * piFix - 180 * atanFix d n, piFix)
  else if n * 2 ^ 40 < d then (n * 180 * 2 ^ 128, d * piFix)
  else (180 * atanFix n d, piFix)

/-- atan2(q, p) in degrees, (−180, +180], as the nearest binary32; not for q = p = 0. -/
def degrees (q p : Int) : Word :=
  let a := degreesUp q.natAbs p.natAbs
  let num := if p < 0 then 180 * a.2 - a.1 else a.1
  let w := fOfRat (if q < 0 then -(num : Int) else num) a.2
  if w = 0xC3340000 then 0x43340000 else w

end Sys2Proof.Machine
end

