-- ==== Sys2Proof/Machine/Hart.lean ====
section
/-! DEFINITION. The HART modems: roles, requests, transactions, polls, frames received (R226 to R241). -/

namespace Sys2Proof.Machine

open Reg

/-! ## Channels -/

def hartIdle (_ : Nat) : Hart :=
  { active := none, staged := [], phase := .waiting, line := [], discard := false, quietFrom := 0, stxEnd := none,
    pollDue := none, pollAt := 0, polled := 0 }

def State.modem (s : State) (n : ChanNo) : Hart := tget hartIdle s.hart.chans n.val
def State.setModem (s : State) (n : ChanNo) (x : Hart) : State :=
  { s with hart := { s.hart with chans := tset hartIdle s.hart.chans n.val x } }

def hf (f : Fld) (n : ChanNo) : Fld := f.at 0x20 n.val
def hartRole (n : ChanNo) (s : State) : Nat := s.g pHRT (hf HRT_CFG_ROLE n)
def hartMultidrop (n : ChanNo) (s : State) : Bool := s.bit pHRT (hf HRT_CFG_MULTIDROP n)
def hartMaster (n : ChanNo) (s : State) : Bool := hartRole n s == 1 || hartRole n s == 2

/-- The role is active in a channel configuration (R228). -/
def hartAllowed (n : ChanNo) (cfg : Word) (s : State) : Bool :=
  chanPresent n s &&
  (if hartMaster n s then cfgMode cfg == aoMa || (cfgMode cfg == aiMa && cfg.getLsbD 4)
   else hartRole n s == 3 && cfgMode cfg == aoMa)

/-- The channel is in the OFF interval of R220. -/
def inOff (n : ChanNo) (s : State) : Bool := (s.ain n).offLeft != 0
/-- The channel's HART is active. -/
def hartActive (n : ChanNo) (s : State) : Bool := hartAllowed n (s.ain n).cfg s && !inOff n s

/-- The condition of R238 under which a channel sends nothing; and without Muslin's crystal while the link is down (R396). -/
def suppressed (n : ChanNo) (s : State) : Bool :=
  s.bit (aioPage n) (flagFld n 3) || s.bit (aioPage n) (af AIOC_STS_MISWIRE n) || inOff n s
    || (s.meter.xtalLost && !s.linkUp .muslin)

/-- The output is parked at 4 mA (R234). -/
def parked (n : ChanNo) (s : State) : Bool := hartActive n s && hartRole n s == 3 && hartMultidrop n s

/-- The poll list as the addresses 1 to 63 that are set. -/
def pollSet (n : ChanNo) (s : State) : List Nat :=
  let w : BitVec 64 := s.reg pHRT (0x110 + 0x20 * n.val) ++ s.reg pHRT (0x10C + 0x20 * n.val)
  (List.range 64).filter fun i => i != 0 && w.getLsbD i

/-- The address after the one polled last, in ascending order with wrap. -/
def nextPoll (n : ChanNo) (s : State) : Nat :=
  let l := pollSet n s
  match l.find? fun i => (s.modem n).polled < i with
  | some i => i
  | none => l.headD 0

/-- ACTIVE, BUSY, PARKED, SUPPR, NEXTPOLL of a channel. A modem that becomes active listens from then on: its quiet time
runs from there (R239). -/
def syncHart (n : ChanNo) (s : State) : State :=
  let act := hartActive n s
  let s := if act && !s.bit pHRT (hf HRT_STS_ACTIVE n) then s.setModem n { s.modem n with quietFrom := s.replica } else s
  let busy := (s.modem n).active.isSome
  let s := (s.putBit pHRT ⟨0x00C, n.val, 1⟩ act).putBit pHRT (hf HRT_STS_ACTIVE n) act
  let s := (s.putBit pHRT ⟨0x04C, n.val, 1⟩ busy).putBit pHRT (hf HRT_STS_BUSY n) busy
  let s := (s.putBit pHRT (hf HRT_STS_PARKED n) (parked n s)).putBit pHRT (hf HRT_STS_SUPPR n) (suppressed n s)
  s.put pHRT (hf HRT_STS_NEXTPOLL n) (nextPoll n s)

/-! ## Statuses and results (R236, R237) -/

def hsOk : Nat := 0
def hsTimeout : Nat := 1
def hsParity : Nat := 2
def hsCheck : Nat := 3
def hsGap : Nat := 4
def hsSuppressed : Nat := 5
def hsAborted : Nat := 6
def hsLate : Nat := 7
def hsRefused : Nat := 8
def hsFormat : Nat := 9

/-- A result entry. RLEN is at most 267, the longest frame there is: what a faulty frame holds beyond is not shown (log 134). -/
def hartEntry (n : ChanNo) (kind : Nat) (tag : BitVec 16) (status : Nat) (stamp stampEnd : Word) (frame : List Byte) :
    List Byte :=
  let frame := frame.take 267
  padTo 288 ([byte n.val, byte kind] ++ leBytes 2 tag.toNat ++ [byte status, 0] ++ leBytes 2 frame.length
    ++ wordBytes stamp ++ wordBytes stampEnd ++ frame)

/-- A result discarded: counted, and remembered until the link returns (R240). -/
def hartLose (s : State) : State :=
  State.bump { s with hart := { s.hart with lost := true } } pHRT HRT_LOSTCNT_LOST

/-- A result on its way to Damask; discarded while the link is not UP (R240). -/
def hartSend (n : ChanNo) (status : Nat) (entry : List Byte) (s : State) : State :=
  let s := s.put pHRT (hf HRT_STS_LASTST n) status
  if s.linkUp .muslin then sendBulk .muslin 0x06 (bytesWords entry) s else hartLose s

/-- KIND of a result. -/
def HartKind.code : HartKind → Nat
  | .master => 0
  | .answer => 2
  | .poll => 4

/-- A poll of an address: command 0 with no data (R233). -/
def pollReq (addr : Nat) : HartReq := ⟨.poll, BitVec.ofNat 16 addr, 0, [0x02, byte addr, 0x00, 0x00]⟩

/-- The request, or the poll that is due, that becomes active. A poll that is due while EN is 0, or with no address set, is
not made. -/
def hartNext (n : ChanNo) (s : State) : State :=
  let x := s.modem n
  let y : Hart := { x with active := none, phase := .waiting, line := [], discard := false }
  let ahead := x.pollDue.map (· - 1)
  let startPoll := ahead == some 0 && s.bit pHRT HRT_CTRL_EN && nextPoll n s != 0
  let y : Hart := if startPoll then
      { y with active := some (pollReq (nextPoll n s)), pollDue := none, polled := nextPoll n s }
    else { y with active := x.staged.head?, staged := x.staged.tail, pollDue := if ahead = some 0 then none else ahead }
  syncHart n (s.setModem n y)

/-- The end of the active transaction with its result. -/
def hartEnd (n : ChanNo) (status : Nat) (stamp stampEnd : Word) (frame : List Byte) (s : State) : State :=
  match (s.modem n).active with
  | none => s
  | some r =>
    let gone := (s.modem n).discard
    let s := hartNext n s
    if gone then (s.put pHRT (hf HRT_STS_LASTST n) status).bump pHRT HRT_LOSTCNT_LOST
    else hartSend n status (hartEntry n r.kind.code r.tag status stamp stampEnd frame) s

/-- STAMPEND of the transaction in progress: 0 while no check byte has been sent. -/
def stampEndOf (x : Hart) : Word :=
  match x.phase with
  | .response e _ => word e
  | _ => 0

/-! ## Requests (R235, R237) -/

/-- The head entry's channel, KIND and TAG. -/
def reqChan (e : List Byte) : ChanNo := ⟨((e.getD 0 0).extractLsb' 0 5).toNat, BitVec.isLt _⟩
def reqTag (e : List Byte) : BitVec 16 := BitVec.ofNat 16 (leField e 2 2)

/-- What the delimiter of a frame says (R226). -/
def rxType (bs : List Byte) : Nat := ((bs.getD 0 0).extractLsb' 0 3).toNat
def rxPhysical (bs : List Byte) : Nat := ((bs.getD 0 0).extractLsb' 3 2).toNat
def tyBack : Nat := 1
def tyStx : Nat := 2
def tyHartAck : Nat := 6

/-- The modem sends this frame: STX for a master request, ACK for an answer, of physical type 0 (R226; log entry 89). -/
def frameSent (kind : Nat) (frame : List Byte) : Bool :=
  rxPhysical frame == 0 && rxType frame == (if kind = 1 then tyHartAck else tyStx)

/-- Muslin takes a request entry: at once a result, or the channel's active or staged slot. A poll under way takes neither. -/
def hartTake (e : List Byte) (s : State) : State :=
  let n := reqChan e
  let kind := (e.getD 1 0).toNat
  let len := leField e 4 2
  let pre := (e.getD 6 0).toNat
  let code := if kind = 1 then 2 else 0
  let answer := fun (st : Nat) => hartSend n st (hartEntry n code (reqTag e) st 0 0 []) s
  if 2 ≤ kind ∨ len < 4 ∨ 266 < len ∨ (pre ≠ 0 ∧ (pre < 5 ∨ 20 < pre)) ∨ !frameSent kind ((e.drop 16).take len) then
    answer hsFormat
  else if !hartAllowed n (s.ain n).cfg s || (kind == 1) != (hartRole n s == 3) then answer hsRefused
  else if suppressed n s then answer hsSuppressed
  else
    let r : HartReq := ⟨if kind = 1 then .answer else .master, reqTag e, pre, (e.drop 16).take len⟩
    let x := s.modem n
    match x.active with
    | none => syncHart n (s.setModem n { x with active := some r, phase := .waiting })
    | some _ => syncHart n (s.setModem n { x with staged := x.staged ++ [r] })

/-- Requests of a channel that Damask has handed over and not seen answered. -/
def takenOf (n : ChanNo) (s : State) : Nat := (s.hart.taken.filter fun t => t.1 == n).length

/-- Damask hands over entries of Q28 in ring order while the head entry's channel has a free slot. -/
def hartPumpGo : Nat → State → State
  | 0, s => s
  | k + 1, s =>
    match headA 28 s with
    | none => s
    | some e =>
      if s.linkUp .damask && s.bit pHRT HRT_CTRL_EN && takenOf (reqChan e) s < 2 then
        let s := { s with hart := { s.hart with taken := s.hart.taken ++ [(reqChan e, e.getD 1 0, reqTag e)] } }
        hartPumpGo k (sendBulk .damask 0x05 (bytesWords e) (takeA 28 s))
      else s

def hartPump (s : State) : State := hartPumpGo (ringA s 28).level s

/-- A result entry written to the result ring, or discarded when it is full. -/
def hartWriteResult (e : List Byte) (s : State) : State :=
  match pushB 28 e s with
  | some s => s
  | none => raise pHRT HRT_IRQ_RAW_RESLOST (s.bump pHRT HRT_LOSTCNT_LOST)

/-- KIND of the request that a result answers. -/
def answers (kind : Nat) : Option Byte := if kind = 0 then some 0 else if kind = 2 then some 1 else none

/-- Damask receives a result: the request is answered, the entry written, and its slot is free for the next. -/
def hartResult (e : List Byte) (s : State) : State :=
  let key := (reqChan e, (answers (e.getD 1 0).toNat), reqTag e)
  let mine := fun (t : ChanNo × Byte × BitVec 16) =>
    t.1 == key.1 && t.2.2 == key.2.2 && (match key.2.1 with
      | some k => t.2.1 == k || (k == 0 && t.2.1 != 1)
      | none => false)
  let s := { s with hart := { s.hart with taken := s.hart.taken.eraseP mine } }
  hartPump (hartWriteResult e s)

/-! ## Frames (R226, R229, R230) -/

/-- XOR of every byte. -/
def checkByte (bs : List Byte) : Byte := bs.foldl (· ^^^ ·) 0

/-- The frame on the loop: a master writes bit 7 of the first address byte; the check byte follows. -/
def hartLine (n : ChanNo) (r : HartReq) (s : State) : List Byte :=
  let f := match r.frame, r.kind with
    | d :: a :: rest, .master | d :: a :: rest, .poll =>
      d :: (if hartRole n s = 1 then a ||| 0x80 else a &&& 0x7F) :: rest
    | f, _ => f
  f ++ [checkByte f]

/-- Characters of preamble: the entry's own number, else PREAMBLE within 5 to 20. -/
def preambleCount (n : ChanNo) (r : HartReq) (s : State) : Nat :=
  if r.preambles ≠ 0 then r.preambles else min 20 (max 5 (s.g pHRT (hf HRT_CFG_PREAMBLE n)))

/-- MTB counts of `k` characters of 11 bits, to the nearest count. -/
def charTime (k : Nat) : Nat := (2 * 2750000 * k + 3) / 6

def rxExpansion (bs : List Byte) : Nat := ((bs.getD 0 0).extractLsb' 5 2).toNat
def rxLong (bs : List Byte) : Bool := (bs.getD 0 0).getLsbD 7
def rxMasterBit (bs : List Byte) : Bool := (bs.getD 1 0).getLsbD 7
def rxAddrLen (bs : List Byte) : Nat := if rxLong bs then 5 else 1

/-- The byte count fits the frame's length. -/
def rxLengthGood (bs : List Byte) : Bool :=
  let at_ := 1 + rxAddrLen bs + rxExpansion bs + 1
  at_ < bs.length && bs.length == at_ + 1 + (bs.getD at_ 0).toNat + 1

/-- A frame with enough in it to be classified. -/
def rxClassified (x : HartRx) : Bool := 2 ≤ x.preambles && 1 + rxAddrLen x.bytes ≤ x.bytes.length

/-- STATUS of a received frame: 0 when it is accepted. -/
def rxStatus (x : HartRx) : Nat :=
  if x.badParity then hsParity
  else if x.badGap then hsGap
  else if !rxLengthGood x.bytes || rxPhysical x.bytes != 0 then hsFormat
  else if checkByte x.bytes ≠ 0 then hsCheck
  else hsOk

/-- A receive error: counted and flagged. -/
def hartRxError (s : State) : State := raise pHRT HRT_IRQ_RAW_RXERR (s.bump pHRT HRT_CNT_RXERRS)

/-- The STX's address is this device's (R232). -/
def stxMatches (n : ChanNo) (bs : List Byte) (s : State) : Bool :=
  if rxLong bs then
    let a := (bs.drop 1).take 5
    let own := wordBytes (s.reg pHRT (0x104 + 0x20 * n.val)) ++ [(s.reg pHRT (0x108 + 0x20 * n.val)).extractLsb' 0 8]
    let low := fun (l : List Byte) => match l with | b :: t => (b &&& 0x3F) :: t | [] => []
    low a == low own || (low a).all (· == 0)
  else ((bs.getD 1 0) &&& 0x3F).toNat == s.g pHRT (hf HRT_CFG_SADDR n)

/-- TIMEOUT of the transaction at its deadline. -/
def hartTimeout (n : ChanNo) (s : State) : State :=
  hartEnd n hsTimeout 0 (stampEndOf (s.modem n)) []
    (raise pHRT HRT_IRQ_RAW_TIMEOUT (s.bump pHRT HRT_CNT_TIMEOUTS))

/-- A frame that a master receives. One whose first start bit is stamped at the deadline or later finds the transaction
timed out (R7, R231). -/
def masterReceive (n : ChanNo) (x : HartRx) (s : State) : State :=
  let st := rxStatus x
  let own := rxMasterBit x.bytes == (hartRole n s == 1)
  let ty := rxType x.bytes
  let count := fun (s : State) => if st = 0 then s.bump pHRT (hf HRT_FRCNT_RX n) else hartRxError s
  if ty ≠ tyHartAck ∧ ty ≠ tyBack then s
  else
    let s := match (s.modem n).active, (s.modem n).phase with
      | some _, .response _ d => if d ≤ x.first then hartTimeout n s else s
      | _, _ => s
    match (s.modem n).active, (s.modem n).phase with
    | some _, .response e _ => if own then hartEnd n st (word x.stamp) (word e) x.bytes (count s) else count s
    | _, _ =>
      if ty = tyBack then
        let s := count s
        if st = 0 then hartSend n hsOk (hartEntry n 3 0 hsOk (word x.stamp) 0 x.bytes) s else s
      else if own then s.bump pHRT HRT_LOSTCNT_LATE
      else count s

/-- A frame that a field device receives. An STX that is lost because the link is not UP is never answered (R240). -/
def deviceReceive (n : ChanNo) (x : HartRx) (s : State) : State :=
  if rxType x.bytes ≠ tyStx then s
  else if rxStatus x ≠ 0 then hartRxError s
  else
    let s := s.bump pHRT (hf HRT_FRCNT_RX n)
    if !stxMatches n x.bytes s then s
    else
      let s := s.setModem n { s.modem n with stxEnd := if s.linkUp .muslin then some x.last else none }
      hartSend n hsOk (hartEntry n 1 0 hsOk (word x.stamp) 0 x.bytes) s

/-- HART_FRAME_RECEIVE (R230): a frame has ended on the loop of channel `n`. -/
def execHartFrameReceive (n : ChanNo) (x : HartRx) (s : State) : Host.Outcome State Fault Refusal :=
  ok s (let s := s.untilReplica x.last
  if !hartActive n s then s
  else if !rxClassified x then hartRxError s
  else if hartRole n s = 3 then deviceReceive n x s
  else masterReceive n x s)

/-- CARRIER_DETECT (R230): the modem's carrier detect changes. -/
def execCarrierDetect (n : ChanNo) (on : Bool) (s : State) : Host.Outcome State Fault Refusal :=
  ok s (if s.bit pHRT (hf HRT_STS_CARRIER n) == on || !chanPresent n s then s
  else
    let s := s.putBit pHRT (hf HRT_STS_CARRIER n) on
    if on then s else s.setModem n { s.modem n with quietFrom := s.replica })

/-! ## Transactions (R231, R232, R238) -/

def waiting (x : Hart) : Bool := x.phase == .waiting && x.active.isSome

/-- The transmission of the active request begins now, or gives SUPPRESSED. -/
def hartBegin (n : ChanNo) (s : State) : State :=
  let x := s.modem n
  match x.active with
  | none => s
  | some r =>
    if suppressed n s then hartEnd n hsSuppressed 0 0 [] s
    else syncHart n (s.setModem n { x with phase := .sending s.replica, line := hartLine n r s })

/-- Quiet time of the role, in ms. -/
def quietMs (n : ChanNo) (s : State) : Nat :=
  if hartRole n s = 1 then s.g pHRT HRT_QUIET_QUIETP else s.g pHRT HRT_QUIET_QUIETS

/-- HART_TX_START (R231): a master starts once carrier has been absent for its quiet time. -/
def execHartTxStart (n : ChanNo) (s : State) : Host.Outcome State Fault Refusal :=
  ok s (let x := s.modem n
  if waiting x && hartMaster n s && !s.bit pHRT (hf HRT_STS_CARRIER n) then
    hartBegin n (s.untilReplica (x.quietFrom + 100000 * quietMs n s))
  else s)

/-- End of the interval in which an answer may start. -/
def answerLimit (x : Hart) (s : State) : Nat :=
  match x.stxEnd with
  | some e => e + 100000 * min 1000 (max 1 (s.g pHRT HRT_TIMEOUT_STO))
  | none => 0

/-- HART_ANSWER_START (R232): an answer starts after 2 bit times without carrier, or is not sent. -/
def execHartAnswerStart (n : ChanNo) (s : State) : Host.Outcome State Fault Refusal :=
  ok s (let x := s.modem n
  if waiting x && hartRole n s == 3 then
    let carrier := s.bit pHRT (hf HRT_STS_CARRIER n)
    let at_ := if carrier then s.replica else max s.replica (x.quietFrom + 166667)
    if answerLimit x s ≤ at_ then
      let s := s.untilReplica (answerLimit x s)
      hartEnd n hsLate 0 0 [] (s.bump pHRT HRT_LOSTCNT_LATE)
    else if carrier then s
    else hartBegin n (s.untilReplica at_)
  else s)

/-- Characters of a transmission. -/
def lineChars (n : ChanNo) (x : Hart) (s : State) : Nat :=
  x.line.length + match x.active with | some r => preambleCount n r s | none => 0

/-- The check byte of the active transaction has been sent at `e`: an answer is over, a master waits for its response. -/
def hartSent (n : ChanNo) (r : HartReq) (e : Nat) (s : State) : State :=
  let s := s.bump pHRT (hf HRT_FRCNT_TX n)
  if r.kind = .answer then hartEnd n hsOk 0 (word e) [] s
  else s.setModem n { s.modem n with phase := .response e (e + 100000 * min 1000 (max 1 (s.g pHRT HRT_TIMEOUT_RTO))) }

/-- HART_TX_END (R231): the check byte has been sent. -/
def execHartTxEnd (n : ChanNo) (s : State) : Host.Outcome State Fault Refusal :=
  ok s (let x := s.modem n
  match x.active, x.phase with
  | some r, .sending start =>
    let e := start + charTime (lineChars n x s)
    hartSent n r e (s.untilReplica e)
  | _, _ => s)

/-- HART_RESPONSE_DEADLINE (R231): no start bit of a response came before the deadline. -/
def execHartResponseDeadline (n : ChanNo) (s : State) : Host.Outcome State Fault Refusal :=
  ok s (match (s.modem n).active, (s.modem n).phase with
  | some _, .response _ d => hartTimeout n (s.untilReplica d)
  | _, _ => s)

/-- HART_POLL (R233): the next poll of a multidrop master is due. -/
def execHartPoll (n : ChanNo) (s : State) : Host.Outcome State Fault Refusal :=
  ok s (if hartMaster n s && hartMultidrop n s && hartActive n s && cfgMode (s.ain n).cfg == aiMa
      && s.bit pHRT HRT_CTRL_EN && nextPoll n s != 0 then
    let s := s.untilReplica (s.modem n).pollAt
    let x := { s.modem n with pollAt := s.replica + 100000 * max 100 (s.g pHRT HRT_POLLINT_INT) }
    match x.active with
    | none =>
      syncHart n (s.setModem n { x with active := some (pollReq (nextPoll n s)), phase := .waiting, polled := nextPoll n s })
    | some _ => s.setModem n { x with pollDue := some (x.pollDue.getD (1 + x.staged.length)) }
  else s)

/-! ## Boundaries, the link, registers -/

/-- Every request that waits returns ABORTED. -/
def hartAbortStaged (n : ChanNo) : Nat → State → State
  | 0, s => s
  | k + 1, s => hartAbortStaged n k (hartEnd n hsAborted 0 0 [] s)

/-- The channel's configuration changed at a boundary: the active transaction and what waits return ABORTED, and the quiet
time starts anew (R239). -/
def hartAbort (n : ChanNo) (s : State) : State :=
  let s := s.setModem n { s.modem n with pollDue := none, quietFrom := s.replica }
  let k := (s.modem n).staged.length
  syncHart n (hartAbortStaged n k (hartEnd n hsAborted 0 (stampEndOf (s.modem n)) [] s))

/-- Characters of a transmission that are over at a time `d` after its start, the one under way with them. -/
def charsUnderWay (d : Nat) : Nat → Nat
  | 0 => 0
  | k + 1 => if charTime k ≤ d then k + 1 else charsUnderWay d k

/-- A transmission under way stops at the end of its character when a condition of R238 has arisen; when that character is
the check byte the frame has been sent. One whose first start bit was due at this very instant was never started. The result
is given at the instant of the condition (log entry 89). -/
def hartStop (n : ChanNo) (s : State) : State :=
  let x := s.modem n
  let s := match x.active, x.phase with
    | some r, .sending start =>
      let e := start + charTime (lineChars n x s)
      if !suppressed n s then s
      else if e ≤ s.replica then hartSent n r e s
      else if start < s.replica then
        let whole := charsUnderWay (s.replica - start) (lineChars n x s) == lineChars n x s
        let s := if whole then s.bump pHRT (hf HRT_FRCNT_TX n) else s
        raise pHRT HRT_IRQ_RAW_SUPPR (hartEnd n hsSuppressed 0 (if whole then word e else 0) [] s)
      else hartEnd n hsSuppressed 0 0 [] s
    | _, _ => s
  syncHart n s

/-- The modem of one channel after a boundary: `was` is the configuration before it. -/
def hartBoundary (n : ChanNo) (was : Word) (s : State) : State :=
  hartStop n (if ((s.ain n).cfg ^^^ was) &&& 0x1F ≠ 0 then hartAbort n s else s)

/-- PROTECTED_STATE_ENTRY (R218): the channel's protection acts, and its modem falls silent (R238). -/
def execProtectedStateEntry (n : ChanNo) (s : State) : Host.Outcome State Fault Refusal :=
  ok s (hartStop n (protect n s))

/-- A modem holds a request or a transaction when the link goes down: it will have no result, which the link's return tells. -/
def hartHolds (x : Hart) : Bool := x.active.isSome || !x.staged.isEmpty

/-- The link has gone down: what is on the line runs to its end, everything else is discarded; on Damask every request
not yet answered returns ABORTED (R240). -/
def hartLinkDown (d : Die) (s : State) : State :=
  match d with
  | .muslin => forAll allChans (fun n s =>
      let x := s.modem n
      let s := if hartHolds x then { s with hart := { s.hart with lost := true } } else s
      let s := if x.staged.isEmpty then s else s.setModem n { x with staged := [], pollDue := x.pollDue.map fun _ => 1 }
      let x := s.modem n
      match x.active with
      | none => s
      | some r =>
        if x.phase == .waiting && r.kind != .poll then hartNext n s
        else s.setModem n { x with discard := true }) s
  | .damask =>
    let t := s.hart.taken
    forAll t (fun r s => hartWriteResult
      (hartEntry r.1 (if r.2.1 = 1 then 2 else 0) r.2.2 hsAborted 0 0 []) s) { s with hart := { s.hart with taken := [] } }

/-- The transfer of a request entry, of which the bytes `b` had come, is lost: its request returns ABORTED (R31, R240). -/
def hartBroken (b : List Byte) (s : State) : State :=
  let mine := fun (t : ChanNo × Byte × BitVec 16) => b == [] || (t.1 == reqChan b && t.2.2 == reqTag b)
  match s.hart.taken.find? mine with
  | some t =>
    let s := { s with hart := { s.hart with taken := s.hart.taken.eraseP mine } }
    hartPump (hartWriteResult (hartEntry t.1 (if t.2.1 = 1 then 2 else 0) t.2.2 hsAborted 0 0 []) s)
  | none => s

/-- The link has returned. -/
def hartLinkUp (s : State) : State :=
  hartPump (if s.hart.lost then raise pHRT HRT_IRQ_RAW_RESLOST { s with hart := { s.hart with lost := false } } else s)

/-- A write of the HRT page. -/
def hrtWrite (off : Nat) (a : Access) (s : State) : State :=
  if h : 0x100 ≤ off ∧ (off - 0x100) / 0x20 < 32 then
    let n : ChanNo := ⟨(off - 0x100) / 0x20, h.2⟩
    if (off - 0x100) % 0x20 = 0 then
      if !a.req.sup then s
      else if !chanPresent n s || (s.modem n).active.isSome || !(s.modem n).staged.isEmpty || 4 ≤ a.f HRT_CFG_ROLE then
        raise pHRT HRT_IRQ_RAW_CFGERR s
      else syncHart n (plainWrite pHRT off a s)
    else if chanPresent n s then syncHart n (plainWrite pHRT off a s)
    else if a.req.sup then raise pHRT HRT_IRQ_RAW_CFGERR s else s
  else if off = 0x008 then hartPump (plainWrite pHRT off a s)
  else plainWrite pHRT off a s

end Sys2Proof.Machine
end

