-- ==== Sys2Proof/Machine/Flash.lean ====
section
/-! DEFINITION. The flash array on Muslin: granules, sectors, error correction, energy admission, and the operations
that wait (R305 to R311, R375). -/

namespace Sys2Proof.Machine

open Reg

def State.setFlash (s : State) (x : Flash) : State := { s with flash := x }

/-! ## The array -/

/-- A byte of the array by its flash offset, and `n` bytes from it. -/
def flByte (off : Nat) (s : State) : Byte := s.rb (flashBase + off)
def flBytes (off n : Nat) (s : State) : List Byte := s.bytes (flashBase + off) n
def flWord (off : Nat) (s : State) : Nat := (s.rw (flashBase + off)).toNat

/-- The granule that holds an offset. -/
def granuleOf (off : Nat) : Nat := off / 8
/-- Bit errors of a granule: 0, 1 (single) or 2 (double). -/
def granuleError (g : Nat) (s : State) : Nat := tget (fun _ => 0) s.flash.errors g
/-- The granule does not read as erased: it was programmed, or a bit error has appeared in it (R308). -/
def isProgrammed (g : Nat) (s : State) : Bool := tget (fun _ => false) s.flash.programmed g || granuleError g s != 0
/-- The granules that do not read as erased, each once. -/
def usedGranules (s : State) : List Nat :=
  s.flash.programmed.map (·.1) ++ (s.flash.errors.map (·.1)).filter fun g => !tget (fun _ => false) s.flash.programmed g
/-- The granules that `n` bytes from `off` touch. -/
def granules (off n : Nat) : List Nat := (List.range ((off + n + 7) / 8 - off / 8)).map (· + off / 8)

/-- No granule of the range holds a double-bit error. -/
def readable (off n : Nat) (s : State) : Bool := (granules off n).all fun g => granuleError g s != 2
/-- Every granule of the range is erased. -/
def erasedRange (off n : Nat) (s : State) : Bool := (granules off n).all fun g => !isProgrammed g s

def sectorSize : Nat := 4096
/-- Every granule of sector `k` (of the whole array) reads as erased. -/
def sectorErased (k : Nat) (s : State) : Bool := !(usedGranules s).any fun g => g / 512 == k

/-- Errors met by a read of some granules: a single-bit error is corrected and counted, a double-bit error counted; class
12 is told (R308, R392). -/
def eccReport (gs : List Nat) (s : State) : State :=
  forAll gs (fun g s =>
    match granuleError g s with
    | 0 => s
    | 1 =>
      let s := ((s.bump pNVM NVM_ECCCNT_SEC).put pNVM NVM_ERRADDR_ADDR (8 * g)).put pNVM NVM_ERRADDR_DED 0
      muslinFault pNVM 12 true (word (8 * g)) (raise pNVM NVM_IRQ_RAW_SEC s)
    | _ =>
      let s := ((s.bump pNVM NVM_ECCCNT_DED).put pNVM NVM_ERRADDR_ADDR (8 * g)).put pNVM NVM_ERRADDR_DED 1
      muslinFault pNVM 12 false (word (8 * g)) (raise pNVM NVM_IRQ_RAW_DED s)) s

/-- The errors met by a block that reads the `n` bytes from an offset. -/
def eccIn (off n : Nat) (s : State) : State :=
  eccReport ((s.flash.errors.map (·.1)).filter fun g => off ≤ 8 * g && 8 * g < off + n) s

/-- A sector erased: every byte 0xFF, no granule programmed, no error left. -/
def eraseSector (k : Nat) (s : State) : State :=
  let s := s.clearMem (flashBase + sectorSize * k) (flashBase + sectorSize * (k + 1))
  let mine := fun g => g / 512 == k
  s.setFlash { s.flash with
    programmed := tclear mine s.flash.programmed, errors := tclear mine s.flash.errors
    made := s.flash.made.filter fun i => 0x190 + i / 4 != k }

/-- Bytes programmed from an offset, granule by granule. -/
def programBytes (off : Nat) (bs : List Byte) (s : State) : State :=
  let s := s.wbytes (flashBase + off) bs
  s.setFlash { s.flash with
    programmed := (granules off bs.length).foldl (fun t g => tset (fun _ => false) t g true) s.flash.programmed }

def runStep (st : FlashStep) (s : State) : State :=
  match st with
  | .erase k => eraseSector k s
  | .program off bs => programBytes off bs s

/-- Energy of a step in units of 0.01 mJ (R309). -/
def stepEnergy : FlashStep → Nat
  | .erase _ => 240
  | .program _ bs => 2 * ((bs.length + 7) / 8)

/-! ## Admission (R375) -/

/-- E_HOLD as 2,000,000 times its value in mJ: CEFF in mF and the voltage in mV as the PMU shows them. -/
def eHold (s : State) : Nat := s.g pPMU PMU_CEFF_VALUE * (s.g pPMU PMU_EHOLD_VHOLD ^ 2 - 2800 ^ 2)

/-- The plan is running. -/
def planRuns (s : State) : Bool := s.bit pPMU PMU_STAT_PLAN
/-- Muslin runs: from the end of a power-fail plan to the next supply-good only Charon does (R376), and while the module
is held in reset (R421). -/
def muslinRuns (s : State) : Bool := (!s.power.failed || planRuns s) && !s.power.held

/-- Writes that the power-fail plan lists (R376): the final save, the retain area, NC0's increments, event records, and the
base that a repair owes (R325). -/
def planWrite (o : FlashOp) : Bool :=
  match o.user, o.work with
  | .save .final _, _ | .retain, _ | .event, _ | .counter false, .count 0 | .repair _ _, .base _ _ => true
  | _, _ => false

/-- The operation is a plan operation now; so is the retain area of a commanded OFF, which runs the plan's steps (R382). -/
def isPlanOp (o : FlashOp) (s : State) : Bool :=
  (planRuns s && planWrite o) || (s.power.area.isSome && o.user == .retain)

/-- An operation of `e` units may be admitted. -/
def admitted (o : FlashOp) (e : Nat) (s : State) : Bool :=
  if isPlanOp o s then 20000 * (300000 + s.power.pend + e) ≤ eHold s
  else !s.power.failed && 20000 * (700000 + s.power.pend + e) ≤ eHold s

/-- E_PEND changed. -/
def setPend (n : Nat) (s : State) : State :=
  { s with power := { s.power with pend := n } }.put pPMU PMU_PEND_VALUE (n / 100)

/-! ## Waiting operations (R311) -/

def precPlan : Nat := 0
def precCounter : Nat := 1
def precEvent : Nat := 2
def precMeter : Nat := 3
def precLayer : Nat := 4
def precRaw : Nat := 5
def precRepair : Nat := 6

/-- An operation waits behind those of its precedence and of better ones. -/
def opInsert (o : FlashOp) : List FlashOp → List FlashOp
  | [] => [o]
  | x :: xs => if o.prec < x.prec then o :: x :: xs else x :: opInsert o xs

def askFlash (prec : Nat) (w : FlashWork) (u : FlashUser) (s : State) : State :=
  s.setFlash { s.flash with waiting := opInsert ⟨prec, w, u⟩ s.flash.waiting }

def isVaultUser : FlashUser → Bool
  | .useLog _ | .keyCommit | .expiry _ => true
  | _ => false

/-- WAITENERGY is 1 while a refused operation waits; KEY shows those of the vault. -/
def syncWaits (s : State) : State :=
  let l := s.flash.refused.filter fun o => s.flash.waiting.contains o
  let s := s.setFlash { s.flash with refused := l }
  (s.putBit pNVM NVM_STAT_WAITENERGY (l != [])).putBit pKEY KEY_STAT_WAITENERGY (l.any fun o => isVaultUser o.user)

/-- The operations of some users leave the queue. -/
def dropOps (p : FlashUser → Bool) (s : State) : State :=
  syncWaits (s.setFlash { s.flash with waiting := s.flash.waiting.filter fun o => !p o.user })

/-- An operation of a user waits or runs. -/
def opFor (p : FlashUser → Bool) (s : State) : Bool :=
  (s.flash.waiting.any fun o => p o.user) || s.flash.running.any fun r => p r.op.user

end Sys2Proof.Machine
end

