-- ==== Sys2Proof/Machine/Nvm.lean ====
section
/-! DEFINITION. The emulation layer: sectors, records, the content of a page, compaction, the commands of NVM_CMD (R312 to
R320). -/

namespace Sys2Proof.Machine

open Reg

/-! ## Sectors and records -/

/-- GEN of a sector of the layer with a valid header (R313). -/
def layerGen (k : Nat) (s : State) : Option Nat :=
  if k < 256 && isProgrammed (512 * k) s && readable (sectorSize * k) 8 s
      && flBytes (sectorSize * k) 4 s == [0x45, 0x4C, 0x01, 0x00] then some (flWord (sectorSize * k + 4) s) else none

/-- A record as it stands in the flash. -/
structure LayerRec where
  page : Nat
  full : Bool
  off : Nat
  data : List Byte
  seq : Nat
  gen : Nat
  addr : Nat
  valid : Bool
  deriving DecidableEq, Repr

/-- Bytes of a record whose data have length `n`. -/
def recordSize (n : Nat) : Nat := 16 + 8 * ((n + 7) / 8)

/-- The record at a flash offset of a sector with generation `gen` (R314, R315). -/
def recordAt (gen a : Nat) (s : State) : LayerRec :=
  let len := (flByte (a + 3) s).toNat + 1
  let b1 := flByte (a + 1) s
  let data := flBytes (a + 8) len s
  let tr := a + recordSize len - 8
  { page := (flByte a s).toNat + 256 * (b1.getLsbD 0).toNat, full := b1.getLsbD 1, off := (flByte (a + 2) s).toNat,
    data := data, seq := ofLe (flBytes (a + 4) 3 s), gen := gen, addr := a,
    valid := flByte (a + 7) s == 0x52 && b1 &&& 0xF8 == 0 && readable a (recordSize len) s
      && word (flWord tr s) == crc32c (flBytes a 8 s ++ data) && flWord (tr + 4) s == 0xA5C33C5A }

/-- The records of a sector from offset `a`, stepping by LEN, up to the first erased granule, or to a header that is none,
which counts as an invalid record. -/
def recordsFrom (gen top : Nat) : Nat → Nat → State → List LayerRec
  | 0, _, _ => []
  | n + 1, a, s =>
    if a + 24 ≤ top && isProgrammed (granuleOf a) s then
      recordAt gen a s ::
        (if flByte (a + 7) s == 0x52 then recordsFrom gen top n (a + recordSize ((flByte (a + 3) s).toNat + 1)) s else [])
    else []

def sectorRecords (k : Nat) (s : State) : List LayerRec :=
  match layerGen k s with
  | some g => recordsFrom g (sectorSize * (k + 1)) 170 (sectorSize * k + 8) s
  | none => []

def allRecords (s : State) : List LayerRec := (List.range 256).flatMap fun k => sectorRecords k s
def LayerRec.sector (r : LayerRec) : Nat := r.addr / sectorSize

/-- SEQ `a` precedes SEQ `b` (R312). -/
def seqBefore (a b : Nat) : Bool := 1 ≤ (b + 2 ^ 24 - a) % 2 ^ 24 && (b + 2 ^ 24 - a) % 2 ^ 24 < 2 ^ 23

/-- The order in which records are applied (R316). -/
def LayerRec.before (a b : LayerRec) : Bool :=
  if a.seq = b.seq then (if a.gen = b.gen then b.addr < a.addr else a.gen < b.gen) else seqBefore a.seq b.seq

def recInsert (r : LayerRec) : List LayerRec → List LayerRec
  | [] => [r]
  | x :: xs => if r.before x then r :: x :: xs else x :: recInsert r xs

/-- The valid records of a page in the order they are applied. -/
def pageRecords (p : Nat) (rs : List LayerRec) : List LayerRec :=
  (rs.filter fun r => r.valid && r.page == p).foldl (fun l r => recInsert r l) []

/-- Data laid into a page from an offset, wrapping at 256. -/
def layInto (page : List Byte) (off : Nat) (data : List Byte) : List Byte :=
  (List.range 256).map fun i =>
    let j := (i + 256 - off % 256) % 256
    if j < data.length then data.getD j 0 else page.getD i 0xFF

def applyRecords (rs : List LayerRec) : List Byte :=
  rs.foldl (fun c r => layInto c r.off r.data) (List.replicate 256 0xFF)

/-- The content of a page (R316). -/
def pageContent (p : Nat) (s : State) : List Byte := applyRecords (pageRecords p (allRecords s))

/-! ## The head sector -/

def inUse (s : State) : List (Nat × Nat) := (List.range 256).filterMap fun k => (layerGen k s).map fun g => (k, g)
def highest (l : List (Nat × Nat)) : Option (Nat × Nat) :=
  l.foldl (fun a x => match a with | some y => if y.2 < x.2 then some x else a | none => some x) none
def lowest (l : List (Nat × Nat)) : Option (Nat × Nat) :=
  l.foldl (fun a x => match a with | some y => if x.2 < y.2 then some x else a | none => some x) none

/-- The sector records are appended to: the highest GEN, never the victim of a compaction. -/
def headSector (s : State) : Option (Nat × Nat) :=
  highest ((inUse s).filter fun x => match s.flash.compact with | some (v, _) => x.1 != v | none => true)

/-- The first erased granule after the last programmed granule of a sector, as an offset. -/
def appendPoint (k : Nat) (s : State) : Nat :=
  8 * ((usedGranules s).foldl (fun a g => if g / 512 = k then max a (g + 1) else a) (512 * k))

def erasedSectors (s : State) : List Nat := (List.range 256).filter fun k => sectorErased k s

/-- The record fits behind the append point of the head sector. -/
def fitsHead (size : Nat) (s : State) : Option Nat :=
  match headSector s with
  | some (k, _) => if appendPoint k s + size ≤ sectorSize * (k + 1) then some (appendPoint k s) else none
  | none => none

/-- The record can be appended now: a fresh sector must leave one in reserve unless compaction itself appends (R317). -/
def layerReady (len : Nat) (compact : Bool) (s : State) : Bool :=
  s.bit pNVM NVM_STAT_READY &&
  ((fitsHead (recordSize len) s).isSome || (if compact then 1 else 2) ≤ (erasedSectors s).length)

/-- The bytes of a record (R314). -/
def recordOf (page off : Nat) (data : List Byte) (seq : Nat) (compact : Bool) : List Byte :=
  let full := off = 0 ∧ data.length = 256
  let hdr := [byte page, byte (page / 256 % 2 + (if full then 2 else 0) + if compact then 4 else 0), byte off,
    byte (data.length - 1)] ++ leBytes 3 seq ++ [0x52]
  let pad := List.replicate ((8 - data.length % 8) % 8) (0xFF : Byte)
  hdr ++ data ++ pad ++ wordBytes (crc32c (hdr ++ data)) ++ wordBytes 0xA5C33C5A

/-- SEQ of the next write. -/
def nextSeq (s : State) : Nat := s.g pNVM NVM_NEXTSEQ_SEQ

/-- Where a record goes: its steps, and the state with SEQ advanced. A fresh sector is any erased one; which, the spec
leaves open. -/
def placeRecord (page off : Nat) (data : List Byte) (seq : Option Nat) (compact : Bool) (s : State) :
    List FlashStep × State :=
  let n := seq.getD (nextSeq s)
  let s := if seq.isNone then s.put pNVM NVM_NEXTSEQ_SEQ (n + 1) else s
  let bs := recordOf page off data n compact
  match fitsHead bs.length s with
  | some a => ([.program a bs], s)
  | none =>
    let free := erasedSectors s
    let k := free.getD ((Config.freeWord s.freed).toNat % free.length) 0
    let gen := match highest (inUse s) with | some x => x.2 + 1 | none => 1
    ([.program (sectorSize * k) ([0x45, 0x4C, 0x01, 0x00] ++ leBytes 4 gen), .program (sectorSize * k + 8) bs],
     { s with freed := s.freed + 1 })

/-- HEAD and ERASED. -/
def syncLayer (s : State) : State :=
  let s := s.put pNVM NVM_SECT_ERASED (erasedSectors s).length
  s.put pNVM NVM_SECT_HEAD (match headSector s with | some (k, _) => k | none => 0)

/-! ## Duplicates (R316) -/

/-- Pairs of valid records of one page with one SEQ: page, SEQ, and whether the GEN is shared too. -/
def duplicates (rs : List LayerRec) : List (Nat × Nat × Bool) :=
  rs.flatMap fun a => rs.filterMap fun b =>
    if a.valid && b.valid && a.addr < b.addr && a.page == b.page && a.seq == b.seq then some (a.page, a.seq, a.gen == b.gen)
    else none

/-! ## Compaction (R317) -/

/-- An event for each invalid record found (R315). -/
def tellInvalid (rs : List LayerRec) (s : State) : State :=
  forAll (rs.filter fun r => !r.valid) (fun _ s => otherEvent pNVM 0 [] s) s

/-- The granules of records. -/
def recordGranules (rs : List LayerRec) : List Nat := rs.flatMap fun r => granules r.addr (recordSize r.data.length)

/-- The records of a sector, found by their headers. -/
def headerGranules (rs : List LayerRec) : List Nat := rs.map fun r => granuleOf r.addr

/-- A compaction that nothing yet runs starts on the sector with the lowest GEN; with no sector in use there is nothing to do. -/
def compactStart (s : State) : State :=
  match s.flash.compact, lowest (inUse s) with
  | none, some (v, _) =>
    let rs := sectorRecords v s
    let s := tellInvalid rs (eccReport (512 * v :: headerGranules rs) s)
    let pages := (List.range 512).filter fun p => (sectorRecords v s).any fun r => r.valid && r.page == p
    (s.setFlash { s.flash with compact := some (v, pages) }).put pNVM NVM_STAT_COMPACTING 1
  | none, none => s.put pNVM NVM_CTRL_COMPACT 0
  | _, _ => s

/-- The next page of the victim that needs a copy gets one; after the last page the victim is erased. -/
def compactGo (v : Nat) : List Nat → State → State
  | [], s => askFlash precRepair (.erase v) .victim (s.setFlash { s.flash with compact := some (v, []) })
  | p :: ps, s =>
    let rs := pageRecords p (allRecords s)
    let s := eccReport (recordGranules ((allRecords s).filter fun r => r.page == p)) s
    match (rs.filter fun r => r.sector == v).getLast? with
    | none => compactGo v ps s
    | some newest =>
      let held := rs.any fun r => r.sector != v && r.full && (r.seq == newest.seq || seqBefore newest.seq r.seq)
      if held then compactGo v ps s
      else
        let content := applyRecords (rs.filter fun r => r.seq == newest.seq || seqBefore r.seq newest.seq)
        let old := 2 ^ 22 ≤ (nextSeq s + 2 ^ 24 - newest.seq) % 2 ^ 24
        askFlash precRepair (.record p 0 content (if old then none else some newest.seq) true) .copy
          (s.setFlash { s.flash with compact := some (v, ps) })

def compactNext (s : State) : State :=
  match s.flash.compact with
  | some (v, ps) => if opFor (fun u => u == .copy || u == .victim) s then s else compactGo v ps s
  | none => s

/-- Fewer than 16 sectors erased: compaction starts by itself. -/
def compactAuto (s : State) : State :=
  if s.bit pNVM NVM_STAT_READY && (erasedSectors s).length < 16 && s.flash.compact.isNone then compactNext (compactStart s)
  else s

/-- The victim has been erased. -/
def compactDone (s : State) : State :=
  let s := ((s.setFlash { s.flash with compact := none }).put pNVM NVM_STAT_COMPACTING 0).put pNVM NVM_CTRL_COMPACT 0
  let s := if duplicates (allRecords s) == [] then s.put pNVM NVM_STAT_DUPSEQ 0 else s
  compactAuto (syncLayer s)

/-! ## The index (R318) -/

/-- The next SEQ: one more than the newest record's; 0 for an empty layer. -/
def scanSeq (rs : List LayerRec) : Nat :=
  match rs.foldl (fun a r => match a with
      | some x => if seqBefore x r.seq then some r.seq else a
      | none => some r.seq) none with
  | some x => (x + 1) % 2 ^ 24
  | none => 0

/-- The index is complete: errors and duplicates found are reported, bad sectors will be erased. -/
def indexBuilt (s : State) : State :=
  let rs := allRecords s
  let s := tellInvalid rs (eccReport ((List.range 256).map (512 * ·) ++ headerGranules rs) s)
  let s := forAll (duplicates rs) (fun d s =>
    let s := raiseLog pNVM NVM_IRQ_RAW_DUPSEQ (leBytes 2 d.1 ++ leBytes 4 d.2.1) (s.put pNVM NVM_STAT_DUPSEQ 1)
    if d.2.2 then muslinFault pNVM 12 false 0 (raise pNVM NVM_IRQ_RAW_DUPGEN s) else s) s
  let bad := (List.range 256).filter fun k => (layerGen k s).isNone && !sectorErased k s
  let s := forAll bad (fun k s => askFlash precRepair (.erase k) .badSector s) s
  let s := (s.put pNVM NVM_NEXTSEQ_SEQ (scanSeq (rs.filter fun r => r.valid))).put pNVM NVM_STAT_READY 1
  let s := if s.bit pNVM NVM_CTRL_COMPACT then compactNext (compactStart s) else s
  compactAuto (syncLayer s)

/-! ## Commands (R319, R320) -/

def nvmBuf (n : Nat) (s : State) : List Byte := ((List.range 64).flatMap fun i => wordBytes (s.reg pNVM (0x100 + 4 * i))).take n
def setNvmBuf (bs : List Byte) (s : State) : State :=
  forAll (List.range 64) (fun i s => s.setReg pNVM (0x100 + 4 * i) (leWord bs (4 * i))) s

/-- The retain areas, which raw commands may not touch while RETEN is 1 (R378). -/
def inRetain (off : Nat) : Bool := 0x1A0000 ≤ off && off < 0x1C2000
/-- Places that raw commands may touch. -/
def rawTarget (off : Nat) (s : State) : Bool :=
  ((0x100000 ≤ off && off < 0x140000) || (0x1A0000 ≤ off && off < 0x1F8000))
    && !(s.bit pPMU PMU_CTRL_RETEN && inRetain off)

def nvmResult (st seq : Nat) (s : State) : State :=
  s.setFlash { s.flash with cmd := s.flash.cmd.map fun c => { c with result := some (st, seq) } }

/-- A running erase covers a record: a read of it waits until that erase ends (R310). -/
def recordsErased (rs : List LayerRec) (s : State) : Bool :=
  s.flash.running.any fun r => rs.any fun x => r.steps.contains (.erase x.sector)

/-- READ in progress: the content of its page, once no record of it is being erased. -/
def nvmRead (s : State) : State :=
  match s.flash.cmd with
  | some ⟨0, none, page⟩ =>
    let mine := (allRecords s).filter fun r => r.page == page
    if recordsErased mine s then s
    else
      let rs := pageRecords page mine
      let s := tellInvalid mine (eccReport (recordGranules mine) s)
      nvmResult 0 (match rs.getLast? with | some r => r.seq | none => 0) (setNvmBuf (applyRecords rs) s)
  | _ => s

/-- An accepted command begins: READ has its content unless an erase keeps it waiting, the others wait for the flash. -/
def nvmStart (s : State) : State :=
  let op := s.g pNVM NVM_CMD_OP
  let off := s.g pNVM NVM_CMD_OFFSET
  let len := s.g pNVM NVM_CMD_LEN
  let page := s.g pNVM NVM_CMD_PAGE
  let raw := s.g pNVM NVM_RAWADDR_ADDR
  let s := s.setFlash { s.flash with cmd := some ⟨op, none, page⟩ }
  let s := (s.put pNVM NVM_STAT_BUSY 1).incr pNVM NVM_CMDCNT_COUNT
  match op with
  | 0 => if len = 0 then nvmResult 1 0 s else nvmRead s
  | 1 =>
    if len = 0 ∨ 256 < len then nvmResult 1 0 s
    else if 496 ≤ page then nvmResult 2 0 s
    else askFlash precLayer (.record page off (nvmBuf len s) none false) .nvm s
  | 2 =>
    if len = 0 then nvmResult 1 0 s
    else if !rawTarget raw s || raw % 8 ≠ 0 || len % 8 ≠ 0 || 256 < raw % 256 + len then nvmResult 2 0 s
    else if !erasedRange raw len s then nvmResult 3 0 s
    else askFlash precRaw (.program raw (nvmBuf len s)) .nvm s
  | 3 =>
    if len = 0 then nvmResult 1 0 s
    else if !rawTarget raw s || raw % 8 ≠ 0 || len % 8 ≠ 0 || 256 < raw % 256 + len then nvmResult 2 0 s
    else askFlash precRaw (.erase (raw / sectorSize)) .nvm s
  | _ => nvmResult 1 0 s

/-- A write of NVM_CMD: GO starts the command, or is dropped while one is in progress. -/
def nvmCmdWrite (a : Access) (s : State) : State :=
  if !a.b NVM_CMD_GO then plainWrite pNVM 0x040 a s
  else if s.bit pNVM NVM_STAT_BUSY then raise pNVM NVM_IRQ_RAW_REFUSED s
  else nvmStart (plainWrite pNVM 0x040 a s)

def nvmWrite (off : Nat) (a : Access) (s : State) : State :=
  if off = 0x040 then nvmCmdWrite a s
  else if off = 0x008 then
    if a.b NVM_CTRL_COMPACT && !s.bit pNVM NVM_CTRL_COMPACT then
      let s := s.put pNVM NVM_CTRL_COMPACT 1
      if s.bit pNVM NVM_STAT_READY then compactNext (compactStart s) else s
    else s
  else plainWrite pNVM off a s

/-- NVM_COMMAND_DONE (R319): a command whose result is known completes. -/
def execNvmCommandDone (s : State) : Host.Outcome State Fault Refusal :=
  ok s (match s.flash.cmd with
  | some ⟨_, some (st, seq), _⟩ =>
    let s := (s.put pNVM NVM_RES_STATUS st).put pNVM NVM_RES_SEQ seq
    let s := (s.put pNVM NVM_STAT_BUSY 0).put pNVM NVM_CMD_GO 0
    raise pNVM (if st = 0 then NVM_IRQ_RAW_DONE else NVM_IRQ_RAW_REFUSED) (s.setFlash { s.flash with cmd := none })
  | _ => s)

/-- INDEX_BUILT (R318). -/
def execIndexBuilt (s : State) : Host.Outcome State Fault Refusal :=
  ok s (if s.bit pNVM NVM_STAT_READY then s else indexBuilt s)

/-- COMPACTION_START (R317): fewer than 16 sectors are erased. -/
def execCompactionStart (s : State) : Host.Outcome State Fault Refusal := ok s (compactAuto s)

end Sys2Proof.Machine
end

