-- ==== Sys2Proof/Machine/Counters.lean ====
section
/-! DEFINITION. The spread counters NC0 to NC7 (R321 to R326). -/

namespace Sys2Proof.Machine

open Reg

/-! ## What the flash says -/

/-- Sector `i` (0 or 1) of counter `n`, as a sector of the array. -/
def ctrSector (n i : Nat) : Nat := 0x140 + 2 * n + i
def ctrOff (n i : Nat) : Nat := sectorSize * ctrSector n i

/-- The base in a sector: GEN and VALUE, when it is valid. -/
def ctrBase (n i : Nat) (s : State) : Option (Nat × Nat) :=
  let a := ctrOff n i
  if readable a 16 s && (flByte (a + 2) s).toNat == n
      && word (flWord (a + 12) s) == crc32c (flBytes a 12 s) then some (flWord (a + 4) s, flWord (a + 8) s)
  else none

/-- Programmed increment granules of a sector. -/
def ctrIncs (n i : Nat) (s : State) : Nat :=
  ((usedGranules s).filter fun g => 512 * ctrSector n i + 2 ≤ g && g < 512 * (ctrSector n i + 1)).length

/-- The authoritative sector: the one valid base, or the higher GEN of two. -/
def ctrAuth (n : Nat) (s : State) : Option Nat :=
  match ctrBase n 0 s, ctrBase n 1 s with
  | some a, some b => if a.1 < b.1 then some 1 else some 0
  | some _, none => some 0
  | none, some _ => some 1
  | none, none => none

/-- A full sector beside one that holds a torn or invalid base, which counts as the increment it carried; it counts until
the repair is complete (R325). -/
def ctrTorn (n i : Nat) (s : State) : Bool :=
  ctrIncs n i s == 510 && (ctrBase n (1 - i) s).isNone
    && (!sectorErased (ctrSector n (1 - i)) s || s.flash.repairing.contains n)

/-- Value and GEN of a counter; the value saturates. -/
def ctrValue (n : Nat) (s : State) : Nat :=
  match ctrAuth n s with
  | some i =>
    let v := match ctrBase n i s with | some b => b.2 | none => 0
    min (v + ctrIncs n i s + (ctrTorn n i s).toNat) 0xFFFFFFFF
  | none => 0
def ctrGen (n : Nat) (s : State) : Nat :=
  match ctrAuth n s with
  | some i => match ctrBase n i s with | some b => b.1 | none => 0
  | none => 0

/-- NCT_VAL, NCT_GEN and SAT of a counter; CHR_PWRCYC follows NC1 (R301). -/
def syncCounter (n : Nat) (s : State) : State :=
  let v := ctrValue n s
  let s := (s.put pNCT (NCT_VAL_VALUE.at 4 n) v).put pNCT (NCT_GEN_GEN.at 4 n) (ctrGen n s)
  let s := s.putBit pNCT ⟨0x00C, n, 1⟩ (v == 0xFFFFFFFF)
  if n = 1 then s.setReg pCHR 0x060 (word v) else s

def syncCounters (s : State) : State := forAll (List.range 8) syncCounter s

/-- PEND of a counter: an erase or a repair is owed. -/
def syncPend (n : Nat) (s : State) : State :=
  s.putBit pNCT ⟨0x00C, 8 + n, 1⟩ (s.flash.repairing.contains n
    || opFor (fun u => match u with | .oldSector m _ => m == n | _ => false) s)

/-! ## Operations -/

/-- The base record with a value and a generation (R321). -/
def ctrBaseBytes (n gen value : Nat) : List Byte :=
  let b := [(0x4E : Byte), 0x43, byte n, 0] ++ leBytes 4 gen ++ leBytes 4 value
  b ++ wordBytes (crc32c b)

/-- The sector that a new base goes into. -/
def ctrOther (n : Nat) (s : State) : Nat := match ctrAuth n s with | some i => 1 - i | none => 0

/-- The next erased increment granule of the authoritative sector, as a flash offset. -/
def ctrNextInc (n : Nat) (s : State) : Option Nat :=
  match ctrAuth n s with
  | some i => ((List.range 510).find? fun k => !isProgrammed (512 * ctrSector n i + 2 + k) s).map fun k =>
      ctrOff n i + 16 + 8 * k
  | none => none

/-- An increment can be made now; it waits behind a repair of its counter. -/
def countReady (n : Nat) (s : State) : Bool :=
  !s.flash.repairing.contains n && ((ctrNextInc n s).isSome || sectorErased (ctrSector n (ctrOther n s)) s)

/-- A base can be written now; `repair` tells the repair's own base. Without a valid base both sectors are erased first (R325). -/
def baseReady (n : Nat) (repair : Bool) (s : State) : Bool :=
  (repair || !s.flash.repairing.contains n) && sectorErased (ctrSector n (ctrOther n s)) s
    && ((ctrAuth n s).isSome || sectorErased (ctrSector n (1 - ctrOther n s)) s)

def countSteps (n : Nat) (s : State) : List FlashStep :=
  match ctrNextInc n s with
  | some a => [.program a (List.replicate 8 0)]
  | none => [.program (ctrOff n (ctrOther n s)) (ctrBaseBytes n (ctrGen n s + 1) (ctrValue n s + 1))]

def baseSteps (n value : Nat) (s : State) : List FlashStep :=
  [.program (ctrOff n (ctrOther n s)) (ctrBaseBytes n (ctrGen n s + 1) value)]

/-- NCT_CMD completes. -/
def nctDone (s : State) : State :=
  raise pNCT NCT_IRQ_RAW_DONE ((s.put pNCT NCT_STAT_BUSY 0).put pNCT NCT_CMD_GO 0)

/-- A base or an increment has been written: with two valid bases the old sector is erased next; the command waits for it. -/
def counterWritten (n : Nat) (cmd : Bool) (s : State) : State :=
  let s := syncCounter n s
  if (ctrBase n 0 s).isSome && (ctrBase n 1 s).isSome && !s.flash.repairing.contains n then
    syncPend n (askFlash precCounter (.erase (ctrSector n (ctrOther n s))) (.oldSector n cmd) s)
  else if cmd then nctDone s
  else s

/-- An increment of a counter asked for; a saturated counter ignores it. -/
def askCount (n : Nat) (user : FlashUser) (s : State) : State := askFlash precCounter (.count n) user s

/-- The repairs of R325 for one counter, as the scan finds it. -/
def repairCounter (n : Nat) (s : State) : State :=
  let owe := fun (s : State) => raise pNCT NCT_IRQ_RAW_TORN (s.setFlash { s.flash with repairing := s.flash.repairing ++ [n] })
  let erase := fun (i : Nat) (last : Bool) (s : State) =>
    if sectorErased (ctrSector n i) s then s else askFlash precRepair (.erase (ctrSector n i)) (.repair n last) s
  match ctrAuth n s with
  | some i =>
    if ctrTorn n i s then
      let v := ctrValue n s
      erase i true (askFlash precCounter (.base n v) (.repair n false) (erase (1 - i) false (owe s)))
    else if sectorErased (ctrSector n (1 - i)) s then s
    else erase (1 - i) true (owe s)
  | none =>
    let s := muslinFault pNCT 12 false 0 (owe s)
    askFlash precCounter (.base n 0) (.repair n true) (erase 1 false (erase 0 false s))

/-- The settling of every counter before the link reset is released (R325). -/
def settleCounters (s : State) : State :=
  let s := forAll (List.range 8) repairCounter (eccIn 0x140000 0x10000 (syncCounters s))
  forAll (List.range 8) syncPend (syncCounters s)

/-- A step of a repair has been made. -/
def repairDone (n : Nat) (last : Bool) (s : State) : State :=
  let s := if last then s.setFlash { s.flash with repairing := s.flash.repairing.filter (· != n) } else s
  syncPend n (syncCounter n s)

/-! ## Commands (R322 to R324) -/

/-- Counters that firmware may increment, and those it may advance. -/
def mayIncrement (n : Nat) : Bool := 5 ≤ n
def mayAdvance (n : Nat) : Bool := n == 2 || 5 ≤ n

def nctRefuse (s : State) : State := raise pNCT NCT_IRQ_RAW_REFUSED (s.put pNCT NCT_CMD_GO 0)

/-- An accepted command of NCT_CMD. -/
def nctStart (s : State) : State :=
  let n := s.g pNCT NCT_CMD_COUNTER
  let arg := s.g pNCT NCT_ARG_VALUE
  let s := s.incr pNCT NCT_CMDCNT_COUNT
  let busy := s.put pNCT NCT_STAT_BUSY 1
  if s.g pNCT NCT_CMD_OP = 0 then
    if !mayIncrement n then nctRefuse s
    else if ctrValue n s = 0xFFFFFFFF then nctDone s
    else askCount n (.counter true) busy
  else if !mayAdvance n || arg < ctrValue n s then nctRefuse s
  else if arg = ctrValue n s then nctDone s
  else askFlash precCounter (.base n arg) (.counter true) busy

def nctWrite (off : Nat) (a : Access) (s : State) : State :=
  if off = 0x040 then
    if !a.b NCT_CMD_GO then plainWrite pNCT off a s
    else if s.bit pNCT NCT_STAT_BUSY then s
    else nctStart (plainWrite pNCT off a s)
  else plainWrite pNCT off a s

end Sys2Proof.Machine
end

