-- ==== Sys2Proof/Machine/MeterBook.lean ====
section
/-! DEFINITION. Energy metering: feeders, netting of cycles, billing registers, demand, windows (R242 to R263). -/

namespace Sys2Proof.Machine

open Reg

/-! ## Feeders -/

def noSums : PhaseSums := ⟨0, 0, 0, 0⟩

def windowFrom (crossing : Option Nat) : Window :=
  { cycles := 0, samples := 0, p1 := noSums, p2 := noSums, p3 := noSums, forced := false, calchg := false, first := crossing,
    last := crossing.getD 0, passed := 0, whole := 0, lag2 := 0, lag3 := 0, lags2 := 0, lags3 := 0, base2 := 0, base3 := 0 }

def noCross : PhaseCross := ⟨false, none, 0⟩

def feederDefault (_ : Nat) : Feeder :=
  { acc := [0, 0, 0, 0, 0, 0], bill := [0, 0, 0, 0, 0, 0], win := windowFrom none, ref := 1, vloss := false,
    freqerr := false, running := false, c1 := noSums, c2 := noSums, c3 := noSums, count := 0, due := none, turn := 0,
    x1 := noCross, x2 := noCross, x3 := noCross, impE := 0, expE := 0, prevI := 0, prevE := 0, nextI := 0, nextE := 0 }

def State.feeder (s : State) (k : FeederNo) : Feeder := tget feederDefault s.meter.feeders k.val
def State.setMeter (s : State) (m : Meter) : State := { s with meter := m }
def State.setFeeder (s : State) (k : FeederNo) (x : Feeder) : State :=
  s.setMeter { s.meter with feeders := tset feederDefault s.meter.feeders k.val x }

def allFeeders : List FeederNo := List.finRange 8
def vf (f : Fld) (k : FeederNo) : Fld := f.at 4 k.val
/-- A word of feeder `k`'s MTR block. -/
def rf (f : Fld) (k : FeederNo) : Fld := f.at 0x80 k.val

def feederOn (k : FeederNo) (s : State) : Bool := s.bit pMTV (vf MTV_FCFG_EN k)
def feederDom (k : FeederNo) (s : State) : Dom := BitVec.ofNat 4 (s.g pMTV (vf MTV_FCFG_DOM k))
def phaseOn (k : FeederNo) (p : Nat) (s : State) : Bool := (s.g pMTV (vf MTV_FCFG_PHEN k)).testBit (p - 1)
def refPhase (k : FeederNo) (s : State) : Nat := max 1 (s.g pMTV (vf MTV_FCFG_REFPH k))
/-- Channel of the voltage and of the current of phase `p` (R242). -/
def vChan (k : FeederNo) (p : Nat) (s : State) : Nat := (if s.bit pMTV (vf MTV_FCFG_VSET k) then 27 else 24) + (p - 1)
def iChan (k : FeederNo) (p : Nat) : Nat := 3 * k.val + (p - 1)
/-- Channels that a feeder uses. -/
def feederChans (k : FeederNo) (s : State) : List Nat :=
  ([1, 2, 3].filter fun p => phaseOn k p s).flatMap fun p => [vChan k p s, iChan k p]

/-- The feeder exists: the S variant has F0 to F3 (R3). -/
def feederPresent (k : FeederNo) (s : State) : Bool := !s.fused.variantS || k.val < 4

/-- Domain of a channel's events: the one feeder that uses it, else D0 (R270). -/
def chanDom (n : Nat) (s : State) : Dom :=
  match allFeeders.filter fun k => feederOn k s && (feederChans k s).contains n with
  | [k] => feederDom k s
  | _ => 0

/-- A positive float32 as an integer, 2^149 times its value. -/
def posFloat (w : Word) : Nat :=
  if fIsNaN w || fSign w || fIsZero w then 0
  else if fIsInf w then Config.notNumber w
  else (fInt w).toNat

/-- SCALE of a channel: zero, negative or NaN gives zero signal. -/
def scaleOf (n : Nat) (s : State) : Nat := posFloat (s.reg pMTC (0x048 + 16 * n))
/-- UN and IN of a feeder, times 2^149; the spec states nothing for a NaN or an infinity. -/
def nominal (off : Nat) (k : FeederNo) (s : State) : Int :=
  let w := s.reg pMTC (off + 16 * k.val)
  if fIsNaN w || fIsInf w then Int.ofNat (Config.notNumber w) else fInt w
def unOf (k : FeederNo) (s : State) : Int := nominal 0x240 k s
def inOf (k : FeederNo) (s : State) : Int := nominal 0x244 k s

/-! ## Sums -/

/-- A quotient of the fixed-point arithmetic; one between two numbers goes to either, as R245 leaves open. -/
def openQuot (n : Int) (d : Nat) : Int := n / d + if n % d ≠ 0 && Config.roundUp n d then 1 else 0

/-- A product of two samples, in 2^-28 codes squared, as the 64-bit sums take it: whole numbers of codes squared stand, what
is finer goes to the last bit that the sums keep (R245). -/
def sumTerm (n : Int) : Int :=
  if n % 2 ^ 28 = 0 then n
  else openQuot n (2 ^ (28 - min 28 Config.sumBits)) * 2 ^ (28 - min 28 Config.sumBits)

def PhaseSums.add (a b : PhaseSums) : PhaseSums := ⟨a.vv + b.vv, a.ii + b.ii, a.vi + b.vi, a.qi + b.qi⟩

def Window.phase (w : Window) : Nat → PhaseSums
  | 1 => w.p1
  | 2 => w.p2
  | _ => w.p3

/-- The sums of the cycle in progress. -/
def Feeder.phase (x : Feeder) : Nat → PhaseSums
  | 1 => x.c1
  | 2 => x.c2
  | _ => x.c3

/-- Quotient rounded to nearest, ties to even. -/
def divEven (n d : Nat) : Nat :=
  let q := n / d
  let r := n % d
  if 2 * r > d ∨ (2 * r = d ∧ q % 2 = 1) then q + 1 else q

def divEvenInt (n : Int) (d : Nat) : Int := if n < 0 then -(Int.ofNat (divEven n.natAbs d)) else Int.ofNat (divEven n.natAbs d)

/-- 2^298: the weight of a product of two floats. -/
def unit2 : Nat := 2 ^ 298
/-- 2^28: the weight of a product of two samples, which are held in 2^-14 codes. -/
def codes2 : Nat := 2 ^ 28
/-- The weight of a sum of products with its two scales. -/
def sumUnit : Nat := unit2 * codes2

/-- An energy over a cycle in fWh from a sum of products with its scales: 125 µs / 3.6e−12 is 312,500,000 / 9 (R254). -/
def energyOf (sum : Int) : Int := divEvenInt (sum * 312500000) (9 * sumUnit)

/-- The enabled phases. -/
def phases (k : FeederNo) (s : State) : List Nat := [1, 2, 3].filter fun p => phaseOn k p s

/-- Σ over the enabled phases of a product sum with its two scales. -/
def scaledSum (k : FeederNo) (f : Nat → Int) (s : State) : Int :=
  (phases k s).foldl (fun a p => a + f p * (scaleOf (vChan k p s) s * scaleOf (iChan k p) s : Nat)) 0

/-- |e| lies below the anti-creep threshold of a cycle of `n` samples (R254, R257). -/
def belowCreep (k : FeederNo) (n : Nat) (e : Int) (s : State) : Bool :=
  (e.natAbs : Int) * (9 * 8000 * unit2 : Nat)
    < (s.g pMTC (MTC_ACREEP_ACREEP.at 16 k.val) * (phases k s).length * n * 2500000 : Nat) * (unOf k s * inOf k s)

/-! ## Pulses (R262, R263) -/

def pulseIdle (_ : Nat) : Pulse := ⟨0, false, 0⟩
def State.pulse (s : State) (n : Fin 8) : Pulse := tget pulseIdle s.meter.pulses n.val
def State.setPulse (s : State) (n : Fin 8) (x : Pulse) : State :=
  s.setMeter { s.meter with pulses := tset pulseIdle s.meter.pulses n.val x }
def lf (f : Fld) (n : Fin 8) : Fld := f.at 16 n.val
def allPulses : List (Fin 8) := List.finRange 8

/-- The accumulator an output is bound to: 6 and 7 act as 0. -/
def pulseAcc (n : Fin 8) (s : State) : Nat := let a := s.g pPLS (lf PLS_CFG_ACC n); if 6 ≤ a then 0 else a
def pulseBound (n : Fin 8) (k : FeederNo) (s : State) : Bool := s.g pPLS (lf PLS_CFG_FEEDER n) == k.val

/-- A pulse that finds 255 queued is lost; the event is the feeder's (R263, R270). -/
def losePulse (n : Fin 8) (s : State) : State :=
  let s := (s.bump pPLS (lf PLS_QUEUE_LOST n)).put pPLS ⟨0x00C, n.val, 1⟩ 1
  raiseWith pPLS ⟨0x010, n.val, 1⟩ true (BitVec.ofNat 4 (s.g pMTV (MTV_FCFG_DOM.at 4 (s.g pPLS (lf PLS_CFG_FEEDER n))))) [] s

/-- Units booked to an accumulator drive the outputs bound to it. -/
def addPulses (k : FeederNo) (a n : Nat) (s : State) : State :=
  forAll allPulses (fun o s =>
    if s.bit pPLS (lf PLS_CFG_EN o) && pulseBound o k s && pulseAcc o s == a then
      let unit := max 1 (s.g pPLS (lf PLS_K_K o))
      let c := (s.pulse o).count + n
      let level := s.g pPLS (lf PLS_QUEUE_LEVEL o)
      let room := 255 - level
      let s := s.setPulse o { s.pulse o with count := c % unit }
      let s := s.put pPLS (lf PLS_QUEUE_LEVEL o) (level + min room (c / unit))
      forAll (List.range (c / unit - room)) (fun _ s => losePulse o s) s
    else s) s

/-- The queue of an output emptied and its count cleared. -/
def clearPulse (n : Fin 8) (s : State) : State :=
  (s.setPulse n { s.pulse n with count := 0 }).put pPLS (lf PLS_QUEUE_LEVEL n) 0

/-! ## Billing registers (R255) -/

/-- LSB of a feeder in fWh. -/
def lsbOf (k : FeederNo) (s : State) : Nat := 10 ^ (9 + s.g pMTE (MTE_FCFG_LSB.at 4 k.val))

def accOff (k : FeederNo) (a : Nat) : Nat := 0x100 + 0x40 * k.val + 8 * a

/-- ACCLO shows B[31:0]. -/
def syncAcc (k : FeederNo) (a : Nat) (s : State) : State :=
  s.setReg pMTE (accOff k a) (word ((s.feeder k).bill.getD a 0))

/-- Energy booked to an accumulator, and its residue carried. -/
def book (k : FeederNo) (a e : Nat) (s : State) : State :=
  let x := s.feeder k
  let acc := x.acc.getD a 0 + e
  let n := acc / lsbOf k s
  let old := x.bill.getD a 0
  let s := s.setFeeder k { x with acc := x.acc.set a (acc % lsbOf k s), bill := x.bill.set a ((old + n) % 2 ^ 64) }
  let s := syncAcc k a s
  let s := if (old + n) / 2 ^ 48 = old / 2 ^ 48 then s else raiseWith pMTE MTE_IRQ_RAW_WRAP false (feederDom k s) [] s
  addPulses k a n s

/-! ## Demand (R260, R261) -/

/-- A demand in W from an energy in fWh over a length in ticks of 1/32,768 s: 3.6e−12 × 32,768 is 144 / 5^13. -/
def demandOf (fwh ticks : Nat) : Word := if ticks = 0 then 0 else fOfRat (Int.ofNat (fwh * 144)) (ticks * 1220703125)

/-- Seconds between boundaries: 60 × DINT. -/
def demandGrid (s : State) : Nat := 60 * min 60 (max 1 (s.g pMTE MTE_DCFG_DINT))

/-- DLAST and, where the interval counts, DMAX with its time, of the interval that `sec` opened. -/
def writeDemand (k : FeederNo) (imp exp ticks sec : Nat) (counts : Bool) (s : State) : State :=
  let d := fun (f : Fld) => f.at 0x20 k.val
  let i := demandOf imp ticks
  let e := demandOf exp ticks
  let s := (s.put pMTE (d MTE_DLAST_I_VALUE) i.toNat).put pMTE (d MTE_DLAST_E_VALUE) e.toNat
  let s := if counts && fKey (s.reg pMTE (d MTE_DMAX_I_VALUE).off) < fKey i then
      (s.put pMTE (d MTE_DMAX_I_VALUE) i.toNat).put pMTE (d MTE_DMAXT_I_VALUE) sec else s
  if counts && fKey (s.reg pMTE (d MTE_DMAX_E_VALUE).off) < fKey e then
    (s.put pMTE (d MTE_DMAX_E_VALUE) e.toNat).put pMTE (d MTE_DMAXT_E_VALUE) sec else s

/-- The demand interval closes after `ticks` of 1/32,768 s; the next opens with SEC `sec` at replica count `t`. -/
def closeInterval (ticks sec t : Nat) (nextPartial : Bool) (s : State) : State :=
  let m := s.meter
  let counts := !m.partialNow || s.bit pMTE MTE_DCFG_PARTMAX
  let s := forAll allFeeders (fun k s =>
    let x := s.feeder k
    let s := writeDemand k x.impE x.expE ticks m.openSec counts s
    let s := (s.incr pMTE (MTE_DSTAT_COUNT.at 0x20 k.val)).putBit pMTE (MTE_DSTAT_PARTIAL.at 0x20 k.val) m.partialNow
    s.setFeeder k { x with impE := x.nextI, expE := x.nextE, prevI := x.impE, prevE := x.expE, nextI := 0, nextE := 0 }) s
  let s := s.setMeter { s.meter with
    openSec := sec, openAt := t, partialNow := nextPartial, closed := some (ticks, m.openSec, counts) }
  raise pMTE MTE_IRQ_RAW_DEMAND s

/-- The boundary that is due next, its SEC and its replica count: the edge captured last, when that is a boundary later than
the opening of the interval, or, while Charon's clock is lost, the next one, which the replica times from that edge (R261). -/
def dueBoundary (s : State) : Option (Nat × Nat) :=
  let grid := demandGrid s
  let sec := s.chr.corrSec
  let since := (sec + 2 ^ 33 - s.meter.openSec) % 2 ^ 33
  if sec % grid = 0 ∧ 0 < since ∧ since < 2 ^ 32 then some (sec, s.chr.corrMtb)
  else if s.bit pCHR CHR_STAT_FALLBACK then
    let next := (max sec s.meter.openSec / grid + 1) * grid
    some (next, s.chr.corrMtb + 100000000 * (next - sec))
  else none

/-- The interval in progress closes at the boundary of second `sec` at replica count `t`. -/
def closeAt (sec t : Nat) (s : State) : State :=
  closeInterval ((sec + 2 ^ 33 - s.meter.openSec) % 2 ^ 33 * 32768) sec t
    (s.bit pCHR CHR_STAT_FALLBACK || !s.bit pMTV MTV_STAT_RUN) s

/-- Boundaries close intervals: one is in progress, and metering runs or has stopped for its crystal only (R396). -/
def demandRuns (s : State) : Bool :=
  s.meter.inInterval && (s.bit pMTV MTV_STAT_RUN || (s.meter.xtalLost && s.bit pMTV MTV_CTRL_EN && muslinRuns s))

/-- DEMAND_BOUNDARY (R260): the boundary due next, at its own instant. -/
def execDemandBoundary (s : State) : Host.Outcome State Fault Refusal :=
  ok s (if !demandRuns s then s
  else match dueBoundary s with
  | some (sec, t) => closeAt sec t (s.untilReplica t)
  | none => s)

/-- A write of Charon's time cuts the interval at the edge that would have given count `old`: both parts are PARTIAL
(R261). -/
def cutDemand (old sec : Nat) (s : State) : State :=
  if s.meter.inInterval && muslinRuns s then
    closeInterval ((old + 2 ^ 48 - s.meter.openSec * 32768) % 2 ^ 48) sec s.replica true
      (s.setMeter { s.meter with partialNow := true })
  else s

/-- Sampling starts again: the interval that sampling left ends if it is over by now, and the one of this moment is
PARTIAL; intervals that lie wholly between are not recorded (R261). -/
def resumeDemand (s : State) : State :=
  let grid := demandGrid s
  let open_ := s.chr.count / 32768 / grid * grid
  let left := s.meter.openSec / grid * grid
  let s := s.setMeter { s.meter with partialNow := true }
  if !s.meter.inInterval then s.setMeter { s.meter with inInterval := true, openSec := open_, openAt := s.replica, closed := none }
  else if left = open_ then s
  else closeInterval ((left + grid - s.meter.openSec) * 32768) open_ s.replica true s

/-- The active energy of a cycle that ends at `stamp` goes to the interval which contains that stamp, whatever the order in
which cycle and boundary are processed (R8, R260): to the one a boundary due at or before the stamp opens, to the one closed
last when the stamp lies before the opening of the present one, else to the present one. -/
def bookDemand (k : FeederNo) (stamp imp exp : Nat) (s : State) : State :=
  let x := s.feeder k
  let next := match dueBoundary s with
    | some (_, t) => demandRuns s && decide (t ≤ stamp)
    | none => false
  if next then s.setFeeder k { x with nextI := x.nextI + imp, nextE := x.nextE + exp }
  else match s.meter.closed with
  | some (ticks, sec, counts) =>
    if stamp < s.meter.openAt then
      writeDemand k (x.prevI + imp) (x.prevE + exp) ticks sec counts
        (s.setFeeder k { x with prevI := x.prevI + imp, prevE := x.prevE + exp })
    else s.setFeeder k { x with impE := x.impE + imp, expE := x.expE + exp }
  | none => s.setFeeder k { x with impE := x.impE + imp, expE := x.expE + exp }

/-! ## Netting (R254) -/

/-- The energy of a cycle booked (R254): active to import or export by its sign, reactive to its quadrant. -/
def bookCycle (k : FeederNo) (n stamp : Nat) (p q : Int) (s : State) : State :=
  let act := if belowCreep k n p s then 0 else p.natAbs
  let rea := if belowCreep k n q s then 0 else q.natAbs
  let quadrant := if 0 ≤ p then (if 0 ≤ q then 2 else 5) else if 0 ≤ q then 3 else 4
  let s := if 0 ≤ p then bookDemand k stamp act 0 s else bookDemand k stamp 0 act s
  book k quadrant rea (book k (if 0 ≤ p then 0 else 1) act s)

/-! ## Windows (R249 to R253) -/

/-- The RMS of a voltage over the window lies below 10 % of U_n (R249). -/
def lowVoltage (k : FeederNo) (w : Window) (p : Nat) (s : State) : Bool :=
  0 < unOf k s && ((w.phase p).vv * scaleOf (vChan k p s) s ^ 2 * 100 < w.samples * codes2 * (unOf k s).natAbs ^ 2 : Bool)

/-- The reference for the next window. -/
def nextRef (k : FeederNo) (w : Window) (s : State) : Nat :=
  let r := refPhase k s
  if !lowVoltage k w r s then r
  else
    let others := [r % 3 + 1, (r + 1) % 3 + 1]
    (others.find? fun p => phaseOn k p s && !lowVoltage k w p s).getD 0

/-- FREQ in mHz; none when no whole cycle was seen. -/
def windowFreq (w : Window) : Option Nat :=
  match w.first with
  | some f => if w.whole = 0 ∨ w.last ≤ f then none
      else some ((2 * w.whole * 8192000000 + (w.last - f)) / (2 * (w.last - f)))
  | none => none

/-- ANGV of a phase in degrees from `n` lags that sum to `lag`; without one, or without a whole cycle of the reference, the
spec states no value. -/
def windowAngle (w : Window) (lag : Int) (n : Nat) (s : State) : Word :=
  match w.first with
  | some f =>
    if w.whole = 0 ∨ w.last ≤ f ∨ n = 0 then Config.freeWord s.freed
    else
      let den := n * (w.last - f)
      fOfRat ((lag * w.whole * 360) % (360 * den : Nat)) den
  | none => Config.freeWord s.freed

/-- Results of one phase (R251): VRMS, IRMS, P, Q, S, PF, ANGVI, ANGV. The angle of a phase without any power has no value. -/
def phaseResults (k : FeederNo) (w : Window) (p : Nat) (s : State) : List Word :=
  if !phaseOn k p s then [0, 0, 0, 0, 0, 0, 0, 0]
  else
    let x := w.phase p
    let sv := scaleOf (vChan k p s) s
    let si := scaleOf (iChan k p) s
    let d := w.samples * sumUnit
    let vv := x.vv * sv ^ 2
    let ii := x.ii * si ^ 2
    let pp : Int := x.vi * (sv * si : Nat)
    let qq : Int := x.qi * (sv * si : Nat)
    let small := 0 < inOf k s && (ii * 100000000 < w.samples * codes2 * (inOf k s).natAbs ^ 2 : Bool)
    let pf := if small ∨ vv * ii = 0 then 0
      else
        let r := (sqrtRat (pp.natAbs ^ 2) (vv * ii)).1
        if pp < 0 then fNeg r else r
    let angle := if small then 0 else if pp = 0 ∧ qq = 0 then Config.freeWord (s.freed + 1) else degrees qq pp
    [(sqrtRat vv d).1, (sqrtRat ii d).1, fOfRat pp d, fOfRat qq d, (sqrtRat (vv * ii) (d * d)).1, pf, angle,
     if p = 1 then 0 else if p = 2 then windowAngle w w.lag2 w.lags2 s else windowAngle w w.lag3 w.lags3 s]

/-- The feeder record of R253. -/
def feederRecord (k : FeederNo) (s : State) : List Byte :=
  let x := s.feeder k
  ((List.range 32).flatMap fun i => wordBytes (s.reg pMTR (0x100 + 0x80 * k.val + 4 * i)))
    ++ ((List.range 6).flatMap fun a => leBytes 8 (x.bill.getD a 0))
    ++ wordBytes (s.reg pMTE (0x300 + 0x20 * k.val)) ++ wordBytes (s.reg pMTE (0x304 + 0x20 * k.val))
    ++ [byte (s.g pMTE (MTE_FCFG_LSB.at 4 k.val))] ++ List.replicate 7 0

/-- The end of a window: results, flags, the next reference, the record; its events are the feeder's (R270). -/
def windowEnd (k : FeederNo) (stamp : Nat) (crossing : Option Nat) (s : State) : State :=
  let x := s.feeder k
  let w := x.win
  let b := 0x100 + 0x80 * k.val
  let freq := windowFreq w
  let inRange := match freq with | some f => 45000 ≤ f && f ≤ 66000 | none => false
  let vloss := lowVoltage k w (refPhase k s) s
  let chFault := (feederChans k s).any fun n => s.bit pMTV (MTV_CH_STUCK.at 4 n)
  let clip := (feederChans k s).any fun n => s.bit pMTV (MTV_CH_CLIP.at 4 n)
  let rs := [1, 2, 3].map fun p => phaseResults k w p s
  let of := fun (p i : Nat) => (rs.getD (p - 1) []).getD i 0
  let d := w.samples * sumUnit
  let sumS := (fAdd (fAdd (of 1 4) (of 2 4)).1 (of 3 4)).1
  let pTot := fOfRat (scaledSum k (fun p => (w.phase p).vi) s) d
  let qTot := fOfRat (scaledSum k (fun p => (w.phase p).qi) s) d
  let pf := if fIsZero sumS then 0 else (fDiv pTot sumS).1
  let stat := w.cycles * 2 ^ 16 + x.ref * 2 ^ 8 + 2 ^ 7 + w.forced.toNat * 2 ^ 6 + vloss.toNat * 2 ^ 5
    + (!inRange).toNat * 2 ^ 4 + chFault.toNat * 2 ^ 3 + clip.toNat * 2 ^ 2 + w.calchg.toNat * 2
  let s := { s with freed := s.freed + 2 }
  let s := (s.setReg pMTR b (word stat)).incr pMTR (rf MTR_WINCNT_COUNT k)
  let s := s.setReg pMTR (b + 8) (word (if inRange then freq.getD 0 else 0))
  let s := ((s.setReg pMTR (b + 0x0C) pTot).setReg pMTR (b + 0x10) qTot).setReg pMTR (b + 0x14) sumS
  let s := (s.setReg pMTR (b + 0x18) pf).setReg pMTR (b + 0x1C) (word stamp)
  let s := forAll [1, 2, 3] (fun p s => forAll (List.range 8) (fun i s => s.setReg pMTR (b + 0x20 * p + 4 * i) (of p i)) s) s
  let s := s.setFeeder k { s.feeder k with
    win := windowFrom (if nextRef k w s = x.ref then crossing else none), ref := nextRef k w s, vloss := vloss, freqerr := !inRange }
  let s := if vloss && !x.vloss then raiseWith pMTV MTV_IRQ_RAW_VLOSS true (feederDom k s) [byte k.val] s else s
  let s := if !inRange && !x.freqerr then raiseWith pMTV MTV_IRQ_RAW_FREQERR true (feederDom k s) [byte k.val] s else s
  let s := raiseWith pMTR MTR_IRQ_RAW_WINDOW false (feederDom k s) [] s
  if s.bit pMTR MTR_CTRL_IMGEN then
    let s := if s.linkUp .muslin then s else raiseWith pMTR MTR_IRQ_RAW_IMGGAP false (feederDom k s) [] s
    deliver 3 (3 + k.val) (word k.val) (feederRecord k s) s
  else s

/-! ## Cycles (R248, R249, R254) -/

/-- The window with one more cycle of `x`. -/
def Window.addCycle (w : Window) (x : Feeder) (c : Closing) : Window :=
  let w := { w with
    cycles := w.cycles + 1, samples := w.samples + x.count, p1 := w.p1.add x.c1, p2 := w.p2.add x.c2, p3 := w.p3.add x.c3,
    forced := w.forced || decide (c = Closing.forced), passed := if w.first.isSome then w.passed + 1 else 0 }
  match c, w.first with
  | .crossing at_, none => { w with first := some at_, last := at_ }
  | .crossing at_, some _ => { w with last := at_, whole := w.passed }
  | _, _ => w

/-- Cycles of a window. -/
def windowCycles (s : State) : Nat := if s.bit pMTV MTV_CTRL_FNOM then 12 else 10

/-- The cycle in progress of a feeder closes at the sample stamped `stamp`: booked, added to its window, and the window ended
when it is full. That sample opens the next cycle. -/
def closeCycle (k : FeederNo) (stamp : Nat) (c : Closing) (s : State) : State :=
  let x := s.feeder k
  let s := bookCycle k x.count stamp (energyOf (scaledSum k (fun p => (x.phase p).vi) s))
    (energyOf (scaledSum k (fun p => (x.phase p).qi) s)) s
  let f := s.feeder k
  let s := s.setFeeder k { f with
    win := f.win.addCycle x c, running := !s.meter.stopping, c1 := noSums, c2 := noSums, c3 := noSums, count := 0, due := none,
    turn := if c = Closing.timed then f.turn + 1 else 0 }
  let crossing := match c with
    | .crossing at_ => some at_
    | _ => none
  if windowCycles s ≤ (s.feeder k).win.cycles then windowEnd k stamp crossing s else s

/-- Sampling has stopped once every cycle in progress is booked. -/
def settleStop (s : State) : State :=
  if s.meter.stopping && !(allFeeders.any fun k => (s.feeder k).running) then
    ((s.setMeter { s.meter with stopping := false }).put pMTV MTV_STAT_RUN 0).put pMTV MTV_STAT_SEEDED 0
  else s

end Sys2Proof.Machine
end

