-- ==== Sys2Proof/Machine/MeterChain.lean ====
section
/-! DEFINITION. The metering channels: signal chain, crossings, seeding, blocks, stuck channels (R244 to R250, R265). -/

namespace Sys2Proof.Machine

open Reg

/-! ## The signal chain of a channel (R244 to R247) -/

def chanIdle (_ : Nat) : MeterChan :=
  { sinc := ⟨0, 0, 0, 0, 0, 0⟩, decim := [], raw := [], sum := 0, dc := 0, past := [], out := [], squares := 0, clip := false, bit := false, run := 0, values := [], stuck := false,
    badAt := 0 }

def State.meterChan (s : State) (n : Nat) : MeterChan := tget chanIdle s.meter.chans n

def clampInt (lim x : Int) : Int := max (-lim) (min lim x)

/-- An intermediate of steps 1 to 5, which has 40 bits (R245). -/
def fix40 (x : Int) : Int := if -(2 ^ 39) ≤ x ∧ x < 2 ^ 39 then x else (Config.beyond40 x).toInt

/-- A bit of the bitstream enters the integrators: 1 counts up, 0 down. -/
def Sinc.feed (x : Sinc) (b : Bool) : Sinc :=
  let i1 := if b then x.i1 + 1 else x.i1 - 1
  let i2 := x.i2 + i1
  { x with i1 := i1, i2 := i2, i3 := x.i3 + i2 }

/-- After 64 bits: the three differences, and the value that leaves the stage, which has a gain of 2^18. -/
def Sinc.take (x : Sinc) : Int × Sinc :=
  let a := x.i3 - x.d1
  let b := a - x.d2
  ((b - x.d3).toInt, { x with d1 := x.i3, d2 := a, d3 := b })

/-- The sinc³ stage over the bits of one sample: a value for each 64 of them, put before those of earlier samples. -/
def decimate (bits : List Bool) (c : MeterChan) : MeterChan :=
  let x := (List.range (bits.length / 64)).foldl (fun (x : Sinc × List Int) i =>
    let y := (((bits.drop (64 * i)).take 64).foldl Sinc.feed x.1).take
    (y.2, y.1 :: x.2)) (c.sinc, c.decim)
  let decim := x.2.take 384
  { c with sinc := x.1, decim := decim, raw := (clampInt 8388608 (Config.halfBands decim) :: c.raw).take 8 }

/-- What step 3 moves its mean by after a sample that lies `d` from it: with this share of 2^40 the first-order high-pass
has half its power at 0.1 Hz (R245; log 130). -/
def dcStep (d : Int) : Int := openQuot (d * 86358833) (2 ^ 40)

/-- The bits of a modulator counted on: the last bit, how many in a row were like it, and whether 4,096 were. -/
def countBits (l : List Bool) (bit : Bool) (run : Nat) : Bool × Nat × Bool :=
  l.foldl (fun x b => let r := if b == x.1 then x.2.1 + 1 else 1; (b, r, x.2.2 || decide (4096 ≤ r))) (bit, run, false)

/-- The value of step 4: the sample 2 + DELAY / 1,024 samples back (R246). -/
def delayed (n : Nat) (past : List Int) (s : State) : Int :=
  let d := clampInt 1024 (BitVec.ofNat 12 (s.g pMTV (MTV_CH_DELAY.at 4 n))).toInt
  let steps := (2048 + d).toNat
  if steps % 1024 = 0 then past.getD (steps / 1024) 0 else fix40 (Config.between steps past)

/-- Sample `j` of channel `n` from the code that step 1 gives: steps 2 to 5, with what R250 and R265 keep of it. Values are
held in 2^-14 codes. -/
def stepChan (n j : Nat) (code : Int) (bits : List Bool) (c : MeterChan) (s : State) : MeterChan :=
  let code := clampInt 8388607 code
  let x := fix40 ((code - clampInt 8388607 (s.reg pMTC (0x044 + 16 * n)).toInt) * 2 ^ 14)
  let seeded := s.bit pMTV MTV_STAT_SEEDED
  let past := (fix40 (x - c.dc) :: c.past).take 5
  let y := fix40 (openQuot (delayed n past s * (s.g pMTC (MTC_GAIN_GAIN.at 16 n) : Nat)) (2 ^ 22))
  let (bit, run, full) := countBits bits c.bit c.run
  let values := ((code, j) :: c.values.filter fun v => v.1 != code).take 4
  let few := 8000 ≤ j && !(values[3]?.any fun v => j < v.2 + 8000)
  let stuck := full || decide (4096 ≤ run) || few
  { c with
    sum := c.sum + x, dc := if seeded then fix40 (c.dc + dcStep (x - c.dc)) else c.dc, past := past, out := (y :: c.out).take 64,
    squares := if seeded then c.squares + (sumTerm (y * y)).toNat else 0, clip := seeded && (c.clip || code.natAbs == 8388607),
    bit := bit, run := run, values := values, stuck := stuck, badAt := if stuck then j else c.badAt }

/-- The bits of sample `j` of channel `n` decimated, corrected (step 1) and taken through the other steps. -/
def sampleChan (n j : Nat) (bits : List Bool) (s : State) : MeterChan :=
  let c := decimate bits (s.meterChan n)
  stepChan n j (Config.factory n c.raw) bits c s

/-- The channel is there: the S variant lacks I12 to I23 (R3). -/
def meterChanPresent (n : Nat) (s : State) : Bool := !s.fused.variantS || n < 12 || 24 ≤ n

/-- Stamp of the newest sample: the latency of 24 samples of the decimator and 2 of the interpolator is taken off (R244,
R246; log 120). -/
def newestStamp (s : State) : Nat := s.meter.stamps.getD 26 (s.meter.stamps.getLastD s.replica)

/-! ## Crossings (R248, R249) -/

def Feeder.cross (x : Feeder) : Nat → PhaseCross
  | 1 => x.x1
  | 2 => x.x2
  | _ => x.x3

/-- The two newest values of a feeder's voltage with its scale. -/
def newestVolts (k : FeederNo) (p : Nat) (s : State) : Int × Int :=
  let o := (s.meterChan (vChan k p s)).out
  let g : Int := scaleOf (vChan k p s) s
  (o.getD 0 0 * g, o.getD 1 0 * g)

/-- A value lies at or below −2 % of U_n × √2: its square is at least U_n² / 1,250. -/
def arms (un v : Int) : Bool :=
  if 0 ≤ un then v ≤ 0 && (un * un * codes2 ≤ v * v * 1250 : Bool) else v ≤ 0 || (v * v * 1250 ≤ un * un * codes2 : Bool)

/-- The crossings of one voltage after sample `j`, and the place of one that this sample completes, in 1/1,024 samples. One
that comes less than 120 samples after the one before is ignored and stays armed (log 121). -/
def crossStep (un : Int) (j : Nat) (v : Int × Int) (c : PhaseCross) : PhaseCross × Option Nat :=
  let early := match c.last with
    | some (i, _) => j < i + 120
    | none => false
  let c' := if arms un v.1 then { c with armed := true } else c
  if c.armed && v.2 < 0 && 0 ≤ v.1 && !early then
    let place := (1024 * (j : Int) - openQuot (1024 * v.1) (v.1 - v.2).toNat).toNat
    ({ armed := arms un v.1, last := some (j, place), period := place - (c.last.map (·.2)).getD place }, some place)
  else (c', none)

/-- A lag moved by whole periods to lie next to the first lag of the window. -/
def unwrapLag (lag base : Int) (period : Nat) : Int :=
  if 2 * (lag - base) > period then lag - period else if 2 * (base - lag) > period then lag + period else lag

/-- A crossing of V2 or V3 gives its lag behind the last crossing of V1 (R252). -/
def Window.addLag (w : Window) (p : Nat) (place : Option Nat) (one : PhaseCross) : Window :=
  match place, one.last with
  | some at_, some (_, x) =>
    let lag : Int := (at_ : Int) - x
    if p = 2 then
      (if w.lags2 = 0 then { w with lag2 := lag, lags2 := 1, base2 := lag }
       else { w with lag2 := w.lag2 + unwrapLag lag w.base2 one.period, lags2 := w.lags2 + 1 })
    else
      (if w.lags3 = 0 then { w with lag3 := lag, lags3 := 1, base3 := lag }
       else { w with lag3 := w.lag3 + unwrapLag lag w.base3 one.period, lags3 := w.lags3 + 1 })
  | _, _ => w

/-- Samples of a free-running cycle: 160, or 133, 133 and 134 in turn (R249). -/
def freeLength (turn : Nat) (s : State) : Nat :=
  if !s.bit pMTV MTV_CTRL_FNOM then 160 else if turn % 3 = 2 then 134 else 133

/-- What the newest sample ends: a crossing of the reference, 180 samples without one, or the length of a free-running
cycle. -/
def closingOf (x : Feeder) (place : Option Nat) (s : State) : Option Closing :=
  if !x.running || x.due.isSome then x.due
  else if x.ref = 0 then (if freeLength x.turn s ≤ x.count then some .timed else none)
  else match place with
  | some at_ => some (.crossing at_)
  | none => if 180 ≤ x.count then some .forced else none

/-- Crossings of a feeder's three voltages at the newest sample. -/
def detectCycle (k : FeederNo) (s : State) : State :=
  let x := s.feeder k
  if !x.running then s
  else
    let j := s.meter.count
    let un := unOf k s
    let a := crossStep un j (newestVolts k 1 s) x.x1
    let b := crossStep un j (newestVolts k 2 s) x.x2
    let c := crossStep un j (newestVolts k 3 s) x.x3
    let place := if x.ref = 1 then a.2 else if x.ref = 2 then b.2 else if x.ref = 3 then c.2 else none
    s.setFeeder k { x with
      x1 := a.1, x2 := b.1, x3 := c.1, due := closingOf x place s, win := (x.win.addLag 2 b.2 a.1).addLag 3 c.2 a.1 }

/-! ## Sums of a cycle (R251, R254) -/

/-- The voltage shifted by 90° that belongs to the newest samples: the filter's sum with its gain at the measured frequency
(R254). -/
def shifted (freq : Nat) (volts : List Int) : Int :=
  openQuot ((volts.zipIdx.foldl (fun a x => a + Config.quadTap x.2 * x.1) 0) * Config.quadGain freq) (2 ^ 60)

/-- The products of the newest sample of one phase; Q takes the current as much later as the filter. -/
def newestSums (k : FeederNo) (p : Nat) (s : State) : PhaseSums :=
  let vs := (s.meterChan (vChan k p s)).out
  let is := (s.meterChan (iChan k p)).out
  let v := vs.getD 0 0
  let i := is.getD 0 0
  ⟨(sumTerm (v * v)).toNat, (sumTerm (i * i)).toNat, sumTerm (v * i), sumTerm <| shifted (s.g pMTR ⟨0x108 + 0x80 * k.val, 0, 32⟩) vs * is.getD (Config.quadLag % 64) 0⟩

/-- The sample before the one that comes now belongs to the cycle in progress. -/
def absorbSample (k : FeederNo) (s : State) : State :=
  let x := s.feeder k
  if !x.running then s
  else s.setFeeder k { x with
    count := x.count + 1, c1 := x.c1.add (newestSums k 1 s), c2 := x.c2.add (newestSums k 2 s), c3 := x.c3.add (newestSums k 3 s) }

/-! ## What the newest sample completes -/

/-- The feeder forms cycles: it is enabled, and sampling runs and is seeded. -/
def measures (k : FeederNo) (s : State) : Bool :=
  s.bit pMTV MTV_STAT_RUN && s.bit pMTV MTV_STAT_SEEDED && feederOn k s && feederPresent k s && !s.meter.xtalLost

/-- A feeder begins its first cycle with the newest sample. -/
def beginFeeder (k : FeederNo) (on : Bool) (s : State) : State :=
  let x := s.feeder k
  s.setFeeder k { feederDefault 0 with
    acc := x.acc, bill := x.bill, ref := refPhase k s, vloss := x.vloss, freqerr := x.freqerr, running := on, impE := x.impE,
    expE := x.expE, prevI := x.prevI, prevE := x.prevE, nextI := x.nextI, nextE := x.nextE }

/-- 1,600 samples have been taken and their means seed the filters (R247). -/
def seedDue (s : State) : Bool := s.bit pMTV MTV_STAT_RUN && !s.bit pMTV MTV_STAT_SEEDED && s.meter.count == 1600

def seedMeter (s : State) : State :=
  let s := forAll (List.range 32) (fun n s =>
    let c := s.meterChan n
    let mean := openQuot c.sum 1600
    s.setMeter { s.meter with chans := tset chanIdle s.meter.chans n { c with dc := mean, past := c.past.map (· - mean) } }) s
  let s := (s.setMeter { s.meter with block := 0 }).put pMTV MTV_STAT_SEEDED 1
  forAll allFeeders (fun k s => if feederOn k s && feederPresent k s then beginFeeder k true s else s) s

/-- The cycle that the newest sample ends, closed. -/
def closeDue (k : FeederNo) (s : State) : State :=
  match (s.feeder k).due with
  | some c => if measures k s then settleStop (closeCycle k (newestStamp s) c s) else s
  | none => s

def blockDue (s : State) : Bool := s.bit pMTV MTV_STAT_RUN && s.bit pMTV MTV_STAT_SEEDED && s.meter.block == 1600

/-- RMS and CLIP of every channel over 1,600 samples (R250, R265). -/
def endBlock (s : State) : State :=
  let s := forAll (List.range 32) (fun n s =>
    let c := s.meterChan n
    let was := s.bit pMTV (MTV_CH_CLIP.at 4 n)
    let s := s.put pMTR (MTR_RMS_RMS.at 4 n) (sqrtRat (c.squares * scaleOf n s ^ 2) (1600 * sumUnit)).1.toNat
    let s := s.putBit pMTV (MTV_CH_CLIP.at 4 n) c.clip
    let s := if c.clip && !was then raiseWith pMTV MTV_IRQ_RAW_CLIP true (chanDom n s) [byte n] s else s
    s.setMeter { s.meter with chans := tset chanIdle s.meter.chans n { c with squares := 0, clip := false } }) s
  s.setMeter { s.meter with block := 0 }

/-- A channel that a stuck condition has is flagged; the flag goes when none has held for 8,000 samples (R265). -/
def stuckDue (n : Nat) (s : State) : Bool := (s.meterChan n).stuck && !s.bit pMTV (MTV_CH_STUCK.at 4 n)
def stuckOver (n : Nat) (s : State) : Bool := s.bit pMTV (MTV_CH_STUCK.at 4 n) && (s.meterChan n).badAt + 8000 ≤ s.meter.count

def setStuck (n : Nat) (s : State) : State :=
  muslinFault pMTV 14 false 0 (raiseWith pMTV MTV_IRQ_RAW_STUCK true (chanDom n s) [byte n] (s.put pMTV (MTV_CH_STUCK.at 4 n) 1))

def clearStuck (n : Nat) (s : State) : State := s.put pMTV (MTV_CH_STUCK.at 4 n) 0

/-- All that the newest sample completes and no command has named. -/
def settleMeter (s : State) : State :=
  let s := if seedDue s then seedMeter s else s
  let s := forAll allFeeders closeDue s
  let s := if blockDue s then endBlock s else s
  forAll (List.range 32) (fun n s => if stuckDue n s then setStuck n s else if stuckOver n s then clearStuck n s else s) s

/-- One sampling instant: what the sample before completed is done first. -/
def meterSample (x : MeterTick) (s : State) : State :=
  let s := settleMeter (s.untilReplica x.now)
  if !s.bit pMTV MTV_STAT_RUN then s
  else
    let s := forAll allFeeders absorbSample s
    let j := s.meter.count + 1
    let chans := ((List.range 32).filter fun n => meterChanPresent n s).foldl
      (fun t n => tset chanIdle t n (sampleChan n j (x.bits.getD n []) s)) s.meter.chans
    let s := s.setMeter { s.meter with
      count := j, stamps := (x.now :: s.meter.stamps).take 27, chans := chans, block := s.meter.block + 1 }
    forAll allFeeders detectCycle s

/-- The samples that have come since the last command of metering. -/
def feedMeter (xs : List MeterTick) (s : State) : State := forAll xs meterSample s

/-! ## The commands -/

/-- DC_SEED_DONE (R247): the samples up to the 1,600th; their means seed every channel's filter. -/
def execDcSeedDone (s : State) (xs : List MeterTick := []) : Host.Outcome State Fault Refusal :=
  ok s (let s := feedMeter xs s
  if seedDue s then seedMeter s else s)

/-- CYCLE_CLOSE (R254): the samples up to the one that ends the feeder's cycle, and that cycle booked. -/
def execCycleClose (k : FeederNo) (xs : List MeterTick) (s : State) : Host.Outcome State Fault Refusal :=
  ok s (closeDue k (feedMeter xs s))

/-- RMS_BLOCK_END (R250, R265): the samples up to the last of a block of 1,600, and that block's results. -/
def execRmsBlockEnd (xs : List MeterTick) (s : State) : Host.Outcome State Fault Refusal :=
  ok s (let s := feedMeter xs s
  if blockDue s then endBlock s else s)

/-- STUCK_DETECT (R265): the samples up to the one at which a stuck condition of the channel holds. -/
def execStuckDetect (n : ChanNo) (s : State) (xs : List MeterTick := []) : Host.Outcome State Fault Refusal :=
  ok s (let s := feedMeter xs s
  if stuckDue n.val s then setStuck n.val s else s)

/-- STUCK_CLEAR (R265): the samples up to the one at which neither condition has held for 1 s. -/
def execStuckClear (n : ChanNo) (s : State) (xs : List MeterTick := []) : Host.Outcome State Fault Refusal :=
  ok s (let s := feedMeter xs s
  if stuckOver n.val s then clearStuck n.val s else s)

/-! ## Start and stop (R247, R267, R396) -/

/-- Sampling starts, with seeding (R247), and the demand interval goes on (R261). -/
def startSampling (s : State) : State :=
  if s.meter.xtalLost then s
  else
    let s := s.setMeter { s.meter with stopping := false, count := 0, stamps := [], chans := [], block := 0 }
    resumeDemand ((s.put pMTV MTV_STAT_RUN 1).put pMTV MTV_STAT_SEEDED 0)

/-- Metering stops: the cycles in progress are closed at the newest sample and booked (R267, R396). -/
def stopSampling (s : State) : State :=
  let s := settleMeter s
  let s := forAll allFeeders (fun k s =>
    let s := if (s.feeder k).running && measures k s && (s.feeder k).count != 0 then closeCycle k (newestStamp s) .timed s else s
    s.setFeeder k { s.feeder k with running := false }) s
  ((s.setMeter { s.meter with stopping := false, partialNow := true }).put pMTV MTV_STAT_RUN 0).put pMTV MTV_STAT_SEEDED 0

end Sys2Proof.Machine
end

