-- ==== Sys2Proof/Machine/Meter.lean ====
section
/-! DEFINITION. Energy metering: pulse outputs, saves and registers (R262 to R272). -/

namespace Sys2Proof.Machine

open Reg

/-! ## Pulse outputs (R262) -/

/-- PULSE_TIMER (R262): at the field-tick boundary that comes next, or that this moment is, an output ends its ON or OFF time
and starts the next pulse. -/
def execPulseTimer (n : Fin 8) (s : State) : Host.Outcome State Fault Refusal :=
  ok s (let tick := (s.replica + 99999) / 100000
  let s := s.untilReplica (100000 * tick)
  let x := s.pulse n
  let width := min 100 (max 10 (s.g pPLS (lf PLS_CFG_WIDTH n)))
  let on := fun (b : Bool) (s : State) => s.putBit pPLS ⟨0x00C, 8 + n.val, 1⟩ b
  if tick < x.endTick then s
  else if x.on then on false (s.setPulse n { x with on := false, endTick := tick + width })
  else
    let level := s.g pPLS (lf PLS_QUEUE_LEVEL n)
    if level = 0 || !s.bit pPLS (lf PLS_CFG_EN n) then s
    else on true ((s.setPulse n { x with on := true, endTick := tick + width }).put pPLS (lf PLS_QUEUE_LEVEL n) (level - 1)))

/-! ## Saves (R266 to R268) -/

def SaveKind.code : SaveKind → Nat
  | .periodic => 0
  | .final => 1
  | .asked => 2

/-- The metering state as bytes: save counter and kind, then feeders, demand, pulses. Their order is the model's own. -/
def meterBytes (kind : SaveKind) (s : State) : List Byte :=
  let m := s.meter
  let feeder := fun (k : FeederNo) =>
    let x := s.feeder k
    ((List.range 6).flatMap fun a => leBytes 8 (x.acc.getD a 0) ++ leBytes 8 (x.bill.getD a 0))
      ++ leBytes 12 (x.impE + x.nextI) ++ leBytes 12 (x.expE + x.nextE)
      ++ ((List.range 7).flatMap fun i => wordBytes (s.reg pMTE (0x300 + 0x20 * k.val + 4 * i)))
  let pulse := fun (n : Fin 8) => leBytes 4 (s.pulse n).count ++ [byte (s.g pPLS (lf PLS_QUEUE_LEVEL n))]
  let b := leBytes 4 (m.saves + 1) ++ [byte kind.code] ++ leBytes 8 m.openSec ++ leBytes 8 m.inInterval.toNat
    ++ (allFeeders.flatMap feeder) ++ (allPulses.flatMap pulse)
  padTo 1532 b ++ wordBytes (crc32c (padTo 1532 b))

/-- First page of a copy. -/
def copyPage (second : Bool) : Nat := if second then 506 else 500

/-- An operation of a save, and one of a periodic save. -/
def isSave : FlashUser → Bool
  | .save _ _ => true
  | _ => false
def isPeriodicSave : FlashUser → Bool
  | .save .periodic _ => true
  | _ => false

/-- The record of a save moved to the same page of the other copy. -/
def FlashOp.otherCopy (o : FlashOp) : FlashOp :=
  match o.user, o.work with
  | .save _ _, .record p off d q c => { o with work := .record (if p < 506 then p + 6 else p - 6) off d q c }
  | _, _ => o

/-- What still waits of a periodic save is withdrawn: its copy is the older one again, and saves asked for since go there. -/
def withdrawSave (s : State) : State :=
  let s := dropOps isPeriodicSave s
  (s.setFlash { s.flash with
    waiting := s.flash.waiting.map FlashOp.otherCopy, refused := s.flash.refused.map FlashOp.otherCopy }).setMeter
    { s.meter with second := !s.meter.second }

/-- A save asked for: six records into the older copy. A final save stands in for a periodic one that still waits (log 129). -/
def askSave (kind : SaveKind) (s : State) : State :=
  let s := if kind = .final && s.flash.waiting.any (fun o => isPeriodicSave o.user) then withdrawSave s else s
  let b := meterBytes kind s
  let second := !s.meter.second
  let s := s.setMeter { s.meter with saves := (s.meter.saves + 1) % 2 ^ 32, second := second }
  let s := forAll (List.range 6) (fun i s =>
    askFlash (if planRuns s then precPlan else precMeter)
      (.record (copyPage second + i) 0 ((b.drop (256 * i)).take 256) none false) (.save kind (i == 5)) s) s
  s.put pMTE MTE_STAT_SAVEBUSY 1

/-- Each of the `n` pages from `p` has been written. -/
def pagesWritten (p n : Nat) (s : State) : Bool :=
  let rs := allRecords s
  (List.range n).all fun i => rs.any fun r => r.valid && r.page == p + i

/-- A copy of the metering state, when its CRC holds: the save counter, whether it is a periodic save, and its bytes. -/
def savedCopy (second : Bool) (s : State) : Option (Nat × Bool × List Byte) :=
  let b := (List.range 6).flatMap fun i => pageContent (copyPage second + i) s
  if !pagesWritten (copyPage second) 6 s then none
  else if leWord b 1532 = crc32c (b.take 1532) then some (leField b 0 4, b.getD 4 0 == 0, b) else none

/-- The newer valid copy. -/
def newestSave (s : State) : Option (Bool × Nat × Bool × List Byte) :=
  match savedCopy false s, savedCopy true s with
  | some a, some b => if a.1 < b.1 then some (true, b) else some (false, a)
  | some a, none => some (false, a)
  | none, some b => some (true, b)
  | none, none => none

/-- A saved state put back. -/
def restoreBytes (b : List Byte) (s : State) : State :=
  let s := forAll allFeeders (fun k s =>
    let o := 21 + 148 * k.val
    let s := s.setFeeder k { feederDefault 0 with
      acc := (List.range 6).map fun a => leField b (o + 16 * a) 8, bill := (List.range 6).map fun a => leField b (o + 16 * a + 8) 8,
      impE := leField b (o + 96) 12, expE := leField b (o + 108) 12 }
    let s := forAll (List.range 7) (fun i s => s.setReg pMTE (0x300 + 0x20 * k.val + 4 * i) (leWord b (o + 120 + 4 * i))) s
    forAll (List.range 6) (fun a s =>
      (syncAcc k a s).setReg pMTE (accOff k a + 4) (word (leField b (o + 16 * a + 8) 8 / 2 ^ 32))) s) s
  forAll allPulses (fun n s =>
    let o := 1205 + 5 * n.val
    (s.setPulse n { pulseIdle 0 with count := leField b o 4 }).put pPLS (lf PLS_QUEUE_LEVEL n) (leField b (o + 4) 1)) s

/-- Registers of the persistent configuration with their bits (R266). -/
def committedRegs : List (Nat × Nat × Word) :=
  [(pMTV, 0x008, 0x3)]
    ++ ((List.range 32).map fun n => (pMTV, 0x040 + 4 * n, 0xFFF))
    ++ ((List.range 8).map fun k => (pMTV, 0x0C0 + 4 * k, 0x80000F3F))
    ++ ((List.range 32).flatMap fun n =>
        [(pMTC, 0x040 + 16 * n, 0xFFFFFF), (pMTC, 0x044 + 16 * n, 0xFFFFFFFF), (pMTC, 0x048 + 16 * n, 0xFFFFFFFF)])
    ++ ((List.range 8).flatMap fun k =>
        [(pMTC, 0x240 + 16 * k, 0xFFFFFFFF), (pMTC, 0x244 + 16 * k, 0xFFFFFFFF), (pMTC, 0x248 + 16 * k, 0xFFFF)])
    ++ ((List.range 8).map fun k => (pMTE, 0x040 + 4 * k, 0x7))
    ++ [(pMTE, 0x060, 0x3F), (pMTE, 0x064, 0x13F)]
    ++ ((List.range 8).flatMap fun n => [(pPLS, 0x040 + 16 * n, 0x807F0077), (pPLS, 0x044 + 16 * n, 0xFFFFFFFF)])

def configBytes (s : State) : List Byte :=
  let b := committedRegs.flatMap fun r => wordBytes (s.reg r.1 r.2.1 &&& r.2.2)
  padTo 1020 b ++ wordBytes (crc32c (padTo 1020 b))

/-- A commit asked for: four records. -/
def askCommit (s : State) : State :=
  let b := configBytes s
  forAll (List.range 4) (fun i s =>
    askFlash precLayer (.record (496 + i) 0 ((b.drop (256 * i)).take 256) none false) (.config (i == 3)) s) s

/-- The last committed configuration loaded, where a valid commit exists. -/
def loadConfig (s : State) : State :=
  let b := (List.range 4).flatMap fun i => pageContent (496 + i) s
  if !pagesWritten 496 4 s then s
  else if leWord b 1020 = crc32c (b.take 1020) then
    (committedRegs.zipIdx).foldl (fun s r =>
      s.setReg r.1.1 r.1.2.1 ((s.reg r.1.1 r.1.2.1 &&& ~~~r.1.2.2) ||| (leWord b (4 * r.2) &&& r.1.2.2))) s
  else s

/-- Period of the periodic save in counts. -/
def savePeriod (s : State) : Nat := 6000000000 * min 60 (max 1 (s.g pMTE MTE_SAVE_MIN))

/-- Metering starts after a reset: configuration, then the newest state (R266, R268). -/
def meterStart (s : State) : State :=
  let mine := (allRecords s).filter fun r => 496 ≤ r.page
  let s := eccReport (mine.flatMap fun r => granules r.addr (recordSize r.data.length)) s
  let s := loadConfig s
  let s := match newestSave s with
    | some (second, n, periodic, b) =>
      let s := (restoreBytes b s).put pMTV MTV_STAT_RESTORED 1
      let s := s.setMeter { s.meter with saves := n, second := second, openSec := leField b 5 8, inInterval := leField b 13 8 == 1 }
      if periodic then otherEvent pMTV 0 [] (s.put pMTV MTV_STAT_RESTOLD 1) else s
    | none => s
  let s := s.setMeter { s.meter with saveAt := s.replica + savePeriod s }
  if s.bit pMTV MTV_CTRL_EN then startSampling s else s

/-- METER_SAVE_TIMER (R267). -/
def execMeterSaveTimer (s : State) : Host.Outcome State Fault Refusal :=
  ok s (let s := s.untilReplica s.meter.saveAt
  askSave .periodic (s.setMeter { s.meter with saveAt := s.replica + savePeriod s }))

/-- A periodic save was refused: all of it is withdrawn, and tried again 1 minute later. -/
def saveRefused (s : State) : State :=
  let s := withdrawSave s
  let s := s.setMeter { s.meter with retryAt := some (s.replica + 6000000000) }
  raise pMTE MTE_IRQ_RAW_SAVEERR (s.putBit pMTE MTE_STAT_SAVEBUSY (opFor isSave s))

/-- SAVE_RETRY (R267). -/
def execSaveRetry (s : State) : Host.Outcome State Fault Refusal :=
  ok s (match s.meter.retryAt with
  | some t => askSave .periodic (State.setMeter (s.untilReplica t) { (s.untilReplica t).meter with retryAt := none })
  | none => s)

/-- A record of a save has been written; with the last one a clear that waited for it is complete (R272). -/
def saveDone (last : Bool) (s : State) : State :=
  if !last || opFor isSave s then s
  else
    let done := s.meter.clearing
    let s := (s.put pMTE MTE_STAT_SAVEBUSY 0).put pMTE MTE_CTRL_SAVE 0
    let s := s.setMeter { s.meter with clearing := [] }
    let s := if done = [] then s else s.put pMTE MTE_CLR_GO 0
    forAll done (fun k s => raiseWith pMTE MTE_IRQ_RAW_CLEARED true
      (BitVec.ofNat 4 (s.g pMTV (MTV_FCFG_DOM.at 4 k))) [byte k] s) s

/-- A record of a commit has been written. -/
def configDone (last : Bool) (s : State) : State :=
  if last then raise pMTV MTV_IRQ_RAW_COMMITDONE (s.put pMTV MTV_CTRL_COMMIT 0) else s

/-! ## Registers (R271, R272) -/

/-- A feeder's accumulators and demand values cleared, with the outputs bound to it; then a save (R263, R272). -/
def clearFeeder (k : FeederNo) (s : State) : State :=
  let x := s.feeder k
  let s := s.setFeeder k { x with
    acc := [0, 0, 0, 0, 0, 0], bill := [0, 0, 0, 0, 0, 0], impE := 0, expE := 0, prevI := 0, prevE := 0, nextI := 0, nextE := 0 }
  let s := forAll (List.range 6) (fun a s => (syncAcc k a s).setReg pMTE (accOff k a + 4) 0) s
  let s := forAll (List.range 7) (fun i s => s.setReg pMTE (0x300 + 0x20 * k.val + 4 * i) 0) s
  let s := forAll allPulses (fun n s => if pulseBound n k s then clearPulse n s else s) s
  askSave .asked (s.setMeter { s.meter with clearing := s.meter.clearing ++ [k.val] })

/-- Windows in progress of the feeders that use a channel are marked CALCHG. -/
def markCal (n : Nat) (s : State) : State :=
  forAll allFeeders (fun k s =>
    if (feederChans k s).contains n then
      s.setFeeder k { s.feeder k with win := { (s.feeder k).win with calchg := true } }
    else s) s

/-- A feeder's DOM changes by a supervisor only (R146). -/
def mtvWrite (off : Nat) (a : Access) (s : State) : State :=
  if off = 0x008 then
    let was := s.bit pMTV MTV_CTRL_EN
    let commit := a.b MTV_CTRL_COMMIT && !s.bit pMTV MTV_CTRL_COMMIT
    let s := plainWrite pMTV off a s
    let s := if commit then askCommit s else s
    let now := s.bit pMTV MTV_CTRL_EN
    if now && !was then startSampling s
    else if was && !now then settleStop (s.setMeter { s.meter with stopping := true })
    else s
  else if h : 0x0C0 ≤ off ∧ (off - 0x0C0) / 4 < 8 then
    let k : FeederNo := ⟨(off - 0x0C0) / 4, h.2⟩
    let old := s.reg pMTV off
    let new := (plainWrite pMTV off a s).reg pMTV off
    let new := if a.req.sup then new else (new &&& ~~~0xF00) ||| (old &&& 0xF00)
    if new = old then s
    else if (old.getLsbD 31 && (new ^^^ old) &&& 0x7FFFFFFF != 0) || (new.getLsbD 31 && !feederPresent k s) then
      raise pMTV MTV_IRQ_RAW_CFGERR s
    else
      let s := s.setReg pMTV off new
      if new.getLsbD 31 && !old.getLsbD 31 then
        beginFeeder k (s.bit pMTV MTV_STAT_SEEDED) s
      else settleStop (s.setFeeder k { s.feeder k with running := false, due := none })
  else if 0x040 ≤ off ∧ off < 0x0C0 ∧ a.unlocked = true then markCal ((off - 0x040) / 4) (plainWrite pMTV off a s)
  else plainWrite pMTV off a s

def mtcWrite (off : Nat) (a : Access) (s : State) : State :=
  if 0x040 ≤ off ∧ off < 0x240 ∧ off % 16 < 12 ∧ a.unlocked = true then markCal ((off - 0x040) / 16) (plainWrite pMTC off a s) else plainWrite pMTC off a s

/-- IMGBASE covers the 1,536 bytes of the eight records (R253, R431). -/
def mtrWrite (off : Nat) (a : Access) (s : State) : State :=
  if off = 0x008 then imgenWrite pMTR MTR_CTRL_IMGEN MTR_STAT_IMGEN [0x040] a s
  else if off = 0x040 then baseWrite pMTR off 1536 MTR_CTRL_IMGEN a s
  else plainWrite pMTR off a s

def mteWrite (off : Nat) (a : Access) (s : State) : State :=
  if off = 0x008 then
    if a.b MTE_CTRL_SAVE then askSave .asked (s.put pMTE MTE_CTRL_SAVE 1) else s
  else if off = 0x068 then
    let s := s.put pMTE MTE_CLR_FEEDER (a.f MTE_CLR_FEEDER)
    if a.unlocked && a.b MTE_CLR_GO && !s.bit pMTE MTE_CLR_GO then
      clearFeeder ⟨s.g pMTE MTE_CLR_FEEDER % 8, Nat.mod_lt _ (by decide)⟩ (s.put pMTE MTE_CLR_GO 1)
    else s
  else if h : 0x040 ≤ off ∧ (off - 0x040) / 4 < 8 then
    let k : FeederNo := ⟨(off - 0x040) / 4, h.2⟩
    let new := (plainWrite pMTE off a s).reg pMTE off
    if feederOn k s || new == s.reg pMTE off then s else clearFeeder k (s.setReg pMTE off new)
  else if 0x300 ≤ off ∧ off < 0x400 ∧ (off - 0x300) % 0x20 = 0x1C then
    if a.b ⟨off, 0, 1⟩ then
      forAll [2, 3, 4, 5] (fun i s => s.setReg pMTE (off - 0x1C + 4 * i) 0) s
    else s
  else plainWrite pMTE off a s

/-- A read of ACCLO latches the matching ACCHI (R256). -/
def mteRead (off : Nat) (s : State) : Word × State :=
  if h : 0x100 ≤ off ∧ (off - 0x100) / 0x40 < 8 then
    let k : FeederNo := ⟨(off - 0x100) / 0x40, h.2⟩
    let a := (off - 0x100) % 0x40 / 8
    if a < 6 ∧ off % 8 = 0 then
      (s.reg pMTE off, s.setReg pMTE (off + 4) (let b := (s.feeder k).bill.getD a 0
        word (b / 2 ^ 48 * 2 ^ 16 + b / 2 ^ 32 % 2 ^ 16)))
    else plainRead pMTE off s
  else plainRead pMTE off s

/-- A write of PLS_CFGn or PLS_Kn empties the output's queue and clears its count; EN = 0 turns it off, a pulse in progress
at the next boundary (R262, R263). -/
def plsWrite (off : Nat) (a : Access) (s : State) : State :=
  if h : 0x040 ≤ off ∧ (off - 0x040) / 16 < 8 then
    let n : Fin 8 := ⟨(off - 0x040) / 16, h.2⟩
    if (off - 0x040) % 16 ≤ 4 then
      if a.unlocked then
        let s := clearPulse n (plainWrite pPLS off a s)
        if s.bit pPLS (lf PLS_CFG_EN n) || !(s.pulse n).on then s
        else s.setPulse n { s.pulse n with endTick := min (s.pulse n).endTick (s.field.tick + 1) }
      else s
    else plainWrite pPLS off a s
  else if off = 0x010 then
    let s := plainWrite pPLS off a s
    s.put pPLS PLS_STAT_OVF (s.g pPLS PLS_STAT_OVF &&& s.g pPLS PLS_IRQ_RAW_OVF)
  else plainWrite pPLS off a s

end Sys2Proof.Machine
end

