-- ==== Sys2Proof/Machine/Charon.lean ====
section
/-! DEFINITION. Charon: the count, time writes, alarms with their catch-up, the capture of second edges, the life counters
(R289 to R304). -/

namespace Sys2Proof.Machine

open Reg

def State.setChr (s : State) (x : Charon) : State := { s with chr := x }

/-- C wraps at 2^48 (R289). -/
def chrFull : Nat := 2 ^ 48

/-! ## Alarms (R294 to R296) -/

def almField (f : Fld) (a : Fin 2) : Fld := f.at 16 a.val
def almArmed (a : Fin 2) (s : State) : Bool := s.bit pCHR (almField CHR_ALM_CTRL_EN a)

/-- Mask and compare value over the 48 bits of C. -/
def almMask (a : Fin 2) (s : State) : Nat :=
  (s.g pCHR (almField CHR_ALM_CTRL_MSK32 a) * 2 ^ 32 + s.g pCHR (almField CHR_ALM_SECMSK_MSK a)) * 2 ^ 15
    + s.g pCHR (almField CHR_ALM_SUB_MSK a)
def almCmp (a : Fin 2) (s : State) : Nat :=
  (s.g pCHR (almField CHR_ALM_CTRL_CMP32 a) * 2 ^ 32 + s.g pCHR (almField CHR_ALM_SEC_CMP a)) * 2 ^ 15
    + s.g pCHR (almField CHR_ALM_SUB_CMP a)

/-- Count `c` matches under a mask. -/
def almMatches (mask cmp c : Nat) : Bool := (c ^^^ cmp) &&& mask == 0
/-- An alarm fires at `c`: it matches and the count before it does not. -/
def almFires (mask cmp c : Nat) : Bool := almMatches mask cmp c && !almMatches mask cmp ((c + chrFull - 1) % chrFull)

/-- The mask with its low zero bits set: the counts at which an alarm fires are those that match under it with the
low bits of the compare value zero. -/
def almLow (mask : Nat) : Nat := ((List.range 48).find? fun i => mask.testBit i).getD 48
def fireMask (mask : Nat) : Nat := mask ||| (2 ^ almLow mask - 1)

/-- The first count at or after `c`, through the wrap, at which an alarm fires. -/
def nextFire (mask cmp c : Nat) : Option Nat :=
  if mask = 0 then none
  else
    let m := fireMask mask
    let v := cmp &&& mask
    let hit := fun (x : Nat) => x &&& m == v
    if hit c then some c
    else
      let cand := fun (i : Nat) => c / 2 ^ (i + 1) * 2 ^ (i + 1) + 2 ^ i + v % 2 ^ i
      match (List.range 48).find? fun i => !c.testBit i && hit (cand i) with
      | some i => some (cand i)
      | none => some v

/-- The flags of alarm `a`. -/
def almFlag (a : Fin 2) : Fld := ⟨0x010, a.val, 1⟩
def skipFlag (a : Fin 2) : Fld := ⟨0x010, 2 + a.val, 1⟩

/-- A flag of Charon with its event; without Muslin's supply the flag alone. -/
def chrRaise (f : Fld) (always : Bool) (data : List Byte) (s : State) : State :=
  if muslinRuns s then raiseWith pCHR f always 0 data s else s.put pCHR f 1

/-- An alarm fires at a count: its flag and event, ONESHOT, the wake-up of Damask (R295, R382). -/
def fireAlarm (a : Fin 2) (c : Nat) (skip : Bool) (s : State) : State :=
  let s := chrRaise (almFlag a) true (leBytes 6 c) s
  let s := if skip then chrRaise (skipFlag a) false (leBytes 6 c) s else s
  let s := if s.bit pCHR (almField CHR_ALM_CTRL_ONESHOT a) then s.put pCHR (almField CHR_ALM_CTRL_EN a) 0 else s
  if (s.g pPMU PMU_WAKE_ALM).testBit a.val && s.bit pPMU PMU_STAT_DOFF then s.setChr { s.chr with wake := true } else s

/-- The edge after which C is `c`. -/
def almEdge (a : Fin 2) (c : Nat) (s : State) : State :=
  if almArmed a s && almFires (almMask a s) (almCmp a s) c then fireAlarm a c false s else s

/-- Catch-up after a forward load that skipped `[old, new)`. -/
def almCatch (a : Fin 2) (old new : Nat) (s : State) : State :=
  let span := (new + chrFull - old) % chrFull
  if almArmed a s && s.bit pCHR (almField CHR_ALM_CTRL_CATCHUP a) && 1 ≤ span && span < 2 ^ 47 then
    match nextFire (almMask a s) (almCmp a s) old with
    | some m => if (m + chrFull - old) % chrFull < span then fireAlarm a m true s else s
    | none => s
  else s

/-! ## Edges (R289, R292, R298, R300) -/

/-- A second edge captured: the replica count and SEC. -/
def chrCapture (load : Bool) (s : State) : State :=
  (s.setChr { s.chr with corrMtb := s.replica, corrSec := s.chr.count / 32768 }).putBit pCHR CHR_STAT_CORRLOAD load

/-- NC0 increments that wait. -/
def syncOpPend (s : State) : State :=
  s.put pCHR CHR_OPFRAC_PEND (min 0xFFFF (s.flash.waiting.filter fun o => o.work == .count 0).length)

/-- One tick of the operating-time counter. -/
def opTick (s : State) : State :=
  if !s.chr.opRun then s
  else if s.chr.opPre + 1 < 32768 then s.setChr { s.chr with opPre := s.chr.opPre + 1 }
  else
    let n := (s.g pCHR CHR_OPSEC_OPSEC + 1) % 2 ^ 32
    let s := (s.setChr { s.chr with opPre := 0 }).put pCHR CHR_OPSEC_OPSEC n
    if n % 60 = 0 then syncOpPend (askCount 0 (.counter false) s) else s

/-- E2: the count is loaded in place of the increment that would have given `old`. -/
def chrLoad (sec old : Nat) (s : State) : State :=
  let new := sec * 32768
  let s := s.setChr { s.chr with count := new, load := none }
  let s := (s.put pCHR CHR_STAT_WBUSY 0).put pCHR CHR_STAT_VALID 1
  let s := cutDemand old sec (chrCapture true s)
  forAll [0, 1] (fun a s => almEdge a new (almCatch a old new s)) s

/-- Charon has no ticks: no source is left, or it runs on fallback and Muslin's supply is gone (R299, R303). -/
def chrStill (s : State) : Bool := s.chr.stopped || (s.bit pCHR CHR_STAT_FALLBACK && s.power.failed && !planRuns s)

/-- One Charon tick edge. -/
def charonEdge (s : State) : State :=
  if chrStill s then s
  else
    let inc := (s.chr.count + 1) % chrFull
    opTick (match s.chr.load with
    | some (sec, true) => chrLoad sec inc s
    | l =>
      let s := s.setChr { s.chr with count := inc, load := l.map fun x => (x.1, true) }
      let s := if inc % 32768 = 0 then chrCapture false s else s
      forAll [0, 1] (fun a s => almEdge a inc s) s)

/-- `n` edges. -/
def charonTicks : Nat → State → State
  | 0, s => s
  | n + 1, s => charonTicks n (charonEdge s)

/-- Edges up to and with the next second edge: a roll-over, or the load that comes before it. -/
def toSecond (s : State) : Nat :=
  let n := 32768 - s.chr.count % 32768
  match s.chr.load with
  | some (_, e1) => min n (if e1 then 1 else 2)
  | none => n

/-- Edges until alarm `a` has fired, at most `n`. -/
def ticksToAlarm (a : Fin 2) : Nat → State → State
  | 0, s => s
  | n + 1, s =>
    let t := charonEdge (s.put pCHR (almFlag a) 0)
    if t.bit pCHR (almFlag a) then t
    else ticksToAlarm a n (t.put pCHR (almFlag a) (s.g pCHR (almFlag a)))

/-- Edges until a pending load is made. -/
def toLoad (s : State) : Nat := match s.chr.load with | some (_, e1) => if e1 then 1 else 2 | none => 0

/-- Edges until OPSEC reaches its next multiple of 60. -/
def toMinute (s : State) : Nat :=
  if s.chr.opRun then (59 - s.g pCHR CHR_OPSEC_OPSEC % 60) * 32768 + (32768 - s.chr.opPre) else 0

/-- Supply-good at Charon (R300, R301): NC1 is asked for first, then the operating-time counter starts from NC0. -/
def chrSupplyGood (s : State) : State :=
  let s := askCount 1 (.counter false) s
  let s := s.put pCHR CHR_OPSEC_OPSEC (60 * ctrValue 0 s)
  s.setChr { s.chr with opRun := true, opPre := 0 }

/-- Charon start (R290): the only reset that Charon's fields take. -/
def charonStart (s : State) : State :=
  let s := dropOps (fun u => u == .counter false) s
  (s.setChr { count := 0, load := none, corrMtb := 0, corrSec := 0, opRun := false, opPre := 0, wake := false,
              stopped := false }).resetPages pCHR (pCHR + 1)

/-! ## Clock and battery (R299, R303) -/

/-- CRYSTAL_LOSS_32K (R299): the demand interval in progress becomes PARTIAL (R261). -/
def execCrystalLoss32k (s : State) : Host.Outcome State Fault Refusal :=
  ok s (if s.bit pCHR CHR_STAT_FALLBACK || !muslinRuns s then s
  else
    let s := s.setMeter { s.meter with partialNow := true }
    muslinFault pCHR 10 true 0 (raiseLog pCHR CHR_IRQ_RAW_OSCFAIL [] (s.put pCHR CHR_STAT_FALLBACK 1)))

/-- CRYSTAL_RETURN_32K (R299). -/
def execCrystalReturn32k (s : State) : Host.Outcome State Fault Refusal := ok s (s.put pCHR CHR_STAT_FALLBACK 0)

/-- VBAT_CHECK (R303): the cell's voltage in mV, when one is fitted. -/
def execVbatCheck (cell : Option Nat) (s : State) : Host.Outcome State Fault Refusal :=
  ok s (let low := cell.any (· < 2500)
  let s := s.putBit pCHR CHR_STAT_VBATLOW low
  if low then chrRaise CHR_IRQ_RAW_VBATLOW false [] s else s)

/-- ONVBAT_CHANGE (R303). -/
def execOnvbatChange (on : Bool) (s : State) : Host.Outcome State Fault Refusal := ok s (s.putBit pCHR CHR_STAT_ONVBAT on)

/-- CHARON_STOP (R303). -/
def execCharonStop (s : State) : Host.Outcome State Fault Refusal := ok s (s.setChr { s.chr with stopped := true })

/-! ## Registers (R291, R292, R297, R298, R301) -/

def chrRead (off : Nat) (s : State) : Word × State :=
  let c := s.chr.count
  if off = 0x044 then
    (word (c / 32768), (s.put pCHR CHR_SEC_HI_SEC32 (c / 2 ^ 47)).put pCHR CHR_SUBSEC_SUBSEC c)
  else if off = 0x04C then
    (word s.chr.corrMtb, (s.setReg pCHR 0x050 (word (s.chr.corrMtb / 2 ^ 32))).setReg pCHR 0x054 (word s.chr.corrSec))
  else if off = 0x058 then (s.reg pCHR 0x058, s.put pCHR CHR_OPFRAC_FRAC (opFrac s))
  else plainRead pCHR off s

/-- A write of an alarm register. While EN is 1 the compare and mask bits keep their values, and WERR tells of a write to
them; the other bits of ALMa_CTRL are written. -/
def almWrite (a : Fin 2) (off : Nat) (x : Access) (s : State) : State :=
  if !x.req.sup then s
  else if !almArmed a s then plainWrite pCHR off x s
  else if off % 16 != 0 then raise pCHR CHR_IRQ_RAW_WERR s
  else
    let old := s.reg pCHR off
    let t := plainWrite pCHR off x s
    let new := t.reg pCHR off
    let t := t.setReg pCHR off ((new &&& ~~~0x300) ||| (old &&& 0x300))
    if (new ^^^ old) &&& 0x300 != 0 then raise pCHR CHR_IRQ_RAW_WERR t else t

def chrWrite (off : Nat) (x : Access) (s : State) : State :=
  if off = 0x044 then
    if !x.req.sup then s
    else if s.bit pCHR CHR_STAT_WBUSY then raise pCHR CHR_IRQ_RAW_WERR s
    else
      (s.setChr { s.chr with load := some (s.g pCHR CHR_SEC_HI_SETHI * 2 ^ 32 + x.val.toNat, false) }).put
        pCHR CHR_STAT_WBUSY 1
  else if 0x080 ≤ off ∧ off < 0x090 then almWrite 0 off x s
  else if 0x090 ≤ off ∧ off < 0x0A0 then almWrite 1 off x s
  else plainWrite pCHR off x s

end Sys2Proof.Machine
end

