-- ==== Sys2Proof/Machine/Crypto.lean ====
section
/-! DEFINITION. The cryptographic functions that the spec names: SHA-256, HMAC and HKDF (R39, R40, R340),
AES with its modes (R352), RSASSA-PSS and RSA-OAEP with SHA-256 and MGF1 (R345).
Their computation is that of the standards the spec names them by; see log entry 4. -/

namespace Sys2Proof.Machine

/-- The eight words of a 256-bit number, the most significant first. -/
def words256 (n : Nat) : List Word := (List.range 8).map fun i => word (n / 2 ^ (32 * (7 - i)))

/-- The round constants of SHA-256, eight to a number. -/
def shaConstants : List Word :=
  [0x428a2f9871374491b5c0fbcfe9b5dba53956c25b59f111f1923f82a4ab1c5ed5,
   0xd807aa9812835b01243185be550c7dc372be5d7480deb1fe9bdc06a7c19bf174,
   0xe49b69c1efbe47860fc19dc6240ca1cc2de92c6f4a7484aa5cb0a9dc76f988da,
   0x983e5152a831c66db00327c8bf597fc7c6e00bf3d5a7914706ca635114292967].flatMap words256 ++
  [0x27b70a852e1b21384d2c6dfc53380d13650a7354766a0abb81c2c92e92722c85,
   0xa2bfe8a1a81a664bc24b8b70c76c51a3d192e819d6990624f40e3585106aa070,
   0x19a4c1161e376c082748774c34b0bcb5391c0cb34ed8aa4a5b9cca4f682e6ff3,
   0x748f82ee78a5636f84c878148cc7020890befffaa4506cebbef9a3f7c67178f2].flatMap words256

/-- The chaining value: the last four words that the rounds have formed on either side, newest first. -/
structure ShaChain where
  left : List Word
  right : List Word
  deriving DecidableEq, Repr

def shaStart : ShaChain :=
  let ws := words256 0x6a09e667bb67ae853c6ef372a54ff53a510e527f9b05688c1f83d9ab5be0cd19
  ⟨ws.take 4, ws.drop 4⟩

/-- A word turned right by three amounts and added without carries. -/
def shaTurn (i j k : Nat) (w : Word) : Word := w.rotateRight i ^^^ w.rotateRight j ^^^ w.rotateRight k

/-- The same with the third amount shifted out. -/
def shaSpread (i j k : Nat) (w : Word) : Word := w.rotateRight i ^^^ w.rotateRight j ^^^ (w >>> k)

/-- One round with constant plus schedule word `k`: a new word on either side. -/
def shaStep (s : ShaChain) (k : Word) : ShaChain :=
  match s.left, s.right with
  | [x, y, z, old], [p, q, r, out] =>
    let mixed := out + k + shaTurn 6 11 25 p + (r ^^^ (p &&& (q ^^^ r)))
    ⟨[mixed + shaTurn 2 13 22 x + ((x &&& y) ||| (z &&& (x ||| y))), x, y, z], [old + mixed, p, q, r]⟩
  | _, _ => s

/-- The schedule, newest word first, grows by one word. -/
def shaGrow (ws : List Word) : List Word :=
  let back := fun n => ws.getD (n - 1) 0
  (back 16 + back 7 + shaSpread 7 18 3 (back 15) + shaSpread 17 19 10 (back 2)) :: ws

/-- One block of 16 words. -/
def shaBlock (s : ShaChain) (ws : List Word) : ShaChain :=
  let ks := List.zipWith (· + ·) shaConstants (Nat.repeat shaGrow 48 ws.reverse).reverse
  let t := ks.foldl shaStep s
  ⟨List.zipWith (· + ·) s.left t.left, List.zipWith (· + ·) s.right t.right⟩

def beWordsN : Nat → List Byte → List Word
  | 0, _ => []
  | n + 1, bs => word (ofBe (bs.take 4)) :: beWordsN n (bs.drop 4)

def shaBlocks : Nat → ShaChain → List Byte → ShaChain
  | 0, s, _ => s
  | n + 1, s, bs => shaBlocks n (shaBlock s (beWordsN 16 bs)) (bs.drop 64)

/-- SHA-256. -/
def sha256 (m : List Byte) : List Byte :=
  let fill := (119 - m.length % 64) % 64
  let p := m ++ [0x80] ++ List.replicate fill 0 ++ beBytes 8 (8 * m.length)
  let s := shaBlocks (p.length / 64) shaStart p
  (s.left ++ s.right).flatMap fun w => beBytes 4 w.toNat

/-- HMAC-SHA-256 (R39, R352). -/
def hmac (key m : List Byte) : List Byte :=
  let k := padTo 64 (if key.length ≤ 64 then key else sha256 key)
  sha256 (k.map (· ^^^ 0x5C) ++ sha256 (k.map (· ^^^ 0x36) ++ m))

/-- HKDF-SHA-256 with one 32-byte output block (R40, R340). -/
def hkdf32 (ikm salt info : List Byte) : List Byte := hmac (hmac salt ikm) (info ++ [1])

/-- Multiplication by x in the field of AES. -/
def xtime (b : Byte) : Byte := if b.getLsbD 7 then (b <<< 1) ^^^ 0x1B else b <<< 1

def gmulGo : Nat → Byte → Byte → Byte
  | 0, _, _ => 0
  | n + 1, a, b => (if b.getLsbD 0 then a else 0) ^^^ gmulGo n (xtime a) (b >>> 1)

/-- Multiplication in the field of AES. -/
def gmul (a b : Byte) : Byte := gmulGo 8 a b

/-- The multiplicative inverse in the field of AES (0 for 0): the 254th power. -/
def ginv (a : Byte) : Byte :=
  let a2 := gmul a a
  let a4 := gmul a2 a2
  let a8 := gmul a4 a4
  let a16 := gmul a8 a8
  let a32 := gmul a16 a16
  let a64 := gmul a32 a32
  let a128 := gmul a64 a64
  gmul a2 (gmul a4 (gmul a8 (gmul a16 (gmul a32 (gmul a64 a128)))))

def sbox (a : Byte) : Byte :=
  let b := ginv a
  b ^^^ b.rotateLeft 1 ^^^ b.rotateLeft 2 ^^^ b.rotateLeft 3 ^^^ b.rotateLeft 4 ^^^ 0x63

def sboxInv (a : Byte) : Byte := ginv (a.rotateLeft 1 ^^^ a.rotateLeft 3 ^^^ a.rotateLeft 6 ^^^ 0x05)

/-- The key schedule as a list of 4-byte words, newest first. -/
def aesExpandGo (nk : Nat) : Nat → Nat → Byte → List (List Byte) → List (List Byte)
  | 0, _, _, ws => ws
  | n + 1, i, rcon, ws =>
    let prev := ws.getD 0 []
    let back := ws.getD (nk - 1) []
    if i % nk = 0 then
      let t := (prev.drop 1 ++ prev.take 1).map sbox
      let t := xorBytes t [rcon, 0, 0, 0]
      aesExpandGo nk n (i + 1) (xtime rcon) (xorBytes back t :: ws)
    else if nk > 6 ∧ i % nk = 4 then
      aesExpandGo nk n (i + 1) rcon (xorBytes back (prev.map sbox) :: ws)
    else aesExpandGo nk n (i + 1) rcon (xorBytes back prev :: ws)

def chunks (k : Nat) : Nat → List Byte → List (List Byte)
  | 0, _ => []
  | n + 1, bs => bs.take k :: chunks k n (bs.drop k)

/-- The string in blocks of 16; the last may be short. -/
def blocks16 (bs : List Byte) : List (List Byte) := chunks 16 ((bs.length + 15) / 16) bs

/-- The round keys, first to last, for a key of 16 or 32 bytes. -/
def aesKeys (key : List Byte) : List (List Byte) :=
  let nk := key.length / 4
  let total := 4 * (nk + 7)
  let ws := (aesExpandGo nk (total - nk) nk 1 (chunks 4 nk key).reverse).reverse
  chunks 16 (nk + 7) ws.flatten

def shiftRows (s : List Byte) : List Byte :=
  [0, 5, 10, 15, 4, 9, 14, 3, 8, 13, 2, 7, 12, 1, 6, 11].map fun i => s.getD i 0

def shiftRowsInv (s : List Byte) : List Byte :=
  [0, 13, 10, 7, 4, 1, 14, 11, 8, 5, 2, 15, 12, 9, 6, 3].map fun i => s.getD i 0

def mixColumn (m : List Byte) (c : List Byte) : List Byte :=
  (List.range 4).map fun r =>
    ((List.range 4).map fun j => gmul (m.getD ((j + 4 - r) % 4) 0) (c.getD j 0)).foldl (· ^^^ ·) 0

def mixColumns (m s : List Byte) : List Byte := ((chunks 4 4 s).map (mixColumn m)).flatten

/-- AES encryption of one 16-byte block. -/
def aesEnc (key blk : List Byte) : List Byte :=
  let ks := aesKeys key
  let mid := (ks.drop 1).dropLast
  let s := mid.foldl (fun s k => xorBytes (mixColumns [2, 3, 1, 1] (shiftRows (s.map sbox))) k)
    (xorBytes blk (ks.getD 0 []))
  xorBytes (shiftRows (s.map sbox)) (ks.getD (ks.length - 1) [])

/-- AES decryption of one 16-byte block. -/
def aesDec (key blk : List Byte) : List Byte :=
  let ks := (aesKeys key).reverse
  let mid := (ks.drop 1).dropLast
  let s := mid.foldl (fun s k => mixColumns [14, 11, 13, 9] (xorBytes ((shiftRowsInv s).map sboxInv) k))
    (xorBytes blk (ks.getD 0 []))
  xorBytes ((shiftRowsInv s).map sboxInv) (ks.getD (ks.length - 1) [])

def aesEcbEnc (key m : List Byte) : List Byte := (blocks16 m).flatMap (aesEnc key)
def aesEcbDec (key m : List Byte) : List Byte := (blocks16 m).flatMap (aesDec key)

def cbcEncGo (key : List Byte) : List (List Byte) → List Byte → List Byte
  | [], _ => []
  | b :: bs, iv => let c := aesEnc key (xorBytes b iv); c ++ cbcEncGo key bs c

def cbcDecGo (key : List Byte) : List (List Byte) → List Byte → List Byte
  | [], _ => []
  | b :: bs, iv => xorBytes (aesDec key b) iv ++ cbcDecGo key bs b

def aesCbcEnc (key iv m : List Byte) : List Byte := cbcEncGo key (blocks16 m) iv
def aesCbcDec (key iv m : List Byte) : List Byte := cbcDecGo key (blocks16 m) iv

/-- The counter block plus one, over its last `n` bytes. -/
def incBlock (n : Nat) (b : List Byte) : List Byte :=
  b.take (16 - n) ++ beBytes n (ofBe (b.drop (16 - n)) + 1)

def ctrGo (n : Nat) (key : List Byte) : List (List Byte) → List Byte → List Byte
  | [], _ => []
  | b :: bs, c => xorBytes b (aesEnc key c) ++ ctrGo n key bs (incBlock n c)

/-- AES-CTR with a 128-bit counter block. -/
def aesCtr (key iv m : List Byte) : List Byte := ctrGo 16 key (blocks16 m) iv

/-- Multiplication in the field of GCM, on 128-bit numbers whose bit 127 is the first bit of the block. -/
def gfGo : Nat → Nat → Nat → Nat → Nat
  | 0, _, _, z => z
  | n + 1, x, v, z =>
    let z' := if x.testBit n then z ^^^ v else z
    let v' := if v.testBit 0 then (v / 2) ^^^ (0xE1 * 2 ^ 120) else v / 2
    gfGo n x v' z'

def gfMul (x y : Nat) : Nat := gfGo 128 x y 0

def ghash (h : Nat) (bs : List Byte) : Nat :=
  (blocks16 bs).foldl (fun y b => gfMul (y ^^^ ofBe (padTo 16 b)) h) 0

def pad16 (bs : List Byte) : List Byte := bs ++ List.replicate ((16 - bs.length % 16) % 16) 0

/-- The GCM tag of a ciphertext, for a 96-bit IV. -/
def gcmTag (key iv aad ct : List Byte) : List Byte :=
  let h := ofBe (aesEnc key (List.replicate 16 0))
  let g := ghash h (pad16 aad ++ pad16 ct ++ beBytes 8 (8 * aad.length) ++ beBytes 8 (8 * ct.length))
  xorBytes (beBytes 16 g) (aesEnc key (iv ++ [0, 0, 0, 1]))

def gcmCrypt (key iv m : List Byte) : List Byte := ctrGo 4 key (blocks16 m) (iv ++ [0, 0, 0, 2])

/-- AES-GCM encryption: the ciphertext and its 16-byte tag. -/
def gcmEnc (key iv aad m : List Byte) : List Byte × List Byte :=
  let c := gcmCrypt key iv m
  (c, gcmTag key iv aad c)

/-- AES-GCM decryption: the plaintext, or none when the tag does not hold. -/
def gcmDec (key iv aad c tag : List Byte) : Option (List Byte) :=
  if gcmTag key iv aad c = tag then some (gcmCrypt key iv c) else none

/-- Doubling in the field of CMAC. -/
def cmacDbl (b : List Byte) : List Byte :=
  let n := ofBe b
  beBytes 16 (if n.testBit 127 then (2 * n) ^^^ 0x87 else 2 * n)

/-- AES-CMAC. -/
def cmac (key m : List Byte) : List Byte :=
  let k1 := cmacDbl (aesEnc key (List.replicate 16 0))
  let k2 := cmacDbl k1
  let bl := if m = [] then [[]] else blocks16 m
  let last := bl.getD (bl.length - 1) []
  let l := if last.length = 16 then xorBytes last k1 else xorBytes (padTo 16 (last ++ [0x80])) k2
  let x := bl.dropLast.foldl (fun x b => aesEnc key (xorBytes x b)) (List.replicate 16 0)
  aesEnc key (xorBytes x l)

def powModGo : Nat → Nat → Nat → Nat → Nat → Nat
  | 0, _, _, _, acc => acc
  | n + 1, m, b, e, acc => powModGo n m (b * b % m) (e / 2) (if e % 2 = 1 then acc * b % m else acc)

/-- `b ^ e mod m`, by squaring, for exponents of at most 3,072 bits. -/
def powMod (b e m : Nat) : Nat := powModGo 3072 m (b % m) e (1 % m)

def mgf1Go (seed : List Byte) : Nat → Nat → List Byte
  | 0, _ => []
  | n + 1, i => sha256 (seed ++ beBytes 4 i) ++ mgf1Go seed n (i + 1)

/-- MGF1 with SHA-256 (R345). -/
def mgf1 (seed : List Byte) (len : Nat) : List Byte := (mgf1Go seed ((len + 31) / 32) 0).take len

/-- An RSA-3072 public key: modulus and exponent (R338, TYPE 5). -/
structure RsaPub where
  n : Nat
  e : Nat
  deriving DecidableEq, Repr

/-- An RSA-3072 private key in CRT form (R338, TYPE 4). -/
structure RsaPriv where
  p : Nat
  q : Nat
  dp : Nat
  dq : Nat
  qinv : Nat
  e : Nat
  deriving DecidableEq, Repr

def rsaPubOf (material : List Byte) : RsaPub := ⟨leField material 0 384, leField material 384 4⟩

def rsaPrivOf (material : List Byte) : RsaPriv :=
  ⟨leField material 0 192, leField material 192 192, leField material 384 192, leField material 576 192,
   leField material 768 192, leField material 960 4⟩

/-- The RSA private operation by the Chinese remainder theorem. -/
def rsaPrivate (k : RsaPriv) (c : Nat) : Nat :=
  let m1 := powMod c k.dp k.p
  let m2 := powMod c k.dq k.q
  m2 + k.q * (k.qinv * (m1 + k.p - m2 % k.p) % k.p)

/-- The PSS encoding of a hash with a 32-byte salt, for a 3,072-bit modulus (R345). -/
def pssEncode (mHash salt : List Byte) : List Byte :=
  let h := sha256 (List.replicate 8 0 ++ mHash ++ salt)
  let db := List.replicate 318 0 ++ [1] ++ salt
  let masked := xorBytes db (mgf1 h 351)
  ((masked.getD 0 0) &&& 0x7F) :: (masked.drop 1) ++ h ++ [0xBC]

/-- RSASSA-PSS signature of a message, with the salt given. -/
def pssSign (k : RsaPriv) (m salt : List Byte) : List Byte :=
  beBytes 384 (rsaPrivate k (ofBe (pssEncode (sha256 m) salt)))

/-- RSASSA-PSS verification (R345). -/
def pssVerify (k : RsaPub) (m sig : List Byte) : Bool :=
  let s := ofBe sig
  let em := beBytes 384 (powMod s k.e k.n)
  let h := (em.drop 351).take 32
  let db0 := xorBytes (em.take 351) (mgf1 h 351)
  let db := ((db0.getD 0 0) &&& 0x7F) :: db0.drop 1
  let salt := db.drop 319
  sig.length = 384 && s < k.n && em.getD 383 0 == 0xBC && !(em.getD 0 0).getLsbD 7
    && db.take 319 == List.replicate 318 0 ++ [1]
    && h == sha256 (List.replicate 8 0 ++ sha256 m ++ salt)

/-- RSA-OAEP encryption with an empty label, with the seed given; none when the message is too long. -/
def oaepEncrypt (k : RsaPub) (m seed : List Byte) : Option (List Byte) :=
  if m.length > 318 then none
  else
    let db := sha256 [] ++ List.replicate (318 - m.length) 0 ++ [1] ++ m
    let maskedDb := xorBytes db (mgf1 seed 351)
    let maskedSeed := xorBytes seed (mgf1 maskedDb 32)
    some (beBytes 384 (powMod (ofBe (0 :: maskedSeed ++ maskedDb)) k.e k.n))

/-- RSA-OAEP decryption with an empty label; none when the padding does not hold. -/
def oaepDecrypt (k : RsaPriv) (c : List Byte) : Option (List Byte) :=
  let em := beBytes 384 (rsaPrivate k (ofBe c))
  let seed := xorBytes ((em.drop 1).take 32) (mgf1 (em.drop 33) 32)
  let db := xorBytes (em.drop 33) (mgf1 seed 351)
  let rest := (db.drop 32).dropWhile (· == 0)
  if c.length = 384 ∧ ofBe c < k.p * k.q ∧ em.getD 0 1 = 0 ∧ db.take 32 = sha256 [] ∧ rest.getD 0 0 = 1
  then some (rest.drop 1) else none

end Sys2Proof.Machine
end

