-- ==== Sys2Proof/Machine/Seal.lean ====
section
/-! DEFINITION. Sealed transfers and what both dies share for keys: identity, random bytes, the message of a sealed transfer
(R39 to R42, R340, R349). -/

namespace Sys2Proof.Machine

open Reg

/-- The hardware type word (R2, SYS_HWTYPE). -/
def hwType (s : State) : Word := if s.fused.variantS then 0x00480211 else 0x00480111
/-- The 8 bytes of the unit ID. -/
def uidBytes (s : State) : List Byte := leBytes 8 s.fused.uid.toNat

/-- `n` bytes of a random source. -/
def drawBytes (n : Nat) (s : State) : List Byte × State :=
  ((List.range n).map fun i => Config.random (s.drawn + i), { s with drawn := s.drawn + n })

/-- Direction word of the IV. -/
def sealDir : Die → Nat
  | .damask => 1
  | .muslin => 2

/-- Key traffic can cross: the link is UP with a session key and no pairing fault (R42). -/
def sealReady (d : Die) (s : State) : Bool :=
  s.linkUp d && !s.bit (ddlPage d) DDL_STAT_PAIRFLT && s.bit (ddlPage d) DDL_STAT_SESSION

/-- A sealed transfer sent by die `d` (R41). -/
def sendSealed (d : Die) (kind slot : Nat) (plain : List Byte) (s : State) : State :=
  if sealReady d s then
    let l := s.link d
    let n := l.sealTx + 1
    let hdr := leBytes 2 plain.length ++ [byte kind, byte slot, 0, 0, 0, 0]
    let iv := leBytes 4 (sealDir d) ++ leBytes 8 n
    let x := gcmEnc l.sessionKey iv hdr plain
    let ct := x.1 ++ List.replicate ((4 - x.1.length % 4) % 4) 0
    let ws := bytesWords (hdr ++ iv ++ ct ++ x.2)
    forAll (sealedPacketsGo ((ws.length + 15) / 16) ws) (sendPacket d) (s.setLink d { l with sealTx := n })
  else s

/-- Bytes of the sealed transfer whose first bytes are given: none until L is known. -/
def sealLength (bs : List Byte) : Option Nat :=
  if 2 ≤ bs.length then some (36 + (leField bs 0 2 + 3) / 4 * 4) else none

/-- What a received sealed transfer opens to at die `d`: kind, slot, counter and plaintext; none when it is rejected. One whose
IV does not hold the sending die's direction word is rejected before its tag is checked (log 128). -/
def openSealed (d : Die) (bs : List Byte) (s : State) : Option (Nat × Nat × Nat × List Byte) :=
  let l := s.link d
  let len := leField bs 0 2
  let iv := (bs.drop 8).take 12
  let n := leField bs 12 8
  if s.bit (ddlPage d) DDL_STAT_PAIRFLT || n ≤ l.sealRx || leField bs 8 4 != sealDir d.other then none
  else
    match gcmDec l.sessionKey iv (bs.take 8) ((bs.drop 20).take len) (bs.drop (20 + (len + 3) / 4 * 4)) with
    | some p => some ((bs.getD 2 0).toNat, (bs.getD 3 0).toNat, n, p)
    | none => none

end Sys2Proof.Machine
end

