-- ==== Sys2Proof/Machine/Vault.lean ====
section
/-! DEFINITION. The key vault on Muslin: slot records, uses, loads, blobs, key updates (R336 to R347, R349). -/

namespace Sys2Proof.Machine

open Reg

def State.setVault (s : State) (x : Vault) : State := { s with vault := x }

def emptySlot (_ : Nat) : WSlot := ⟨false, 0, 0, 0, 0, 0, []⟩
/-- A working slot of CRY (R348). -/
def State.wslot (s : State) (w : Nat) : WSlot := tget emptySlot s.cry.slots w
def State.setWslot (s : State) (w : Nat) (x : WSlot) : State :=
  { s with cry := { s.cry with slots := tset emptySlot s.cry.slots w x } }

/-! ## Records (R336 to R343) -/

def recOff (i : Nat) : Nat := 0x190000 + 0x400 * i
def logOff (i : Nat) : Nat := 0x198000 + 0x400 * i

/-- KV and KW (R340). -/
def vaultKey (info : String) (s : State) : List Byte := hkdf32 s.fused.otp (uidBytes s) (ascii info)

/-- TAG of the first 1,000 bytes of a record. -/
def recTag (i : Nat) (body : List Byte) (s : State) : List Byte := cmac (vaultKey "VAULT-MAC" s) (byte i :: body)

/-- KEYLEN of a type; none for a type that does not exist (R338). -/
def keyLen (t : Nat) : Option Nat := [0, 16, 32, 32, 964, 388][t]?

/-- e of an RSA record is 65,537. -/
def rsaGood (t : Nat) (material : List Byte) : Bool :=
  if t = 4 then leField material 960 4 == 65537 else if t = 5 then leField material 384 4 == 65537 else true

/-- Bytes 0 to 999 of a record (R337). -/
def recordBody (typ dsl : Byte) (uses : Nat) (limit : Byte) (counter : Nat) (material : List Byte) : List Byte :=
  ascii "KSL1" ++ [typ, dsl] ++ leBytes 2 uses ++ [limit, 0, 0, 0] ++ leBytes 2 material.length ++ [0, 0]
    ++ leBytes 4 counter ++ List.replicate 12 0 ++ padTo 968 material

/-- The record of the slot still stands as it was written at manufacture. -/
def slotMade (i : Nat) (s : State) : Bool := s.flash.made.contains i

/-- TYPE and USES of slots 0 to 4 at manufacture (R343). -/
def madeKind (i : Nat) : Byte × Nat := [(5, 0x40), (4, 0x30), (5, 0x18), (5, 0x80), (4, 0x100)].getD i (0, 0)

/-- The record of a slot as it was written at manufacture. -/
def madeBody (i : Nat) (s : State) : List Byte :=
  let k := s.fused.keys.getD i ⟨0, 0, []⟩
  recordBody (madeKind i).1 k.dsl (madeKind i).2 k.limit 0 k.material

/-- Bytes 0 to 999 of a slot's record as the flash holds them. -/
def slotBody (i : Nat) (s : State) : List Byte := if slotMade i s then madeBody i s else flBytes (recOff i) 1000 s

/-- TAG holds; a record written at manufacture carries the TAG of its bytes. -/
def slotTagged (i : Nat) (s : State) : Bool :=
  slotMade i s
    || (isProgrammed (granuleOf (recOff i)) s && flBytes (recOff i + 1008) 16 s == recTag i (slotBody i s) s)

/-- A record as it stands in the flash. -/
structure SlotRec where
  erased : Bool
  /-- the fields are as R337 to R339 require -/
  good : Bool
  tagOk : Bool
  typ : Nat
  dsl : Byte
  uses : Nat
  limit : Nat
  counter : Word
  material : List Byte
  deriving DecidableEq, Repr

def slotRec (i : Nat) (s : State) : SlotRec :=
  let b := slotBody i s
  let t := (b.getD 4 0).toNat
  let len := (keyLen t).getD 0
  let read := readable (recOff i) 1000 s && readable (recOff i + 1008) 16 s
  { erased := !slotMade i s && !isProgrammed (granuleOf (recOff i)) s,
    good := read && b.take 4 == ascii "KSL1" && (keyLen t).isSome && (b.getD 5 0) &&& 0xE0 == 0
      && leField b 6 2 < 512 && (b.getD 8 0).toNat ≤ 128 && leField b 9 3 == 0 && leField b 12 2 == len
      && leField b 14 2 == 0 && (b.drop 20).take 12 == List.replicate 12 0
      && ((b.drop 32).drop len).all (· == 0) && rsaGood t (b.drop 32),
    tagOk := read && slotTagged i s,
    typ := t, dsl := b.getD 5 0, uses := leField b 6 2, limit := (b.getD 8 0).toNat, counter := leWord b 16,
    material := (b.drop 32).take len }

def SlotRec.exprst (r : SlotRec) : Bool := r.dsl.getLsbD 4
def SlotRec.dom (r : SlotRec) : Dom := r.dsl.extractLsb' 0 4
/-- The record and TAG hold. -/
def SlotRec.sound (r : SlotRec) : Bool := !r.erased && r.good && r.tagOk

/-- EXPIRY is programmed, or the slot is marked (R342). -/
def slotExpired (i : Nat) (s : State) : Bool :=
  isProgrammed (granuleOf (recOff i + 1000)) s || s.vault.expired.contains i

/-- USED: programmed granules of the log (R341). -/
def slotUsed (i : Nat) (s : State) : Nat :=
  ((usedGranules s).filter fun g => granuleOf (logOff i) ≤ g && g < granuleOf (logOff i) + 128).length

/-- The slot fails its checks: told each time it is used, and at each reset (R340). -/
def tagFail (i : Nat) (s : State) : State :=
  muslinFault pKEY 13 false 0 (raiseLog pKEY KEY_IRQ_RAW_TAGFAIL [byte i] s)

/-- Why a use of a slot is refused, by the codes of CRY_WRES: 2 empty or invalid, 3 USE, 4 LIMIT, 5 TAGFAIL, 6 EXPIRED. -/
def useRefusal (i need : Nat) (s : State) : Nat :=
  let r := slotRec i s
  if r.erased then 2
  else if !r.tagOk then 5
  else if !r.good || r.typ == 0 then 2
  else if slotExpired i s then 6
  else if !r.uses.testBit need then 3
  else if r.limit ≠ 0 ∧ r.limit ≤ slotUsed i s then 4
  else 0

/-- The flags of a refused use. -/
def useFlags (i code : Nat) (s : State) : State :=
  let r := slotRec i s
  if code = 4 then raise pKEY KEY_IRQ_RAW_LIMIT s
  else if !r.erased && !(r.good && r.tagOk) then tagFail i s
  else s

def useLoad : Nat := 4
def useKeyauth : Nat := 6
def useEvauth : Nat := 7
def useTransport : Nat := 8

/-! ## The queue (R347) -/

def syncBusy (s : State) : State := s.putBit pKEY KEY_STAT_BUSY (s.vault.queue != [])

/-- The next use log granule is programmed before the use; a log without an erased granule takes no more, and the use of a
slot without a LIMIT is made without one. -/
def consumeUse (i : Nat) (s : State) : State :=
  let s := s.setVault { s.vault with stage := .use i }
  askFlash precRaw (match (List.range 128).find? fun k => !isProgrammed (granuleOf (logOff i) + k) s with
    | some k => .program (logOff i + 8 * k) (List.replicate 8 0)
    | none => .batch [] [] 0) (.useLog i) s

/-- The answer to a request of CRY that fails: its STATUS alone. -/
def answerStatus (wslot st : Nat) (s : State) : State := sendSealed .muslin 1 wslot [byte st] s

/-- Plaintext of kind 1: record bytes 4–8 and 12–13, then MATERIAL (R350). -/
def slotPlain (typ : Nat) (dsl : Byte) (uses limit : Nat) (material : List Byte) : List Byte :=
  [byte typ, dsl] ++ leBytes 2 uses ++ [byte limit] ++ leBytes 2 material.length ++ material

/-- The request at the head has ended. -/
def vaultPop (s : State) : State :=
  syncBusy (s.setVault { s.vault with queue := s.vault.queue.drop 1, stage := .new })

/-- An update ends with a STATUS other than 0 (R346). -/
def updateRefused (st : Nat) (s : State) : State :=
  let s := ((s.put pKEY KEY_URES_STATUS st).put pKEY KEY_URES_SLOT (s.vault.msg.getD 20 0).toNat).put pKEY KEY_UCMD_GO 0
  raise pKEY KEY_IRQ_RAW_UREFUSED (vaultPop s)

/-- A clear of the event recorder ends without effect (R334). -/
def clearRefused (st : Nat) (s : State) : State :=
  let s := ((s.put pEVR EVR_CLR_STATUS st).put pEVR EVR_CLR_GO 0).put pEVR EVR_STAT_CLEARING 0
  raise pEVR EVR_IRQ_RAW_REFUSED { s with evr := { s.evr with clear := .none } }

/-! ## Blobs (R349) -/

/-- The first 32 bytes of a blob. -/
def blobHead (typ : Nat) (dom : Dom) (uses : Nat) (iv : List Byte) (s : State) : List Byte :=
  ascii "WKB1" ++ [byte typ, byte dom.toNat] ++ leBytes 2 uses ++ uidBytes s ++ iv ++ leBytes 2 ((keyLen typ).getD 0) ++ [0, 0]

def makeBlob (typ : Nat) (dom : Dom) (uses : Nat) (iv material : List Byte) (s : State) : List Byte :=
  let h := blobHead typ dom uses iv s
  let x := gcmEnc (vaultKey "VAULT-WRAP" s) iv h material
  h ++ padTo 64 x.1 ++ x.2

/-- The material of a blob that serves this module. -/
def openBlob (b : List Byte) (s : State) : Option (List Byte) :=
  let t := (b.getD 4 0).toNat
  let len := (keyLen t).getD 0
  if b.length = 112 && b.take 4 == ascii "WKB1" && 1 ≤ t && t ≤ 3 && (b.getD 5 0) &&& 0xF0 == 0
      && leField b 6 2 &&& 0xFFF0 == 0 && (b.drop 8).take 8 == uidBytes s && leField b 28 2 == len
      && leField b 30 2 == 0 && ((b.drop (32 + len)).take (64 - len)).all (· == 0) then
    gcmDec (vaultKey "VAULT-WRAP" s) ((b.drop 16).take 12) (b.take 32) ((b.drop 32).take len) (b.drop 96)
  else none

/-! ## Key updates (R345, R346) -/

def msgSlot (m : List Byte) : Nat := (m.getD 20 0).toNat
def msgType (m : List Byte) : Nat := (m.getD 21 0).toNat
def msgUses (m : List Byte) : Nat := leField m 24 2
def msgLen (m : List Byte) : Nat := leField m 26 2

/-- The slot may be updated, and with this TYPE (R345). -/
def updateSlot (m : List Byte) : Bool :=
  match msgSlot m with
  | 0 | 2 | 3 => msgType m == 5
  | k => 5 ≤ k && k < 32

/-- A fixed slot receives the USES that R345 gives it. -/
def fixedUses (m : List Byte) : Bool :=
  !(msgSlot m == 0 || msgSlot m == 2 || msgSlot m == 3) || msgUses m == (madeKind (msgSlot m)).2

/-- STATUS of step 1; 0 when the fields hold. -/
def updateFields (m : List Byte) (s : State) : Nat :=
  let r := slotRec 0 s
  if m.take 4 != ascii "KUP1" || leWord m 4 != hwType s || (m.drop 8).take 8 != uidBytes s
      || 1820 < 856 + msgLen m || !r.sound || r.typ != 5 || !r.uses.testBit useKeyauth || slotExpired 0 s then 1
  else if leField m 16 4 ≠ ctrValue 3 s + 1 then 2
  else if !updateSlot m || (keyLen (msgType m)).isNone then 4
  else if keyLen (msgType m) != some (msgLen m) || (m.getD 22 0) &&& 0xE0 != 0 || 128 < (m.getD 23 0).toNat
      || 512 ≤ msgUses m || !fixedUses m || (msgUses m).testBit 5 && (msgUses m).testBit 4 then 1
  else 0

def keyMsg (s : State) : List Byte := (List.range 512).flatMap fun i => wordBytes (s.reg pKEY (0x800 + 4 * i))

/-- What has become of the LOADVAULT of a half's ROM. -/
def setBootKey (h : Half) (k : BootKey) (s : State) : State :=
  match h with
  | .east => { s with boot := { s.boot with east := { s.boot.east with key := k } } }
  | .west => { s with boot := { s.boot with west := { s.boot.west with key := k } } }

def bootKey (h : Half) (s : State) : BootKey :=
  match h with
  | .east => s.boot.east.key
  | .west => s.boot.west.key

/-- The working slot of a half's ROM (R361). -/
def bootSlot (h : Half) : Nat := 60 + h.ix

/-- The head of the queue is begun. -/
def vaultServe (s : State) : State :=
  if s.vault.stage != .new then s
  else match s.vault.queue with
  | [] => s
  | .load v w :: _ =>
    let c := useRefusal v useLoad s
    let s := eccIn (recOff v) 0x400 s
    if c = 0 then consumeUse v s else vaultPop (answerStatus w c (useFlags v c s))
  | .boot h :: _ =>
    let c := useRefusal 2 useLoad s
    let s := eccIn (recOff 2) 0x400 s
    if c = 0 then consumeUse 2 s
    else
      let s := useFlags 2 c s
      vaultPop (if bootKey h s = .asked then setBootKey h .refused s else s)
  | .blob b w :: _ =>
    match openBlob b s with
    | some m => vaultPop (sendSealed .muslin 1 w (slotPlain (b.getD 4 0).toNat (b.getD 5 0) (leField b 6 2) 0 m) s)
    | none => vaultPop (answerStatus w 7 s)
  | .generate a w :: _ =>
    let t := CRY_WATTR_TYPE.get a
    let d := BitVec.ofNat 4 (CRY_WATTR_DOM.get a)
    let u := CRY_WATTR_USES.get a
    let (m, s) := drawBytes ((keyLen t).getD 0) s
    let (iv, s) := drawBytes 12 s
    vaultPop (sendSealed .muslin 1 w (slotPlain t (byte d.toNat) u 0 m ++ makeBlob t d u iv m s) s)
  | .update :: _ =>
    let st := updateFields s.vault.msg s
    let c := useRefusal 0 useKeyauth s
    let s := eccIn (recOff 0) 0x400 s
    if st ≠ 0 then updateRefused st (if c = 2 ∨ c = 5 then useFlags 0 c s else s)
    else if c ≠ 0 then updateRefused 3 (useFlags 0 c s)
    else consumeUse 0 s
  | .evauth :: _ =>
    let c := useRefusal 3 useEvauth s
    let s := eccIn (recOff 3) 0x400 s
    if c = 0 then consumeUse 3 s else clearRefused 2 (vaultPop (useFlags 3 c s))

/-- Requests served until one has to wait. -/
def vaultRunN : Nat → State → State
  | 0, s => s
  | n + 1, s => if s.vault.stage == .new && s.vault.queue != [] then vaultRunN n (vaultServe s) else s

def vaultRun (s : State) : State := vaultRunN s.vault.queue.length s

/-- A request arrives. -/
def vaultAsk (r : VaultReq) (s : State) : State :=
  vaultRun (syncBusy (s.setVault { s.vault with queue := s.vault.queue ++ [r] }))

/-- The payload of an update goes to CRY: slot 4 into the hidden slot, then EKEY, IV, CT and GTAG with bytes 0–59 before
them. -/
def sendTransport (s : State) : State :=
  let m := s.vault.msg
  if sealReady .muslin s then
    let r := slotRec 4 s
    let s := sendSealed .muslin 1 0xFE (slotPlain r.typ r.dsl r.uses r.limit r.material) s
    sendBulk .muslin 0xC1 (bytesWords (m.take (472 + msgLen m)))
      (s.setVault { s.vault with stage := .transport })
  else vaultRun (updateRefused 7 s)

/-- The use log granule has been programmed: the use is made. -/
def useDone (slot : Nat) (s : State) : State :=
  if s.vault.stage != .use slot then s
  else match s.vault.stage, s.vault.queue with
  | .use v, .load _ w :: _ =>
    let r := slotRec v s
    vaultRun (vaultPop (sendSealed .muslin 1 w (slotPlain r.typ r.dsl r.uses r.limit r.material) s))
  | .use _, .boot h :: _ =>
    let r := slotRec 2 s
    let x : WSlot := { valid := true, source := 0, dom := r.dom, uses := r.uses, vslot := 2, typ := r.typ, material := r.material }
    vaultRun (vaultPop (if bootKey h s = .asked then setBootKey h .loaded (s.setWslot (bootSlot h) x) else s))
  | .use 4, .update :: _ => sendTransport s
  | .use _, .update :: _ => s.setVault { s.vault with stage := .verify }
  | .use _, .evauth :: _ => s.setVault { s.vault with stage := .verify }
  | _, _ => s

/-- The signature of an update holds, or not: step 3 begins. -/
def updateVerified (good : Bool) (s : State) : State :=
  if !good then vaultRun (updateRefused 3 s)
  else
    let c := useRefusal 4 useTransport s
    let s := eccIn (recOff 4) 0x400 s
    if c = 0 then consumeUse 4 s else vaultRun (updateRefused 5 (useFlags 4 c s))

/-- The verifier's judgement of the update in progress. -/
def updateSigned (s : State) : Bool :=
  let m := s.vault.msg
  let body := m.take (472 + msgLen m)
  pssVerify (rsaPubOf (slotRec 0 s).material) body ((m.drop (472 + msgLen m)).take 384)

/-! ## The commit -/

/-- The record that an update writes, without EXPIRY and TAG. -/
def newRecord (m material : List Byte) : List Byte :=
  recordBody (m.getD 21 0) (m.getD 22 0) (msgUses m) (m.getD 23 0) (leField m 16 4) material

/-- A granule that a commit programs again: what it reads of one with a double-bit error is a free value (R308). -/
def keptGranule (g : Nat) (bs : List Byte) (s : State) : Nat × List Byte :=
  (8 * g, if granuleError g s = 2 then
      (List.range 8).map fun i => (Config.freeWord (s.freed + 8 * (g % 8192) + i)).extractLsb' 0 8
    else bs)

/-- The programmed granules of a range, to be programmed again. -/
def keepGranules (off n : Nat) (s : State) : List (Nat × List Byte) :=
  (granules off n).filterMap fun g => if isProgrammed g s then some (keptGranule g (flBytes (8 * g) 8 s) s) else none

/-- The programmed granules of a slot's record, to be programmed again. -/
def keepRecord (k : Nat) (s : State) : List (Nat × List Byte) :=
  if slotMade k s then
    let b := slotBody k s
    let part := fun (off : Nat) (bs : List Byte) =>
      (granules off bs.length).zipIdx.map fun g => keptGranule g.1 ((bs.drop (8 * g.2)).take 8) s
    part (recOff k) b ++ keepGranules (recOff k + 1000) 8 s ++ part (recOff k + 1008) (recTag k b s)
  else keepGranules (recOff k) 1024 s

/-- The errors that a commit meets where it reads the neighbours of its slot. -/
def commitRead (s : State) : State :=
  let i := msgSlot s.vault.msg
  eccIn (logOff (i / 4 * 4)) 0x1000 (eccIn (recOff (i / 4 * 4)) 0x1000 { s with freed := s.freed + 65536 })

/-- The steps of a commit as it starts: NC3 is incremented, with a roll-over its old sector is erased; record and log sector
are erased and programmed again with the neighbours unchanged (R346). -/
def commitSteps (s : State) : List FlashStep :=
  let m := s.vault.msg
  let i := msgSlot m
  let body := newRecord m s.vault.material
  let others := ((List.range 4).map (· + i / 4 * 4)).filter (· != i)
  let kept := others.flatMap fun k => keepRecord k s ++ keepGranules (logOff k) 1024 s
  let old := if (ctrNextInc 3 s).isSome then [] else [FlashStep.erase (ctrSector 3 (1 - ctrOther 3 s))]
  countSteps 3 s ++ old ++ [.erase (recOff i / sectorSize), .erase (logOff i / sectorSize)]
    ++ ((recOff i, body) :: (recOff i + 1008, recTag i body s) :: kept).map fun x => FlashStep.program x.1 x.2

/-- CRY has returned the material, or a failure (steps 3 to 5). -/
def updateReturned (plain : List Byte) (s : State) : State :=
  if s.vault.stage != .transport then s
  else if plain.getD 0 1 != 0 then vaultRun (updateRefused 5 s)
  else
    let material := plain.drop 1
    if sha256 material != (s.vault.msg.drop 28).take 32 || material.length != msgLen s.vault.msg then
      vaultRun (updateRefused 6 s)
    else
      let s := s.setVault { s.vault with material := material, stage := .commit }
      askFlash precRaw (.batch [] [] 2772) .keyCommit s

/-- The commit has been made: the update completes. -/
def updateDone (s : State) : State :=
  let i := msgSlot s.vault.msg
  let s := dropOps (fun u => u == .expiry i) s
  let s := s.setVault { s.vault with expired := s.vault.expired.filter (· != i) }
  let s := ((s.put pKEY KEY_URES_STATUS 0).put pKEY KEY_URES_SLOT i).put pKEY KEY_UCMD_GO 0
  vaultRun (vaultPop (raiseLog pKEY KEY_IRQ_RAW_UDONE (byte i :: leBytes 4 (ctrValue 3 s)) (counterWritten 3 false s)))

/-! ## Resets and the link (R342, R357) -/

/-- The checks of a reset: unsound slots are told, EXPRST slots expire. -/
def vaultCheck (s : State) : State :=
  let s := s.setVault { queue := [], stage := .new, msg := [], material := [], expired := [] }
  let slots := List.range 32
  let s := eccIn 0x190000 0x8000 s
  let s := forAll slots (fun i s => let r := slotRec i s
    if !r.erased && !r.sound then tagFail i s else s) s
  let live := slots.filter fun i => let r := slotRec i s
    r.sound && r.typ != 0 && r.exprst
  let s := s.setVault { s.vault with expired := live }
  let s := if live = [] then s else raise pKEY KEY_IRQ_RAW_EXPIRED s
  let s := forAll live (fun i s =>
    if isProgrammed (granuleOf (recOff i + 1000)) s then s
    else askFlash precRaw (.program (recOff i + 1000) (List.replicate 8 0)) (.expiry i) s) s
  s.put pKEY KEY_STAT_READY 1

/-- A request of CRY. -/
def fromCry : VaultReq → Bool
  | .load _ _ | .blob _ _ | .generate _ _ | .boot _ => true
  | _ => false

/-- The LOADVAULT that a half's ROM waits for is lost. -/
def loseBootKeys (s : State) : State :=
  let lose := fun (k : BootKey) => if k = .asked then BootKey.refused else k
  setBootKey .east (lose s.boot.east.key) (setBootKey .west (lose s.boot.west.key) s)

/-- The payload of an update has not reached CRY: the update ends with STATUS 7. -/
def vaultBroken (s : State) : State :=
  match s.vault.queue with
  | .update :: _ => if s.vault.stage == .transport then vaultRun (syncBusy (updateRefused 7 s)) else s
  | _ => s

/-- The link has gone down: CRY's requests are dropped; an update that has not reached its commit ends with STATUS 7. -/
def vaultLinkDown (s : State) : State :=
  let s := loseBootKeys s
  let v := s.vault
  let s := match v.queue with
    | r :: _ =>
      if fromCry r then
        s.setVault { v with queue := v.queue.filter fun r => !fromCry r, stage := .new }
      else if r == .update && v.stage != .commit then
        updateRefused 7 (s.setVault { v with queue := v.queue.filter fun r => !fromCry r })
      else s.setVault { v with queue := v.queue.filter fun r => !fromCry r }
    | [] => s
  let s := if s.vault.stage == .new then dropOps (fun u => match u with | .useLog _ => true | _ => false) s else s
  vaultRun (syncBusy s)

/-! ## Registers -/

/-- A write of KEY_UCMD starts an update while no request is in progress. -/
def keyWrite (off : Nat) (a : Access) (s : State) : State :=
  if off = 0x040 then
    if a.b KEY_UCMD_GO && !s.bit pKEY KEY_STAT_BUSY then
      let s := s.setVault { s.vault with msg := keyMsg s }
      vaultAsk .update (s.put pKEY KEY_UCMD_GO 1)
    else s
  else plainWrite pKEY off a s

/-- KEY_SATTR, KEY_SUSE and KEY_SCTR show the slot that KEY_SIDX names. -/
def keyRead (off : Nat) (s : State) : Word × State :=
  let i := s.g pKEY KEY_SIDX_SLOT
  let r := slotRec i s
  if off = 0x04C then
    (if r.erased then 0
     else word (r.sound.toNat * 2 ^ 31 + (slotExpired i s).toNat * 2 ^ 30 + r.exprst.toNat * 2 ^ 29 + r.dom.toNat * 2 ^ 25
      + r.uses % 512 * 2 ^ 16 + r.limit * 2 ^ 8 + r.typ % 8), s)
  else if off = 0x050 then (word (slotUsed i s), s)
  else if off = 0x054 then (if r.erased then 0 else r.counter, s)
  else plainRead pKEY off s

end Sys2Proof.Machine
end

