-- ==== Sys2Proof/Machine/Recorder.lean ====
section
/-! DEFINITION. The event recorder: slots, the write point, reading, the authorised clear, and the completion of the
verifier's work (R327 to R335). -/

namespace Sys2Proof.Machine

open Reg

def State.setEvr (s : State) (x : Recorder) : State := { s with evr := x }

/-! ## Slots (R330) -/

def slotOff (i : Nat) : Nat := 0x150000 + 32 * i
/-- Sector `k` of the ring as a sector of the array. -/
def ringSector (k : Nat) : Nat := 0x150 + k % 64
def slotProgrammed (i : Nat) (s : State) : Bool := (granules (slotOff i) 32).any fun g => isProgrammed g s

/-- The record in a slot, when its CRC holds and no granule has a double-bit error (R332). -/
def slotRecord (i : Nat) (s : State) : Option (List Byte) :=
  let b := flBytes (slotOff i) 32 s
  if readable (slotOff i) 32 s && leWord b 28 == crc32c (b.take 28) then some b else none

def recLocal (b : List Byte) : Bool := (b.getD 15 0).getLsbD 7
def recDom (b : List Byte) : Dom := (b.getD 15 0).extractLsb' 0 4

/-- The programmed slots of the ring, in slot order. -/
def ringSlots (s : State) : List Nat :=
  (List.range 64).flatMap fun k =>
    if sectorErased (ringSector k) s then []
    else ((List.range 128).map fun i => 128 * k + i).filter fun i => slotProgrammed i s

/-- The records of the ring whose CRC holds, in slot order. -/
def ringRecords (s : State) : List (Nat × List Byte) :=
  (ringSlots s).filterMap fun i => (slotRecord i s).map fun b => (i, b)

def syncCount (s : State) : State :=
  s.put pEVR EVR_COUNT_COUNT (ringSlots s).length

/-- The slot of the newest CLEARED record, by its MSEQ. -/
def clearedSlot (s : State) : Option Nat :=
  ((ringRecords s).foldl (fun a r =>
    if recLocal r.2 && leField r.2 14 1 == 0x86 && leField r.2 16 2 == 2 then
      match a with
      | some (m, i) => if m < leField r.2 0 4 then some (leField r.2 0 4, r.1) else some (m, i)
      | none => some (leField r.2 0 4, r.1)
    else a) none).map (·.2)

/-- The write point as the flash shows it: the first erased slot that follows a programmed one, sought from the newest CLEARED
record on. A clear that was interrupted leaves older records in front of a second such slot (R330, R334; log 132). -/
def findWritePoint (s : State) : Nat :=
  let first := (clearedSlot s).getD 0
  if ringSlots s = [] then 0
  else (((List.range 8192).map fun i => (first + i) % 8192).find? fun i =>
    !slotProgrammed i s && slotProgrammed ((i + 8191) % 8192) s).getD 0

/-- SEQ of EVS_NEXT and MSEQ as the ring gives them: one more than the highest (R328, R406). -/
def highestSeq (ofLocal : Bool) (s : State) : Option Nat :=
  (ringRecords s).foldl (fun a r =>
    if recLocal r.2 == ofLocal then some (max (leField r.2 0 4) (a.getD 0)) else a) none

/-! ## Writing (R329, R330) -/

/-- A LOCAL record of the recorder itself. -/
def ownRecord (sev : BitVec 3) (code : BitVec 16) (data : List Byte) (s : State) : List Byte × State :=
  let m := s.reg pEVR 0x058
  (recordBytes s m 0x86 (dslByte 0 sev true) code data, s.incr pEVR EVR_MSEQ_MSEQ)

/-- Space has returned: the LOST record goes ahead of later records. -/
def recordLost (s : State) : State :=
  if s.evr.dropped = 0 || 64 ≤ s.evr.queue.length then s
  else
    let (r, s) := ownRecord 1 0x0001 (leBytes 4 s.evr.dropped) s
    syncQlevel (s.setEvr { s.evr with queue := s.evr.queue ++ [r], dropped := 0 })

/-- The recorder asks for its next record to be written; the plan writes records first (R376). -/
def evrKick (s : State) : State :=
  if s.bit pEVR EVR_STAT_READY && s.evr.queue != [] && !opFor (fun u => u == .event) s then
    askFlash (if planRuns s then precPlan else precEvent) .log .event s
  else s

/-- The record at the head of the queue can be written now. -/
def logReady (s : State) : Bool :=
  s.bit pEVR EVR_STAT_READY && s.evr.queue != [] && s.evr.clear != .record
    && (s.evr.wp % 128 != 0 || sectorErased (ringSector (s.evr.wp / 128)) s)

/-- The sector that follows the one just entered is erased. -/
def eraseAhead (s : State) : State :=
  let k := ringSector (s.evr.wp / 128 + 1)
  if sectorErased k s || opFor (fun u => u == .aheadErase) s then s
  else askFlash precEvent (.erase k) .aheadErase s

/-- The write point moves past a slot. -/
def advanceWp (s : State) : State :=
  let s := s.setEvr { s.evr with wp := (s.evr.wp + 1) % 8192 }
  if s.evr.wp % 128 = 0 then eraseAhead s else s

/-- The head record leaves the queue for the slot at the write point. -/
def logSteps (s : State) : List FlashStep × State :=
  match s.evr.queue with
  | r :: rest =>
    let steps := [FlashStep.program (slotOff s.evr.wp) r]
    (steps, advanceWp (recordLost (syncQlevel (s.setEvr { s.evr with queue := rest }))))
  | [] => ([], s)

/-! ## The clear (R333, R334) -/

def evrMsg (s : State) : List Byte := (List.range 102).flatMap fun i => wordBytes (s.reg pEVR (0x200 + 4 * i))

/-- Bytes 0 to 23 of the message hold. -/
def clearFields (m : List Byte) (s : State) : Bool :=
  m.take 4 == ascii "EVC1" && leWord m 4 == hwType s && (m.drop 8).take 8 == uidBytes s
    && leField m 16 4 == ctrValue 4 s + 1 && leField m 20 4 == 0

/-- The recorder has found its write point (R330). -/
def wpKnown (s : State) : Bool := s.bit pEVR EVR_STAT_READY || s.evr.clear != .none

/-- A write of EVR_CLR.GO. The clear begins when the recorder knows its write point (log 132). -/
def evrClear (s : State) : State :=
  if s.bit pEVR EVR_STAT_CLEARING then s
  else if !wpKnown s then s.put pEVR EVR_CLR_GO 1
  else if !clearFields (evrMsg s) s then clearRefused 1 s
  else
    let s := ((s.put pEVR EVR_CLR_GO 1).put pEVR EVR_CLR_STATUS 0).put pEVR EVR_STAT_CLEARING 1
    vaultAsk .evauth (s.setEvr { s.evr with clear := .verify })

/-- The signature of the clear holds, or not. -/
def clearVerified (good : Bool) (s : State) : State :=
  if !good then clearRefused 2 (vaultRun (vaultPop s))
  else askCount 4 .clearCount (vaultRun (vaultPop (s.setEvr { s.evr with clear := .count })))

def clearSigned (s : State) : Bool :=
  let m := evrMsg s
  pssVerify (rsaPubOf (slotRec 3 s).material) (m.take 24) ((m.drop 24).take 384)

/-- NC4 has been incremented: the CLEARED record goes to slot 0 of the erased sector ahead. -/
def clearCounted (s : State) : State :=
  let wp := 128 * ((s.evr.wp / 128 + 1) % 64)
  let data := leBytes 4 (ctrValue 4 s) ++ (sha256 (slotRec 3 s).material).take 6
  let (r, s) := ownRecord 1 0x0002 data s
  askFlash precEvent (.program (slotOff wp) r) .cleared (s.setEvr { s.evr with wp := wp, clear := .record })

/-- Sectors of the ring in ring order from the one after sector `k`, without `k`. -/
def sectorsAfter (k : Nat) : List Nat := (List.range 63).map fun i => (k + 1 + i) % 64

/-- The next sector of a clear is erased; after the last one the clear is complete. -/
def clearNext (ks : List Nat) (s : State) : State :=
  match ks.filter fun k => !sectorErased (ringSector k) s with
  | k :: rest => askFlash precEvent (.erase (ringSector k)) .clearErase (s.setEvr { s.evr with clear := .erase (k :: rest) })
  | [] =>
    let s := (s.setEvr { s.evr with clear := .none }).put pEVR EVR_STAT_CLEARING 0
    let s := ((s.put pEVR EVR_CLR_GO 0).put pEVR EVR_CLR_STATUS 0).put pEVR EVR_STAT_READY 1
    raise pEVR EVR_IRQ_RAW_CLEARED (eraseAhead (syncCount s))

/-- The CLEARED record has been written: every other sector is erased, oldest first. -/
def clearWritten (s : State) : State :=
  let k := s.evr.wp / 128
  clearNext (sectorsAfter k) (syncCount (s.setEvr { s.evr with wp := s.evr.wp + 1 }))

/-- A sector of the clear has been erased. -/
def clearErased (s : State) : State :=
  match s.evr.clear with
  | .erase (_ :: ks) => clearNext ks (syncCount s)
  | _ => s

/-! ## After a reset (R328, R330, R334) -/

/-- The queue is lost, and MSEQ continues from the ring. -/
def recorderReset (s : State) : State :=
  let s := s.setEvr { queue := [], dropped := 0, wp := 0, clear := .none, read := none }
  syncCount (s.setReg pEVR 0x058 (word (match highestSeq true s with | some m => m + 1 | none => 0)))

/-- Sectors that hold records older than the newest CLEARED record, oldest first. -/
def olderSectors (s : State) : List Nat :=
  match clearedSlot s with
  | none => []
  | some c =>
    let w := s.evr.wp / 128
    ((sectorsAfter w).takeWhile fun k => k != c / 128).filter fun k => !sectorErased (ringSector k) s

/-- WRITE_POINT_FOUND (R330). -/
def execWritePointFound (s : State) : Host.Outcome State Fault Refusal :=
  ok s (if wpKnown s then s
  else
    let s := eccIn 0x150000 0x40000 (syncCount (s.setEvr { s.evr with wp := findWritePoint s }))
    match olderSectors s with
    | [] =>
      let s := eraseAhead (s.put pEVR EVR_STAT_READY 1)
      if s.bit pEVR EVR_CLR_GO then evrClear s else s
    | ks => clearNext ks (s.put pEVR EVR_STAT_CLEARING 1))

/-! ## The verifier (R334, R346) -/

/-- VERIFIER_DONE (R346): the verifier has judged the signature at the head of the vault's queue. -/
def execVerifierDone (s : State) : Host.Outcome State Fault Refusal :=
  ok s (match s.vault.stage, s.vault.queue with
  | .verify, .update :: _ => updateVerified (updateSigned s) s
  | .verify, .evauth :: _ => clearVerified (clearSigned s) s
  | _, _ => s)

/-! ## Reading (R331, R332) -/

/-- What a read finds. -/
inductive Found where
  | record (i : Nat) (b : List Byte)
  | bad (i : Nat)
  | end_
  deriving DecidableEq, Repr

/-- The slots of a search in order, judged one by one. -/
def searchSlots (filt : Option Dom) : List Nat → State → Found × State
  | [], s => (.end_, s)
  | i :: is, s =>
    if !slotProgrammed i s then searchSlots filt is s
    else
      let s := eccReport (granules (slotOff i) 32) s
      match slotRecord i s with
      | some b =>
        if filt.all (fun d => d == 0 || recDom b == d) then (.record i b, s) else searchSlots filt is s
      | none =>
        let s := raise pEVR EVR_IRQ_RAW_BADCRC (s.bump pEVR EVR_BADCNT_COUNT)
        if filt.isNone then (.bad i, s) else searchSlots filt is s

/-- The slots after `i` up to the write point. -/
def slotsAfter (i : Nat) (s : State) : List Nat :=
  ((List.range 8192).map fun k => (i + 1 + k) % 8192).takeWhile fun k => k != s.evr.wp

def searchOf (op slot : Nat) (s : State) : List Nat :=
  match op with
  | 1 => slotsAfter slot s
  | 2 => [slot]
  | _ => slotsAfter s.evr.wp s

/-- A running erase of a sector of the ring. -/
def eraseRuns (k : Nat) (s : State) : Bool := s.flash.running.any fun r => r.steps.contains (.erase (ringSector k))

/-- The outstanding read completes. -/
def readDone (op slot : Nat) (filt : Option Dom) (s : State) : State :=
  let (f, t) := searchSlots filt (searchOf op slot s) s
  let put := fun (v bad e : Nat) (s : State) =>
    ((s.put pEVR EVR_RSTAT_VALID v).put pEVR EVR_RSTAT_BADCRC bad).put pEVR EVR_RSTAT_END e
  let fill := fun (i : Nat) (b : List Byte) (s : State) =>
    forAll (List.range 8) (fun k s => s.setReg pEVR (0x060 + 4 * k) (leWord b (4 * k))) (s.put pEVR EVR_RSTAT_SLOT i)
  let t := match f with
    | .record i b => fill i b (put 1 0 0 t)
    | .bad i => fill i [] (put 0 1 0 t)
    | .end_ => put 0 0 1 t
  raise pEVR EVR_IRQ_RAW_RDONE ((t.setEvr { t.evr with read := none }).put pEVR EVR_RCMD_GO 0)

/-- A read of this operation completes, once the write point is known, unless an erase of the slot's sector is running (R331;
log 132). -/
def readRow (op : Nat) (s : State) : State :=
  match s.evr.read with
  | some (o, slot, filt) =>
    if o = op then
      let busy := match (searchSlots filt (searchOf o slot s) s).1 with
        | .record i _ | .bad i => eraseRuns (i / 128) s
        | .end_ => false
      if busy || !wpKnown s then s else readDone o slot filt s
    else s
  | none => s

/-- EVR_FIRST (R331): an outstanding FIRST completes. -/
def execEvrFirst (s : State) : Host.Outcome State Fault Refusal := ok s (readRow 0 s)
/-- EVR_NEXT (R331): an outstanding NEXT completes. -/
def execEvrNext (s : State) : Host.Outcome State Fault Refusal := ok s (readRow 1 s)
/-- EVR_AT (R331): an outstanding AT completes. -/
def execEvrAt (s : State) : Host.Outcome State Fault Refusal := ok s (readRow 2 s)

/-! ## Registers -/

/-- The filter of a requester (R331). -/
def readFilter (r : Requester) (s : State) : Option Dom :=
  if !r.sup then some r.dom
  else if s.bit pEVR EVR_RFILT_FEN then some (BitVec.ofNat 4 (s.g pEVR EVR_RFILT_FDOM)) else none

def evrWrite (off : Nat) (a : Access) (s : State) : State :=
  if off = 0x040 then
    let s := plainWrite pEVR off a s
    if a.b EVR_RCMD_GO && s.evr.read.isNone then
      let op := s.g pEVR EVR_RCMD_OP
      s.setEvr { s.evr with read := some (if op = 3 then 0 else op, s.g pEVR EVR_RCMD_RSLOT, readFilter a.req s) }
    else s
  else if off = 0x05C then (if a.b EVR_CLR_GO then evrClear s else s)
  else plainWrite pEVR off a s

end Sys2Proof.Machine
end

