-- ==== Sys2Proof/Machine/Cry.lean ====
section
/-! DEFINITION. The crypto engine on Damask: working slots, slot commands, the jobs of Q30, the transport of updates
(R346, R348 to R357). -/

namespace Sys2Proof.Machine

open Reg

def State.setCry (s : State) (x : Cry) : State := { s with cry := x }

/-! ## Working slots (R348) -/

def jobSlot (e : List Byte) : Nat := (e.getD 1 0).toNat

/-- A running job uses a working slot. -/
def slotInUse (w : Nat) (s : State) : Bool :=
  s.cry.sym.any (fun r => jobSlot r.entry == w) || s.cry.pk.any fun r => jobSlot r.entry == w

/-- A slot command ends with its STATUS. -/
def wcmdEnd (st : Nat) (s : State) : State :=
  match s.cry.wcmd with
  | none => s
  | some c =>
    let s := s.setCry { s.cry with wcmd := none }
    let s := ((s.put pCRY CRY_WRES_STATUS st).put pCRY CRY_WRES_WSLOT c.wslot).put pCRY CRY_WCMD_GO 0
    let s := if c.op = 3 then forAll (List.range 8) (fun i s => s.setReg pCRY (0x080 + 4 * i) 0) s else s
    raise pCRY (if st = 0 then CRY_IRQ_RAW_WDONE else CRY_IRQ_RAW_WERR) (s.put pCRY CRY_STAT_WBUSY 0)

/-- Attributes that GENERATE and IMPORT accept: TYPE 1 to 3, USES bits 4 to 8 zero. -/
def attrGood (a : Word) : Bool :=
  1 ≤ CRY_WATTR_TYPE.get a && CRY_WATTR_TYPE.get a ≤ 3 && CRY_WATTR_USES.get a < 16

/-- A request to the vault: OP, VSLOT, WSLOT, then CRY_WATTR. -/
def sendVault (op v w : Nat) (attr : Word) (s : State) : State :=
  sendBulk .damask 0xC1 (bytesWords ([byte op, byte v, byte w, 0] ++ wordBytes attr)) s

/-- The waiting slot command goes ahead once no running job uses its slot. -/
def wcmdGo (s : State) : State :=
  match s.cry.wcmd with
  | none => s
  | some c =>
    if c.sent || slotInUse c.wslot s then s
    else
      let sent := s.setCry { s.cry with wcmd := some { c with sent := true } }
      match c.op with
      | 0 => if sealReady .damask s then sendVault 0 c.vslot c.wslot 0 sent else wcmdEnd 8 s
      | 1 =>
        if !gsramRange c.addr 112 then wcmdEnd 1 s
        else if sealReady .damask s then sendSealed .damask 2 c.wslot (s.bytes c.addr 112) sent else wcmdEnd 8 s
      | 2 =>
        if !attrGood c.attr || !gsramRange c.addr 112 then wcmdEnd 1 s
        else if sealReady .damask s then sendVault 2 0 c.wslot c.attr sent else wcmdEnd 8 s
      | 3 =>
        if !attrGood c.attr then wcmdEnd 1 s
        else
          let t := CRY_WATTR_TYPE.get c.attr
          let m := ((List.range 8).flatMap fun i => wordBytes (s.reg pCRY (0x080 + 4 * i))).take ((keyLen t).getD 0)
          wcmdEnd 0 (s.setWslot c.wslot
            ⟨true, 3, BitVec.ofNat 4 (CRY_WATTR_DOM.get c.attr), CRY_WATTR_USES.get c.attr, 0, t, m⟩)
      | 4 => wcmdEnd 0 (s.setWslot c.wslot (emptySlot 0))
      | _ => wcmdEnd 1 s

/-- A write of CRY_WCMD: GO starts the command, or is dropped while one is in progress. -/
def wcmdWrite (a : Access) (s : State) : State :=
  let busy := s.bit pCRY CRY_STAT_WBUSY
  let t := plainWrite pCRY 0x040 a s
  if !a.b CRY_WCMD_GO then t
  else if busy then t.putBit pCRY CRY_WCMD_GO (s.bit pCRY CRY_WCMD_GO)
  else
    let c : WCmd :=
      { op := t.g pCRY CRY_WCMD_OP, wslot := t.g pCRY CRY_WCMD_WSLOT, vslot := t.g pCRY CRY_WCMD_VSLOT,
        addr := (t.reg pCRY 0x044).toNat, attr := t.reg pCRY 0x048, sent := false }
    wcmdGo ((t.setCry { t.cry with wcmd := some c }).put pCRY CRY_STAT_WBUSY 1)

/-! ## From the vault (R350) -/

/-- A sealed transfer of kind 1 at CRY: material for a working slot or the hidden slot, or the STATUS of a failure. -/
def cryKey (target : Nat) (p : List Byte) (s : State) : State :=
  let len := leField p 5 2
  let material := (p.drop 7).take len
  if target = 0xFE then s.setCry { s.cry with hidden := some material }
  else match s.cry.wcmd with
  | some c =>
    if !c.sent || c.wslot != target then s
    else if p.length = 1 then wcmdEnd (p.getD 0 0).toNat s
    else
      let x : WSlot :=
        { valid := true, source := c.op, dom := (p.getD 1 0).extractLsb' 0 4, uses := leField p 2 2,
          vslot := if c.op = 0 then c.vslot else 0, typ := (p.getD 0 0).toNat, material := material }
      let s := if c.op = 2 then s.wbytes c.addr ((p.drop (7 + len)).take 112) else s
      wcmdEnd 0 (s.setWslot target x)
  | none => s

/-- The payload of an update at CRY: K and the material recovered and returned; the hidden slot and K are cleared (R346). -/
def cryTransport (m : List Byte) (s : State) : State :=
  let n := msgLen m
  let plain := match s.cry.hidden with
    | none => [1]
    | some h =>
      match oaepDecrypt (rsaPrivOf h) ((m.drop 60).take 384) with
      | none => [1]
      | some k =>
        if k.length ≠ 32 then [1]
        else match gcmDec k ((m.drop 444).take 12) (m.take 60) ((m.drop 456).take n) ((m.drop (456 + n)).take 16) with
        | none => [1]
        | some x => (0 : Byte) :: x
  sendSealed .damask 3 (msgSlot m) plain (s.setCry { s.cry with hidden := none })

/-- A request of CRY as it arrives at Muslin. -/
def vaultRequest (b : List Byte) (s : State) : State :=
  match (b.getD 0 0xFF).toNat with
  | 0 => vaultAsk (.load ((b.getD 1 0).toNat % 32) (b.getD 2 0).toNat) s
  | 2 => vaultAsk (.generate (leWord b 4) (b.getD 2 0).toNat) s
  | _ => s

/-- The request that waits for the vault is lost: its command ends with STATUS 8. -/
def cryBroken (s : State) : State :=
  match s.cry.wcmd with
  | some c => if c.sent then wcmdEnd 8 s else s
  | none => s

/-- The link has gone down: a command that waits for the vault ends with STATUS 8. -/
def cryLinkDown (s : State) : State := cryBroken (s.setCry { s.cry with hidden := none })

/-! ## Jobs (R351 to R353) -/

/-- The fields of a request entry. -/
structure Job where
  op : Nat
  wslot : Nat
  dom : Nat
  src : Nat
  srcLen : Nat
  dst : Nat
  dstMax : Nat
  aad : Nat
  aadLen : Nat
  iv : List Byte
  aux : Nat
  tag : Nat
  zeros : Bool
  deriving DecidableEq, Repr

def jobOf (e : List Byte) : Job :=
  { op := (e.getD 0 0).toNat, wslot := jobSlot e, dom := (e.getD 2 0).toNat, src := leField e 4 4, srcLen := leField e 8 4,
    dst := leField e 12 4, dstMax := leField e 16 4, aad := leField e 20 4, aadLen := leField e 24 4,
    iv := (e.drop 28).take 16, aux := leField e 44 4, tag := leField e 48 2,
    zeros := e.getD 3 0 == 0 && (e.drop 50).all (· == 0) }

/-- Operations of the public-key unit. -/
def isPk (op : Nat) : Bool := 0x0D ≤ op && op ≤ 0x11
/-- Operations without a key. -/
def keyless (op : Nat) : Bool := op == 0x0C || op == 0x12
/-- Key types and the USES bit of an operation (R352). -/
def jobKey (op : Nat) : List Nat × Nat :=
  match op with
  | 0x01 | 0x03 | 0x05 | 0x07 => ([1, 2], 0)
  | 0x02 | 0x04 | 0x06 => ([1, 2], 1)
  | 0x08 => ([1, 2], 2)
  | 0x09 => ([1, 2], 3)
  | 0x0A => ([3], 2)
  | 0x0B => ([3], 3)
  | 0x0D => ([4], 2)
  | 0x0E => ([5], 3)
  | 0x0F => ([5], 0)
  | 0x10 => ([4], 1)
  | _ => ([4], 5)

/-- Bytes that an operation writes to DST, at most. -/
def outBytes (j : Job) : Nat :=
  match j.op with
  | 0x01 | 0x02 | 0x03 | 0x04 | 0x05 | 0x06 | 0x07 | 0x12 => j.srcLen
  | 0x0C => 32
  | 0x0F => 384
  | 0x11 => 524
  | _ => 0

/-- Bytes at AUX. -/
def auxBytes (op : Nat) : Nat :=
  match op with
  | 0x01 | 0x02 | 0x08 | 0x09 => 16
  | 0x0A | 0x0B => 32
  | 0x0D | 0x0E => 384
  | _ => 0

/-- The entry is a request that CRY carries out; otherwise FORMAT. -/
def jobFormat (j : Job) : Bool :=
  1 ≤ j.op && j.op ≤ 0x12 && j.zeros && j.dom < 16 && j.srcLen ≤ 0x800000
    && (if keyless j.op then j.wslot == 0xFF else j.wslot < 64)
    && outBytes j ≤ j.dstMax
    && (if 0x03 ≤ j.op && j.op ≤ 0x06 then j.srcLen % 16 == 0 else true)
    && (if j.op == 0x0F then j.srcLen ≤ 318 else if j.op == 0x10 then j.srcLen == 384 else if j.op == 0x11 then j.srcLen == 32
        else true)

/-- Every address of the entry lies in global SRAM, and so does each range, whether the OP uses it or not; otherwise ADDR
(R351). -/
def jobRanges (j : Job) : Bool :=
  gsramRange j.src (max 1 j.srcLen) && gsramRange j.dst (max 1 j.dstMax) && gsramRange j.aad (max 1 j.aadLen)
    && gsramRange j.aux (max 1 (auxBytes j.op))

/-- The 40 bytes that ATTEST reports of a half. -/
def measurement (h : Half) (s : State) : List Byte :=
  [byte (runSlot h s), 0, 0, 0] ++ wordBytes (s.reg pBOOT (infoOff h + 4))
    ++ (List.range 8).flatMap fun k => wordBytes (s.reg pBOOT (infoOff h + 0x10 + 4 * k))

def attestBody (nonce : List Byte) (s : State) : List Byte :=
  ascii "ATR1" ++ wordBytes (hwType s) ++ uidBytes s ++ leBytes 4 (ctrValue 1 s) ++ leBytes 4 (ctrValue 2 s)
    ++ leBytes 4 (ctrValue 3 s) ++ nonce ++ measurement .east s ++ measurement .west s

/-- The result of an operation: STATUS, bytes for DST, bytes for AUX, and the state with random bytes drawn. -/
def jobOutput (j : Job) (key : List Byte) (s : State) : (Nat × List Byte × List Byte) × State :=
  let m := s.bytes j.src j.srcLen
  let aad := s.bytes j.aad j.aadLen
  let aux := s.bytes j.aux (auxBytes j.op)
  let iv12 := j.iv.take 12
  let out := fun (d : List Byte) => ((0, d, ([] : List Byte)), s)
  let mac := fun (t : List Byte) => ((0, ([] : List Byte), t), s)
  let check := fun (b : Bool) => ((if b then 0 else 5, ([] : List Byte), ([] : List Byte)), s)
  match j.op with
  | 0x01 => let x := gcmEnc key iv12 aad m; ((0, x.1, x.2), s)
  | 0x02 => match gcmDec key iv12 aad m aux with
    | some p => out p
    | none => check false
  | 0x03 => out (aesCbcEnc key j.iv m)
  | 0x04 => out (aesCbcDec key j.iv m)
  | 0x05 => out (aesEcbEnc key m)
  | 0x06 => out (aesEcbDec key m)
  | 0x07 => out (Machine.aesCtr key j.iv m)
  | 0x08 => mac (cmac key m)
  | 0x09 => check (cmac key m == aux)
  | 0x0A => mac (hmac key m)
  | 0x0B => check (hmac key m == aux)
  | 0x0C => out (Machine.sha256 m)
  | 0x0D => let (salt, s) := drawBytes 32 s; ((0, [], pssSign (rsaPrivOf key) m salt), s)
  | 0x0E => check (pssVerify (rsaPubOf key) m aux)
  | 0x0F =>
    let (seed, s) := drawBytes 32 s
    match oaepEncrypt (rsaPubOf key) m seed with
    | some c => ((0, c, []), s)
    | none => ((1, [], []), s)
  | 0x10 => match oaepDecrypt (rsaPrivOf key) m with
    | some p => if p.length ≤ j.dstMax then out p else ((1, [], []), s)
    | none => check false
  | 0x11 =>
    let body := attestBody m s
    let (salt, s) := drawBytes 32 s
    ((0, body ++ pssSign (rsaPrivOf key) body salt, []), s)
  | _ => let (r, s) := drawBytes j.srcLen s; ((0, r, []), s)

/-- A job run: its checks in order, then its output. The domain is judged against the working slot (R355). -/
def runJob (e : List Byte) (s : State) : CryRun × State :=
  let j := jobOf e
  let x := s.wslot j.wslot
  let (types, use) := jobKey j.op
  let fail := fun (st : Nat) => ((⟨e, st, 0⟩ : CryRun), s)
  if !jobFormat j then fail 1
  else if !keyless j.op && (!x.valid || !types.contains x.typ) then fail 2
  else if !keyless j.op && (!x.uses.testBit use || (x.uses.testBit 5 && j.op != 0x11)) then fail 3
  else if !keyless j.op && x.dom.toNat != j.dom then
    (⟨e, 4, 0⟩, raiseWith pCRY CRY_IRQ_RAW_DOMAIN true (BitVec.ofNat 4 j.dom) (leBytes 2 j.tag) s)
  else if !jobRanges j then fail 6
  else
    let ((st, d, a), s) := jobOutput j x.material s
    (⟨e, st, d.length⟩, (s.wbytes j.dst d).wbytes j.aux a)

/-- The oldest staged job that a unit can run: one whose slot no command is about to fill. -/
def nextJob (pk : Bool) (s : State) : Option (List Byte) :=
  s.cry.staged.find? fun e =>
    let op := (e.getD 0 0).toNat
    isPk op == pk && !(s.cry.wcmd.any fun c => c.wslot == jobSlot e)

def syncCry (s : State) : State :=
  let s := s.put pCRY CRY_STAT_STAGED s.cry.staged.length
  (s.putBit pCRY CRY_STAT_SYMBUSY s.cry.sym.isSome).putBit pCRY CRY_STAT_PKBUSY s.cry.pk.isSome

def unitIdle (pk : Bool) (s : State) : Bool := if pk then s.cry.pk.isNone else s.cry.sym.isNone

/-- The unit starts its next job when that job has this operation. -/
def startOp (op : Nat) (s : State) : State :=
  let pk := isPk op
  match nextJob pk s with
  | some e =>
    if unitIdle pk s && (e.getD 0 0).toNat == op then
      let s := s.setCry { s.cry with staged := s.cry.staged.erase e }
      let (r, s) := runJob e s
      syncCry (s.setCry (if pk then { s.cry with pk := some r } else { s.cry with sym := some r }))
    else s
  | none => s

/-- CRY_JOB_STAGE (R354). -/
def execCryJobStage (s : State) : Host.Outcome State Fault Refusal :=
  ok s (match headA 30 s with
  | some e =>
    if s.bit pCRY CRY_CTRL_EN && s.cry.staged.length < 16 then
      syncCry (takeA 30 (s.setCry { s.cry with staged := s.cry.staged ++ [e] }))
    else s
  | none => s)

/-- The result of a job goes to the result ring (R353). -/
def jobResult (r : CryRun) (s : State) : State :=
  let j := jobOf r.entry
  let b := leBytes 2 j.tag ++ [byte r.status, byte j.op] ++ leBytes 4 r.outLen ++ leBytes 4 s.mtb
  let s := s.bump pCRY CRY_CNT_JOBS
  let s := if r.status = 0 then s else raise pCRY CRY_IRQ_RAW_JOBERR (s.bump pCRY CRY_CNT_ERRS)
  match pushB 30 b s with
  | some t => raise pCRY CRY_IRQ_RAW_JOBDONE t
  | none => raise pCRY CRY_IRQ_RAW_JOBERR s

/-- CRY_JOB_COMPLETE (R353): the job of a unit ends. A staged job whose OP does not exist ends with FORMAT. -/
def execCryJobComplete (pk : Bool) (s : State) : Host.Outcome State Fault Refusal :=
  ok s (match (if pk then s.cry.pk else s.cry.sym) with
  | some r =>
    let s := s.setCry (if pk then { s.cry with pk := none } else { s.cry with sym := none })
    wcmdGo (syncCry (jobResult r s))
  | none =>
    match nextJob pk s with
    | some e =>
      let op := (e.getD 0 0).toNat
      if op = 0 ∨ 0x12 < op then
        syncCry (jobResult ⟨e, 1, 0⟩ (s.setCry { s.cry with staged := s.cry.staged.erase e }))
      else s
    | none => s)

/-- AES_GCM_ENCRYPT (R352). -/
def execAesGcmEncrypt (s : State) : Host.Outcome State Fault Refusal := ok s (startOp 0x01 s)
/-- AES_GCM_DECRYPT (R352). -/
def execAesGcmDecrypt (s : State) : Host.Outcome State Fault Refusal := ok s (startOp 0x02 s)
/-- AES_CBC_ENCRYPT (R352). -/
def execAesCbcEncrypt (s : State) : Host.Outcome State Fault Refusal := ok s (startOp 0x03 s)
/-- AES_CBC_DECRYPT (R352). -/
def execAesCbcDecrypt (s : State) : Host.Outcome State Fault Refusal := ok s (startOp 0x04 s)
/-- AES_ECB_ENCRYPT (R352). -/
def execAesEcbEncrypt (s : State) : Host.Outcome State Fault Refusal := ok s (startOp 0x05 s)
/-- AES_ECB_DECRYPT (R352). -/
def execAesEcbDecrypt (s : State) : Host.Outcome State Fault Refusal := ok s (startOp 0x06 s)
/-- AES_CTR (R352). -/
def execAesCtr (s : State) : Host.Outcome State Fault Refusal := ok s (startOp 0x07 s)
/-- AES_CMAC_GENERATE (R352). -/
def execAesCmacGenerate (s : State) : Host.Outcome State Fault Refusal := ok s (startOp 0x08 s)
/-- AES_CMAC_VERIFY (R352). -/
def execAesCmacVerify (s : State) : Host.Outcome State Fault Refusal := ok s (startOp 0x09 s)
/-- HMAC_SHA_256_GENERATE (R352). -/
def execHmacSha256Generate (s : State) : Host.Outcome State Fault Refusal := ok s (startOp 0x0A s)
/-- HMAC_SHA_256_VERIFY (R352). -/
def execHmacSha256Verify (s : State) : Host.Outcome State Fault Refusal := ok s (startOp 0x0B s)
/-- SHA_256 (R352). -/
def execSha256 (s : State) : Host.Outcome State Fault Refusal := ok s (startOp 0x0C s)
/-- RSASSA_PSS_SIGN (R352). -/
def execRsassaPssSign (s : State) : Host.Outcome State Fault Refusal := ok s (startOp 0x0D s)
/-- RSASSA_PSS_VERIFY (R352). -/
def execRsassaPssVerify (s : State) : Host.Outcome State Fault Refusal := ok s (startOp 0x0E s)
/-- RSA_OAEP_ENCRYPT (R352). -/
def execRsaOaepEncrypt (s : State) : Host.Outcome State Fault Refusal := ok s (startOp 0x0F s)
/-- RSA_OAEP_DECRYPT (R352). -/
def execRsaOaepDecrypt (s : State) : Host.Outcome State Fault Refusal := ok s (startOp 0x10 s)
/-- ATTEST (R356). -/
def execAttest (s : State) : Host.Outcome State Fault Refusal := ok s (startOp 0x11 s)
/-- RANDOM (R352). -/
def execCryRandom (s : State) : Host.Outcome State Fault Refusal := ok s (startOp 0x12 s)

/-! ## Registers and resets -/

def cryWrite (off : Nat) (a : Access) (s : State) : State :=
  if off = 0x040 then wcmdWrite a s else plainWrite pCRY off a s

/-- CRY_WSATTR shows the slot that CRY_WSIDX names. -/
def cryRead (off : Nat) (s : State) : Word × State :=
  if off = 0x054 then
    let x := s.wslot (s.g pCRY CRY_WSIDX_SLOT)
    (word (x.valid.toNat * 2 ^ 31 + x.source * 2 ^ 29 + x.dom.toNat * 2 ^ 25 + x.uses % 512 * 2 ^ 16 + x.vslot * 2 ^ 8 + x.typ), s)
  else plainRead pCRY off s

/-- Working slots, hidden slot and staging set cleared (R357). -/
def cryReset : Cry := { slots := [], hidden := none, staged := [], sym := none, pk := none, wcmd := none }

end Sys2Proof.Machine
end

