-- ==== Sys2Proof/Machine/Serial.lean ====
section
/-! DEFINITION. RS-485 ports with Modbus RTU, OSDP and raw framing, and the service UART (R273 to R282). -/

namespace Sys2Proof.Machine

open Reg

/-! ## Ports -/

def serIdle (_ : Nat) : SerPort := { tx := none, rx := none, await := none, addr := 0, idleFrom := 0, turn := 0 }
def State.setComms (s : State) (x : Comms) : State := { s with comms := x }
def State.ser (s : State) (n : SerNo) : SerPort := tget serIdle s.comms.ser n.val
def State.setSer (s : State) (n : SerNo) (x : SerPort) : State :=
  s.setComms { s.comms with ser := tset serIdle s.comms.ser n.val x }

def serPage (n : SerNo) : Nat := pSER + n.val
def serMode (n : SerNo) (s : State) : Nat := s.g (serPage n) SER_CFG_MODE
/-- The port runs a mode; once Damask is going OFF it sends and receives nothing further (R281). -/
def serOn (n : SerNo) (s : State) : Bool := s.bit (serPage n) SER_CTRL_EN && serMode n s != 0 && !s.power.leaving
def serSlave (n : SerNo) (s : State) : Bool := serMode n s == 1 && s.bit (serPage n) SER_CFG_ROLE
/-- The Modbus master and the OSDP controller. -/
def serMaster (n : SerNo) (s : State) : Bool := (serMode n s == 1 && !s.bit (serPage n) SER_CFG_ROLE) || serMode n s == 2

/-- DIV as it acts (R274). -/
def serDiv (n : SerNo) (s : State) : Nat := min 3333334 (max 1333 (s.g (serPage n) SER_BAUD_DIV))

/-- Bits of a character: start, data, parity, stop. -/
def charBits (n : SerNo) (s : State) : Nat :=
  let p := serPage n
  if serMode n s = 2 then 10
  else
    let par := s.g p SER_CFG_PARITY
    1 + (if serMode n s = 3 && s.bit p SER_CFG_DATA7 then 7 else 8) + (if par = 1 ∨ par = 2 then 1 else 0)
      + (if s.bit p SER_CFG_STOP2 then 2 else 1)

/-- `halves` half bit times in MTB counts: a bit lasts DIV / 40 of them. -/
def halfBits (n : SerNo) (halves : Nat) (s : State) : Nat := serDiv n s * halves / 80

/-- Whole counts that a time in 80ths of a count takes. -/
def wholeCounts (x : Nat) : Nat := (x + 79) / 80

/-- t3.5 in 80ths of a count (R278): 38.5 bit times up to 19,200 bit/s, 175,000 counts above. -/
def t35 (n : SerNo) (s : State) : Nat := if 4000000000 ≤ 19200 * serDiv n s then serDiv n s * 77 else 175000 * 80

/-- The idle time before a transmission. -/
def serIdleTime (n : SerNo) (s : State) : Nat :=
  wholeCounts (if serMode n s = 1 then t35 n s else serDiv n s * (2 * charBits n s))

/-- Silence behind the last stop bit at a count, in 80ths of a count; and the first count with so much of it. -/
def SerRx.gap (x : SerRx) (t : Nat) : Nat := 80 * t - (80 * x.last + x.part)
def SerRx.silentAt (x : SerRx) (d : Nat) : Nat := wholeCounts (80 * x.last + x.part + d)

def serQueue (n : SerNo) : Nat := 24 + n.val
def serMs (n : SerNo) (f : Fld) (s : State) : Nat := 100000 * max 1 (s.g (serPage n) f)

/-! ## Receive entries (R276) -/

/-- An entry of the receive ring delivered, or discarded when the ring is full. -/
def serDeliver (n : SerNo) (kind status : Nat) (first last tag : Nat) (data : List Byte) (s : State) : State :=
  let p := serPage n
  let e := [byte kind, byte status] ++ leBytes 2 data.length ++ leBytes 4 first ++ leBytes 4 last ++ leBytes 2 tag ++ [0, 0] ++ data
  match pushB (serQueue n) e s with
  | none => raise p SER_IRQ_RAW_RINGOVF (s.bump p SER_CNT_RINGOVF)
  | some s =>
    let s := raise p SER_IRQ_RAW_RXFRAME s
    let s := if status = 0 then s else s.bump p SER_CNT_ERRS
    if 1 ≤ status ∧ status ≤ 4 then raise p SER_IRQ_RAW_FRAMEERR s else s

/-- The TIMEOUT entry of the awaited response. -/
def serTimeout (n : SerNo) (s : State) : State :=
  match (s.ser n).await with
  | some (tag, _) =>
    raise (serPage n) SER_IRQ_RAW_TIMEOUT (serDeliver n 0 5 0 0 tag [] (s.setSer n { s.ser n with await := none }))
  | none => s

/-- The TAG of a frame received: that of the request it answers; a frame that starts at or after the deadline comes after
the TIMEOUT entry and has TAG 0. -/
def serAnswer (n : SerNo) (x : SerRx) (s : State) : Nat × State :=
  match (s.ser n).await with
  | some (tag, d) =>
    if x.first < d then (tag, s.setSer n { s.ser n with await := none }) else (0, serTimeout n s)
  | none => (0, s)

/-- STATUS of a frame whose check `good` and whose data are known. -/
def serStatus (x : SerRx) (good : Bool) (data : List Byte) : Nat :=
  if x.badChar then 2 else if x.badGap then 3 else if 512 < data.length then 4 else if good then 0 else 1

/-! ## The frame in progress (R274, R277 to R280) -/

/-- What the port has received of a frame, and RXBUSY. -/
def State.setRx (s : State) (n : SerNo) (x : Option SerRx) : State :=
  (s.setSer n { s.ser n with rx := x }).putBit (serPage n) SER_STAT_RXBUSY x.isSome

/-- The Modbus frame in progress is delivered; a slave discards one that is not for it (R277, R278). -/
def endModbus (n : SerNo) (x : SerRx) (s : State) : State :=
  let s := s.setRx n none
  let data := x.bytes.take (x.bytes.length - 2)
  let good := 2 < x.bytes.length && leBytes 2 (crcModbus data).toNat == x.bytes.drop (x.bytes.length - 2)
  let st := serStatus x good data
  if serSlave n s then
    let a := (x.bytes.getD 0 0).toNat
    if a = 0 ∨ a = s.g (serPage n) SER_CFG_ADDR then serDeliver n 0 st x.first x.last 0 (data.take 512) s else s
  else
    let (tag, s) := serAnswer n x s
    serDeliver n 0 st x.first x.last tag (data.take 512) s

/-- The check of an OSDP packet holds (R279). -/
def osdpGood (b : List Byte) : Bool :=
  let crc := (b.getD 4 0).getLsbD 2
  leField b 2 2 == b.length && 5 + (if crc then 2 else 1) ≤ b.length
    && (if crc then leBytes 2 (crc16Osdp (b.take (b.length - 2))).toNat == b.drop (b.length - 2)
        else b.foldl (· + ·) (0 : Byte) == 0)

/-- The packet is complete: the length it names has come, or as many bytes as its header and check need, or one byte more
than an entry holds. -/
def osdpWhole (b : List Byte) : Bool :=
  5 ≤ b.length && min 515 (max (5 + (if (b.getD 4 0).getLsbD 2 then 2 else 1)) (leField b 2 2)) ≤ b.length

/-- The OSDP packet in progress is delivered when it is a reply of the command's address or of 0x7F. -/
def endOsdp (n : SerNo) (x : SerRx) (s : State) : State :=
  let s := s.setRx n none
  let a := x.bytes.getD 1 0
  if !a.getLsbD 7 || ((a &&& 0x7F) != 0x7F && (a &&& 0x7F) != (s.ser n).addr) then s
  else
    let check := if (x.bytes.getD 4 0).getLsbD 2 then 2 else 1
    let data := x.bytes.take (x.bytes.length - check)
    let (tag, s) := serAnswer n x s
    serDeliver n 0 (serStatus x (osdpGood x.bytes) data) x.first x.last tag (data.take 512) s

/-- The raw chunk in progress is delivered (R280). -/
def endRaw (n : SerNo) (x : SerRx) (s : State) : State :=
  serDeliver n 1 (if x.badChar then 2 else 0) x.first x.last 0 (x.bytes.take 512) (s.setRx n none)

/-- Silence in 80ths of a count that ends the frame in progress of a mode; none in OSDP. -/
def serSilence (n : SerNo) (s : State) : Option Nat :=
  if serMode n s = 1 then some (t35 n s)
  else if serMode n s = 3 then some (serDiv n s * (2 * charBits n s * max 1 (s.g (serPage n) SER_TIMER_GAP)))
  else none

/-- The frame in progress delivered as its mode frames it. -/
def endFrame (n : SerNo) (s : State) : State :=
  match (s.ser n).rx with
  | none => s
  | some x => if serMode n s = 1 then endModbus n x s else if serMode n s = 2 then endOsdp n x s else endRaw n x s

/-- The frame in progress is complete without any silence: an OSDP packet by its length, a raw chunk of 512 bytes. -/
def serWhole (n : SerNo) (s : State) : Bool :=
  match (s.ser n).rx with
  | none => false
  | some x => (serMode n s == 2 && osdpWhole x.bytes) || (serMode n s == 3 && 512 ≤ x.bytes.length)

/-- The frame in progress has ended by count `t`, at which the next character or transmission starts. -/
def serSettle (n : SerNo) (t : Nat) (s : State) : State :=
  if serWhole n s then endFrame n s
  else match (s.ser n).rx, serSilence n s with
  | some x, some d => if x.silentAt d ≤ t then endFrame n s else s
  | _, _ => s

/-- The majority of the middle three of 16 samples (R274; log 122). -/
def majority (b : BitVec 16) : Bool :=
  (b.getLsbD 7 && b.getLsbD 8) || (b.getLsbD 8 && b.getLsbD 9) || (b.getLsbD 7 && b.getLsbD 9)

/-- A character as it is received, and whether its parity or a stop bit is wrong. Samples that are missing read as ones. -/
def readChar (n : SerNo) (c : SerChar) (s : State) : Byte × Bool :=
  let p := serPage n
  let bit := fun (i : Nat) => majority (c.bits.getD i 0xFFFF)
  let len := if serMode n s = 3 && s.bit p SER_CFG_DATA7 then 7 else 8
  let ones := (List.range len).foldl (fun a i => a + (bit i).toNat) 0
  let value := (List.range len).foldl (fun a i => a + (bit i).toNat * 2 ^ i) 0
  let par := if serMode n s = 2 then 0 else s.g p SER_CFG_PARITY
  let hasPar := par == 1 || par == 2
  let parBad := hasPar && (ones + (bit len).toNat) % 2 != (if par = 1 then 0 else 1)
  let stops := if serMode n s != 2 && s.bit p SER_CFG_STOP2 then 2 else 1
  let stopBad := (List.range stops).any fun i => !bit (len + hasPar.toNat + i)
  (byte value, parBad || stopBad)

/-- A gap before the next character, in 80ths of a count, that marks the frame STATUS 3: t1.5 or more in Modbus RTU, GAP ms
or more in OSDP. -/
def longGap (n : SerNo) (gap : Nat) (s : State) : Bool :=
  if serMode n s = 1 then (if 4000000000 ≤ 19200 * serDiv n s then serDiv n s * 33 else 75000 * 80) ≤ gap
  else if serMode n s = 2 then 80 * serMs n SER_TIMER_GAP s ≤ gap
  else false

/-- One character on the line. The receiver discards it while the driver is enabled; the OSDP receiver hunts for 0x53. -/
def hearChar (n : SerNo) (c : SerChar) (s : State) : State :=
  let s := s.untilMtb c.stamp
  if !serOn n s || (s.ser n).tx.isSome then s
  else
    let s := serSettle n c.stamp s
    let last := c.stamp + halfBits n (2 * charBits n s) s
    let part := serDiv n s * (2 * charBits n s) % 80
    let (b, bad) := readChar n c s
    let s := s.setSer n { s.ser n with idleFrom := max (s.ser n).idleFrom (wholeCounts (80 * last + part)) }
    match (s.ser n).rx with
    | some x =>
      s.setRx n (some { x with
        bytes := x.bytes ++ [b], last := last, part := part, badChar := x.badChar || bad,
        badGap := x.badGap || longGap n (x.gap c.stamp) s })
    | none => if serMode n s = 2 && b != 0x53 then s else s.setRx n (some ⟨[b], c.stamp, last, part, bad, false⟩)

/-- The characters that have come since the last command of the port. -/
def hearLine (n : SerNo) (xs : List SerChar) (s : State) : State := forAll xs (hearChar n) s

/-! ## Received frames -/

/-- MODBUS_FRAME_END (R278): the characters up to the last of a frame, and t3.5 of silence. -/
def execModbusFrameEnd (n : SerNo) (xs : List SerChar) (s : State) : Host.Outcome State Fault Refusal :=
  ok s (let s := hearLine n xs s
  match (s.ser n).rx with
  | some x => if serOn n s && serMode n s == 1 then endModbus n x (s.untilMtb (x.silentAt (t35 n s))) else s
  | none => s)

/-- RESPONSE_TIMEOUT (R278): no response has started by the deadline. A packet of R279 that has stopped for GAP ms without
its end is given up (log 122). -/
def execResponseTimeout (n : SerNo) (s : State) (xs : List SerChar := []) : Host.Outcome State Fault Refusal :=
  ok s (let s := hearLine n xs s
  match (s.ser n).await with
  | some (_, d) =>
    let s := s.untilMtb d
    match (s.ser n).rx with
    | some x =>
      if d ≤ x.first then serTimeout n s
      else if serMode n s = 2 && x.last + serMs n SER_TIMER_GAP s ≤ s.mtb then serTimeout n (s.setRx n none)
      else s
    | none => serTimeout n s
  | none => s)

/-- BROADCAST_TURN (R278): TURN ms after a request to address 0 have passed. -/
def execBroadcastTurn (n : SerNo) (s : State) : Host.Outcome State Fault Refusal := ok s (s.untilMtb (s.ser n).turn)

/-- OSDP_PACKET_RECEIVE (R279): the characters up to the last check byte of a packet. -/
def execOsdpPacketReceive (n : SerNo) (xs : List SerChar) (s : State) : Host.Outcome State Fault Refusal :=
  ok s (let s := hearLine n xs s
  match (s.ser n).rx with
  | some x => if serOn n s && serMode n s == 2 && osdpWhole x.bytes then endOsdp n x s else s
  | none => s)

/-- RAW_CHUNK_CLOSE (R280): GAP character times of silence, or 512 bytes. -/
def execRawChunkClose (n : SerNo) (xs : List SerChar) (s : State) : Host.Outcome State Fault Refusal :=
  ok s (let s := hearLine n xs s
  match (s.ser n).rx with
  | some x =>
    if serOn n s && serMode n s == 3 then
      endRaw n x (if 512 ≤ x.bytes.length then s else s.untilMtb (x.silentAt ((serSilence n s).getD 0)))
    else s
  | none => s)

/-! ## Transmission (R275, R277 to R280) -/

/-- The entry holds what R276 and its mode require. -/
def serEntryGood (n : SerNo) (e : List Byte) (s : State) : Bool :=
  let len := leField e 2 2
  (e.getD 0 0) &&& 0xFE == 0 && e.getD 1 0 == 0 && 1 ≤ len && len ≤ 512 && leField e 4 8 == 0 && leField e 14 2 == 0
    && (serMode n s != 1 || len ≤ 254) && (serMode n s != 2 || (5 ≤ len && e.getD 16 0 == 0x53))

/-- The characters of an entry on the line, check bytes and mark included. -/
def serLine (n : SerNo) (data : List Byte) (s : State) : List Byte :=
  match serMode n s with
  | 1 => data ++ leBytes 2 (crcModbus data).toNat
  | 2 =>
    let crc := (data.getD 4 0).getLsbD 2
    let b := data.take 2 ++ leBytes 2 (data.length + if crc then 2 else 1) ++ data.drop 4
    let p := if crc then b ++ leBytes 2 (crc16Osdp b).toNat else b ++ [0 - b.foldl (· + ·) (0 : Byte)]
    if s.bit (serPage n) SER_CFG_OSDPMARK then 0xFF :: p else p
  | _ => data

/-- The next entry goes to the driver, half a bit before its first start bit; one that breaks its table is dropped. -/
def serSend (n : SerNo) (s : State) : State :=
  let p := serPage n
  match headA (serQueue n) s with
  | none => s
  | some e =>
    let s := takeA (serQueue n) s
    if !serEntryGood n e s then raise p SER_IRQ_RAW_FRAMEERR s
    else
      let data := (e.drop 16).take (leField e 2 2)
      let tx : SerTx :=
        { tag := leField e 12 2, expect := (e.getD 0 0).getLsbD 0,
          addr := if serMode n s = 2 then data.getD 1 0 &&& 0x7F else data.getD 0 0,
          line := serLine n data s, start := s.mtb + halfBits n 1 s }
      (s.setSer n { s.ser n with tx := some tx }).put p SER_STAT_TXBUSY 1

/-- SER_TRANSMIT_START (R275): the line has been silent for the idle time, and the port takes its next entry. A frame whose
end that silence is has been delivered; an OSDP packet in progress is given up (log 122). -/
def execSerTransmitStart (n : SerNo) (s : State) (xs : List SerChar := []) : Host.Outcome State Fault Refusal :=
  ok s (let s := hearLine n xs s
  let x := s.ser n
  if !serOn n s || x.tx.isSome || x.await.isSome then s
  else match headA (serQueue n) s with
  | none => s
  | some _ =>
    let s := s.untilMtb (max x.turn (x.idleFrom + serIdleTime n s))
    let s := serSettle n s.mtb s
    let s := if serMode n s = 2 then s.setRx n none else s
    serSend n s)

/-- SER_TRANSMIT_END (R275): the last stop bit has been sent; the driver is released. -/
def execSerTransmitEnd (n : SerNo) (s : State) : Host.Outcome State Fault Refusal :=
  ok s (match (s.ser n).tx with
  | none => s
  | some t =>
    let last := t.start + halfBits n (2 * charBits n s * t.line.length) s
    let s := (s.untilMtb last).put (serPage n) SER_STAT_TXBUSY 0
    let x : SerPort := { s.ser n with tx := none, idleFrom := last, addr := t.addr }
    let s := s.setSer n x
    if !serMaster n s then s
    else if serMode n s = 1 ∧ t.addr = 0 then
      s.setSer n { x with turn := last + 100000 * s.g (serPage n) SER_TIMER_TURN }
    else if t.expect then s.setSer n { x with await := some (t.tag, last + serMs n SER_TIMER_RESPTO s) }
    else s)

/-! ## Service UART (R282) -/

def syncSvc (s : State) : State :=
  (s.put pSVC SVC_STAT_RXLEVEL s.comms.svcRx.length).put pSVC SVC_STAT_TXFREE (64 - s.comms.svcTx.length)

/-- DIV of SVC as it acts: the nearest limit outside 4,340 to 416,667. -/
def svcDiv (s : State) : Nat := min 416667 (max 4340 (s.g pSVC SVC_BAUD_DIV))

/-- The ten bits of a byte on SVC in MTB counts. -/
def svcByteTime (s : State) : Nat := svcDiv s / 4

/-- SVC sends and receives; once Damask is going OFF it starts nothing further (R281). -/
def svcOn (s : State) : Bool := s.bit pSVC SVC_CTRL_EN && !s.power.leaving

/-- The byte at the head of the transmit FIFO starts when nothing else is on its way. -/
def svcKick (s : State) : State :=
  if svcOn s && s.comms.svcStart.isNone && s.comms.svcTx != [] then s.setComms { s.comms with svcStart := some s.mtb } else s

/-- SVC_BYTE_RECEIVE (R282): the last bit of a byte, which ends no earlier than a byte time after the one before. -/
def execSvcByteReceive (b : Byte) (s : State) : Host.Outcome State Fault Refusal :=
  ok s (if !svcOn s then s
  else
    let s := s.untilMtb (s.comms.svcRxEnd + svcByteTime s)
    let s := s.setComms { s.comms with svcRxEnd := s.mtb }
    if 64 ≤ s.comms.svcRx.length then raise pSVC SVC_IRQ_RAW_OVERRUN s
    else raise pSVC SVC_IRQ_RAW_RXDATA (syncSvc (s.setComms { s.comms with svcRx := s.comms.svcRx ++ [b] })))

/-- SVC_BYTE_SENT (R282): a byte time after its start the byte has been sent, and the next one starts. -/
def execSvcByteSent (s : State) : Host.Outcome State Fault Refusal :=
  ok s (match s.comms.svcTx with
  | [] => s
  | _ :: t =>
    if !s.bit pSVC SVC_CTRL_EN then s
    else
      let s := s.untilMtb (s.comms.svcStart.getD s.mtb + svcByteTime s)
      let s := svcKick (syncSvc (s.setComms { s.comms with svcTx := t, svcStart := none }))
      if t = [] then raise pSVC SVC_IRQ_RAW_TXEMPTY s else s)

/-! ## The way of Damask into OFF (R281, R282) -/

/-- The port completes the character in progress; its driver is released behind it. Nothing that was received is delivered. -/
def stopSer (n : SerNo) (s : State) : State :=
  let x := s.ser n
  let tx := x.tx.bind fun t =>
    if t.start ≤ s.mtb then
      let sent := (s.mtb - t.start) / max 1 (halfBits n (2 * charBits n s) s) + 1
      some { t with line := t.line.take sent, expect := false }
    else none
  ((s.setSer n { x with tx := tx, await := none }).putBit (serPage n) SER_STAT_TXBUSY tx.isSome).setRx n none

/-- The service UART completes the byte in progress. -/
def stopSvc (s : State) : State :=
  syncSvc (s.setComms { s.comms with svcTx := if s.comms.svcStart.isSome then s.comms.svcTx.take 1 else [] })

def stopComms (s : State) : State := stopSvc (forAll (List.finRange 4) stopSer s)

/-! ## Registers -/

/-- A write of a SER page: framing, rate and timers only while EN is 0; EN written 0 releases the driver. -/
def serWrite (n : SerNo) (off : Nat) (a : Access) (s : State) : State :=
  let p := serPage n
  if off = 0x040 ∨ off = 0x044 ∨ off = 0x048 then (if s.bit p SER_CTRL_EN then s else plainWrite p off a s)
  else if off = 0x008 then
    let s := plainWrite p off a s
    let on := s.bit p SER_CTRL_EN
    let s := s.putBit p SER_STAT_EN on
    if on then s
    else ((s.setSer n { s.ser n with tx := none, await := none, idleFrom := s.mtb }).put p SER_STAT_TXBUSY 0).setRx n none
  else plainWrite p off a s

def svcWrite (off : Nat) (a : Access) (s : State) : State :=
  if off = 0x048 then
    if s.comms.svcTx.length < 64 then
      svcKick (syncSvc (s.setComms { s.comms with svcTx := s.comms.svcTx ++ [a.val.extractLsb' 0 8] }))
    else s
  else if off = 0x008 then
    let s := plainWrite pSVC off a s
    if s.bit pSVC SVC_CTRL_EN then svcKick s else s.setComms { s.comms with svcStart := none }
  else plainWrite pSVC off a s

def svcRead (off : Nat) (s : State) : Word × State :=
  if off = 0x04C then
    match s.comms.svcRx with
    | b :: t => (0x100 ||| b.setWidth 32, syncSvc (s.setComms { s.comms with svcRx := t }))
    | [] => (0, s)
  else plainRead pSVC off s

end Sys2Proof.Machine
end

