-- ==== Sys2Proof/Machine/Ether.lean ====
section
/-! DEFINITION. The Ethernet ports, the switch with its VLANs, and time stamps (R283 to R288). -/

namespace Sys2Proof.Machine

open Reg

/-! ## Ports and VLANs -/

/-- EN of port 1 or 2, its status fields, its PVID. -/
def ethOn (p : Fin 2) (s : State) : Bool := s.bit pETH (if p = 0 then ETH_CTRL_P1EN else ETH_CTRL_P2EN)
def ethUp (p : Fin 2) (s : State) : Bool := s.bit pETH (if p = 0 then ETH_STAT_LINK1 else ETH_STAT_LINK2)
def pvid (p : Fin 2) (s : State) : Nat := s.g pESW (if p = 0 then ESW_PVID_PVID1 else ESW_PVID_PVID2)

def vlanOff (d : Nat) : Nat := 0x080 + 4 * d
def vlanValid (w : Word) : Bool := w.getLsbD 31
def vlanVid (w : Word) : Nat := (w.extractLsb' 0 12).toNat
/-- Port `k` (0 to 2) is a member. -/
def vlanMember (w : Word) (k : Nat) : Bool := w.getLsbD (12 + k)

/-- The domain of a VID: the valid entry that holds it. -/
def domainOf (vid : Nat) (s : State) : Option Nat :=
  (List.range 16).find? fun d => vlanValid (s.reg pESW (vlanOff d)) && vlanVid (s.reg pESW (vlanOff d)) == vid

/-! ## Frames -/

def etherType (b : List Byte) (i : Nat) : Nat := 256 * (b.getD i 0).toNat + (b.getD (i + 1) 0).toNat
def isTagged (b : List Byte) : Bool := etherType b 12 == 0x8100
/-- A frame without its tag. -/
def untagged (b : List Byte) : List Byte := if isTagged b then b.take 12 ++ b.drop 16 else b
/-- A frame with a tag; `pri` is PCP and DEI. -/
def tagged (vid pri : Nat) (b : List Byte) : List Byte :=
  b.take 12 ++ [0x81, 0x00, byte (pri * 16 + vid / 256), byte vid] ++ b.drop 12
def frameVid (b : List Byte) : Nat := if isTagged b then etherType b 14 % 4096 else 0
def framePcp (b : List Byte) : Nat := if isTagged b then etherType b 14 / 8192 else 0
/-- PCP and DEI of a frame's tag, which a forwarded frame keeps. -/
def framePri (b : List Byte) : Nat := if isTagged b then etherType b 14 / 4096 else 0
/-- A MAC control frame with the opcode PAUSE (IEEE 802.3). -/
def isPause (b : List Byte) : Bool := etherType (untagged b) 12 == 0x8808 && etherType (untagged b) 14 == 0x0001
/-- Bit 0 of the first byte: a group address. -/
def isGroup (mac : List Byte) : Bool := (mac.getD 0 0).getLsbD 0

/-- An IEEE 1588 event message in one of the three forms of R286. -/
def ptpEvent (b : List Byte) : Bool :=
  let t := etherType b 12
  let event := fun (i : Nat) => ((b.getD i 0xFF) &&& 0x0F) ≤ 3 && i < b.length
  if t = 0x88F7 then event 14
  else if t = 0x0800 then
    let ihl := 4 * ((b.getD 14 0) &&& 0x0F).toNat
    b.getD 23 0 == 17 && etherType b (14 + ihl + 2) == 319 && event (14 + ihl + 8)
  else if t = 0x86DD then b.getD 20 0 == 17 && etherType b 56 == 319 && event 62
  else false

/-! ## The switch (R284, R285) -/

/-- The address is learned on a port, or its entry refreshed; a full table learns no more. -/
def learn (vid : Nat) (mac : List Byte) (port : Nat) (s : State) : State :=
  let rest := s.comms.learned.filter fun x => !(x.vid == vid && x.mac == mac)
  if isGroup mac || 1024 ≤ rest.length then s
  else s.setComms { s.comms with learned := rest ++ [⟨vid, mac, port, s.mtb⟩] }

/-- The ports a frame of VLAN entry `w` leaves through. -/
def egress (w : Word) (from_ : Nat) (dst : List Byte) (s : State) : List Nat :=
  let members := (List.range 3).filter fun k => vlanMember w k && k != from_
  match (if isGroup dst then none else s.comms.learned.find? fun x => x.vid == vlanVid w && x.mac == dst) with
  | some x => members.filter fun k => k == x.port
  | none => members

/-- A transmit stamp into the FIFO of 16 (R286, R287). -/
def txStamp (port tag at_ : Nat) (s : State) : State :=
  if 16 ≤ s.comms.stamps.length then raise pETH ETH_IRQ_RAW_TSLOST s
  else s.setComms { s.comms with stamps := s.comms.stamps ++ [(port, tag, at_)] }

def rxDrop (s : State) : State := raise pETH ETH_IRQ_RAW_RXDROP (s.bump pETH ETH_CNT_RXDROP)

/-! ## The egress of a port (R284) -/

/-- MTB count from which port `k` takes its next frame. -/
def portFree (k : Nat) (s : State) : Nat := tget (fun _ => 0) s.comms.freeAt k

/-- Counts that a frame of `n` bytes takes on port `k`, with preamble, FCS and gap: 10, 100 or 1000 Mbit/s, 1000 on port 0. -/
def frameCounts (k n : Nat) (s : State) : Nat :=
  let bits := 8 * (n + 24)
  match (if k = 1 then s.g pETH ETH_STAT_SPEED1 else if k = 2 then s.g pETH ETH_STAT_SPEED2 else 2) with
  | 0 => 10 * bits
  | 1 => bits
  | _ => (bits + 9) / 10

/-- A frame leaves its port at count `at_`: into Q22, or a drop when the ring is full (R287); or on the wire, if the port's link is
up, with its stamp. -/
def ethSend (o : EthOut) (at_ : Nat) (s : State) : State :=
  let n := if o.port = 0 then o.bytes.length - 32 else o.bytes.length
  let s := s.setComms { s.comms with freeAt := tset (fun _ => 0) s.comms.freeAt o.port (at_ + frameCounts o.port n s) }
  if o.port = 0 then (pushB 22 o.bytes s).getD (rxDrop s)
  else if ethUp (if o.port = 1 then 0 else 1) s then
    let s := s.setComms { s.comms with wire := s.comms.wire ++ [(o.port, o.bytes)] }
    match o.tag with
    | some tag => txStamp o.port tag at_ s
    | none => s
  else s

/-- A frame arrives at its egress: it leaves at once when the port is free and none waits. -/
def ethOut (o : EthOut) (s : State) : State :=
  if portFree o.port s ≤ o.at_ && !s.comms.egress.any fun x => x.port == o.port then ethSend o o.at_ s
  else s.setComms { s.comms with egress := s.comms.egress ++ [o] }

/-- The frame that leaves at count `t`: PCP 6 and 7 before lower values, else in order of arrival. -/
def nextOut (t : Nat) (l : List EthOut) : Option EthOut :=
  let ready := l.filter fun o => o.at_ ≤ t
  match ready.find? fun o => 6 ≤ o.pcp with
  | some o => some o
  | none => ready.head?

/-- The frames waiting for port `k` leave it as it gets free, up to now. -/
def portPump (k : Nat) : Nat → State → State
  | 0, s => s
  | n + 1, s =>
    let mine := s.comms.egress.filter fun o => o.port == k
    match mine with
    | [] => s
    | o :: _ =>
      let t := max (portFree k s) o.at_
      match if t ≤ s.mtb then nextOut t mine else none with
      | some o => portPump k n (ethSend o t (s.setComms { s.comms with egress := s.comms.egress.erase o }))
      | none => s

/-- Every frame whose time has come leaves. -/
def ethPump (s : State) : State :=
  if s.comms.egress = [] then s else forAll [0, 1, 2] (fun k s => portPump k s.comms.egress.length s) s

/-- The switch at a base tick: the frames that the ports have sent since the last command of theirs. -/
def ethTick (s : State) : State :=
  if s.comms.egress = [] then s else ethPump (s.setComms { s.comms with wire := [] })

/-- A frame put on the wire of port 1 or 2: untagged where the PVID equals its VID. `pri` is PCP and DEI. -/
def putWire (k vid pri at_ : Nat) (tag : Option Nat) (b : List Byte) (s : State) : State :=
  let p : Fin 2 := if k = 1 then 0 else 1
  if ethUp p s then ethOut ⟨k, at_, pri / 2, tag, if pvid p s = vid then b else tagged vid pri b⟩ s else s

/-- A frame delivered to port 0 as its Q22 entry (R287). -/
def toQ22 (x : EthRx) (d vid : Nat) (b : List Byte) (s : State) : State :=
  let b := if b.length < 60 then padTo 60 b else b
  let e := leBytes 2 b.length
    ++ [byte (x.port.val + 1), byte (d + (if isTagged x.bytes then 16 else 0) + if ptpEvent b then 32 else 0)]
    ++ leBytes 2 (vid + 4096 * framePcp x.bytes) ++ [0, 0] ++ leBytes 8 x.stamp ++ List.replicate 16 0 ++ b
  ethOut ⟨0, s.mtb, framePcp x.bytes, none, e⟩ s

/-- ETH_FRAME_RECEIVE (R285). -/
def execEthFrameReceive (x : EthRx) (s : State) : Host.Outcome State Fault Refusal :=
  ok s (if !ethUp x.port s then s
  else
    let s := ethPump ((s.untilMtb x.stamp).setComms { s.comms with wire := [] })
    let n := x.bytes.length + 4
    if n < 64 || 1522 < n || 1514 < (untagged x.bytes).length || !x.fcsGood || isPause x.bytes then rxDrop s
    else if !s.bit pESW ESW_CTRL_EN then s
    else
      let port := x.port.val + 1
      let vid := if frameVid x.bytes = 0 then pvid x.port s else frameVid x.bytes
      match (domainOf vid s).filter fun d => vlanMember (s.reg pESW (vlanOff d)) port with
      | none => raise pESW ESW_IRQ_RAW_UNKNOWN s
      | some d =>
        let b := untagged x.bytes
        let s := learn vid ((b.drop 6).take 6) port s
        forAll (egress (s.reg pESW (vlanOff d)) port (b.take 6) s) (fun k s =>
          if k = 0 then toQ22 x d vid b s else putWire k vid (framePri x.bytes) s.mtb none b s) s)

/-- The Q23 entry holds what R287 requires. -/
def q23Good (e : List Byte) : Bool :=
  let len := leField e 0 2
  14 ≤ len && len ≤ 1514 && e.getD 2 0 == 0 && (e.getD 3 0) &&& 0xE0 == 0 && leField e 4 2 &&& 0x8FFF == 0
    && leField e 8 8 == 0 && ((e.drop 16).take 16).all (· == 0)

/-- ETH_TRANSMIT (R285): the next Q23 entry; `at1` and `at2` are the MTB counts of its delimiter on ports 1 and 2, if it does not
have to wait there for a frame before it. -/
def execEthTransmit (at1 at2 : Nat) (s : State) : Host.Outcome State Fault Refusal :=
  ok s (match headA 23 s with
  | none => s
  | some e =>
    let s := takeA 23 (ethPump (s.setComms { s.comms with wire := [] }))
    let drop := fun (s : State) => s.bump pETH ETH_CNT_TXDROP
    let d := ((e.getD 3 0) &&& 0x0F).toNat
    let w := s.reg pESW (vlanOff d)
    if !q23Good e || !s.bit pESW ESW_CTRL_EN then drop s
    else if !vlanValid w then drop (raise pESW ESW_IRQ_RAW_VIDERR s)
    else
      let b := (e.drop 32).take (leField e 0 2)
      let b := if b.length < 60 then padTo 60 b else b
      let s := learn (vlanVid w) ((b.drop 6).take 6) 0 s
      forAll ((egress w 0 (b.take 6) s).filter (· != 0)) (fun k s =>
        let p : Fin 2 := if k = 1 then 0 else 1
        if ethUp p s then
          let at_ := if k = 1 then at1 else at2
          putWire k (vlanVid w) (leField e 4 2 / 4096 % 8 * 2) at_ (if (e.getD 3 0).getLsbD 4 then some (leField e 6 2) else none) b
            (s.untilMtb at_)
        else s) s)

/-- The link of a port as it now stands; LINKCHG when it went up or down (R283). -/
def ethLink (p : Fin 2) (up fdx : Bool) (speed : Nat) (s : State) : State :=
  let was := ethUp p s
  let s := if p = 0 then
      ((s.putBit pETH ETH_STAT_LINK1 up).putBit pETH ETH_STAT_FDX1 (up && fdx)).put pETH ETH_STAT_SPEED1 (if up then speed else 0)
    else ((s.putBit pETH ETH_STAT_LINK2 up).putBit pETH ETH_STAT_FDX2 (up && fdx)).put pETH ETH_STAT_SPEED2 (if up then speed else 0)
  if up != was then raise pETH (if p = 0 then ETH_IRQ_RAW_LINKCHG1 else ETH_IRQ_RAW_LINKCHG2) s else s

/-- ETH_LINK_CHANGE (R283): no link comes up at a speed that does not exist, or at 1000 Mbit/s in half duplex. -/
def execEthLinkChange (port : Fin 2) (up fdx : Bool) (speed : BitVec 2) (s : State) : Host.Outcome State Fault Refusal :=
  ok s (if up && (!ethOn port s || speed = 3 || (speed = 2 && !fdx)) then s else let s := ethTick s; ethLink port up fdx speed.toNat s)

/-- The MTB count at which the next learned address is due. -/
def nextAge (s : State) : Option Nat :=
  s.comms.learned.foldl (fun a x => some (match a with | some t => min t (x.used + 30000000000) | none => x.used + 30000000000))
    none

/-- ADDRESS_AGEING (R284): an address not used for 300 s is forgotten. -/
def execAddressAgeing (s : State) : Host.Outcome State Fault Refusal :=
  ok s (match nextAge s with
  | some t =>
    let s := ethTick (s.untilMtb t)
    s.setComms { s.comms with learned := s.comms.learned.filter fun x => s.mtb < x.used + 30000000000 }
  | none => s)

/-! ## Registers -/

/-- A PHY whose EN is 0 has no link. -/
def ethWrite (off : Nat) (a : Access) (s : State) : State :=
  let s := plainWrite pETH off a s
  forAll [0, 1] (fun p s => if ethUp p s && !ethOn p s then ethLink p false false 0 s else s) s

/-- A read of ETH_TXTS_TAG removes the oldest stamp and latches it. -/
def ethRead (off : Nat) (s : State) : Word × State :=
  if off = 0x040 then
    match s.comms.stamps with
    | (port, tag, at_) :: rest =>
      (word (2 ^ 31 + port * 2 ^ 16 + tag),
       ((s.setComms { s.comms with stamps := rest }).setReg pETH 0x044 (word at_)).setReg pETH 0x048 (word (at_ / 2 ^ 32)))
    | [] => (0, s)
  else plainRead pETH off s

/-- A write of ESW_VLANd: a VID of 0 or 4,095, or one that another valid entry holds, is dropped with CFGERR (R285). -/
def eswWrite (off : Nat) (a : Access) (s : State) : State :=
  if 0x080 ≤ off ∧ off < 0x0C0 then
    if !a.req.sup then s
    else
      let t := plainWrite pESW off a s
      let w := t.reg pESW off
      let taken := vlanValid w && (List.range 16).any fun d =>
        vlanOff d != off && vlanValid (s.reg pESW (vlanOff d)) && vlanVid (s.reg pESW (vlanOff d)) == vlanVid w
      if vlanVid w = 0 || vlanVid w = 4095 || taken then raise pESW ESW_IRQ_RAW_CFGERR s else t
  else
    let s := plainWrite pESW off a s
    if s.bit pESW ESW_CTRL_EN then s else s.setComms { s.comms with learned := [] }

/-- Serial ports, UART, ports and switch as a Damask start leaves them. -/
def commsReset : Comms := { ser := [], svcTx := [], svcRx := [], svcStart := none, svcRxEnd := 0, learned := [], stamps := [], wire := [], egress := [], freeAt := [] }

end Sys2Proof.Machine
end

