-- ==== Sys2Proof/Machine/Faults.lean ====
section
/-! DEFINITION. The event sequencer's numbering, the interrupt sources and their routing, the watchdogs, and the writes of
the queue descriptors (R398 to R411). -/

namespace Sys2Proof.Machine

open Reg

/-! ## Supervisor roles (R69) -/

/-- Role r: 0 EPRI, 1 ESEC, 2 WPRI, 3 WSEC, as its byte of FAB_SUPV names it. -/
def roleByte (r : Nat) (s : State) : BitVec 8 := (s.reg pFAB 0x040).extractLsb' (8 * r) 8
def roleValid (r : Nat) (s : State) : Bool := (roleByte r s).getLsbD 7
def roleEng (r : Nat) (s : State) : EngNo := ⟨((roleByte r s).extractLsb' 0 6).toNat, BitVec.isLt _⟩
def roleHalf (r : Nat) : Half := if r < 2 then .east else .west
/-- Engine `e` holds role `r`. -/
def holdsRole (e : EngNo) (r : Nat) (s : State) : Bool := roleValid r s && roleEng r s == e

/-! ## Numbering (R405 to R409) -/

/-- LEVEL: events that wait for the recorder. -/
def syncEvsLevel (s : State) : State := s.put pEVS EVS_STAT_LEVEL s.ev.recWait.length

/-- The entry of R407. -/
def q29Entry (seq : Word) (e : Event) : List Byte :=
  wordBytes seq ++ leBytes 8 e.stamp ++ [e.source, dslByte e.dom e.severity e.recorded] ++ leBytes 2 e.code.toNat
    ++ padTo 10 e.data ++ [if e.recorded then 1 else 0, 0] ++ wordBytes (if e.recorded then e.mseq else 0)

/-- Q29 takes the entry: nothing while ring B is disabled, a loss when it is full. -/
def toQ29 (entry : List Byte) (s : State) : State :=
  if !(ringB s 29).enabled then s
  else match pushB 29 entry s with
    | some s => s
    | none => raise pEVS EVS_IRQ_RAW_Q29LOST (s.bump pEVS EVS_CNT_Q29LOST)

/-- The words of transfer XID 0x04: SEQ, bytes 14 to 27 of the record, padded to 5 words (R31, R327). -/
def recordWords (n : Numbered) : List Word :=
  bytesWords (wordBytes n.seq ++ [n.ev.source, dslByte n.ev.dom n.ev.severity false] ++ leBytes 2 n.ev.code.toNat
    ++ padTo 10 n.ev.data ++ [0, 0])

/-- A numbered event goes to the recorder; while the link is not UP at most 1,024 wait (R408). -/
def toRecorder (n : Numbered) (s : State) : State :=
  if s.linkUp .damask then sendBulk .damask 0x04 (recordWords n) s
  else if s.ev.recWait.length < 1024 then
    syncEvsLevel { s with ev := { s.ev with recWait := s.ev.recWait ++ [n] } }
  else State.bump { s with ev := { s.ev with recLost := s.ev.recLost + 1 } } pEVS EVS_CNT_RECLOST

/-- EVS numbers an event: Q29, and the recorder unless Muslin has recorded it. -/
def numberEvent (e : Event) (s : State) : State :=
  let seq := s.reg pEVS 0x040
  let s := toQ29 (q29Entry seq e) (s.setReg pEVS 0x040 (seq + 1))
  if e.recorded then s else toRecorder ⟨seq, e⟩ s

/-- EVS takes the next event, once it has started (R405, R406). -/
def execEventNumber (s : State) : Host.Outcome State Fault Refusal :=
  ok s (match s.ev.waiting with
    | e :: rest =>
      if s.bit pEVS EVS_STAT_SEQVALID then numberEvent e { s with ev := { s.ev with waiting := rest } } else s
    | [] => s)

/-- The start of the sequencer: EVS_NEXT from the recorder, and SEQSTART before every other event (R406, R409). -/
def execSequencerStart (s : State) : Host.Outcome State Fault Refusal :=
  ok s (if s.linkUp .damask && s.bit pEVR EVR_STAT_READY && !s.bit pEVS EVS_STAT_SEQVALID then
    let seq := match highestSeq false s with | some n => word (n + 1) | none => 0
    let s := (s.setReg pEVS 0x040 seq).put pEVS EVS_STAT_SEQVALID 1
    numberEvent
      { stamp := s.mtb, source := 0x08, dom := 0, severity := 1, code := 0x0003, data := wordBytes seq ++ leBytes 6 s.mtb,
        rank := 0, ready := s.mtb, recorded := false, mseq := 0 } s
  else s)

/-- After UP: the waiting events go to the recorder in order, and the count of those never recorded is reported. -/
def evsLinkUp (s : State) : State :=
  let w := s.ev.recWait
  let s := forAll w toRecorder (syncEvsLevel { s with ev := { s.ev with recWait := [] } })
  let n := s.ev.recLost
  if n = 0 then s
  else raiseLog pEVS EVS_IRQ_RAW_RECLOST (leBytes 4 (min n 0xFFFFFFFF)) { s with ev := { s.ev with recLost := 0 } }

/-- The event that a transfer of XID 0x04 carries; its stamp has gone to Q29 before. -/
def numberedOf (ws : List Word) : Numbered :=
  let b := wordsBytes ws
  { seq := ws.getD 0 0
    ev := { stamp := 0, source := b.getD 4 0, dom := (b.getD 5 0).extractLsb' 0 4,
            severity := (b.getD 5 0).extractLsb' 4 3, code := BitVec.ofNat 16 (leField b 6 2), data := (b.drop 8).take 10,
            rank := 0, ready := 0, recorded := false, mseq := 0 } }

/-- Link down on Damask: the events on their way to the recorder wait again, in order (R36, R408). -/
def evsLinkDown (flight : List Packet) (s : State) : State :=
  let back := (flight.filter fun p => p.type == tBulk && p.xid == 0x04).map fun p => numberedOf (p.data.drop 1)
  let all := back ++ s.ev.recWait
  let s := { s with ev := { s.ev with recWait := all.take 1024, recLost := s.ev.recLost + (all.length - 1024) } }
  syncEvsLevel (s.bump pEVS EVS_CNT_RECLOST (all.length - 1024))

/-! ## Interrupt sources (R401 to R403) -/

/-- An engine of half `h` that may take jobs of the deques at all. -/
def takesJobs (e : EngNo) (s : State) : Bool := !isSupervisor e s || supervisorJobs e s

/-- Qn holds a job that no engine of its half may take. -/
def stuckQueue (n : Nat) (s : State) : Bool :=
  let h := if n < 8 then Half.east else Half.west
  let mine := allEngines.filter fun e => halfOf e == h && takesJobs e s
  (List.range 4).any fun k => (s.deque (dequeKey (n % 8) h k)).any fun j =>
    mine.all fun e => excluded e s || avoids e s j

def anyPend (ps : List Nat) (s : State) : Bool := ps.any fun p => s.irqPend p != 0

/-- Source `n` is asserted. -/
def sourceOn (n : Nat) (s : State) : Bool :=
  if n < 16 then stuckQueue n s
  else if n < 32 then (ringB s n).level != 0
  else if n < 64 then
    match n with
    | 32 => anyPend [pFAB] s
    | 33 => anyPend [pMTB] s
    | 34 => anyPend [pSCH] s
    | 35 => anyPend [pIMG] s
    | 36 => anyPend [pDOM] s
    | 37 => anyPend [pEVS] s
    | 38 => anyPend [pBOOT] s
    | 39 => anyPend [pPRF] s
    | 40 => anyPend [pXFL] s
    | 41 => anyPend [pCRY] s
    | 42 => anyPend [pDDL] s
    | 43 => anyPend [pENG, pENG + 1, pENG + 2, pENG + 3] s
    | 44 => anyPend [pENG + 4, pENG + 5, pENG + 6, pENG + 7] s
    | 45 => anyPend [pETH, pESW] s
    | 46 => anyPend [pSER, pSER + 1, pSER + 2, pSER + 3, pSVC] s
    | 47 => anyPend [pWDT] s
    | 48 => anyPend [pFB] s
    | 49 => anyPend [pFB + 1] s
    | 50 => anyPend [pFBT] s
    | 51 => anyPend [pRIO] s
    | 52 => anyPend [pQMG] s
    | _ => false
  else if n < 85 then s.ev.levels.getLsbD (n - 64)
  else if n < 96 then false
  else if n < 112 then (s.irqPend pFLT).getLsbD (n - 96)
  else if n < 128 then s.ev.sw.getLsbD (n - 112)
  else false

/-- INT_PENDk. -/
def pendWord (k : Nat) (s : State) : Word :=
  word ((List.range 32).foldl (fun a i => a + if sourceOn (32 * k + i) s then 2 ^ i else 0) 0)

/-- The engine to which a source is delivered now: its role, or the secondary that has taken over, or the primary of the
half when that role is not VALID; none while EN is 0 or the half is not in RUN (R399, R403). -/
def routeOf (n : Nat) (s : State) : Option EngNo :=
  let nib := (s.reg pINT (0x100 + 4 * (n / 8))).extractLsb' (4 * (n % 8)) 4
  let role := (nib.extractLsb' 1 2).toNat
  let failed := if role < 2 then s.bit pINT INT_STAT_EFAIL else s.bit pINT INT_STAT_WFAIL
  let role := if role % 2 = 0 && failed then role + 1 else role
  let role := if roleValid role s then role else role / 2 * 2
  if nib.getLsbD 3 && halfRuns (roleHalf role) s && roleValid role s then some (roleEng role s) else none

/-- The source that a supervisor engine is offered: the lowest-numbered one routed to it. -/
def offered (e : EngNo) (s : State) : Option Nat :=
  (List.range 128).find? fun n => sourceOn n s && routeOf n s == some e

/-- Writes of INT: the software sources; everything else as its access code says. -/
def intWrite (off : Nat) (a : Access) (s : State) : State :=
  let v := a.val.extractLsb' 0 16
  if off = 0x050 then { s with ev := { s.ev with sw := s.ev.sw ||| v } }
  else if off = 0x054 then { s with ev := { s.ev with sw := s.ev.sw &&& ~~~v } }
  else plainWrite pINT off a s

def intRead (off : Nat) (s : State) : Word × State :=
  if 0x040 ≤ off ∧ off < 0x050 then (pendWord ((off - 0x040) / 4) s, s) else plainRead pINT off s

/-! ## Watchdogs (R398, R399) -/

def wdtIdle (_ : Nat) : Watchdog := ⟨false, 0⟩
def State.wdt (s : State) (r : Nat) : Watchdog := tget wdtIdle s.wdts r
def State.setWdt (s : State) (r : Nat) (x : Watchdog) : State := { s with wdts := tset wdtIdle s.wdts r x }

def stageFld (r : Nat) : Fld := ⟨0x00C, 2 * r, 2⟩
def wdtCfg (f : Fld) (r : Nat) : Fld := f.at 4 r

/-- TIMEOUT in counts; 0 acts as 1 ms. -/
def wdtTimeout (r : Nat) (s : State) : Nat := 100000 * max 1 (s.g pWDT (wdtCfg WDT_CFG_TIMEOUT r))

/-- A new interval of watchdog `r`, at stage 0. -/
def wdtOpen (r : Nat) (s : State) : State :=
  (s.setWdt r ⟨true, s.mtb + wdtTimeout r s⟩).put pWDT (stageFld r) 0

/-- Each watchdog starts when EN and VALID have come together, and stops when either goes. -/
def wdtSync (s : State) : State :=
  forAll (List.range 4) (fun r s =>
    let run := s.bit pWDT (wdtCfg WDT_CFG_EN r) && roleValid r s
    if run && !(s.wdt r).running then wdtOpen r s
    else if !run then (s.setWdt r (wdtIdle r)).put pWDT (stageFld r) 0
    else s) s

/-- INT_STAT.EFAIL or WFAIL. -/
def failFld : Half → Fld
  | .east => INT_STAT_EFAIL
  | .west => INT_STAT_WFAIL

/-- An interval closes without a kick: stage 1, class 5, and the secondary takes over from a failed primary. -/
def wdtStage1 (r : Nat) (s : State) : State :=
  let s := (s.setWdt r ⟨true, (s.wdt r).close + wdtTimeout r s⟩).put pWDT (stageFld r) 1
  let s := raise pWDT ⟨0x010, r, 1⟩ s
  let taken := r % 2 = 0 && roleValid (r + 1) s
  let s := if taken then s.put pINT (failFld (roleHalf r)) 1 else s
  raiseFault 5 taken (roleEng r s).val 0 s

/-- The watchdogs of a half's roles stop, with EN cleared (R413). -/
def wdtHalfBoot (h : Half) (s : State) : State :=
  let r := 2 * h.ix
  let s := (s.put pWDT (wdtCfg WDT_CFG_EN r) 0).put pWDT (wdtCfg WDT_CFG_EN (r + 1)) 0
  (wdtSync s).put pINT (failFld h) 0

/-! ## FAB_SUPV (R69) -/

/-- ENG_STAT.SUPV of every cluster. -/
def syncSupv (s : State) : State :=
  forAll allEngines (fun e s => s.put (engPage e) ⟨0x00C, 16 + laneOf e, 1⟩ (isSupervisor e s).toNat) s

/-- An engine that has been named waits in SLEEP in supervisor mode; one that is named no longer idles. -/
def settleRole (e : EngNo) (s : State) : State :=
  let x := s.eng e
  if isSupervisor e s && x.mode == .idle then setMode e .sleep (s.setEng e { x with fl := setBit x.fl flS true })
  else if !isSupervisor e s && x.mode == .sleep then setMode e .idle (s.setEng e { x with fl := setBit x.fl flS false })
  else s

/-- The four bytes have taken the value `w`: primaries are always VALID. -/
def setSupv (w : Word) (s : State) : State :=
  wdtSync (forAll allEngines settleRole (syncSupv (s.setReg pFAB 0x040 (w ||| 0x00800080))))

/-- A write of FAB_SUPV: a byte that names an engine outside its role's half is ignored and sets SUPVERR. -/
def supvWrite (a : Access) (s : State) : State :=
  if !a.req.sup then s
  else
    let v := a.val ||| 0x00800080
    let bad := fun r => (v.getLsbD (8 * r + 7) && (v.extractLsb' (8 * r) 6).toNat / 32 != r / 2 : Bool)
    let mask := fun r => if bad r then (0 : Word) else word (0xFF * 2 ^ (8 * r))
    let m := mask 0 ||| mask 1 ||| mask 2 ||| mask 3
    let s := setSupv ((s.reg pFAB 0x040 &&& ~~~m) ||| (v &&& m)) s
    if bad 0 || bad 1 || bad 2 || bad 3 then raise pFAB FAB_IRQ_RAW_SUPVERR s else s

/-! ## QMG (R411) -/

/-- A descriptor write of queue `q` at offset `r` of its block. -/
def ringWrite (q r : Nat) (off : Nat) (a : Access) (s : State) : State :=
  let hasA := (ringSizes q).1 != 0
  let hasB := (ringSizes q).2 != 0
  let ra := ringA s q
  let rb := ringB s q
  let refuse := fun s => if a.req.sup then raise pQMG QMG_IRQ_RAW_CFGERR s else s
  if r = 0x00 then (if !hasA then s else if ra.enabled then refuse s else plainWrite pQMG off a s)
  else if r = 0x08 then (if !hasB then s else if rb.enabled then refuse s else plainWrite pQMG off a s)
  else if r = 0x04 then (if hasA then plainWrite pQMG off a s else s)
  else if r = 0x0C then (if hasB then plainWrite pQMG off a s else s)
  else if r = 0x10 then
    let m := (if hasA then (0x80F00000 : Word) else 0) ||| (if hasB then 0x400F0000 else 0)
    let v := a.val &&& m
    let new := fun (f : Fld) => f.get v
    if (ra.enabled && new QMG_QCFG_ALOG2 != s.g pQMG (qf QMG_QCFG_ALOG2 q))
        || (rb.enabled && new QMG_QCFG_BLOG2 != s.g pQMG (qf QMG_QCFG_BLOG2 q)) then refuse s
    else plainWrite pQMG off { a with val := v } s
  else s

def qmgWrite (off : Nat) (a : Access) (s : State) : State :=
  if 0x300 ≤ off ∧ off < 0x500 then ringWrite (off / 0x20 - 8) (off % 0x20) off a s else plainWrite pQMG off a s

/-! ## Block transfers (R412) -/

/-- Address in the register file of a Muslin buffer, and its length in bytes. -/
def q31Buffer : Nat → Nat × Nat × Nat
  | 0 => (pNVM, 0x100, 256)
  | 1 => (pEVR, 0x200, 512)
  | _ => (pKEY, 0x800, 2048)

def readBuffer (target off n : Nat) (s : State) : List Word :=
  let (p, base, _) := q31Buffer target
  (List.range (n / 4)).map fun i => s.reg p (base + off + 4 * i)

def writeBuffer (target off : Nat) (ws : List Word) (s : State) : State :=
  let (p, base, _) := q31Buffer target
  forAll (List.range ws.length) (fun i s => s.setReg p (base + off + 4 * i) (ws.getD i 0)) s

/-- The result of an entry into ring B: TAG and STATUS. -/
def q31Result (tag status : Nat) (s : State) : State :=
  (pushB 31 (leBytes 2 tag ++ [byte status]) s).getD s

/-- An entry as its bytes give it; none when it is malformed. -/
def q31Entry (b : List Byte) : Option BlockXfer :=
  let x : BlockXfer := ⟨leField b 0 1, leField b 1 1 == 1, leField b 4 4, leField b 8 2, leField b 10 2, leField b 12 2⟩
  if x.target ≤ 2 && leField b 1 1 ≤ 1 && leField b 2 2 == 0 && (b.drop 14).all (· == 0) && x.off % 4 == 0 && x.len % 4 == 0
      && x.off + x.len ≤ (q31Buffer x.target).2.2 && gsramRange x.addr x.len then some x
  else none

/-- The words of transfer XID 0x07: what is asked, and the data that go to Muslin. -/
def q31Words (x : BlockXfer) (s : State) : List Word :=
  word (x.target * 2 ^ 24 + (if x.fromMuslin then 2 ^ 23 else 0) + x.off) :: word x.len
    :: if x.fromMuslin then [] else bytesWords (s.bytes x.addr x.len)

/-- QMG takes the next entry of Q31 when no transfer is in flight. -/
def q31Take (s : State) : State :=
  match s.q31, headA 31 s with
  | none, some b =>
    let s := takeA 31 s
    match q31Entry b with
    | none => q31Result (leField b 12 2) 1 s
    | some x =>
      if x.len = 0 then q31Result x.tag 0 s
      else if s.linkUp .damask then sendBulk .damask 0x07 (q31Words x s) { s with q31 := some x }
      else q31Result x.tag 2 s
  | _, _ => s

/-- Link down, or an abort: the transfer in flight ends with STATUS 2 (R413). -/
def q31Abort (s : State) : State :=
  match s.q31 with
  | some x => q31Result x.tag 2 { s with q31 := none }
  | none => s

/-- Muslin has received a whole transfer of XID 0x07, and answers with the data, or with one word of zero. -/
def q31Serve (ws : List Word) (s : State) : State :=
  let w := ws.getD 0 0
  let target := (w.extractLsb' 24 8).toNat
  let off := (w.extractLsb' 0 16).toNat
  let len := (ws.getD 1 0).toNat
  if 2 < target || (q31Buffer target).2.2 < off + len then s
  else if w.getLsbD 23 then sendBulk .muslin 0x07 (readBuffer target off len s) s
  else sendBulk .muslin 0x07 [0] (writeBuffer target off ((ws.drop 2).take (len / 4)) s)

/-- Damask has received the answer. -/
def q31Done (ws : List Word) (s : State) : State :=
  match s.q31 with
  | some x =>
    let s := { s with q31 := none }
    q31Result x.tag 0 (if x.fromMuslin then s.wbytes x.addr ((wordsBytes ws).take x.len) else s)
  | none => s

end Sys2Proof.Machine
end

