-- ==== Sys2Proof/Machine/FbBase.lean ====
section
/-! DEFINITION. Floor bus: message RAM, frames, the schedule matrix and the configuration in force (R156 to R172, R176,
R180 to R184). -/

namespace Sys2Proof.Machine

open Reg

/-! ## Channels -/

def fbPage (c : FbNo) : Nat := pFB + c.val

/-- A channel with no cycle, as reset leaves it. -/
def fbIdle : FbChan :=
  { cycle := none, nominal := 0, win := none, ex := none, late := [], bankOk := false, req := [], fetched := none,
    tx := none, next := none, held := none, refAt := none, misses := 0, goods := 0, refMiss := 0, lastRef := 0, prev := 0,
    before := none, refOwed := none }

def State.fb (s : State) (c : FbNo) : FbChan := if c = 0 then s.fb0 else s.fb1
def State.setFb (s : State) (c : FbNo) (x : FbChan) : State := if c = 0 then { s with fb0 := x } else { s with fb1 := x }

/-- REDUNDANT mode is in force. -/
def redundant (s : State) : Bool := s.bit pFBT FBT_STAT_REDUNDANT
/-- The channel whose configuration, cycle and bank a channel runs (R184). -/
def schedOf (c : FbNo) (s : State) : FbNo := if redundant s then 0 else c
/-- The channels that run the schedule of `c`. -/
def chansOf (c : FbNo) (s : State) : List FbNo := if redundant s then [0, 1] else [c]

def fbMode (c : FbNo) (s : State) : Nat := s.g (fbPage c) FB_CTRL_MODE
/-- SCHED as it acts: in REDUNDANT mode FB1 follows FB0's bit too, which R184 does not list (log entry 118). -/
def fbSched (c : FbNo) (s : State) : Bool := s.bit (fbPage (schedOf c s)) FB_CTRL_SCHED
/-- Follower, or LISTEN, which follows the schedule (R160). -/
def fbFollower (c : FbNo) (s : State) : Bool :=
  s.bit (fbPage (schedOf c s)) FB_CTRL_ROLE || (chansOf c s).all fun e => fbMode e s != 1 && fbMode e s != 3
/-- CYCLEN, NCYC and REFLIM as they act. -/
def cyclen (c : FbNo) (s : State) : Nat := max 100 (s.g (fbPage (schedOf c s)) FB_CYCLE_CYCLEN)
def ncyc (c : FbNo) (s : State) : Nat := 2 ^ min 6 (s.g (fbPage (schedOf c s)) FB_CYCLE_LOG2NCYC)
def reflim (c : FbNo) (s : State) : Nat := max 1 (s.g (fbPage (schedOf c s)) FB_CYCLE_REFLIM)
def busOff (c : FbNo) (s : State) : Bool := 2 ≤ s.g (fbPage c) FB_STAT_ERRSTATE
def tstate (c : FbNo) (s : State) : Nat := s.g (fbPage c) FB_STAT_TSTATE

/-- A register field of every channel that runs the schedule of `c`. -/
def putChans (c : FbNo) (f : Fld) (v : Nat) (s : State) : State := forAll (chansOf c s) (fun d s => s.put (fbPage d) f v) s
/-- TSTATE of every channel that runs the schedule of `c` and is not OFF. -/
def putTstate (c : FbNo) (v : Nat) (s : State) : State :=
  forAll (chansOf c s) (fun d s => if fbMode d s = 0 then s else s.put (fbPage d) FB_STAT_TSTATE v) s
def raiseChans (c : FbNo) (f : Fld) (s : State) : State := forAll (chansOf c s) (fun d s => raise (fbPage d) f s) s

/-- The channel can drive frames (R159, R160); none does once Damask is going OFF (R186). -/
def canDrive (c : FbNo) (s : State) : Bool :=
  !s.power.leaving && (fbMode c s == 1 || fbMode c s == 3) && !busOff c s
/-- Whether the channel may start a frame of its own now (R178). -/
def maySend (c : FbNo) (s : State) : Bool := canDrive c s && (!fbSched c s || 2 ≤ tstate c s)
/-- A frame seen at count `seen` was in progress when Damask began to go OFF (R186). -/
def inProgress (seen : Nat) (s : State) : Bool := !s.power.leaving || decide (seen < s.power.leaveAt)
/-- The channel hears the frame that it saw at count `seen`: it is not OFF, in LOOPBACK or bus-off (R159, R160), and Damask
was not going OFF yet (R186). -/
def hears (c : FbNo) (seen : Nat) (s : State) : Bool := inProgress seen s && (fbMode c s == 1 || fbMode c s == 2) && !busOff c s

/-! ## Message objects (R161) -/

def objAddr (c : FbNo) (k : Nat) : Nat := 0x48000000 + 0x10000 * c.val + 128 * k
def objCfg (c : FbNo) (k : Nat) (s : State) : Word := s.rw (objAddr c k)
def objId (c : FbNo) (k : Nat) (s : State) : BitVec 29 := (s.rw (objAddr c k + 4)).extractLsb' 0 29
def objMask (c : FbNo) (k : Nat) (s : State) : BitVec 29 := (s.rw (objAddr c k + 8)).extractLsb' 0 29
def objStat (c : FbNo) (k : Nat) (s : State) : Word := s.rw (objAddr c k + 12)
def objEnabled (c : FbNo) (k : Nat) (transmit : Bool) (s : State) : Bool :=
  (objCfg c k s).getLsbD 31 && (objCfg c k s).getLsbD 30 == transmit
def objDom (c : FbNo) (k : Nat) (s : State) : Dom := (objCfg c k s).extractLsb' 20 4

/-- Data bytes that a DLC stands for. -/
def dlcLen (fdf : Bool) (dlc : BitVec 4) : Nat :=
  if dlc.toNat ≤ 8 then dlc.toNat
  else if fdf then [12, 16, 20, 24, 32, 48, 64].getD (dlc.toNat - 9) 64 else 8

/-- The bytes a frame carries: none in a remote frame. -/
def payloadOf (f : CanFrame) : List Byte := if f.rtr then [] else padTo (dlcLen f.fdf f.dlc) f.data

/-- A classical frame has neither BRS nor ESI. -/
def plainFrame (f : CanFrame) : CanFrame := { f with brs := f.fdf && f.brs, esi := f.fdf && f.esi }

/-- A frame as channel `c` sends it: ESI shows the channel's own error state (R156). -/
def sentBy (c : FbNo) (s : State) (f : CanFrame) : CanFrame := plainFrame { f with esi := s.g (fbPage c) FB_STAT_ERRSTATE == 1 }

/-- The frame that a transmit object stands for (R165). -/
def objFrame (c : FbNo) (k : Nat) (s : State) : CanFrame :=
  let w := objCfg c k s
  let fdf := w.getLsbD 28
  plainFrame { id := objId c k s, ide := w.getLsbD 26, fdf := fdf, brs := w.getLsbD 27, esi := false, rtr := false,
               dlc := w.extractLsb' 0 4, data := s.bytes (objAddr c k + 0x40) (dlcLen fdf (w.extractLsb' 0 4)) }

/-- The first enabled receive object that a frame matches (R163). -/
def matchObj (c : FbNo) (f : CanFrame) (skip : Nat → Bool) (s : State) : Option Nat :=
  (List.range 256).find? fun k =>
    objEnabled c k false s && !skip k && (objCfg c k s).getLsbD 26 == f.ide && (objId c k s ^^^ f.id) &&& objMask c k s == 0

/-- OBJ_STAT bits of a frame: FDF, BRS, ESI, RTR, INWIN, CHAN, CYC and DLC. -/
def frameBits (f : CanFrame) (inwin : Bool) (chan : Nat) (cyc : Nat) : Nat :=
  f.fdf.toNat * 2 ^ 21 + f.brs.toNat * 2 ^ 20 + f.esi.toNat * 2 ^ 19 + f.rtr.toNat * 2 ^ 18 + inwin.toNat * 2 ^ 17
    + chan * 2 ^ 16 + cyc % 64 * 2 ^ 8 + f.dlc.toNat

/-- A received frame stored in one burst: payload, stamp, identifier, then status (R164). -/
def storeFrame (c : FbNo) (k : Nat) (f : CanFrame) (stamp : Word) (inwin : Bool) (chan cyc : Nat) (s : State) : State :=
  let a := objAddr c k
  let old := objStat c k s
  let seq := ((old.extractLsb' 24 8).toNat + 1) % 256
  let s := s.wbytes (a + 0x40) (padTo 64 (payloadOf f))
  let s := s.ww (a + 0x10) stamp
  let s := s.ww (a + 0x14) (word (f.id.toNat + f.ide.toNat * 2 ^ 29))
  s.ww (a + 12) (word (seq * 2 ^ 24 + 2 ^ 23 + (old.getLsbD 23).toNat * 2 ^ 22 + frameBits f inwin chan cyc))

/-- A transmit object whose frame was sent: SEQ, NEW and the frame's bits; UPD and TXSKIP keep their values. -/
def sentObject (c : FbNo) (k : Nat) (f : CanFrame) (stamp : Word) (chan cyc : Nat) (s : State) : State :=
  let a := objAddr c k
  let old := objStat c k s
  let seq := ((old.extractLsb' 24 8).toNat + 1) % 256
  (s.ww (a + 0x10) stamp).ww (a + 12)
    (word (seq * 2 ^ 24 + 2 ^ 23 + (old &&& 0x0000C000).toNat + frameBits f true chan cyc))

/-! ## The message RAM window (R47, R161, R162) -/

def msgChan (a : Nat) : FbNo := if a < 0x48010000 then 0 else 1
def msgObj (a : Nat) : Nat := a % 0x10000 / 128
/-- The implemented half of a window. -/
def msgImplemented (a : Nat) : Bool := a % 0x10000 < 0x8000

/-- OBJ_CFG of the object at `a` has been written: OVW is 0 on a transmit object, UPD on a receive object (R161). -/
def settleObj (a : Nat) (s : State) : State :=
  let st := s.rw (a + 12)
  s.ww (a + 12) (if (s.rw a).getLsbD 30 then setBit st 22 false else setBit st 15 false)

/-- A write of the word at aligned address `a`, under the access of its fields. -/
def msgWrite (sup : Bool) (a : Nat) (v : Word) (s : State) : State :=
  if !msgImplemented a then s
  else
    let transmit := (objCfg (msgChan a) (msgObj a) s).getLsbD 30
    let o := a % 128
    if o = 0 then (if sup then settleObj a (s.ww a (v &&& 0xFCF0000F)) else s)
    else if o = 4 ∨ o = 8 then (if sup then s.ww a (v &&& 0x1FFFFFFF) else s)
    else if o = 12 then
      let old := s.rw a
      let w := if v.getLsbD 23 then old &&& ~~~0x00C00000 else old
      let w := if v.getLsbD 14 then w &&& ~~~0x00004000 else w
      s.ww a (if transmit then setBit w 15 (v.getLsbD 15) else w)
    else if 0x40 ≤ o ∧ transmit then s.ww a v
    else s

/-! ## The schedule matrix (R169, R170) -/

/-- The word of a cell; the 13-bit index is CHAN, BANK, CYC, WIN. -/
def cellAddr (i : Nat) : Nat := 0x49000000 + 4 * (i % 8192)
def cellIndex (c : FbNo) (bank cyc win : Nat) : Nat := c.val * 4096 + bank * 2048 + cyc * 32 + win

def Cell.exclusive (x : Cell) : Bool := x.type == 1 || x.type == 2

/-- A row ends at the first cell with START 0xFFFF; a cleared one ends at its cell 0 (R170, R186; log entry 11). -/
def rowGo (i : Nat) : Nat → State → List Cell
  | 0, _ => []
  | n + 1, s =>
    let w := s.rw (cellAddr i)
    if (w = 0 ∧ i % 32 = 0) ∨ w.extractLsb' 0 16 = 0xFFFF then []
    else ⟨(w.extractLsb' 30 2).toNat, (w.extractLsb' 16 8).toNat, (w.extractLsb' 0 16).toNat⟩ :: rowGo (i + 1) n s

/-- The windows of row `cyc` of a bank. -/
def rowOfBank (c : FbNo) (bank cyc : Nat) (s : State) : List Cell := rowGo (cellIndex c bank cyc 0) 32 s

/-- Nominal bit time in cycles of 12.5 ns. -/
def bitTime (c : FbNo) (s : State) : Nat :=
  (s.g (fbPage c) FB_NBT_BRP + 1) * (3 + s.g (fbPage c) FB_NBT_TSEG1 + s.g (fbPage c) FB_NBT_TSEG2)

/-- The first fault of a row, from window `i` on after a window that starts at `prev`: REASON and window. -/
def rowFault (c : FbNo) (i : Nat) (prev : Option Nat) : List Cell → State → Option (Nat × Nat)
  | [], _ => none
  | x :: xs, s =>
    if prev.any (fun p => x.start ≤ p) then some (0, i)
    else if cyclen c s ≤ x.start then some (1, i)
    else if prev == none && x.start * 80 < 135 * bitTime c s then some (2, i)
    else if x.exclusive && !objEnabled c x.obj (x.type == 2) s then some (3, i)
    else rowFault c (i + 1) (some x.start) xs s

/-- The first failing cell of a bank: REASON and FBT_MIDX value. -/
def bankFault (c : FbNo) (bank : Nat) (s : State) : Option (Nat × Nat) :=
  (List.range (ncyc c s)).findSome? fun cyc =>
    (rowFault c 0 none (rowOfBank c bank cyc s) s).map fun f => (f.1, cellIndex c bank cyc f.2)

/-- The bank active on a channel. -/
def actFld : Nat → Fld
  | 0 => FBT_STAT_ACT0
  | _ => FBT_STAT_ACT1
def activeBank (c : FbNo) (s : State) : Nat := s.g pFBT (actFld (schedOf c s).val)

/-- The row that serves the current basic cycle. -/
def currentRow (c : FbNo) (s : State) : List Cell :=
  let d := schedOf c s
  if (s.fb d).bankOk then rowOfBank d (activeBank d s) (s.g (fbPage d) FB_STAT_CYCCNT) s else []

/-- Open and close of window `w` of a row for a cycle that starts at `S`. -/
def winOpen (start : Nat) (row : List Cell) (w : Nat) : Nat := start + 100 * (row.getD w ⟨0, 0, 0⟩).start
def winClose (start len : Nat) (row : List Cell) (w : Nat) : Nat :=
  if w + 1 < row.length then winOpen start row (w + 1) else start + 100 * len

/-- The window of a row that contains a stamp, for a cycle that starts at `st` and lasts `len` µs (R172). -/
def windowOf (st len : Nat) (row : List Cell) (stamp : Nat) : Option (Nat × Cell) :=
  (List.range row.length).findSome? fun w =>
    if winOpen st row w ≤ stamp && stamp < winClose st len row w then some (w, row.getD w ⟨0, 0, 0⟩) else none

/-- The window that contains a stamp: one of the current cycle, or, of a frame that ends after the next cycle has opened, one
of the cycle before; a stamp from the current start on belongs to no earlier cycle (R172). -/
def windowAt (c : FbNo) (stamp : Nat) (s : State) : Option (Nat × Cell) :=
  let x := s.fb (schedOf c s)
  match x.cycle with
  | none => none
  | some st =>
    if st ≤ stamp then windowOf st (cyclen c s) (currentRow c s) stamp
    else match x.before with
    | some (old, len, row) => windowOf old len row stamp
    | none => none

/-- Close of the arbitrating window that contains a stamp. -/
def arbClose (c : FbNo) (stamp : Nat) (s : State) : Option Nat :=
  let x := s.fb (schedOf c s)
  match windowAt c stamp s, x.cycle with
  | some (w, y), some st =>
    if y.type != 3 then none
    else if st ≤ stamp then some (winClose st (cyclen c s) (currentRow c s) w)
    else x.before.map fun b => winClose b.1 b.2.1 b.2.2 w
  | _, _ => none

end Sys2Proof.Machine
end

