-- ==== Sys2Proof/Machine/Stations.lean ====
section
/-! DEFINITION. Remote stations: validation, input decisions, status records, output sets (R189 to R201). -/

namespace Sys2Proof.Machine

open Reg

/-! ## A station's configuration -/

def stationDefault (_ : Nat) : Station :=
  { served := false, settled := [], oseq := 0, sending := none, done1 := 0, done2 := 0, misses := 0, stamp := 0, rjcnt := 0,
    dstamp := 0, image := [], write := none, built := none }

def State.stn (s : State) (q : StationNo) : Station := tget stationDefault s.stations q.val
def State.setStn (s : State) (q : StationNo) (x : Station) : State :=
  { s with stations := tset stationDefault s.stations q.val x }

/-- The registers behind RIO_SIDX = q. -/
def stnPage (q : StationNo) : Nat := pStn + q.val

def allStations : List StationNo := List.finRange 124

/-- The channel that carries a station; none serves 62 to 123 in REDUNDANT mode (R189). -/
def stationChan (q : StationNo) (s : State) : Option FbNo :=
  if q.val < 62 then some 0 else if redundant s then none else some 1

def stnEnabled (q : StationNo) (s : State) : Bool := s.bit (stnPage q) RIO_SCFG_EN
def infr (q : StationNo) (s : State) : Nat := s.g (stnPage q) RIO_SCFG_INFR
def onfr (q : StationNo) (s : State) : Nat := s.g (stnPage q) RIO_SCFG_ONFR
def ilast (q : StationNo) (s : State) : Nat := s.g (stnPage q) RIO_SCFG_ILAST
def olast (q : StationNo) (s : State) : Nat := s.g (stnPage q) RIO_SCFG_OLAST
def inImage (q : StationNo) (s : State) : Nat := 64 * (infr q s - 1) + ilast q s
def outImage (q : StationNo) (s : State) : Nat := if onfr q s = 0 then 0 else 64 * (onfr q s - 1) + olast q s
def sibase (q : StationNo) (s : State) : Nat := s.g (stnPage q) RIO_SIBASE_BASE * 16
def sobase (q : StationNo) (s : State) : Nat := s.g (stnPage q) RIO_SOBASE_BASE * 16
/-- Objects of the input and output frames, in frame order. -/
def iobjs (q : StationNo) (s : State) : List Nat :=
  (List.range (infr q s)).map fun k => s.g (stnPage q) ⟨0x048, 8 * k, 8⟩
def oobjs (q : StationNo) (s : State) : List Nat :=
  (List.range (onfr q s)).map fun k => s.g (stnPage q) ⟨0x04C, 8 * k, 8⟩

/-- RIO serves the station now: RIO_CTRL.EN, the station enabled and validated. -/
def stnServed (q : StationNo) (s : State) : Bool := s.bit pRIO RIO_CTRL_EN && stnEnabled q s && (s.stn q).served

/-! ## Status record and counts -/

/-- NLOST and RIO_LOSTj. -/
def syncLost (s : State) : State :=
  let lost := fun (q : StationNo) => stnEnabled q s && s.bit (stnPage q) RIO_SSTAT_LOST
  let s1 := s.put pRIO RIO_STAT_NLOST (allStations.filter lost).length
  forAll (List.range 4) (fun j t =>
    t.setReg pRIO (0x060 + 4 * j)
      (word (allStations.foldl (fun a q => a + if q.val / 32 = j && lost q then 2 ^ (q.val % 32) else 0) 0))) s1

/-- The 16 bytes of the status record (R195). -/
def statusRecord (q : StationNo) (s : State) : List Byte :=
  let w := s.reg (stnPage q) 0x058
  let x := s.stn q
  [byte (w.extractLsb' 0 6).toNat, w.extractLsb' 8 8, w.extractLsb' 16 8, w.extractLsb' 24 8]
    ++ wordBytes x.stamp ++ [byte x.done1, byte x.rjcnt, 0, 0] ++ wordBytes x.dstamp

/-- One burst into the station's area: a record, and the image when `withImage`. The record of an area that does not begin in
point space is not written. -/
def writeArea (q : StationNo) (withImage : Bool) (record : List Byte) (s : State) : State :=
  if !inPoints (sibase q s) then s
  else
    let s := s.wbytes (sibase q s) record
    if withImage then s.wbytes (sibase q s + 16) (s.stn q).image else s

/-- The present record written at once; an image that still waits goes with it, so that both show one decision. -/
def writeNow (q : StationNo) (s : State) : State :=
  let image := match (s.stn q).write with | some w => w.1 | none => false
  writeArea q image (statusRecord q s) (s.setStn q { s.stn q with write := none })

/-- A write of the area becomes due, with the record of this decision; an image that still waits stays part of it. -/
def dueWrite (q : StationNo) (withImage : Bool) (s : State) : State :=
  let s := s.setStn q { s.stn q with dstamp := word s.mtb }
  let image := match (s.stn q).write with | some w => w.1 | none => false
  s.setStn q { s.stn q with write := some (withImage || image, statusRecord q s) }

/-! ## Validation (R193) -/

def overlap (a n b m : Nat) : Bool := a < b + m && b < a + n
def areas (q : StationNo) (s : State) : List (Nat × Nat) :=
  (sibase q s, 16 + inImage q s) :: if onfr q s = 0 then [] else [(sobase q s, outImage q s)]

/-- In a row, all the objects of a station appear in cells of rising START in frame order, or none does (R192). -/
def rowHolds (objs : List Nat) (type : Nat) (row : List Cell) : Bool :=
  let found := (row.filter fun x => x.type == type && objs.contains x.obj).map (·.obj)
  found == [] || found == objs

def stationGood (q : StationNo) (s : State) : Bool :=
  match stationChan q s with
  | none => false
  | some c =>
    let dom : Dom := (s.reg (stnPage q) 0x044).extractLsb' 27 4
    let mine := areas q s
    let lens := [3, 4, 5, 6, 7, 8, 12, 16, 20, 24, 32, 48, 64]
    1 ≤ infr q s && infr q s ≤ 4 && onfr q s ≤ 4
    && lens.contains (ilast q s) && (onfr q s == 0 || (2 :: lens).contains (olast q s))
    && ((iobjs q s).all fun k => objEnabled c k false s && objDom c k s == dom)
    && ((oobjs q s).all fun k => objEnabled c k true s && objDom c k s == dom)
    && (mine.all fun a => inPoints a.1 && a.1 + a.2 ≤ 0x10060000)
    && (allStations.all fun r => r == q || !stnEnabled r s
          || (areas r s).all fun b => mine.all fun a => !overlap a.1 a.2 b.1 b.2)
    && ((List.range (ncyc c s)).all fun cyc =>
          let row := rowOfBank c (activeBank c s) cyc s
          rowHolds (iobjs q s) 1 row && rowHolds (oobjs q s) 2 row)

/-- A station validated: it is served, or CFGERR stands in its record. -/
def validateStation (q : StationNo) (s : State) : State :=
  let good := stationGood q s
  let s := s.setStn q { s.stn q with served := good }
  let s := s.putBit (stnPage q) RIO_SSTAT_CFGERR !good
  if good then s else raise pRIO RIO_IRQ_RAW_CFGERR (writeNow q s)

/-- A station enabled: a zero image and the initial record (R198), then its validation. -/
def enableStation (q : StationNo) (s : State) : State :=
  let s := s.setReg (stnPage q) 0x058 2
  let s := s.setStn q { stationDefault 0 with image := List.replicate (inImage q s) 0, dstamp := 0 }
  let s := writeArea q true (statusRecord q s) s
  syncLost (validateStation q s)

/-- A bank has become active: the stations of the channel are validated again. -/
def rioBank (c : FbNo) (s : State) : State :=
  forAll allStations (fun q s =>
    if stnEnabled q s && stationChan q s == some c then validateStation q s else s) s

/-! ## Input sets (R194 to R197, R200) -/

/-- A frame of an exclusive receive window is settled. -/
def rioFrame (c : FbNo) (obj : Nat) (hit : Bool) (s : State) : State :=
  forAll allStations (fun q s =>
    let x := s.stn q
    if stnServed q s && stationChan q s == some c && (iobjs q s).contains obj then
      let k := (iobjs q s).idxOf obj
      let settled := if k = 0 then [hit] else if x.settled.length = k then x.settled ++ [hit] else []
      s.setStn q { x with settled := settled }
    else s) s

/-- The input windows that are settled so far are of no row any more. -/
def dropSettled (s : State) : State := forAll allStations (fun q s => s.setStn q { s.stn q with settled := [] }) s

/-- The judgement of R194: complete, and whether a header check failed. -/
def judge (c : FbNo) (q : StationNo) (s : State) : Bool × Bool :=
  let objs := iobjs q s
  let n := infr q s
  let seq0 := s.rb (objAddr c (objs.getD 0 0) + 0x40)
  let frames := (List.range n).map fun k =>
    let o := objs.getD k 0
    let st := objStat c o s
    let len := if st.getLsbD 18 then 0 else dlcLen (st.getLsbD 21) (st.extractLsb' 0 4)
    let want := if k + 1 < n then 64 else ilast q s
    let hit := (s.stn q).settled.getD k false
    let good := len == want && (s.rb (objAddr c o + 0x41)).toNat == k + 4 * (n - 1)
      && s.rb (objAddr c o + 0x40) == seq0
    (hit, good)
  (frames.all fun f => f.1 && f.2, frames.any fun f => f.1 && !f.2)

/-- OUT_UNCONFIRMED, and UNCONF when it changes from 0 to 1. -/
def setUnconfirmed (q : StationNo) (b : Bool) (s : State) : State :=
  let was := s.bit (stnPage q) RIO_SSTAT_OUT_UNCONFIRMED
  let s := s.putBit (stnPage q) RIO_SSTAT_OUT_UNCONFIRMED b
  if b && !was then raise pRIO RIO_IRQ_RAW_UNCONF s else s

/-- STALE_LIMIT as it acts. -/
def staleLimit (q : StationNo) (s : State) : Nat := max 1 (s.g (stnPage q) RIO_SCFG_STALE_LIMIT)

/-- A set is accepted (R196). -/
def acceptSet (c : FbNo) (q : StationNo) (s : State) : State :=
  let p := stnPage q
  let objs := iobjs q s
  let n := infr q s
  let x := s.stn q
  let image := (List.range n).flatMap fun k =>
    s.bytes (objAddr c (objs.getD k 0) + 0x40) (if k + 1 < n then 64 else ilast q s)
  let iseq := image.getD 0 0
  let echo := image.getD 2 0
  let lost := s.bit p RIO_SSTAT_LOST
  let valid := s.bit p RIO_SSTAT_VALID
  let s := s.setStn q { x with
    image := image, misses := 0, stamp := s.rw (objAddr c (objs.getD 0 0) + 0x10),
    rjcnt := if lost then (x.rjcnt + 1) % 256 else x.rjcnt }
  let s := (s.put p RIO_SSTAT_ISEQ iseq.toNat).put p RIO_SSTAT_ECHO echo.toNat
  let s := (((s.put p RIO_SSTAT_VALID 1).put p RIO_SSTAT_STALE 0).put p RIO_SSTAT_LOST 0).put p RIO_SSTAT_AGE 0
  let s := if lost then
      raise pRIO RIO_IRQ_RAW_REJOIN (if valid then s.put p RIO_SSTAT_REJOINED 1 else s) else s
  let confirmed := onfr q s == 0 || (echo != 0 && (echo.toNat == x.done1 || echo.toNat == x.done2))
  dueWrite q true (syncLost (setUnconfirmed q (!confirmed) s))

/-- A set is missed (R196). -/
def missSet (q : StationNo) (s : State) : State :=
  let p := stnPage q
  let x := s.stn q
  let m := x.misses + 1
  let s := s.setStn q { x with misses := m }
  let s := ((s.put p RIO_SSTAT_STALE 1).bump p RIO_SSTAT_AGE).bump p RIO_SCNT_MISSES
  let entering := staleLimit q s ≤ m && !s.bit p RIO_SSTAT_LOST
  let s := if entering then
      raise pRIO RIO_IRQ_RAW_LOST ((s.put p RIO_SSTAT_LOST 1).put p RIO_SSTAT_REJOINED 0) else s
  let s := if entering then raiseStation q s else s
  dueWrite q false (syncLost (setUnconfirmed q (onfr q s != 0) s))
where
  /-- Station loss is a fault of class 9 (R392). -/
  raiseStation (q : StationNo) (s : State) : State := raiseFault 9 false 0 (word (sibase q s)) s

/-- INPUT_DECISION (R194): the last of the station's frames is settled. -/
def execInputDecision (q : StationNo) (s : State) : Host.Outcome State Fault Refusal :=
  ok s (match stationChan q s with
  | none => s
  | some c =>
    if stnServed q s && !s.power.leaving && infr q s ≤ (s.stn q).settled.length then
      let r := judge c q s
      let s := if r.1 then acceptSet c q s
        else
          let s := if r.2 then raise pRIO RIO_IRQ_RAW_SEQERR (s.bump (stnPage q) RIO_SCNT_SEQERRS) else s
          missSet q s
      s.setStn q { s.stn q with settled := [] }
    else s)

/-- STATION_IMAGE_WRITE (R195): the write that waits is made in one burst. -/
def execStationImageWrite (q : StationNo) (s : State) : Host.Outcome State Fault Refusal :=
  ok s (match (s.stn q).write with
  | none => s
  | some w => if s.power.leaving then s else writeArea q w.1 w.2 (s.setStn q { s.stn q with write := none }))

/-- The channel has no basic cycle any more: every enabled station of it shows the loss (R197). -/
def rioCycleLost (c : FbNo) (s : State) : State :=
  if !s.bit pRIO RIO_CTRL_EN then s
  else syncLost (forAll allStations (fun q s =>
    let p := stnPage q
    if stnEnabled q s && stationChan q s == some c then
      let was := s.bit p RIO_SSTAT_LOST
      let s := ((s.put p RIO_SSTAT_STALE 1).put p RIO_SSTAT_LOST 1).put p RIO_SSTAT_AGE 255
      let s := if was then s else
        raiseFault 9 false 0 (word (sibase q s)) (raise pRIO RIO_IRQ_RAW_LOST (s.put p RIO_SSTAT_REJOINED 0))
      let x := s.stn q
      let s := s.setStn q { x with settled := [], misses := max x.misses (staleLimit q s), dstamp := word s.mtb }
      writeNow q s
    else s) s)

/-! ## Outputs (R199) -/

/-- OUTPUT_SET_BUILD (R199): 1,200 counts before the window of OOBJ_0 opens; one set for each row. -/
def execOutputSetBuild (q : StationNo) (s : State) : Host.Outcome State Fault Refusal :=
  ok s (match stationChan q s with
  | none => s
  | some c =>
    match (s.fb c).cycle, (oobjs q s).head? with
    | some st, some o0 =>
      let row := currentRow c s
      match row.findIdx? fun x => x.type == 2 && x.obj == o0 with
      | none => s
      | some w =>
        if stnServed q s && !s.power.leaving && (s.stn q).built != some st && !(s.fb c).win.any (fun v => w ≤ v) then
          let s := s.untilMtb (winOpen st row w - 1200)
          let oseq := (s.stn q).oseq % 255 + 1
          let n := onfr q s
          let s := s.setStn q { s.stn q with oseq := oseq, sending := some (oseq, []), built := some st }
          forAll (List.range n) (fun k s =>
            let len := if k + 1 < n then 64 else olast q s
            let data := s.bytes (sobase q s + 64 * k + 2) (len - 2)
            s.wbytes (objAddr c ((oobjs q s).getD k 0) + 0x40) (byte oseq :: byte (k + 4 * (n - 1)) :: data)) s
        else s
    | _, _ => s)

/-- A frame of an output set was sent; the set counts once all of its frames were. -/
def rioSent (c : FbNo) (obj : Nat) (s : State) : State :=
  forAll allStations (fun q s =>
    let x := s.stn q
    if stationChan q s == some c && (oobjs q s).contains obj then
      match x.sending with
      | some (oseq, l) =>
        let l := if l.contains obj then l else obj :: l
        if onfr q s ≤ l.length then s.setStn q { x with sending := none, done1 := oseq, done2 := x.done1 }
        else s.setStn q { x with sending := some (oseq, l) }
      | none => s
    else s) s

/-- A frame of an output set missed its window: the set is never sent completely (R199). -/
def rioMissed (c : FbNo) (obj : Nat) (s : State) : State :=
  forAll allStations (fun q s =>
    if stationChan q s == some c && (oobjs q s).contains obj then s.setStn q { s.stn q with sending := none } else s) s

/-! ## Registers behind RIO_SIDX -/

def stnSelected (s : State) : Option StationNo :=
  if h : s.g pRIO RIO_SIDX_STN < 124 then some ⟨s.g pRIO RIO_SIDX_STN, h⟩ else none

def isStnReg (off : Nat) : Bool := 0x044 ≤ off && off < 0x060

def rioRead (off : Nat) (s : State) : Word × State :=
  if isStnReg off then
    match stnSelected s with
    | some q => plainRead (stnPage q) off s
    | none => (0, s)
  else plainRead pRIO off s

/-- A write of RIO_SCFG with EN = 1 validates and starts the station. -/
def scfgWrite (q : StationNo) (a : Access) (s : State) : State :=
  let was := stnEnabled q s
  if was && a.b RIO_SCFG_EN then s
  else
    let s := plainWrite (stnPage q) 0x044 a s
    if !was && stnEnabled q s then enableStation q s else syncLost s

def rioWrite (off : Nat) (a : Access) (s : State) : State :=
  if isStnReg off then
    match stnSelected s with
    | none => s
    | some q =>
      if off = 0x044 then scfgWrite q a s
      else if off = 0x058 ∨ off = 0x05C then plainWrite (stnPage q) off a s
      else if stnEnabled q s then s
      else plainWrite (stnPage q) off a s
  else
    let t := plainWrite pRIO off a s
    if t.bit pRIO RIO_CTRL_EN == s.bit pRIO RIO_CTRL_EN then t else dropSettled t

end Sys2Proof.Machine
end

