-- ==== Sys2Proof/Machine/FloorBus.lean ====
section
/-! DEFINITION. The floor bus controllers: reception, transmission, windows, reference frames, banks and error states
(R156 to R188). -/

namespace Sys2Proof.Machine

open Reg

/-! ## Error counters and bus-off (R159) -/

/-- ERRSTATE after a change of the counters; ERRPASS on entry to error passive. -/
def syncErrState (c : FbNo) (s : State) : State :=
  let p := fbPage c
  if busOff c s then s
  else
    let passive := 128 ≤ s.g p FB_ERR_TEC || s.bit p FB_ERR_RP
    let was := s.g p FB_STAT_ERRSTATE == 1
    let s := s.putBit p FB_STAT_ERRSTATE passive
    if passive && !was then raise p FB_IRQ_RAW_ERRPASS s else s

/-- Recovery starts when it is asked for (R159); RECOVER clears itself then. Written while the channel is not bus-off it stays set,
and starts the recovery of a later bus-off at once (log 136). -/
def startRecovery (c : FbNo) (s : State) : State :=
  let p := fbPage c
  if s.g p FB_STAT_ERRSTATE == 2 && (s.bit p FB_CTRL_AUTOREC || s.bit p FB_CTRL_RECOVER) then
    (s.put p FB_STAT_ERRSTATE 3).put p FB_CTRL_RECOVER 0
  else s

/-- A channel is declared FAILED (R185), a fault of class 9 that the other channel masks. -/
def channelFails (c : FbNo) (s : State) : State :=
  let p := fbPage c
  if s.bit p FB_STAT_FAILED then s
  else raiseFault 9 true 0 0 (raise p FB_IRQ_RAW_CHFAIL (s.put p FB_STAT_FAILED 1))

def rfail (s : State) : Nat := min 8 (max 1 (s.g pFBT FBT_RFAIL_RFAIL))

/-- A channel miss, and a window with a valid copy (R185). -/
def channelMiss (c : FbNo) (s : State) : State :=
  let x := s.fb c
  let s := s.setFb c { x with misses := x.misses + 1, goods := 0 }
  if rfail s ≤ x.misses + 1 then channelFails c s else s

def channelGood (c : FbNo) (s : State) : State :=
  let x := s.fb c
  let s := s.setFb c { x with misses := 0, goods := x.goods + 1 }
  if s.bit (fbPage c) FB_STAT_FAILED && rfail s ≤ x.goods + 1 then
    raise (fbPage c) FB_IRQ_RAW_CHOK (s.put (fbPage c) FB_STAT_FAILED 0)
  else s

def isObjTx (k : Nat) (x : Option TxFrame) : Bool := match x with | some ⟨.object j, _⟩ => j == k | _ => false

/-- The frame is one that may still be sent: an object that is no longer enabled takes no part (R162). -/
def stillWanted (e : FbNo) (s : State) (f : TxFrame) : Bool :=
  match f.what with
  | .object k => objEnabled (schedOf e s) k true s
  | _ => true

/-- The frame that a channel was sending is over: the one behind it starts. -/
def txOver (e : FbNo) (s : State) : State := s.setFb e { s.fb e with tx := (s.fb e).next.filter (stillWanted e s), next := none }

/-- The frames of object `k` leave a channel: no attempt can start any more. -/
def dropObjectOn (k : Nat) (e : FbNo) (s : State) : State :=
  let s := if isObjTx k (s.fb e).next then s.setFb e { s.fb e with next := none } else s
  if isObjTx k (s.fb e).tx then txOver e s else s

def dropObjectTx (c : FbNo) (w : ExWin) (s : State) : State :=
  if w.transmit then forAll (chansOf c s) (dropObjectOn w.obj) s else s

/-- The channel has no cycle: OFF, bus-off, UNSYNC, or SCHED = 0 (R197). -/
def loseCycle (c : FbNo) (s : State) : State :=
  let d := schedOf c s
  let x := s.fb d
  let had := x.cycle.isSome
  let s := match x.ex with
    | some w => dropObjectTx d w s
    | none => s
  let s := s.setFb d { s.fb d with
    cycle := none, win := none, ex := none, late := x.late.filter (·.transmit), fetched := none, refAt := none, before := none }
  let s := forAll (chansOf d s) (fun e s => s.setFb e { s.fb e with refOwed := none }) s
  if had then rioCycleLost d s else s

/-- No channel of the schedule of `c` can carry it: each is in MODE OFF or in bus-off. -/
def noCarrier (c : FbNo) (s : State) : Bool := (chansOf c s).all fun d => fbMode d s == 0 || busOff d s

/-- The channel enters bus-off: it sends and receives nothing, and its stations lose their cycle. -/
def enterBusOff (c : FbNo) (s : State) : State :=
  let p := fbPage c
  let s := raise p FB_IRQ_RAW_BUSOFF (s.put p FB_STAT_ERRSTATE 2)
  let s := s.setFb c { s.fb c with tx := none, next := none, refOwed := none }
  let s := if redundant s then channelFails c s
    else raiseFault 9 false 0 0 s
  let s := if noCarrier c s then
      loseCycle c (if fbFollower c s && fbSched c s then putTstate c 1 s else s) else s
  startRecovery c s

/-- An error while sending: TEC + 8 (ISO 11898-1). Two exceptions leave it: an ACK error of an error-passive channel, and,
`spared`, a stuff error in arbitration; the error flag and the dominant bits behind it may add a further 8 `eights` times. -/
def txError (c : FbNo) (lec : Nat) (spared : Bool) (eights : Nat) (s : State) : State :=
  let p := fbPage c
  let s := s.put p FB_ERR_LEC lec
  let one := !(lec == 3 && s.g p FB_STAT_ERRSTATE == 1 && eights == 0) && !spared
  let t := s.g p FB_ERR_TEC + 8 * (one.toNat + eights)
  if 255 < t then enterBusOff c (s.put p FB_ERR_TEC 255) else syncErrState c (s.put p FB_ERR_TEC t)

/-- An error while receiving: REC + 1, or + 8 after a dominant bit behind its error flag. LISTEN counts none. -/
def rxError (c : FbNo) (lec : Nat) (eight : Bool) (s : State) : State :=
  let p := fbPage c
  let s := s.put p FB_ERR_LEC lec
  if fbMode c s = 2 then s
  else
    let r := s.g p FB_ERR_REC + if eight then 8 else 1
    let s := s.put p FB_ERR_REC (min r 127)
    syncErrState c (if 127 < r then s.put p FB_ERR_RP 1 else s)

/-- A frame received: REC falls by 1, and from error passive to a value from 119 to 127 that the standard leaves open. -/
def rxGood (c : FbNo) (s : State) : State :=
  let p := fbPage c
  if fbMode c s = 2 then s
  else if s.bit p FB_ERR_RP then
    let n := 119 + (Config.freeWord s.freed).toNat % 9
    syncErrState c (((s.put p FB_ERR_RP 0).put p FB_ERR_REC n) |> fun s => { s with freed := s.freed + 1 })
  else s.put p FB_ERR_REC (s.g p FB_ERR_REC - 1)

/-! ## Reception -/

/-- The frame is a reference frame of the schedule (R176). -/
def isReference (c : FbNo) (f : CanFrame) (s : State) : Bool :=
  let w := s.reg (fbPage (schedOf c s)) 0x058
  fbSched c s && !f.fdf && !f.rtr && f.dlc == 8 && f.ide == w.getLsbD 29 && f.id == w.extractLsb' 0 29

/-- The entry of a receive ring (R181). -/
def ringEntry (c : FbNo) (f : CanFrame) (stamp : Word) (obj : Option Nat) (cyc : Nat) (win : Option (Nat × Cell)) : List Byte :=
  let pay := payloadOf f
  wordBytes (word (f.id.toNat + f.ide.toNat * 2 ^ 29 + f.rtr.toNat * 2 ^ 30)) ++ wordBytes stamp
    ++ [byte (f.dlc.toNat + f.fdf.toNat * 16 + f.brs.toNat * 32 + f.esi.toNat * 64 + c.val * 128), byte (obj.getD 0),
        byte (cyc % 64 + if obj.isNone then 64 else 0),
        byte (match win with | some (w, x) => w + x.type * 32 | none => 0), byte pay.length, 0, 0, 0]
    ++ padTo 64 pay

/-- A frame delivered to a receive ring of its channel, or discarded and counted (R180). With `counts` it is counted as
delivered in CNT_RX; a stored frame has been counted already (R187). -/
def deliverRing (c : FbNo) (exclusive counts : Bool) (entry : List Byte) (s : State) : State :=
  let p := fbPage c
  match pushB (16 + 2 * c.val + if exclusive then 0 else 1) entry s with
  | some t => if counts then t.bump p FB_CNT_RX_COUNT else t
  | none => raise p FB_IRQ_RAW_RINGOVF (s.bump p FB_CNT_LOST_RINGOVF)

def ExWin.inside (w : ExWin) (stamp : Nat) : Bool := w.open_ ≤ stamp && stamp < w.close
def ExWin.from_ (w : ExWin) (c : FbNo) : Bool := if c = 0 then w.from0 else w.from1
def ExWin.mark (w : ExWin) (c : FbNo) : ExWin := if c = 0 then { w with from0 := true } else { w with from1 := true }
/-- The frame of a closed window that was on the bus of channel `c` has ended. -/
def ExWin.ended (w : ExWin) (c : FbNo) : ExWin := if c = 0 then { w with wait0 := false } else { w with wait1 := false }
def ExWin.waits (w : ExWin) : Bool := w.wait0 || w.wait1

/-- Channel counts of an exclusive receive window that is settled (R185). -/
def settleChannels (w : ExWin) (s : State) : State :=
  if !redundant s then s
  else forAll [(0 : FbNo), 1] (fun c s =>
    if w.from_ c then channelGood c s
    else if w.from_ (1 - c) then channelMiss c s
    else s.setFb c { s.fb c with goods := 0 }) s

/-- An exclusive window settled: a hit or a miss reported to RIO, or a transmit window that sent nothing (R173, R174). An
object that is no longer enabled takes no part (R162). -/
def settleWin (d : FbNo) (w : ExWin) (s : State) : State :=
  let p := fbPage d
  if w.transmit then
    if w.sent0 || w.sent1 || !objEnabled d w.obj true s then s
    else rioMissed d w.obj (raise p FB_IRQ_RAW_TXMISS (s.bump p FB_CNT_MISS_TXMISS))
  else if !objEnabled d w.obj false s then s
  else
    let hit := w.from0 || w.from1
    let s := if hit then s else raise p FB_IRQ_RAW_RXMISS (s.bump p FB_CNT_MISS_RXMISS)
    rioFrame d w.obj hit (settleChannels w s)

/-- Where an exclusive window of a channel stands: among the closed ones, or open. -/
abbrev WinAt := Option Nat

/-- The exclusive windows of the schedule that are not settled: those that wait for a frame, then the open one. -/
def exWins (d : FbNo) (s : State) : List (WinAt × ExWin) :=
  ((s.fb d).late.zipIdx.map fun x => (some x.2, x.1)) ++ (s.fb d).ex.toList.map fun w => (none, w)

/-- The exclusive window of the schedule that holds a stamp. -/
def exAt (d : FbNo) (stamp : Nat) (s : State) : Option (WinAt × ExWin) := (exWins d s).find? fun x => x.2.inside stamp

def putEx (d : FbNo) (at_ : WinAt) (w : ExWin) (s : State) : State :=
  match at_ with
  | some i => s.setFb d { s.fb d with late := (s.fb d).late.set i w }
  | none => s.setFb d { s.fb d with ex := some w }

/-- The closed windows whose frames have ended on every channel are settled, oldest first: one that waits for a frame holds
back those behind it. -/
def settleLate (d : FbNo) (s : State) : State :=
  let done := (s.fb d).late.takeWhile fun w => !w.waits
  forAll done (settleWin d) (s.setFb d { s.fb d with late := (s.fb d).late.drop done.length })

/-- Nothing of channel `c` is on the bus any more: OFF or bus-off. -/
def clearWaits (c : FbNo) (s : State) : State :=
  let d := schedOf c s
  settleLate d (s.setFb d { s.fb d with late := (s.fb d).late.map fun w => w.ended c })

/-- FB1's objects that exclusive cells name receive nothing in REDUNDANT mode (R184). -/
def namedByCells (c : FbNo) (s : State) : Nat → Bool :=
  if redundant s && c == 1 then
    let named := (List.range (ncyc 0 s)).flatMap fun cyc =>
      ((rowOfBank 0 (activeBank 0 s) cyc s).filter Cell.exclusive).map (·.obj)
    fun k => named.contains k
  else fun _ => false

/-- Count of the basic cycle in which a frame with this stamp started: the current one, or the one before; with no cycle open, the
last CYCCNT (log 140). -/
def countAt (d : FbNo) (stamp : Nat) (s : State) : Nat :=
  match (s.fb d).cycle with
  | some st => if stamp < st then (s.fb d).prev else s.g (fbPage d) FB_STAT_CYCCNT
  | none => s.g (fbPage d) FB_STAT_CYCCNT

/-- A frame of one cell of the schedule: the first valid copy is stored, a second one compared (R173, R184). -/
def receiveCell (c d : FbNo) (f : CanFrame) (stamp : Nat) (ring : Bool) (at_ : WinAt) (w : ExWin) (s : State) : State :=
  let cyc := countAt d stamp s
  let w := w.ended c
  let store := fun (s : State) =>
    let s := storeFrame d w.obj f (word stamp) true c.val cyc s
    let s := putEx d at_ { w.mark c with copy := some f } s
    let s := s.bump (fbPage c) FB_CNT_RX_COUNT
    if ring && (objCfg d w.obj s).getLsbD 29 then
      deliverRing d true false (ringEntry c f (word stamp) (some w.obj) cyc (windowAt d stamp s)) s
    else s
  let s := match w.copy with
    | none => store s
    | some g =>
      if redundant s then
        let s := putEx d at_ (w.mark c) s
        if g.id == f.id && payloadOf g == payloadOf f then s else raise pFBT FBT_IRQ_RAW_REDDIFF s
      else store s
  settleLate d s

/-- Any other frame: stored into the object it matches, delivered to a ring, or counted as lost (R163, R180). -/
def receiveOther (c : FbNo) (f : CanFrame) (stamp : Nat) (ring : Bool) (s : State) : State :=
  let p := fbPage c
  let d := schedOf c s
  let cyc := countAt d stamp s
  let win := windowAt c stamp s
  let exclusive := match win with | some (_, x) => x.exclusive | none => false
  let k := matchObj c f (namedByCells c s) s
  let entry := ringEntry c f (word stamp) k cyc win
  match k with
  | some k =>
    let s := storeFrame c k f (word stamp) (match win with | some (_, x) => x.type == 1 && x.obj == k | none => false) c.val cyc s
    let s := s.bump p FB_CNT_RX_COUNT
    if ring && (objCfg c k s).getLsbD 29 && !(exclusive && redundant s && c == 1) then
      deliverRing c exclusive false entry s else s
  | none =>
    if ring && s.bit p FB_CTRL_UNMATCHED && !(exclusive && redundant s && c == 1) then
      deliverRing c exclusive true entry s
    else s.bump p FB_CNT_LOST_UNMATCHED

/-- A frame that has completed on channel `c`, with its stamp; `ring`: it is not one of the module's own. -/
def receiveFrame (c : FbNo) (f : CanFrame) (stamp : Nat) (ring : Bool) (s : State) : State :=
  let d := schedOf c s
  let f := plainFrame f
  match exAt d stamp s with
  | some (at_, w) =>
    if !w.transmit && matchObj d f (fun _ => false) s == some w.obj then receiveCell c d f stamp ring at_ w s
    else
      let s := receiveOther c f stamp ring s
      if w.transmit || at_.isNone then s else settleLate d (putEx d at_ (w.ended c) s)
  | none => receiveOther c f stamp ring s

/-- A follower that runs the schedule. -/
def isFollower (c : FbNo) (s : State) : Bool := fbSched c s && fbFollower c s && fbMode c s != 0 && !busOff c s

/-- FRAME_RECEIVE (R163, R164): a frame whose start of frame the synchroniser saw at count `seen` has completed. A reference
frame is never stored: a follower takes it by REFERENCE_RECEIVE, a master has received it without error (R159, R176). -/
def execFrameReceive (c : FbNo) (f : CanFrame) (seen : Nat) (s : State) : Host.Outcome State Fault Refusal :=
  ok s (if !hears c seen s then s
  else if isReference c f s then (if isFollower c s then s else rxGood c s)
  else receiveFrame c f (seen - s.g (fbPage c) FB_STAMPCOMP_RXCOMP) true (rxGood c s))

/-- FRAME_ERROR (R159): an error while a frame of another node is received. A frame of a closed exclusive window that ends so
is waited for no longer on its channel (R184, R194). -/
def execFrameError (c : FbNo) (lec : BitVec 3) (eight : Bool) (seen : Nat) (s : State) : Host.Outcome State Fault Refusal :=
  ok s (if !hears c seen s then s
  else
    let stamp := seen - s.g (fbPage c) FB_STAMPCOMP_RXCOMP
    let s := rxError c lec.toNat eight s
    let d := schedOf c s
    match exAt d stamp s with
    | some (some i, w) => if w.transmit then s else settleLate d (putEx d (some i) (w.ended c) s)
    | _ => s)

/-! ## Basic cycles (R169 to R179) -/

/-- The open exclusive window closes with no frame of it on the bus (R171). -/
def closeWin (d : FbNo) (s : State) : State :=
  match (s.fb d).ex with
  | some w => settleWin d w (dropObjectTx d w (s.setFb d { s.fb d with ex := none }))
  | none => s

/-- The bank that a cycle starting at S makes active: one requested before S (R179). -/
def bankAt (d : FbNo) (start : Nat) (s : State) : Option Nat :=
  ((s.fb d).req.filter fun r => r.2 < start).getLast?.map (·.1)

/-- A basic cycle starts at S with cycle count `count`; a bank requested before S becomes active with count 0 (R179). -/
def openCycle (c : FbNo) (start count : Nat) (s : State) : State :=
  let d := schedOf c s
  let s := closeWin d s
  let x := s.fb d
  let switch := bankAt d start s
  let s := s.setFb d { x with cycle := some start, win := none, ex := none, fetched := none, refAt := none,
                              prev := s.g (fbPage d) FB_STAT_CYCCNT,
                              before := x.cycle.map fun st => (st, cyclen d s, currentRow d s),
                              req := x.req.filter fun r => start ≤ r.2, bankOk := x.bankOk || switch.isSome }
  let s := putChans d FB_CYCSTART_S start s
  match switch with
  | none => raiseChans d FB_IRQ_RAW_CYCLE (putChans d FB_STAT_CYCCNT (count % ncyc d s) s)
  | some b =>
    let s := putChans d FB_STAT_CYCCNT 0 (putChans d FB_STAT_BANK b s)
    let s := forAll (chansOf d s) (fun e s => s.put pFBT (actFld e.val) b) s
    let s := raise pFBT (if d = 0 then FBT_IRQ_RAW_BANKSW0 else FBT_IRQ_RAW_BANKSW1) s
    rioBank d (raiseChans d FB_IRQ_RAW_CYCLE s)

/-- The nominal start that the master's next reference belongs to (R177). -/
def nextNominal (c : FbNo) (s : State) : Nat :=
  let d := schedOf c s
  let len := 100 * cyclen d s
  match (s.fb d).cycle with
  | some _ => (s.fb d).nominal + len
  | none =>
    let ph := 100 * s.g (fbPage d) FB_PHASE_PHASE
    if s.mtb ≤ ph then ph else ph + (s.mtb - ph + len - 1) / len * len

/-- The cycle count that follows the current one. -/
def nextCount (c : FbNo) (s : State) : Nat :=
  if (s.fb (schedOf c s)).cycle.isSome then (s.g (fbPage (schedOf c s)) FB_STAT_CYCCNT + 1) % ncyc c s else 0

/-- A master that has a channel to send its reference on (R159, R184); a channel in bus-off has no cycle (R197). -/
def isMaster (c : FbNo) (s : State) : Bool :=
  c == schedOf c s && fbSched c s && !fbFollower c s && (chansOf c s).any fun e => canDrive e s

/-- A frame of the schedule handed to every channel of it that can drive frames; it follows a frame that is on the bus. -/
def sendChans (c : FbNo) (f : TxFrame) (s : State) : State :=
  forAll (chansOf c s) (fun e s =>
    if !canDrive e s then s
    else if (s.fb e).tx.isNone then s.setFb e { s.fb e with tx := some f }
    else s.setFb e { s.fb e with next := some f }) s

/-- The frame of R176, for a cycle that starts at `start`. -/
def referenceFrame (c : FbNo) (start : Nat) (s : State) : CanFrame :=
  let w := s.reg (fbPage c) 0x058
  let opens := match bankAt c start s with | some b => 64 * b | none => nextCount c s + 64 * activeBank c s
  { id := w.extractLsb' 0 29, ide := w.getLsbD 29, fdf := false, brs := false, esi := false, rtr := false, dlc := 8,
    data := [byte opens, byte (ncyc c s).log2] ++ leBytes 2 (cyclen c s) ++ wordBytes (s.fb c).lastRef }

def isRefTx (x : Option TxFrame) : Bool := match x with | some ⟨.reference, _⟩ => true | _ => false

/-- A reference of the schedule is on the bus or waits for it. -/
def refUnderWay (c : FbNo) (s : State) : Bool := (chansOf c s).any fun e => isRefTx (s.fb e).tx || isRefTx (s.fb e).next

/-- A reference that nominal start `n` asks for can start with this stamp. -/
def refInTime (c : FbNo) (n stamp : Nat) (s : State) : Bool := n ≤ stamp && 16 * (stamp - n) < 100 * cyclen c s

/-- The channels on which a copy of the reference failed and can be sent again (R184). -/
def owedRefs (c : FbNo) (s : State) : List FbNo :=
  (chansOf c s).filter fun e => (s.fb e).refOwed.isSome && canDrive e s && (s.fb e).tx.isNone

/-- A copy that failed is sent again on its channel. -/
def sendOwed (e : FbNo) (s : State) : State :=
  let x := s.fb e
  s.setFb e { x with tx := x.refOwed.map fun f => ⟨.reference, f⟩, refOwed := none }

/-- REFERENCE_SEND (R177): the master drives the start of frame of its reference at count `driven`. The cycle opens when the
frame has been sent: an attempt that fails gives no stamp. A copy that failed on a channel is sent again there (R184). -/
def execReferenceSend (c : FbNo) (driven : Nat) (s : State) : Host.Outcome State Fault Refusal :=
  ok s (let stamp := driven + s.g (fbPage c) FB_STAMPCOMP_TXCOMP
  let n := (s.fb c).refAt.getD (nextNominal c s)
  if isMaster c s && owedRefs c s != [] && refInTime c ((s.fb c).refAt.getD (s.fb c).nominal) stamp s then
    forAll (owedRefs c s) sendOwed (s.untilMtb stamp)
  else if isMaster c s && n ≤ stamp && 16 * (stamp - n) < 100 * cyclen c s && !refUnderWay c s
      && (chansOf c s).any (fun e => canDrive e s && (s.fb e).tx.isNone) then
    let s := s.untilMtb stamp
    let s := forAll (chansOf c s) (fun e s => s.setFb e { s.fb e with refOwed := none }) s
    sendChans c ⟨.reference, referenceFrame c stamp s⟩ (s.setFb c { s.fb c with refAt := some n })
  else s)

/-- A reference has been sent with this stamp: the basic cycle opens at it. The other channel's copy opens none. -/
def referenceSent (c : FbNo) (stamp : Nat) (s : State) : State :=
  let d := schedOf c s
  match (s.fb d).refAt with
  | none => s
  | some n =>
    let s := openCycle d stamp (nextCount d s) s
    s.setFb d { s.fb d with nominal := n, lastRef := word stamp }

/-- REFERENCE_ABANDON (R177): no reference could start in time; the cycle starts at its nominal instant. -/
def execReferenceAbandon (c : FbNo) (s : State) : Host.Outcome State Fault Refusal :=
  ok s (let n := (s.fb c).refAt.getD (nextNominal c s)
  if isMaster c s && !refUnderWay c s then
    let s := s.untilMtb (n + (100 * cyclen c s + 15) / 16)
    let s := openCycle c n (nextCount c s) s
    raiseChans c FB_IRQ_RAW_REFMISS (s.setFb c { s.fb c with nominal := n })
  else s)

/-- REFERENCE_RECEIVE (R178): a reference frame with these data bytes was seen at count `seen`. -/
def execReferenceReceive (c : FbNo) (data : List Byte) (seen : Nat) (s : State) : Host.Outcome State Fault Refusal :=
  ok s (if !isFollower c s || !hears c seen s then s
  else
    let stamp := seen - s.g (fbPage c) FB_STAMPCOMP_RXCOMP
    let d := schedOf c s
    let s := rxGood c s
    let len := 100 * cyclen d s
    let take := match (s.fb d).cycle with
      | none => true
      | some st => 16 * (st + len) ≤ 16 * stamp + len && 16 * stamp < 16 * (st + len) + len
    if take then
      let b0 := data.getD 0 0
      let s := putTstate d 2 (s.setFb d { s.fb d with refMiss := 0 })
      let s := openCycle d stamp (b0.extractLsb' 0 6).toNat s
      if (b0.getLsbD 6).toNat = activeBank d s then s else raiseChans d FB_IRQ_RAW_CFGERR s
    else s)

/-- ACCEPTANCE_TIMEOUT (R178): the acceptance interval closes without a reference. The miss that ends SYNC counts toward REFLIM, so
REFLIM 0 or 1 leads from SYNC to UNSYNC (log 138). -/
def execAcceptanceTimeout (c : FbNo) (s : State) : Host.Outcome State Fault Refusal :=
  ok s (let d := schedOf c s
  match (s.fb d).cycle with
  | some st =>
    if isFollower c s then
      let len := 100 * cyclen d s
      let s := s.untilMtb (st + len + (len + 15) / 16)
      let miss := (s.fb d).refMiss + 1
      let s := raiseChans d FB_IRQ_RAW_REFMISS (s.setFb d { s.fb d with refMiss := miss })
      if reflim d s ≤ miss then
        raiseChans d FB_IRQ_RAW_SYNCLOST (putTstate d 1 (loseCycle d s))
      else openCycle d (st + len) (nextCount d s) (putTstate d 3 s)
    else s
  | none => s)

/-! ## Windows -/

/-- The window that opens next in the current cycle. -/
def nextWin (c : FbNo) (s : State) : Nat := match (s.fb c).win with | some w => w + 1 | none => 0

/-- TX_OBJECT_FETCH (R165): 200 counts before its window opens a transmit object is read, or skipped while UPD is 1. A channel
that may send nothing, in LISTEN mode say, has no transmit window: it counts neither TXSKIP nor TXMISS (log 137). -/
def execTxObjectFetch (c : FbNo) (s : State) : Host.Outcome State Fault Refusal :=
  ok s (match (s.fb c).cycle with
  | none => s
  | some st =>
    let row := currentRow c s
    let w := nextWin c s
    match row[w]? with
    | some x =>
      if schedOf c s = c ∧ x.type = 2 ∧ (chansOf c s).any (fun e => maySend e s) ∧ objEnabled c x.obj true s then
        let s := s.untilMtb (winOpen st row w - 200)
        if (objStat c x.obj s).getLsbD 15 then
          raise (fbPage c) FB_IRQ_RAW_TXSKIP (s.ww (objAddr c x.obj + 12) (setBit (objStat c x.obj s) 14 true))
        else s.setFb c { s.fb c with fetched := some (w, ⟨.object x.obj, objFrame c x.obj s⟩) }
      else s
    | none => s)

/-- WINDOW_OPEN (R171, R174): the next window opens; the object read for it is started. -/
def execWindowOpen (c : FbNo) (s : State) : Host.Outcome State Fault Refusal :=
  ok s (match (s.fb c).cycle with
  | none => s
  | some st =>
    let row := currentRow c s
    let w := nextWin c s
    match row[w]? with
    | some x =>
      if schedOf c s = c then
        let opens := winOpen st row w
        let s := closeWin c (s.untilMtb opens)
        let fresh : ExWin :=
          { obj := x.obj, transmit := x.type == 2, open_ := opens, close := winClose st (cyclen c s) row w, copy := none,
            from0 := false, from1 := false, wait0 := false, wait1 := false, sent0 := false, sent1 := false, ack0 := false,
            ack1 := false, end0 := false, end1 := false, counted := false }
        let y := s.fb c
        let frame := match y.fetched with
          | some (i, f) => if i = w && objEnabled c x.obj true s then some f else none
          | none => none
        let ex := if x.type = 1 ∧ objEnabled c x.obj false s then some fresh else if x.type = 2 ∧ frame.isSome then some fresh else none
        let s := s.setFb c { y with win := some w, ex := ex, fetched := none }
        match frame with
        | some f => sendChans c f s
        | none => s
      else s
    | none => s)

/-- WINDOW_CLOSE (R172 to R174): the open window closes; with a frame of it still on the bus of a channel it is settled when
that frame has ended. -/
def execWindowClose (c : FbNo) (on0 : Bool) (s : State) (on1 : Bool := false) : Host.Outcome State Fault Refusal :=
  ok s (match (s.fb c).cycle, (s.fb c).win with
  | some st, some w =>
    if schedOf c s = c then
      let s := s.untilMtb (winClose st (cyclen c s) (currentRow c s) w)
      match (s.fb c).ex with
      | none => s
      | some e =>
        let waits := fun (d : FbNo) (on : Bool) => on && (chansOf c s).contains d && (!e.transmit || isObjTx e.obj (s.fb d).tx)
        let e := { e with wait0 := waits 0 on0, wait1 := waits 1 on1 }
        let s := s.setFb c { s.fb c with ex := none, late := (s.fb c).late ++ [e] }
        let idle := (chansOf c s).filter fun d => !(if d = 0 then e.wait0 else e.wait1)
        settleLate c (if e.transmit then forAll idle (dropObjectOn e.obj) s else s)
    else s
  | _, _ => s)

/-- A ring entry as a frame; none when a reserved field is not zero, or BRS is 1 with FDF 0 (R182). -/
def ringFrame (e : List Byte) : Option CanFrame :=
  let w0 := leWord e 0
  let reserved := (e.drop 5).take 11
  if (e.getD 4 0).extractLsb' 4 4 != 0 || !(reserved.all (· == 0)) || (w0.getLsbD 31 && !w0.getLsbD 30) then none
  else
    let dlc := (e.getD 4 0).extractLsb' 0 4
    let fdf := w0.getLsbD 30
    some { id := w0.extractLsb' 0 29, ide := w0.getLsbD 29, fdf := fdf, brs := w0.getLsbD 31, esi := false, rtr := false,
           dlc := dlc, data := (e.drop 16).take (dlcLen fdf dlc) }

/-- An attempt on a ring's entry whose start of frame has this stamp starts in time (R175). -/
def arbInTime (c : FbNo) (stamp : Nat) (s : State) : Bool :=
  !fbSched c s || (arbClose c stamp s).any fun t => stamp + 100 * s.g (fbPage c) FB_ARBGUARD_GUARD ≤ t

/-- ARBITRATING_TRANSMIT (R175, R182): an attempt on the head of the ring starts when it can start in time. The entry is read
at its first attempt. -/
def execArbitratingTransmit (c : FbNo) (s : State) : Host.Outcome State Fault Refusal :=
  ok s (let p := fbPage c
  if maySend c s && arbInTime c (s.mtb + s.g p FB_STAMPCOMP_TXCOMP) s && (s.fb c).tx.isNone then
    match (s.fb c).held, headA (20 + c.val) s with
    | some f, _ => s.setFb c { s.fb c with tx := some ⟨.ring, f⟩ }
    | none, none => s
    | none, some e =>
      match ringFrame e with
      | none => raise p FB_IRQ_RAW_CFGERR ((takeA (20 + c.val) s).bump p FB_CNT_LOST_RINGOVF)
      | some f => s.setFb c { s.fb c with tx := some ⟨.ring, f⟩, held := some f }
  else s)

/-- An attempt on the object of an exclusive transmit window has ended on channel `c`: sent, in an ACK error, or otherwise. -/
def ExWin.attempt (w : ExWin) (c : FbNo) (sent ack : Bool) : ExWin :=
  if c = 0 then { w with sent0 := w.sent0 || sent, ack0 := ack, end0 := true }
  else { w with sent1 := w.sent1 || sent, ack1 := ack, end1 := true }

/-- The object's frame has ended in an ACK error on one channel and not on the other, which has ended too or does not send
it: a channel miss, once for the window (R185). -/
def ackMiss (d : FbNo) (at_ : WinAt) (w : ExWin) (s : State) : State :=
  let settled := fun (e : FbNo) (ended : Bool) => ended || !isObjTx w.obj (s.fb e).tx
  if redundant s && !w.counted && w.ack0 != w.ack1 && settled 0 w.end0 && settled 1 w.end1 then
    channelMiss (if w.ack0 then 0 else 1) (putEx d at_ { w with counted := true } s)
  else s

/-- The exclusive transmit window in which an attempt on object `k` with this stamp was made (R172). -/
def txWin (d : FbNo) (k stamp : Nat) (s : State) : Option (WinAt × ExWin) :=
  (exWins d s).find? fun x => x.2.transmit && x.2.obj == k && x.2.inside stamp

/-- An attempt on an object's frame has ended on channel `c`. It is sent again while its window is open; after the close no
attempt can start. -/
def objectEnded (c : FbNo) (k : Nat) (f : CanFrame) (stamp : Nat) (sent ack : Bool) (s : State) : State :=
  let d := schedOf c s
  match txWin d k stamp s with
  | none => s
  | some (at_, w) =>
    let first := sent && !w.sent0 && !w.sent1
    let w := (w.attempt c sent ack).ended c
    let s := putEx d at_ w s
    let s := if sent || at_.isSome || s.power.leaving || !objEnabled d k true s then txOver c s else s
    let s := if first then rioSent d k (sentObject d k f (word stamp) c.val (countAt d stamp s) s) else s
    settleLate d (ackMiss d at_ w s)

/-- The transmitter loop delay, measured in a frame that is sent with bit rate switching under TDCEN (R158). -/
def measureLoop (c : FbNo) (f : CanFrame) (loop : Option Nat) (s : State) : State :=
  match loop with
  | some n =>
    if s.bit (fbPage c) FB_TDC_TDCEN && f.fdf && f.brs then s.put (fbPage c) FB_TDC_TDCV (min 127 n) else s
  | none => s

/-- The attempt that `driven` names can have been made: none starts once Damask is going OFF, an object's falls into a window
of its own, a ring's starts in time while there is a cycle. -/
def attemptGood (c : FbNo) (x : TxFrame) (driven stamp : Nat) (s : State) : Bool :=
  inProgress driven s && match x.what with
  | .object k => (txWin (schedOf c s) k stamp s).isSome
  | .ring => (s.fb (schedOf c s)).cycle.isNone || arbInTime c stamp s
  | .reference => true

/-- A frame was sent: counted, the ring's entry removed, the reference's cycle opened. -/
def frameSentOn (c : FbNo) (x : TxFrame) (stamp : Nat) (s : State) : State :=
  let p := fbPage c
  let f := sentBy c s x.frame
  let s := s.put p FB_ERR_TEC (s.g p FB_ERR_TEC - 1)
  let s := syncErrState c (s.bump p FB_CNT_TX_COUNT)
  let s := match x.what with
    | .object k => objectEnded c k f stamp true false s
    | .ring => txOver c (takeA (20 + c.val) (s.setFb c { s.fb c with held := none }))
    | .reference => referenceSent c stamp (txOver c s)
  if fbMode c s = 3 && x.what != .reference then receiveFrame c f stamp false s else s

/-- An attempt that failed: an object's is repeated in its window, the ring's and the reference's by a row of their own; a
reference goes out on both channels of a redundant pair, so that its copy is owed (R184). -/
def attemptFailed (c : FbNo) (x : TxFrame) (stamp : Nat) (ack : Bool) (s : State) : State :=
  match x.what with
  | .object k => objectEnded c k x.frame stamp false ack s
  | .ring => txOver c s
  | .reference =>
    let s := txOver c s
    if redundant s && !s.power.leaving then s.setFb c { s.fb c with refOwed := some x.frame } else s

/-- An attempt that ended in a bus error. -/
def attemptError (c : FbNo) (x : TxFrame) (stamp lec : Nat) (spared : Bool) (eights : Nat) (s : State) : State :=
  let s := txError c lec spared eights s
  if busOff c s then clearWaits c s else attemptFailed c x stamp (lec == 3) s

/-- TX_FRAME_END (R174, R182): an attempt that the channel started at count `driven` ends; `loop` is the loop delay that was
measured when the frame got as far as its res bit. In LOOPBACK a frame sent is received too, and goes to no ring (R160,
R180). -/
def execTxFrameEnd (c : FbNo) (driven : Nat) (how : TxEnd) (s : State) (loop : Option Nat := none) :
    Host.Outcome State Fault Refusal :=
  ok s (match (s.fb c).tx with
  | none => s
  | some x =>
    let stamp := driven + s.g (fbPage c) FB_STAMPCOMP_TXCOMP
    if !attemptGood c x driven stamp s then s
    else
      let s := measureLoop c x.frame loop s
      match how with
      | .sent => frameSentOn c x stamp s
      | .lostArbitration => attemptFailed c x stamp false s
      | .error lec => attemptError c x stamp lec.toNat false 0 s
      | .flagged lec spared eights => attemptError c x stamp lec.toNat spared eights s)

/-- BUSOFF_RECOVERY_DONE (R159). -/
def execBusoffRecoveryDone (c : FbNo) (s : State) : Host.Outcome State Fault Refusal :=
  ok s (let p := fbPage c
  if s.g p FB_STAT_ERRSTATE = 3 then
    (((s.put p FB_STAT_ERRSTATE 0).put p FB_ERR_TEC 0).put p FB_ERR_REC 0).put p FB_ERR_RP 0
  else s)

/-! ## Registers -/

/-- A bank requested for a channel: validated, then due at the next cycle start (R179). One that fails leaves an earlier request
standing (log 139). -/
def requestBank (c : FbNo) (bank : Nat) (s : State) : State :=
  match bankFault c bank s with
  | some (reason, i) => raise pFBT FBT_IRQ_RAW_CELLERR (s.setReg pFBT 0x048 (word (reason * 2 ^ 16 + i)))
  | none => s.setFb c { s.fb c with req := (s.fb c).req ++ [(bank, s.mtb)] }

def bankFld (c : FbNo) : Fld := if c = 0 then FBT_CTRL_BANK0 else FBT_CTRL_BANK1

/-- TSTATE of a channel that leaves OFF. -/
def startState (c : FbNo) (s : State) : Nat := if !fbSched c s then 5 else if fbFollower c s then 1 else 4

/-- MODE leaves OFF: the bank that FBT_CTRL names is validated, and is active from then on when it passes (R170, R179; log
entry 99). -/
def startBank (d : FbNo) (s : State) : State :=
  let bank := s.g pFBT (bankFld d)
  match bankFault d bank s with
  | some (reason, i) => raise pFBT FBT_IRQ_RAW_CELLERR (s.setReg pFBT 0x048 (word (reason * 2 ^ 16 + i)))
  | none =>
    let changed := activeBank d s != bank
    let s := putChans d FB_STAT_BANK bank (s.setFb d { s.fb d with bankOk := true })
    let s := forAll (chansOf d s) (fun e s => s.put pFBT (actFld e.val) bank) s
    let s := if changed then raise pFBT (if d = 0 then FBT_IRQ_RAW_BANKSW0 else FBT_IRQ_RAW_BANKSW1) s else s
    rioBank d s

/-- MODE changes from what it was in state `old` (R160, R170, R178). A schedule whose effective role changes starts anew. -/
def modeChanged (c : FbNo) (old s : State) : State :=
  let was := fbMode c old
  let now := fbMode c s
  let d := schedOf c s
  let other := (chansOf c s).find? fun e => e != c && fbMode e s != 0
  let anew := fun (s : State) =>
    if fbSched c s && fbFollower c s != fbFollower c old then
      let s := loseCycle c s
      putTstate c (startState c s) (s.setFb d { s.fb d with refMiss := 0 })
    else s
  if was = 0 ∧ now ≠ 0 then
    match other with
    | some e =>
      let bank := s.g pFBT (bankFld d)
      let s := anew (s.put (fbPage c) FB_STAT_TSTATE (tstate e s))
      if (s.fb d).bankOk && activeBank d s == bank && (bankFault d bank s).isNone then s else requestBank d bank s
    | none =>
      let s := s.put (fbPage c) FB_STAT_TSTATE (startState c s)
      startBank d (s.setFb d { fbIdle with lastRef := (s.fb d).lastRef })
  else if was ≠ 0 ∧ now = 0 then
    let s := s.put (fbPage c) FB_STAT_TSTATE 0
    let s := clearWaits c (s.setFb c { s.fb c with tx := none, next := none, held := none, refOwed := none })
    if noCarrier c s then loseCycle c s else anew s
  else if now ≠ 0 ∧ was ≠ now then
    anew (if canDrive c s then s else clearWaits c (s.setFb c { s.fb c with tx := none, next := none }))
  else s

/-- A write of FBn_CTRL (R187). -/
def fbCtrlWrite (c : FbNo) (a : Access) (s : State) : State :=
  let p := fbPage c
  let was := fbMode c s
  let fixed := a.unlocked && was != 0 && a.f FB_CTRL_MODE != 0
    && (a.b FB_CTRL_ROLE != s.bit p FB_CTRL_ROLE || a.b FB_CTRL_SCHED != s.bit p FB_CTRL_SCHED)
  if fixed then raise p FB_IRQ_RAW_CFGERR s
  else startRecovery c (modeChanged c s (plainWrite p 0x008 a s))

/-- A write of an FB page: timing and cycle configuration stand still while MODE is not OFF (R187). -/
def fbWrite (c : FbNo) (off : Nat) (a : Access) (s : State) : State :=
  let p := fbPage c
  if off = 0x008 then fbCtrlWrite c a s
  else
    let t := plainWrite p off a s
    let changed :=
      if off = 0x048 then t.bit p FB_TDC_TDCEN != s.bit p FB_TDC_TDCEN
      else (off = 0x040 ∨ off = 0x044 ∨ off = 0x050 ∨ off = 0x054 ∨ off = 0x058) && t.reg p off != s.reg p off
    if changed && fbMode c s != 0 then raise p FB_IRQ_RAW_CFGERR s else t

/-- A write of FBT_CTRL requests the banks that BANK0 and BANK1 name, changed or not (R179); REDUNDANT changes only while both
channels are OFF (R188), and without it no channel is FAILED (R187). -/
def fbtCtrlWrite (a : Access) (s : State) : State :=
  let want := if a.unlocked then a.b FBT_CTRL_REDUNDANT else s.bit pFBT FBT_CTRL_REDUNDANT
  let moves := want != s.bit pFBT FBT_CTRL_REDUNDANT
  let allowed := fbMode 0 s == 0 && fbMode 1 s == 0
  let s := if moves then
      (if allowed then
        forAll [(0 : FbNo), 1] (fun c s => (s.setFb c { s.fb c with misses := 0, goods := 0 }).put (fbPage c) FB_STAT_FAILED 0)
          ((s.putBit pFBT FBT_CTRL_REDUNDANT want).putBit pFBT FBT_STAT_REDUNDANT want)
       else raise pFBT FBT_IRQ_RAW_CFGERR s)
    else s
  let s := (s.put pFBT FBT_CTRL_BANK0 (a.f FBT_CTRL_BANK0)).put pFBT FBT_CTRL_BANK1 (a.f FBT_CTRL_BANK1)
  let s := requestBank 0 (a.f FBT_CTRL_BANK0) s
  if redundant s then s else requestBank 1 (a.f FBT_CTRL_BANK1) s

/-- FBT_MDATA is a window on the cell that FBT_MIDX names; each access advances the index. -/
def mdataIndex (s : State) : Nat := (s.reg pFBT 0x040).toNat % 8192
def mdataStep (s : State) : State := s.setReg pFBT 0x040 (word ((mdataIndex s + 1) % 8192))

/-- The bank of a cell is active on a channel that is not OFF: ACTn names it, also when it failed its validation as MODE left OFF
(R188; log 141). -/
def cellInUse (i : Nat) (s : State) : Bool :=
  let bank := i / 2048 % 2
  [(0 : FbNo), 1].any fun e =>
    fbMode e s != 0 && (schedOf e s).val == i / 4096 && activeBank e s == bank

def mdataWrite (v : Word) (s : State) : State :=
  let i := mdataIndex s
  if cellInUse i s then raise pFBT FBT_IRQ_RAW_WRACT (mdataStep s)
  else mdataStep (s.ww (cellAddr i) (v &&& 0xC0FFFFFF))

def fbtRead (off : Nat) (s : State) : Word × State :=
  if off = 0x044 then (s.rw (cellAddr (mdataIndex s)), mdataStep s) else plainRead pFBT off s

def fbtWrite (off : Nat) (a : Access) (s : State) : State :=
  if off = 0x008 then fbtCtrlWrite a s
  else if off = 0x044 then mdataWrite a.val s
  else plainWrite pFBT off a s

end Sys2Proof.Machine
end

