-- ==== Sys2Proof/Machine/Power.lean ====
section
/-! DEFINITION. The power manager: the store's measurement, the retain areas, the way of Damask into OFF, profiles and
their acceptance, and what a reset makes of Damask (R372 to R390). -/

namespace Sys2Proof.Machine

open Reg

/-- Damask has power and a clock, and is not held in reset. -/
def damaskOn (s : State) : Bool := !s.bit pPMU PMU_STAT_DOFF && !s.power.held && !s.power.noClock

/-! ## The store (R374, R375) -/

/-- What the PMU measures at a field tick. -/
def pmuMeasure (x : FieldSample) (s : State) : State :=
  let s := s.put pPMU PMU_EHOLD_VHOLD (min x.store 0xFFFF)
  let s := match x.ceff with
    | some c => s.put pPMU PMU_CEFF_VALUE (min c 0xFFFF)
    | none => s
  let s := s.put pPMU PMU_SUP_VALUE (min x.supply 0xFFFF)
  let s := s.put pPMU PMU_EHOLD_EHOLD (min (eHold s / 2000000) 0xFFFF)
  s.putBit pPMU PMU_STAT_PFREADY (20000 * 700000 ≤ eHold s)

/-- `n` bytes that the spec leaves open. -/
def freeBytes (n : Nat) (s : State) : List Byte × State :=
  ((List.range n).map fun i => (Config.freeWord (s.freed + i)).extractLsb' 0 8, { s with freed := s.freed + n })

/-! ## Retain areas (R378 to R380) -/

def areaOff (k : Nat) : Nat := 0x1A0000 + 0x11000 * k
/-- The 17 sectors of an area. -/
def areaSectors (k : Nat) : List Nat := (List.range 17).map (· + areaOff k / sectorSize)
def areaRegions (k : Nat) (s : State) : Nat := (flByte (areaOff k + 8) s).toNat
/-- Bytes of an area before its trailer. -/
def areaLength (k : Nat) (s : State) : Nat := 288 + 4096 * areaRegions k s
def areaGen (k : Nat) (s : State) : Word := word (flWord (areaOff k + 4) s)

/-- The magic, the header CRC and the commit marker hold, and no granule of header and trailer has a double-bit error. -/
def areaValid (k : Nat) (s : State) : Bool :=
  readable (areaOff k) 288 s && readable (areaOff k + areaLength k s) 8 s
    && flBytes (areaOff k) 4 s == ascii "RTN1" && areaRegions k s ≤ 16
    && flWord (areaOff k + areaLength k s) s == (crc32c (flBytes (areaOff k) 288 s)).toNat
    && flWord (areaOff k + areaLength k s + 4) s == 0xA5C33C5A

/-- The newest valid area: the one whose GEN follows the other's. -/
def newestArea (s : State) : Option Nat :=
  match areaValid 0 s, areaValid 1 s with
  | true, true => if (areaGen 1 s - areaGen 0 s).toNat < 2 ^ 31 then some 1 else some 0
  | true, false => some 0
  | false, true => some 1
  | false, false => none

/-- The area that is written next. -/
def freeArea (s : State) : Nat := match newestArea s with | some 0 => 1 | _ => 0

def syncRetainStat (s : State) : State :=
  (s.putBit pPMU PMU_STAT_RETRDY ((areaSectors (freeArea s)).all fun k => sectorErased k s)).putBit pPMU
    PMU_STAT_RETVALID (newestArea s).isSome

/-- At each start and after each restore: the area that is not the newest valid one is erased (R379). -/
def retainSettle (s : State) : State :=
  let s := dropOps (fun u => u == .retainErase) s
  syncRetainStat (forAll ((areaSectors (freeArea s)).filter fun k => !sectorErased k s)
    (fun k s => askFlash precRepair (.erase k) .retainErase s) s)

/-- The regions that are retained. -/
def retainRegions (s : State) : List Nat := (allRegions.filter fun k => rgnValid k s && rgnRetain k s).take 16

/-- The committed image of a region. -/
def regionImage (k : Nat) (s : State) : List Byte := s.bytes (imageBase (rgnSel k s) + 4096 * k) 4096

/-- Descriptor of a region. -/
def retainDescriptor (k : Nat) (s : State) : List Byte :=
  leBytes 2 k ++ [byte (rgnTaskField k s).val, byte (rgnDom k s).toNat] ++ wordBytes (crc32c (regionImage k s))
    ++ List.replicate 8 0

/-- The words of transfer XID 0x02: NREG, 16 descriptors, the base images in descriptor order. -/
def retainWords (s : State) : List Word :=
  let ks := retainRegions s
  bytesWords (leBytes 4 ks.length ++ padTo 256 (ks.flatMap fun k => retainDescriptor k s) ++ ks.flatMap fun k => regionImage k s)

def setArea (x : Option RetainWrite) (s : State) : State := { s with power := { s.power with area := x } }

/-- No retain area is written (R379). -/
def retainSkip (s : State) : State := raiseLog pPMU PMU_IRQ_RAW_RETSKIP [] (setArea none s)

/-- Damask is going OFF: an erased area is taken for its images, when there is one (R379). -/
def retainBegin (s : State) : State :=
  if s.bit pPMU PMU_CTRL_RETEN && s.bit pPMU PMU_STAT_RETRDY then setArea (some ⟨freeArea s, 0, false⟩) s else retainSkip s

/-- The images will not come whole any more: what has been written of their area never becomes valid (log 131). -/
def retainLost (s : State) : State :=
  match s.power.area with
  | some x => if x.whole then s else retainSkip (dropOps (fun u => u == .retain) s)
  | none => s

/-- The bytes of an area for the words of XID 0x02 that have come: header, descriptors, images. -/
def areaBytes (gen : Word) (ws : List Word) : List Byte :=
  ascii "RTN1" ++ wordBytes gen ++ [byte (ws.getD 0 0).toNat] ++ List.replicate 23 0 ++ wordsBytes (ws.drop 1)

/-- Some granules of an area to be programmed. -/
def askRetain (off : Nat) (bs : List Byte) (s : State) : State :=
  if bs = [] then s else askFlash precPlan (.batch [] [(off, bs)] (2 * (bs.length / 8))) .retain s

/-- Words `ws` of XID 0x02 have come, or the whole of it: the granules that they complete are programmed, the trailer
last (R376, R378). -/
def retainStore (ws : List Word) (whole : Bool) (s : State) : State :=
  match s.power.area with
  | none => s
  | some x =>
    if ws = [] ∨ x.whole = true then s
    else
      let gen := match newestArea s with | some n => areaGen n s + 1 | none => 1
      let n := min 16 (ws.getD 0 0).toNat
      let bs := areaBytes gen ws
      let bs := if whole then padTo (288 + 4096 * n) (bs.take (288 + 4096 * n)) else bs
      let g := max x.asked (bs.length / 8)
      let s := askRetain (areaOff x.area + 8 * x.asked) ((bs.drop (8 * x.asked)).take (8 * (g - x.asked))) s
      let s := if whole then askRetain (areaOff x.area + 288 + 4096 * n)
          (wordBytes (crc32c (bs.take 288)) ++ wordBytes 0xA5C33C5A) s else s
      setArea (some { x with asked := g, whole := whole }) s

/-- An operation of the area has been made; with its trailer the area is complete. -/
def retainDone (s : State) : State :=
  let s := syncRetainStat s
  match s.power.area with
  | some x => if x.whole && areaValid x.area s then setArea none s else s
  | none => s

/-- An area as Muslin reads it: what it reads of a granule with a double-bit error is a free value. -/
def readArea (k : Nat) (s : State) : List Byte × State :=
  let n := areaLength k s
  let f := freeBytes n (eccIn (areaOff k) n s)
  let got := flBytes (areaOff k) n s
  if readable (areaOff k) n s then (got, eccIn (areaOff k) n s)
  else ((List.range n).map fun i =>
      if granuleError (granuleOf (areaOff k + i)) s = 2 then f.1.getD i 0 else got.getD i 0, f.2)

/-- A write of PMU_CTRL.RESTORE: the newest valid area goes to Damask; with none the restore is done (R380). -/
def pmuRestore (s : State) : State :=
  let s := s.put pPMU PMU_STAT_RESTDONE 0
  match newestArea s with
  | some k =>
    let x := readArea k s
    sendBulk .muslin 0x03 (bytesWords x.1) (x.2.put pPMU PMU_CTRL_RESTORE 1)
  | none => retainSettle (s.put pPMU PMU_STAT_RESTDONE 1)

/-- One descriptor of a restored area: written into both images when its checks hold, else told. -/
def restoreRegion (d image : List Byte) (s : State) : State :=
  let k := leField d 0 2
  let good := k < 1024 && rgnValid k s && rgnRetain k s && (rgnTaskField k s).val == (d.getD 2 0).toNat
    && (rgnDom k s).toNat == (d.getD 3 0).toNat && crc32c image == leWord d 4
  if good then
    let s := (s.wbytes (imageBase 0 + 4096 * k) image).wbytes (imageBase 1 + 4096 * k) image
    let t := rgnTaskField k s
    let s := s.setTask t { s.task t with scan := (s.task t).scan.map fun sc => { sc with restored := false } }
    s.put (tskPage t) TSK_TSTAT_RESTORED 1
  else raiseLog pPMU PMU_IRQ_RAW_RESTMIS (leBytes 2 k) s

/-- Damask has the whole of XID 0x03. -/
def restoreApply (ws : List Word) (s : State) : State :=
  let b := wordsBytes ws
  let n := min 16 (b.getD 8 0).toNat
  let s := forAll (List.range n) (fun i s =>
    restoreRegion ((b.drop (32 + 16 * i)).take 16) ((b.drop (288 + 4096 * i)).take 4096) s) s
  retainSettle ((s.put pPMU PMU_STAT_RESTDONE 1).put pPMU PMU_CTRL_RESTORE 0)

/-! ## Damask leaves (R376, R382) -/

/-- An end of the link as a reset leaves it. -/
def linkIdle : LinkDie :=
  { txSeq := 0, rxSeq := 0, nakSent := false, unacked := [], waiting := [], accepted := 0, acceptedAt := 0, lastValid := 0,
    since := 0, nonce := [], sessionKey := [], sealTx := 0, sealRx := 0, sealIn := [], bulkIn := [], lanes := [],
    hbAt := 0 }

def schedIdle : Sched :=
  { tasks := [], deques := [], copyE := [], copyW := [], freeE := 0, freeW := 0, dirty := [], copies := [], btick := 0, toValidate := [],
    laneBusy := [], solvBusy := [], solver := [], solverFrom := [], prevProfile := 0, acceptedAt := 0,
    defer := none, cutoff := 0 }

def romStart (half : Bool) (start : Nat) : Rom :=
  { half := half, start := start, slot := none, tries := 0, key := .none, again := false }
def bootStart : Boot := { east := romStart false 0, west := romStart false 0, nor := none, session := none }

def inputsEmpty : Inputs := { parts := [], locals := [], feeders := [] }

/-- A NOR erase or program that a reset cuts off leaves its bytes open (R371). -/
def norTear (s : State) : State :=
  match s.boot.nor with
  | some c =>
    if c.op ≤ 1 then
      let f := freeBytes (if c.op = 0 then 65536 else c.len) s
      f.2.wbytes (norBase + c.addr) f.1
    else s
  | none => s

/-- The fabric as a reset leaves it. -/
def fabricIdle : Fabric := { waiting := [], arbiters := [], free := [] }

/-- Every register, memory and block of Damask as a reset leaves it (R13, R80, R186, R201, R281, R357, R413). The time base,
and the causes of SYS_RSTCAUSE, are settled by whoever resets. -/
def damaskClear (s : State) : State :=
  let s := ((norTear s).resetPages 0 64).resetPages 128 512
  let s := ((s.clearMem 0x08000000 0x08200000).clearMem 0x10000000 0x10800000).clearMem 0x20000000 0x30080000
  let s := s.clearMem 0x48000000 0x49010000
  let s := { s with
    points := [], lockAt := tclear (fun p => !isMuslinPage p) s.lockAt, damask := linkIdle, txns := [],
    ev := { s.ev with waiting := [], recWait := [], recLost := 0, levels := 0, sw := 0 },
    engs := [], icache := [], mtbHi := [], cmp := [], grants := 0, fabric := fabricIdle,
    boot := bootStart, fb0 := fbIdle, fb1 := fbIdle,
    stations := [], sched := schedIdle, cry := cryReset, comms := commsReset, wdts := [], q31 := none,
    inputs := inputsEmpty }
  { s with
    hart := { s.hart with taken := [] },
    power := { s.power with leaving := false, noClock := false, pinLast := 0, pinRun := 0, refused := none, retry := false } }

/-- Causes of the last module reset stay in SYS_RSTCAUSE (R13). -/
def keepCause (run : State → State) (s : State) : State :=
  let w := s.reg pSYS 0x04C
  (run s).setReg pSYS 0x04C (w &&& 0xF)

/-- Damask loses its power. -/
def damaskOff (s : State) : State :=
  let s := keepCause damaskClear s
  let s := { s with engs := [(0, engStopped), (32, engStopped)] }
  let s := (s.put pBOOT BOOT_STAT_ESTATE hsOff).put pBOOT BOOT_STAT_WSTATE hsOff
  (s.put pPMU PMU_STAT_DOFF 1).put pPMU PMU_CTRL_DOFF 0

/-- The floor bus stops: no cycle, and no frame but the one in progress on each channel (R186); the stations stop with it
(R201). -/
def stopBus (s : State) : State :=
  forAll [(0 : FbNo), 1] (fun c s => s.setFb c { s.fb c with
    cycle := none, win := none, fetched := none, next := none, refAt := none }) s

/-- The plan's steps on Damask: every scan dead, both halves held, no frame and no character started any more. Its power
lasts for the 150 ms of the plan at most (R376, R377; log 131). -/
def damaskStop (s : State) : State :=
  let s := forAll allTasks killScan s
  let s := (s.put pSCH SCH_CTRL_HOLDE 1).put pSCH SCH_CTRL_HOLDW 1
  stopComms (stopBus { s with power := { s.power with leaving := true, leaveAt := s.mtb, cutAt := s.replica + 15000000 } })

/-- The same with the images of the RETAIN regions on their way. -/
def damaskLeave (s : State) : State :=
  let s := retainBegin (damaskStop s)
  sendBulk .damask 0x02 (retainWords s) s

/-- A write of PMU_CTRL.DOFF (R382): the same steps without a declaration. -/
def pmuDoff (s : State) : State :=
  if s.bit pPMU PMU_STAT_DOFF || s.power.leaving then s
  else
    let s := s.put pPMU PMU_CTRL_DOFF 1
    if s.linkUp .damask && s.linkUp .muslin then damaskLeave s else damaskOff s

def pmuWrite (off : Nat) (a : Access) (s : State) : State :=
  if off = 0x008 then
    let s := plainWrite pPMU 0x008 { a with val := a.val &&& 0x3 } s
    let s := if a.b PMU_CTRL_RESTORE then pmuRestore s else s
    if a.b PMU_CTRL_DOFF then pmuDoff s else s
  else plainWrite pPMU off a s

/-! ## Supply failure (R373, R376) -/

/-- Waiting writes that the plan lists go ahead of all others. -/
def planOrder (s : State) : State :=
  let ops := s.flash.waiting.map fun o => if planWrite o then { o with prec := precPlan } else o
  s.setFlash { s.flash with waiting := ops.foldl (fun l o => opInsert o l) [] }

/-- SUPPLY_FAILURE: `xs` are the samples up to that of detection, at which the cycles in progress are closed (R267). -/
def execSupplyFailure (xs : List MeterTick) (s : State) : Host.Outcome State Fault Refusal :=
  ok s (if s.power.failed || s.power.held then s
  else
    let s := (s.put pPMU PMU_STAT_SUPGOOD 0).put pPMU PMU_STAT_PLAN 1
    let s := raise pPMU PMU_IRQ_RAW_SUPFAIL { s with power := { s.power with failed := true } }
    let s := s.setChr { s.chr with opRun := false }
    let s := stopSampling (feedMeter xs s)
    let s := planOrder (askSave .final s)
    let s := muslinFault pPMU 11 true 0 s
    if s.power.leaving || s.bit pPMU PMU_STAT_DOFF then s
    else if s.linkUp .damask && s.linkUp .muslin then damaskLeave s
    else retainSkip (damaskStop s))

/-! ## Profiles (R386 to R389) -/

/-- The checks of R386 on image `n`. -/
def imageGood (n : Nat) (s : State) : Bool :=
  let a := prfImage n s
  let novr := s.rh (a + 6)
  let len := (s.rw (a + 8)).toNat
  gsramRange a 448 && s.bytes a 4 == ascii "PRF1" && (s.rb (a + 4)).toNat == n && novr ≤ 4096 && len == 448 + 8 * novr
    && gsramRange a len && s.rw (a + 60) == crc32c (s.bytes a 60 ++ s.bytes (a + 64) (len - 64))
    && (allTasks.all fun t => profilePeriod n t s ≤ 14400000)
    && (List.range novr).all fun i =>
        let o := a + 448 + 8 * i
        s.rh o < 8192 && (s.rb (o + 2)).toNat < 4 && s.rb (o + 3) == 0

/-- The override words of the active profile written at once. -/
def writeOverrides (n : Nat) (s : State) : State :=
  let a := prfImage n s
  forAll (List.range (s.rh (a + 6))) (fun i s =>
    let o := a + 448 + 8 * i
    s.ww (pointBase + 16 * s.rh o + 4 * ((s.rb (o + 2)).toNat % 4)) (s.rw (o + 4))) s

/-- Banks with "apply" set are requested. -/
def profileBanks (n : Nat) (s : State) : State :=
  forAll [(0 : FbNo), 1] (fun c s =>
    let b := s.rb (prfImage n s + 16 + c.val)
    if b.getLsbD 7 && !(redundant s && c == 1) then
      let bank := (b.extractLsb' 0 1).toNat
      requestBank c bank (s.put pFBT (bankFld c) bank)
    else s) s

/-- The writes of PRF to Muslin: a hardware writer with D0 supervisor rights, past the lock. -/
def profileAnalog (n : Nat) (s : State) : State :=
  if !(s.linkUp .damask && s.linkUp .muslin) then raise pPRF PRF_IRQ_RAW_AIOREF s
  else
    let a := prfImage n s
    let hw := fun (w : Word) => (⟨⟨0, true, 0⟩, w, true⟩ : Access)
    let s := forAll (allChans.filter fun c => chanPresent c s) (fun c s =>
      let w := s.rw (a + 320 + 4 * c.val)
      if w.getLsbD 31 then s
      else
        let refused := cfgMode (cfgAfter c (hw w) s) < 6 && overBudget c (cfgAfter c (hw w) s) s
        let s := aioCfgWrite c (hw w) s
        if refused then raise pPRF PRF_IRQ_RAW_AIOREF s else s) s
    (aioWrite 0x050 (hw (word (s.rh (a + 22)))) (aioWrite 0x04C (hw (word (s.rh (a + 20)))) s))

/-- Tasks that are enabled under the new profile and were not wait for their validation (R116). One that a switch has disabled
and the next switch enables before a base tick has come between becomes enabled anew (log 127). -/
def profileTasks (n : Nat) (s : State) : State :=
  if s.bit pSCH SCH_STAT_EN then
    let new := allTasks.filter fun t => profilePeriod n t s != 0 && !(s.task t).chosen && !s.sched.toValidate.contains t
    let s := { s with sched := { s.sched with toValidate := s.sched.toValidate ++ new } }
    forAll allTasks (fun t s => s.setTask t { s.task t with chosen := profilePeriod n t s != 0 }) s
  else s

/-- Acceptance of profile `n`, whose image is valid (R389). The profile in force before it is kept for the releases of the
base tick in progress (R119). -/
def acceptProfile (n : Nat) (s : State) : State :=
  let prev := if s.sched.acceptedAt != 0 && s.sched.acceptedAt / 25000 == s.mtb / 25000 then s.sched.prevProfile
    else activeProfile s
  let s := { s with sched := { s.sched with prevProfile := prev, acceptedAt := s.mtb } }
  let s := ((s.put pPRF PRF_STAT_ACTIVE n).setReg pPRF 0x04C (word s.mtb))
  let s := profileAnalog n (profileBanks n (writeOverrides n (profileTasks n s)))
  let s := s.setReg pPMU 0x050 (s.rw (prfImage n s + 12) &&& 0x0F00FFFF)
  raise pPRF PRF_IRQ_RAW_SWITCH s

/-- A switch to profile `n`, accepted when its image is valid. -/
def switchProfile (n : Nat) (s : State) : Bool × State :=
  if profileValid n s then (true, acceptProfile n s) else (false, raise pPRF PRF_IRQ_RAW_BADIMG s)

/-- Without a valid image of the active profile no task is enabled (R112). A release that the power cap holds goes with its
task, as at a switch that disables it (log entry 35). -/
def noProfile (s : State) : State :=
  forAll allTasks (fun t s =>
      let s := s.setTask t { s.task t with heldRel := none, chosen := false }
      if taskEnabled t s then setEnabled t false s else s)
    { s with sched := { s.sched with toValidate := [] } }

/-- A write of PRF_LOAD with GO: the image is checked; the active profile's is accepted when it becomes valid (R386). -/
def prfLoad (n : Nat) (s : State) : State :=
  let valid := PRF_STAT_VALID.get (s.reg pPRF 0x00C)
  if imageGood n s then
    let s := s.put pPRF PRF_STAT_VALID (valid ||| 2 ^ n)
    if n = activeProfile s then acceptProfile n s else s
  else
    let s := raise pPRF PRF_IRQ_RAW_BADIMG (s.put pPRF PRF_STAT_VALID (valid &&& (15 - 2 ^ n)))
    if n = activeProfile s then noProfile s else s

/-- A write of PRF_CMD with GO (R388). -/
def prfCmd (n : Nat) (s : State) : State :=
  if s.bit pPRF PRF_STAT_PINEN then raise pPRF PRF_IRQ_RAW_CMDREF s else (switchProfile n s).2

/-- The sample of the profile pins at the start of a base tick (R388). -/
def pinSample (v : Nat) (s : State) : State :=
  if !s.bit pPRF PRF_STAT_PINEN then s
  else
    let p := s.power
    let again := p.retry && p.refused == some v
    let run := if p.pinRun != 0 && v == p.pinLast then p.pinRun + 1 else 1
    let refused := if run = 1 then none else p.refused
    let s := { s with power := { p with pinLast := v, pinRun := min run 3, refused := refused, retry := false } }
    let s := s.put pPRF PRF_STAT_PINS v
    if v != activeProfile s && (again || (3 ≤ run && refused.isNone)) then
      let r := switchProfile v s
      { r.2 with power := { r.2.power with refused := if r.1 then none else some v } }
    else s

def prfWrite (off : Nat) (a : Access) (s : State) : State :=
  if off = 0x008 then (if a.b PRF_CTRL_RETRY then { s with power := { s.power with retry := true } } else s)
  else if off = 0x040 ∨ off = 0x044 then
    let s := plainWrite pPRF off { a with val := a.val &&& 0x3 } s
    let n := s.g pPRF ⟨off, 0, 2⟩
    if a.val.getLsbD 31 then (if off = 0x040 then prfCmd n s else prfLoad n s) else s
  else plainWrite pPRF off a s

end Sys2Proof.Machine
end

