-- ==== Sys2Proof/Machine/Boot.lean ====
section
/-! DEFINITION. ROM: the package and its checks, one boot attempt, the choice of slots, handover, recovery and its download
protocol; the NOR commands of XFL (R358 to R371). -/

namespace Sys2Proof.Machine

open Reg

/-! ## The package (R358, R359) -/

def slotWord (slot off : Nat) (s : State) : Nat := (s.rw (slotBase slot + off)).toNat
def slotMagic (slot : Nat) (s : State) : Bool := s.bytes (slotBase slot) 4 == ascii "EXR1"
def slotSeqno (slot : Nat) (s : State) : Nat := slotWord slot 28 s
def slotUidBind (slot : Nat) (s : State) : Bool := slotWord slot 12 s % 2 == 1
def slotHalfver (slot : Nat) (s : State) : Nat := s.rh (slotBase slot + 32)
def slotHalfmin (slot : Nat) (s : State) : Nat := s.rh (slotBase slot + 34)
def slotHalfmax (slot : Nat) (s : State) : Nat := s.rh (slotBase slot + 36)
def slotEntry (slot : Nat) (s : State) : Nat := slotWord slot 40 s

/-- One segment entry is within its limits. -/
def Segment.good (g : Segment) : Bool :=
  g.offset % 32 == 0 && 1216 ≤ g.offset && g.length % 32 == 0 && 32 ≤ g.length && g.offset + g.length ≤ 0x1000000
    && g.pad == [0, 0, 0] && g.kind ≤ 1
    && (if g.kind = 0 then g.load % 32 == 0 && g.load + g.length ≤ 0x100000 else g.load == 0)

/-- Two ranges do not overlap. -/
def apart (a n b m : Nat) : Bool := a + n ≤ b || b + m ≤ a

/-- Step 3: MAGIC, zero fields and limits. -/
def formatGood (slot : Nat) (s : State) : Bool :=
  let a := slotBase slot
  let gs := segments slot s
  let cs := codeSegments slot s
  slotMagic slot s && slotWord slot 12 s < 2 && (slotUidBind slot s || s.bytes (a + 16) 8 == List.replicate 8 0)
    && s.bytes (a + 44) 20 == List.replicate 20 0 && 1 ≤ nseg slot s && nseg slot s ≤ 16
    && (s.bytes (a + 64 + 48 * nseg slot s) (48 * (16 - nseg slot s))).all (· == 0)
    && gs.all Segment.good
    && decide (gs.Pairwise fun x y => apart x.offset x.length y.offset y.length = true)
    && decide (cs.Pairwise fun x y => apart x.load x.length y.load y.length = true)
    && slotEntry slot s % 4 == 0 && cs.any (fun g => g.load ≤ slotEntry slot s && slotEntry slot s < g.load + g.length)

/-- Step 7: SIG verifies under the key of slot 2 that ROM's working slot holds. -/
def signatureGood (h : Half) (slot : Nat) (s : State) : Bool :=
  let k := s.wslot (bootSlot h)
  k.valid && k.typ == 5 && k.uses.testBit 3 && !k.uses.testBit 5
    && pssVerify (rsaPubOf k.material) (s.bytes (slotBase slot) 832) (s.bytes (slotBase slot + 832) 384)

/-- CODE segments in code SRAM, zeros outside them. -/
def loadCode (h : Half) (slot : Nat) (s : State) : State :=
  forAll (codeSegments slot s) (fun g s => s.wbytes (codeBase h + g.load) (s.bytes (slotBase slot + g.offset) g.length))
    (s.clearMem (codeBase h) (codeBase h + 0x100000))

/-- Step 9: each half's HALFVER lies in the range of the other's package. -/
def halvesFit (h : Half) (slot : Nat) (s : State) : Bool :=
  if halfRuns h.other s then
    let o := runSlot h.other s
    let v := s.g pBOOT ⟨infoOff h.other, 0, 16⟩
    slotHalfmin slot s ≤ v && v ≤ slotHalfmax slot s && slotHalfmin o s ≤ slotHalfver slot s && slotHalfver slot s ≤ slotHalfmax o s
  else true

/-- Whether step `k` of R361 passes, steps 2 to 9. -/
def stepPasses (h : Half) (slot k : Nat) (s : State) : Bool :=
  match k with
  | 2 => !s.bit pDDL DDL_STAT_PAIRFLT
  | 3 => formatGood slot s
  | 4 => word (slotWord slot 4 s) &&& word (slotWord slot 8 s) == hwType s &&& word (slotWord slot 8 s)
  | 5 => !slotUidBind slot s || s.bytes (slotBase slot + 16) 8 == uidBytes s
  | 6 => ctrValue 2 s ≤ slotWord slot 24 s
  | 7 => signatureGood h slot s
  | 8 => (segments slot s).all fun g => sha256 (s.bytes (slotBase slot + g.offset) g.length) == g.hash
  | _ => halvesFit h slot s

/-- What a step does beside its check: ROM clears its working slot after step 7, and copies the CODE segments in step 8. -/
def stepEffect (h : Half) (slot k : Nat) (s : State) : State :=
  if k = 7 then s.setWslot (bootSlot h) (emptySlot 0) else if k = 8 then loadCode h slot s else s

/-- What an upset does to step `k`: the FAIL code it ends with. -/
def romFails (u : RomUpset) (k : Nat) : Option Nat :=
  match u with
  | .none => Option.none
  | .nor j => if j = k then some 10 else Option.none
  | .once j | .check j | .twice j _ => if j = k then some k else Option.none

/-- The steps from `k`: the FAIL code of the first that fails, and what they have done. -/
def runSteps (h : Half) (slot : Nat) (u : RomUpset) : List Nat → State → Option Nat × State
  | [], s => (none, s)
  | k :: ks, s =>
    let pass := stepPasses h slot k s
    let s := stepEffect h slot k s
    match romFails u k with
    | some c => (some c, s)
    | none => if pass then runSteps h slot u ks s else (some k, s)

/-- A check of R79 that fails in the ROM engine makes ROM repeat the attempt once: what the repetition meets, when the steps
ended with FAIL code `c`. The second such failure stands (R361). -/
def upsetRepeats (u : RomUpset) (again : Bool) (c : Option Nat) : Option RomUpset :=
  if again then Option.none
  else match u with
  | .once j => if c = some j then some .none else Option.none
  | .check j => if c = some j then some (.once j) else Option.none
  | .twice j k => if c = some j then some (.once k) else Option.none
  | _ => Option.none

/-- How far one command takes an attempt: it waits for the vault, or has ended with a FAIL code or without one. -/
inductive Attempt where
  | waits
  | failed (code : Nat)
  | passed
  deriving DecidableEq, Repr

/-! ## The state of a half -/

def State.rom (s : State) : Half → Rom
  | .east => s.boot.east
  | .west => s.boot.west
def State.setRom (s : State) (h : Half) (x : Rom) : State :=
  match h with
  | .east => { s with boot := { s.boot with east := x } }
  | .west => { s with boot := { s.boot with west := x } }

/-- LOADVAULT of slot 2 is asked of the vault, which takes one request at a time and programs the use under admission
(R341, R347; log 63). -/
def askBootKey (h : Half) (s : State) : Attempt × State :=
  let s := vaultAsk (.boot h) (setBootKey h .asked s)
  (if bootKey h s = .refused then .failed 7 else .waits, s)

/-- Steps 2 to 6, then the request for the key. -/
def firstSteps (h : Half) (slot : Nat) (u : RomUpset) (s : State) : Attempt × State :=
  let r := runSteps h slot u [2, 3, 4, 5, 6] s
  match r.1 with
  | some c => (.failed c, r.2)
  | none => askBootKey h r.2

/-- The attempt begins anew, as its repetition. -/
def repeatAttempt (h : Half) (slot : Nat) (u : RomUpset) (s : State) : Attempt × State :=
  firstSteps h slot u (s.setRom h { s.rom h with key := .none, again := true })

/-- The steps of one attempt up to its end or until it has to wait for the vault; the upset names one of these steps. -/
def tryAttempt (h : Half) (slot : Nat) (u : RomUpset) (s : State) : Attempt × State :=
  let again := (s.rom h).again
  match (s.rom h).key with
  | .asked => (.waits, s)
  | .refused => (.failed 7, s)
  | .none =>
    let r := runSteps h slot u [2, 3, 4, 5, 6] s
    match upsetRepeats u again r.1, r.1 with
    | some v, _ => repeatAttempt h slot v r.2
    | none, some c => (.failed c, r.2)
    | none, none => askBootKey h r.2
  | .loaded =>
    let r := runSteps h slot u [7, 8, 9] s
    match upsetRepeats u again r.1, r.1 with
    | some v, _ => repeatAttempt h slot v r.2
    | none, some c => (.failed c, r.2)
    | none, none => (.passed, r.2)

/-- The ROM of a half with another attempt, or none, before it. -/
def Rom.fresh (x : Rom) : Rom := { x with key := .none, again := false }

/-- The half runs a slot, or its ROM checks it. -/
def slotGuarded (slot : Nat) (s : State) : Bool :=
  [Half.east, Half.west].any fun h =>
    (halfRuns h s && runSlot h s == slot) || (halfState h s == hsRom && (s.rom h).slot == some slot)
def syncProt (s : State) : State :=
  (s.putBit pXFL XFL_PROT_A (slotGuarded 0 s)).putBit pXFL XFL_PROT_B (slotGuarded 1 s)

def setHalfState (h : Half) (v : Nat) (s : State) : State := syncProt (s.put pBOOT (halfStateFld h) v)
def setFail (h : Half) (code : Nat) (s : State) : State := s.put pBOOT ⟨infoOff h, 28, 4⟩ code

def doneFld : Half → Fld
  | .east => BOOT_IRQ_RAW_DONEE
  | .west => BOOT_IRQ_RAW_DONEW
def fallFld : Half → Fld
  | .east => BOOT_IRQ_RAW_FALLE
  | .west => BOOT_IRQ_RAW_FALLW
def halfCause : Half → Fld
  | .east => SYS_RSTCAUSE_HALF_E
  | .west => SYS_RSTCAUSE_HALF_W
def holdFld : Half → Fld
  | .east => SCH_CTRL_HOLDE
  | .west => SCH_CTRL_HOLDW

/-- The engine that runs ROM and the firmware first: the primary supervisor. -/
def primaryOf (h : Half) (s : State) : EngNo := roleEng (2 * h.ix) s

/-- The half leaves ROM at the end of a half boot. -/
def endHalfBoot (h : Half) (s : State) : State := if (s.rom h).half then s.put pSYS (halfCause h) 1 else s

/-- The primary supervisor as ROM hands it over: what ROM leaves in its other registers is a free value each. -/
def handedOver (x : Eng) (entry freed : Nat) : Eng :=
  let f := fun k => Config.freeWord (freed + k)
  { x with
    g := Vector.ofFn fun i => if i = 0 then 0 else f i.val
    pc := word (0x08000000 + entry), fl := (f 16 &&& 0x1F) ||| 0x4000
    ib := f 17, sp := f 18, vbase := f 19 &&& 0xFFFFFF00, epc := f 20, efl := f 21, ecause := f 22, eaddr := f 23 }

/-- Handover after a passing attempt (R361). -/
def handOver (h : Half) (slot : Nat) (fallback : Bool) (s : State) : State :=
  let e := primaryOf h s
  let o := infoOff h
  let a := slotBase slot
  let s := if (s.rom h).tries = 0 then setFail h 0 s else s
  let s := (s.putBit pBOOT ⟨o, 25, 1⟩ fallback).put pBOOT ⟨o, 24, 1⟩ slot
  let s := s.put pBOOT ⟨o, 0, 16⟩ (slotHalfver slot s)
  let s := (s.setReg pBOOT (o + 4) (s.rw (a + 24))).setReg pBOOT (o + 8) (s.rw (a + 28))
  let hash := bytesWords (sha256 (s.bytes a 1216))
  let s := forAll (List.range 8) (fun k s => s.setReg pBOOT (o + 0x10 + 4 * k) (hash.getD k 0)) s
  let s := s.put pSCH (holdFld h) 0
  let s := setMode e .run (s.setEng e (handedOver (s.eng e) (slotEntry slot s) s.freed))
  let s := raise pBOOT (doneFld h) (endHalfBoot h { s with freed := s.freed + 24 })
  let s := if fallback then raise pBOOT (fallFld h) s else s
  setHalfState h hsRun (s.setRom h { (s.rom h).fresh with half := false, slot := none })

/-- The half is FAILED and runs no code. -/
def halfFailed (h : Half) (s : State) : State :=
  let s := raise pBOOT (fallFld h) (raise pBOOT (doneFld h) (endHalfBoot h s))
  setHalfState h hsFailed (setMode (primaryOf h s) .idle (s.setRom h { (s.rom h).fresh with slot := none }))

/-- East's ROM enters recovery; West's waits in SLEEP (R368). -/
def enterRecovery (cause : Nat) (s : State) : State :=
  let s := s.put pBOOT BOOT_STAT_RCAUSE cause
  let s := (s.setRom .east { (s.rom .east).fresh with slot := none }).setRom .west { (s.rom .west).fresh with slot := none }
  let s := setMode (primaryOf .west s) .sleep s
  setHalfState .west hsRecovery (setHalfState .east hsRecovery s)

/-! ## Attempts (R361, R362) -/

/-- The slot that East tries first: the higher SEQNO among those with a correct MAGIC, A on a tie, the other one when
CHR_BOOTFAIL read 1. -/
def firstSlot (bootfail : Nat) (s : State) : Nat :=
  let n :=
    match slotMagic 0 s, slotMagic 1 s with
    | true, true => if slotSeqno 0 s < slotSeqno 1 s then 1 else 0
    | false, true => 1
    | _, _ => 0
  if bootfail = 1 then 1 - n else n

/-- Step 1: the link came UP within 100 ms of the start. -/
def linkInTime (h : Half) (s : State) : Bool :=
  s.linkUp .damask && decide (s.damask.since < (s.rom h).start + 10000000)

/-- An attempt on `slot` has ended, with FAIL code `c` or none. -/
def attemptEnds (h : Half) (slot : Nat) (c : Option Nat) (s : State) : State :=
  let r := (s.rom h).fresh
  match c with
  | none => handOver h slot (r.tries != 0) s
  | some c =>
    let s := setFail h c s
    if r.half then
      if r.tries = 0 && halfRuns h.other s then
        syncProt (s.setRom h { r with slot := some (runSlot h.other s), tries := 1 })
      else halfFailed h s
    else match h with
      | .west => halfFailed .west s
      | .east =>
        if c = 2 then enterRecovery 5 s
        else if r.tries = 0 then syncProt (s.setRom .east { r with slot := some (1 - slot), tries := 1 })
        else enterRecovery 2 s

/-- East's first attempt after a module start or Damask restart: step 1, CHR_BOOTFAIL, the strap, the first slot. The slot
is none when ROM entered recovery. ROM's write of CHR_BOOTFAIL is the last that Muslin has applied, under a tag of its own. -/
def eastBegins (s : State) : Option Nat × State :=
  if !linkInTime .east s then
    let s := s.untilMtb (s.boot.east.start + 10000000)
    (none, enterRecovery 4 (setFail .east 1 s))
  else
    let n := s.g pCHR CHR_BOOTFAIL_COUNT
    let s := s.bump pCHR CHR_BOOTFAIL_COUNT
    let s := (s.put pDDLM DDL_M_LASTWR_OFFSET 0x064).put pDDLM DDL_M_LASTWR_TAG (Config.freeWord s.freed).toNat
    let s := { (s.put pDDLM DDL_M_LASTPG_PAGE (pCHR - 64)) with freed := s.freed + 1 }
    if s.bit pMSYS MSYS_STRAP_RECOV then (none, enterRecovery 1 s)
    else if 3 ≤ n then (none, enterRecovery 3 s)
    else if s.bit pDDL DDL_STAT_PAIRFLT then (none, enterRecovery 5 (setFail .east 2 s))
    else
      let k := firstSlot n s
      (some k, syncProt (s.setRom .east { s.boot.east with slot := some k }))

/-- The slot that West tries at a module start: the one East is trying or runs; none while East has chosen none. -/
def eastSlot (s : State) : Option Nat := if halfRuns .east s then some (runSlot .east s) else s.boot.east.slot

/-- The slot of the attempt now due, with what comes before it. -/
def slotDue (h : Half) (s : State) : Option Nat × State :=
  match (s.rom h).half, h, (s.rom h).slot with
  | true, _, k => (k, s)
  | false, .east, some k => (some k, s)
  | false, .east, none => eastBegins s
  | false, .west, _ => (eastSlot s, s)

/-- A half still in ROM 1 s after its start: the attempt ends with FAIL 11 (R361). -/
def bootOver (h : Half) (s : State) : State :=
  match slotDue h s with
  | (some k, s) => attemptEnds h k (some 11) s
  | (none, s) => if halfState h s = hsRom then halfFailed h (setFail h 11 s) else s

/-- MTB count at which the time of a half in ROM is over. -/
def bootLimit (h : Half) (s : State) : Nat := (s.rom h).start + 100000000

/-- The attempt of a half on a slot goes on, or begins when the half was trying another slot. -/
def attemptSlot (h : Half) (k : Nat) (u : RomUpset) (s : State) : State :=
  let s := if (s.rom h).slot = some k then s else syncProt (s.setRom h { (s.rom h).fresh with slot := some k })
  let r := tryAttempt h k u s
  match r.1 with
  | .waits => r.2
  | .failed c => attemptEnds h k (some c) r.2
  | .passed => attemptEnds h k none r.2

/-- BOOT_TIMEOUT: a half still in ROM 1 s after its start. -/
def execBootTimeout (h : Half) (s : State) : Host.Outcome State Fault Refusal :=
  ok s (if !damaskOn s || halfState h s != hsRom then s
  else bootOver h (s.untilMtb (bootLimit h s)))

/-! ## NOR commands (R364) -/

/-- Programming: an erased byte takes its value; what another byte becomes is a free value. -/
def norProgram (a : Nat) (bs : List Byte) (s : State) : State :=
  let f := freeBytes bs.length s
  forAll (List.range bs.length) (fun i s =>
    s.wb (norBase + a + i) (if s.rb (norBase + a + i) = 0xFF then bs.getD i 0 else f.1.getD i 0)) f.2

def norErase (a : Nat) (s : State) : State := s.clearMem (norBase + a / 65536 * 65536) (norBase + a / 65536 * 65536 + 65536)

/-- Operands as OP requires. -/
def NorCmd.good (c : NorCmd) : Bool :=
  match c.op with
  | 0 => c.addr % 65536 == 0 && c.addr < 0x4000000
  | 1 => c.addr % 256 == 0 && c.len % 256 == 0 && c.len ≤ 65536 && c.addr + c.len ≤ 0x4000000 && gsramRange c.src c.len
  | 2 => c.addr + c.len ≤ 0x4000000
  | 3 => c.len ≤ 65536 && c.addr + c.len ≤ 0x4000000 && gsramRange c.src c.len
  | _ => false

/-- The command changes a slot that a half runs or checks. -/
def NorCmd.protected (c : NorCmd) (s : State) : Bool :=
  let n := if c.op = 0 then 65536 else c.len
  c.op ≤ 1 && ((s.bit pXFL XFL_PROT_A && !apart c.addr n 0 0x1000000)
    || (s.bit pXFL XFL_PROT_B && !apart c.addr n 0x1000000 0x1000000))

/-- A write of XFL_CMD with GO while no command is in progress. -/
def xflStart (s : State) : State :=
  let c : NorCmd := ⟨s.g pXFL XFL_CMD_OP, s.g pXFL XFL_ADDR_VALUE, s.g pXFL XFL_LEN_VALUE, s.g pXFL XFL_SRC_VALUE⟩
  let refuse := fun st => raise pXFL XFL_IRQ_RAW_REFUSED (s.put pXFL XFL_RES_STATUS st)
  if !c.good then refuse 1
  else if c.protected s then refuse 2
  else { (s.put pXFL XFL_STAT_BUSY 1).put pXFL XFL_CMD_GO 1 with boot := { s.boot with nor := some c } }

def xflWrite (off : Nat) (a : Access) (s : State) : State :=
  if off = 0x040 then
    if a.b XFL_CMD_GO && s.bit pXFL XFL_STAT_BUSY then s
    else
      let t := plainWrite pXFL off { a with val := a.val &&& 0x70000000 } s
      if a.b XFL_CMD_GO then xflStart t else t
  else plainWrite pXFL off a s

def setXflHash (h : List Byte) (s : State) : State :=
  forAll (List.range 8) (fun k s => s.setReg pXFL (0x060 + 4 * k) ((bytesWords h).getD k 0)) s

/-- What a command does. After an error of the NOR the bytes it was to write are free values. -/
def norEffect (c : NorCmd) (err : Bool) (s : State) : State :=
  match c.op with
  | 0 => if err then let f := freeBytes 65536 s; f.2.wbytes (norBase + c.addr) f.1 else norErase c.addr s
  | 1 => if err then let f := freeBytes c.len s; f.2.wbytes (norBase + c.addr) f.1 else norProgram c.addr (s.bytes c.src c.len) s
  | 2 => if err then let f := freeBytes 32 s; setXflHash f.1 f.2 else setXflHash (sha256 (s.bytes (norBase + c.addr) c.len)) s
  | _ => if err then let f := freeBytes c.len s; f.2.wbytes c.src f.1 else s.wbytes c.src (s.bytes (norBase + c.addr) c.len)

/-- XFL_DONE: the command in progress ends; `err` when the NOR reports an error. -/
def execXflDone (err : Bool) (s : State) : Host.Outcome State Fault Refusal :=
  ok s (match s.boot.nor with
  | none => s
  | some c =>
    let s := norEffect c err { s with boot := { s.boot with nor := none } }
    let s := ((s.put pXFL XFL_STAT_BUSY 0).put pXFL XFL_CMD_GO 0).put pXFL XFL_RES_STATUS (if err then 3 else 0)
    raise pXFL (if err then XFL_IRQ_RAW_NORERR else XFL_IRQ_RAW_DONE) s)

/-! ## The download protocol (R368 to R370) -/

/-- A frame as it should be: LEN in range and matched, CRC good. -/
def wholeFrame (b : List Byte) : Bool :=
  let n := leField b 2 2
  n ≤ 1028 && b.length == 20 + n && crc32c (b.take (16 + n)) == leWord b (16 + n)

/-- No gap of more than 10 ms between characters: 10 bits at 921,600 bit/s lie between start bits without a gap. -/
def gapless : List Nat → Bool
  | a :: b :: rest => b ≤ a + 1085 + 1000000 && gapless (b :: rest)
  | _ => true

/-- The first good frame behind sync bytes among characters with their stamps: after a bad one the hunt goes on behind the
sync bytes (R369). -/
def huntFrame : List (Byte × Nat) → List Byte
  | [] => []
  | (0xA5, t) :: rest =>
    let body := rest.drop 1
    let n := 20 + leField (body.map Prod.fst) 2 2
    let b := (body.take n).map Prod.fst
    if (rest.map Prod.fst).head? = some 0x5A && wholeFrame b && gapless ((rest.take (n + 1)).map Prod.snd) then b
    else huntFrame rest
  | _ :: rest => huntFrame rest

/-- Sum of big-endian halfwords with end-around carry, as IPv4 and UDP check it. -/
def onesSum (b : List Byte) : Nat :=
  let n := (List.range ((b.length + 1) / 2)).foldl (fun n i => n + 256 * (b.getD (2 * i) 0).toNat + (b.getD (2 * i + 1) 0).toNat) 0
  let m := n % 65536 + n / 65536
  m % 65536 + m / 65536

/-- What the sum of UDP runs over: addresses, protocol and length, then the datagram. -/
def udpSummed (addrs udp : List Byte) : List Byte := addrs ++ [0, 17] ++ beBytes 2 udp.length ++ udp

/-- UDP port of the download protocol. -/
def dlPort : Nat := 48800

/-- The payload of an untagged IPv4 limited-broadcast datagram from and to port 48,800; nothing for any other frame (R368). -/
def udpPayload (b : List Byte) : List Byte :=
  let ip := b.drop 14
  let ihl := 4 * ((ip.getD 0 0) &&& 0x0F).toNat
  let total := etherType ip 2
  let udp := (ip.take total).drop ihl
  let n := etherType udp 4
  if b.take 6 == List.replicate 6 0xFF && etherType b 12 == 0x0800 && (ip.getD 0 0) >>> 4 == 4 && 20 ≤ ihl && total ≤ ip.length
      && etherType ip 6 % 16384 == 0 && ip.getD 9 0 == 17 && onesSum (ip.take ihl) == 0xFFFF
      && (ip.drop 16).take 4 == List.replicate 4 0xFF && etherType udp 0 == dlPort && etherType udp 2 == dlPort
      && 8 ≤ n && n ≤ udp.length
      && (etherType udp 6 == 0 || onesSum (udpSummed ((ip.drop 12).take 8) (udp.take n)) == 0xFFFF) then
    (udp.take n).drop 8
  else []

/-- The frame, from TYPE to CRC, in what ROM hears. -/
def dlBytes (x : DlFrame) : List Byte :=
  match x.path with
  | .svc => huntFrame (x.bytes.zip x.stamps)
  | .eth => udpPayload x.bytes

/-- A frame that ROM takes: whole, with this unit's UID (zero in HELLO). -/
def frameGood (x : DlFrame) (s : State) : Bool :=
  let b := dlBytes x
  wholeFrame b && (b.drop 8).take 8 == (if b.getD 0 0 = 1 then List.replicate 8 0 else uidBytes s)

def frameSeq (x : DlFrame) : Nat := leField (dlBytes x) 4 4
def framePayload (x : DlFrame) : List Byte := ((dlBytes x).drop 16).take (leField (dlBytes x) 2 2)

/-- A response frame. -/
def replyFrame (type seq : Nat) (payload : List Byte) (s : State) : List Byte :=
  let b := [byte type, 0] ++ leBytes 2 payload.length ++ leBytes 4 seq ++ uidBytes s ++ payload
  b ++ wordBytes (crc32c b)

/-- The Ethernet frame that carries a response: a limited broadcast from 0x02 and UID[39:0]. IPv4's identification, time to
live, type of service and source address, and whether the datagram carries a UDP sum, are free values (log entry 104). -/
def replyDatagram (b : List Byte) (s : State) : List Byte :=
  let f := freeBytes 9 s
  let g := f.1
  let addrs := (g.drop 4).take 4 ++ List.replicate 4 0xFF
  let sum := fun (x : List Byte) => 0xFFFF - onesSum x
  let head := [0x45, g.getD 0 0] ++ beBytes 2 (28 + b.length) ++ (g.drop 1).take 2 ++ [0, 0, g.getD 3 0, 17]
  let ip := head ++ beBytes 2 (sum (head ++ [0, 0] ++ addrs)) ++ addrs
  let udp := beBytes 2 dlPort ++ beBytes 2 dlPort ++ beBytes 2 (8 + b.length)
  let c := sum (udpSummed addrs (udp ++ [0, 0] ++ b))
  let check := if (g.getD 8 0).getLsbD 0 then 0 else if c = 0 then 0xFFFF else c
  let mac := 0x02 :: beBytes 5 s.fused.uid.toNat
  let w := List.replicate 6 0xFF ++ mac ++ [0x08, 0x00] ++ ip ++ udp ++ beBytes 2 check ++ b
  if w.length < 60 then padTo 60 w else w

/-- A response on the wire: port 0 stands for SVC, where the sync bytes go ahead; on port 1 a datagram carries it. -/
def sendReply (path : DlPath) (b : List Byte) (s : State) : State :=
  match path with
  | .svc => { s with comms := { s.comms with wire := [(0, [0xA5, 0x5A] ++ b)] } }
  | .eth => { s with freed := s.freed + 9, comms := { s.comms with wire := [(1, replyDatagram b s)] } }

def setSession (x : Option Session) (s : State) : State := { s with boot := { s.boot with session := x } }

/-- An accepted request is answered, and its answer kept for a repetition. -/
def answer (type : Nat) (payload : List Byte) (x : DlFrame) (ss : Session) (s : State) : State :=
  let r := replyFrame type (frameSeq x) payload s
  sendReply x.path r (setSession (some { ss with lastSeq := frameSeq x, lastReply := r, at_ := s.mtb }) s)

def ack (st : Nat) (x : DlFrame) (ss : Session) (s : State) : State := answer 0x81 [byte st, 0, 0, 0] x ss s

/-- The ROM of East serves the protocol. -/
def inRecovery (s : State) : Bool := damaskOn s && halfState .east s == hsRecovery

/-- MTB count at which a session without a valid frame ends (R368). -/
def Session.ends (ss : Session) : Nat := ss.at_ + 6000000000

/-- A session whose 60 s are over is closed. -/
def sessionOver (s : State) : State :=
  match s.boot.session with
  | some ss => if ss.ends ≤ s.mtb then setSession none s else s
  | none => s

/-- A request other than HELLO: sequence rules, then its action `run`, which gives its STATUS, the session and the state. -/
def dlRequest (type : Nat) (x : DlFrame) (run : List Byte → Session → State → Nat × Session × State) (s : State) : State :=
  let s := sessionOver s
  match s.boot.session with
  | none => s
  | some ss =>
    if !(inRecovery s && ss.path == x.path && frameGood x s && ((dlBytes x).getD 0 0).toNat == type) then s
    else if frameSeq x = ss.lastSeq then sendReply x.path ss.lastReply (setSession (some { ss with at_ := s.mtb }) s)
    else if frameSeq x ≠ (ss.lastSeq + 1) % 2 ^ 32 then
      sendReply x.path (replyFrame 0x81 (frameSeq x) [1, 0, 0, 0] s) (setSession (some { ss with at_ := s.mtb }) s)
    else if (dlBytes x).getD 1 0 ≠ 0 then ack 6 x ss s
    else
      let r := run (framePayload x) ss s
      ack r.1 x r.2.1 r.2.2

/-- HELLO binds the session; INFO answers. -/
def execDlHello (x : DlFrame) (s : State) : Host.Outcome State Fault Refusal :=
  let s := sessionOver s
  ok s (if inRecovery s && frameGood x s && (dlBytes x).take 4 == [1, 0, 0, 0]
      && (match s.boot.session with | some ss => ss.path == x.path | none => true) then
    let up := s.linkUp .damask && s.linkUp .muslin
    let ss := (s.boot.session).getD ⟨x.path, 0, [], 0, none⟩
    let info := wordBytes (hwType s) ++ uidBytes s ++ [byte (s.g pBOOT BOOT_STAT_RCAUSE)]
      ++ [if up then byte (s.g pCHR CHR_BOOTFAIL_COUNT) else 0xFF] ++ (if up then leBytes 4 (ctrValue 2 s) else List.replicate 4 0xFF)
      ++ leBytes 2 1024 ++ leBytes 2 0x0100
    answer 0x82 info x ss s
  else s)

/-- START: a slot is opened for writing at offset 0. -/
def execDlStart (x : DlFrame) (s : State) : Host.Outcome State Fault Refusal :=
  ok s (dlRequest 2 x (fun b ss s =>
    if b.length ≠ 8 ∨ leField b 1 3 ≠ 0 then (6, ss, s)
    else if 1 < leField b 0 1 ∨ 0x1000000 < leField b 4 4 then (3, ss, s)
    else (0, { ss with slot := some (leField b 0 1, leField b 4 4, 0) }, s)) s)

/-- DATA: written at the next offset; each block it enters is erased first. -/
def execDlData (x : DlFrame) (s : State) : Host.Outcome State Fault Refusal :=
  ok s (dlRequest 3 x (fun b ss s =>
    let data := b.drop 4
    match ss.slot with
    | none => (2, ss, s)
    | some (k, total, at_) =>
      if data.length < 4 ∨ data.length % 4 ≠ 0 then (6, ss, s)
      else if leField b 0 4 ≠ at_ ∨ total < at_ + data.length then (3, ss, s)
      else
        let a := 0x1000000 * k + at_
        if x.norError then
          let f := freeBytes data.length s
          (4, ss, f.2.wbytes (norBase + a) f.1)
        else
          let starts := (List.range data.length).filter fun i => (a + i) % 65536 == 0
          let s := forAll starts (fun i s => norErase (a + i) s) s
          (0, { ss with slot := some (k, total, at_ + data.length) }, norProgram a data s)) s)

/-- END: the hash of what has been written is compared. -/
def execDlEnd (x : DlFrame) (s : State) : Host.Outcome State Fault Refusal :=
  ok s (dlRequest 4 x (fun b ss s =>
    match ss.slot with
    | none => (2, ss, s)
    | some (k, _, n) =>
      if b.length ≠ 32 then (6, ss, s)
      else if x.norError then (4, ss, s)
      else
        let h := sha256 (s.bytes (slotBase k) n)
        (if h = b then 0 else 5, ss, setXflHash h s)) s)

/-- ABORT: the session is closed; the slot stays as written. -/
def execDlAbort (x : DlFrame) (s : State) : Host.Outcome State Fault Refusal :=
  let t := dlRequest 6 x (fun b ss s => if b.length ≠ 0 then (6, ss, s) else (0, { ss with slot := none }, s)) s
  ok s (match s.boot.session, t.boot.session with
    | some a, some b => if a.lastSeq ≠ b.lastSeq ∧ framePayload x = [] ∧ (dlBytes x).getD 1 0 = 0 then setSession none t else t
    | _, _ => t)

/-- SESSION_TIMEOUT: 60 s without a valid frame. -/
def execSessionTimeout (s : State) : Host.Outcome State Fault Refusal :=
  ok s (match s.boot.session with
    | some ss => setSession none (s.untilMtb ss.ends)
    | none => s)

/-- Writes of BOOT that are no row of their own: a measurement block takes writes only while its half is in ROM. -/
def bootBlockWrite (off : Nat) (a : Access) (s : State) : State :=
  let h := if 0x0C0 ≤ off then Half.west else Half.east
  if halfState h s = hsRom then plainWrite pBOOT off a s else s

end Sys2Proof.Machine
end

