-- ==== Sys2Proof/Machine/Branch.lean ====
section
/-! DEFINITION. Branches (R97). -/

namespace Sys2Proof.Machine

/-- B (R97). -/
def execB (x : Issue) (c : Sys2Proof.Cond) (off : BitVec 22) (s : State) : Host.Outcome State Fault Refusal :=
  ok s (issue x [] (residued x fun s =>
    if condHolds c (s.eng x.eng).fl then setPc x.eng ((s.eng x.eng).pc + branchOff off) s else advance x.eng s) s)

/-- BL (R97). -/
def execBl (x : Issue) (off : BitVec 22) (s : State) : Host.Outcome State Fault Refusal :=
  ok s (issue x [] (residued x fun s =>
    let pc := (s.eng x.eng).pc
    setPc x.eng (pc + branchOff off) (setGr x.eng 15 (pc + 4) s)) s)

/-- JR (R97). -/
def execJr (x : Issue) (ra : Reg) (s : State) : Host.Outcome State Fault Refusal :=
  ok s (issue x [ra] (fun s =>
    let a := gr x.eng ra s
    if a.extractLsb' 0 2 = 0 then setPc x.eng a s else exception x.eng xAlign 0 a s) s)

end Sys2Proof.Machine
end

