-- ==== Sys2Proof/Machine/LinkState.lean ====
section
/-! DEFINITION. The states of the link and what entering and leaving them does: transactions retired, transfers abandoned,
events kept, training, pairing, UP (R34 to R44). -/

namespace Sys2Proof.Machine

open Reg

/-! ## Transactions of engines that end (R28, R36, R37, R104, R111) -/

/-- The datum that a load takes from the word it reads (R93). -/
def loadDatum (k : LoadKind) (a : Nat) (w : Word) : Word :=
  let b := w.extractLsb' (8 * (a % 4)) 8
  let h := w.extractLsb' (16 * (a / 2 % 2)) 16
  match k with
  | .w => w
  | .h => h.signExtend 32
  | .hu => h.setWidth 32
  | .b => b.signExtend 32
  | .bu => b.setWidth 32

/-- A job whose YIELD has all slots free is over (R96, R104). -/
def finishYield (e : EngNo) (s : State) : State :=
  match (s.eng e).job with
  | none => s
  | some j =>
    if j.dead then leaveJob e s
    else
      let v := j.viol
      let s := if v.count = 0 then s
        else releaseViolation (64 + e.val) j.dom j.task j.job v.addr v.count v.kind s
      completeJob j.task j.job (leaveJob e s)

/-- An engine that waits in YIELD goes on when its last slot is free and no error waits to be taken. -/
def settleYield (e : EngNo) (s : State) : State :=
  if (s.eng e).mode == .yielding && slotsUsed e s == 0 && (s.eng e).remErr == none then finishYield e s else s

/-- The register of a load takes its data. -/
def loadInto (e : EngNo) (r : Reg) (v : Word) (s : State) : State :=
  if r = 0 then s else s.setEng e { s.eng e with g := (s.eng e).g.set r v }

/-- A word of a record arrives at the control primitive that waits for it. -/
def recordArrives (e : EngNo) (i : Nat) (v : Word) (s : State) : State :=
  let g := s.eng e
  s.setEng e { g with record := g.record.map fun ws => ws.set i (some v) }

/-- What a transaction brings its engine: the datum of its load, a word of a record, the address of an access error. -/
def deliverTxn (x : Txn) (v : Word) (err : Bool) (s : State) : State :=
  let s := match x.load with
    | some (k, r) => loadInto x.eng r (loadDatum k x.addr.toNat v) s
    | none => s
  let s := match x.word with
    | some i => recordArrives x.eng i v s
    | none => s
  if err then
    let g := s.eng x.eng
    s.setEng x.eng { g with remErr := some (g.remErr.getD x.addr) }
  else s

/-- A transaction ends with a value, or with an access error, and its tag returns to the pool. One that a half boot has
retired only returns its tag; one of a job that has ended returns its slot as well. -/
def completeTxn (tag : Nat) (v : Word) (err : Bool) (s : State) : State :=
  match txnOf tag s with
  | none => s
  | some x =>
    let s := syncOutstanding (setTxn tag none s)
    if x.withheld then s
    else
      let s := if err then fabError ⟨x.eng, x.sup, x.dom⟩ 4 x.addr s else s
      settleYield x.eng (if x.orphan then s else deliverTxn x (if err then 0 else v) err s)

/-- Every transaction is retired: reads with an access error and zero, writes as UNKNOWN. -/
def retireTxns (s : State) : State := forAll (s.txns.map (·.1)) (fun t s => completeTxn t 0 true s) s

/-- Transactions that bring their engine nothing any more; their tags stay out until the late response. -/
def withholdWhere (p : Txn → Bool) (s : State) : State :=
  { s with txns := s.txns.map fun t => match t.2 with
      | some x => (t.1, some { x with withheld := x.withheld || p x })
      | none => t }

/-- The transactions of a half's engines are retired by its half boot: their tags are withheld (R37). -/
def withholdTxns (h : Half) (s : State) : State := withholdWhere (fun x => halfOf x.eng == h) s

/-! ## Events on their way (R36) -/

/-- The Muslin event that an EVENT packet carries (R33). -/
def packetEvent (p : Packet) : Event :=
  let w := p.word 0
  { stamp := (p.word 1).toNat + 2 ^ 32 * (p.word 2).toNat, source := byte (128 + (w.extractLsb' 24 6).toNat)
    dom := w.extractLsb' 16 4, severity := w.extractLsb' 20 3, code := w.extractLsb' 0 16
    data := (wordsBytes ((p.data.drop 3).take 3)).take 10, rank := 128, ready := 0
    recorded := w.getLsbD 31, mseq := if w.getLsbD 31 then p.word 6 else 0 }

def eventPage (e : Event) : Nat := e.source.toNat - 128

/-- An event returns to Muslin's buffer, recorded by Muslin if it has not been. -/
def bufferEvent (e : Event) (s : State) : State :=
  let m := s.reg pEVR 0x058
  let t := if e.recorded then s else recordLocal (eventPage e) e.dom e.severity e.code e.data s
  let e := if e.recorded then e else { e with recorded := true, mseq := m }
  if t.ev.mbuf.length < 512 then
    let t := { t with ev := { t.ev with mbuf := t.ev.mbuf ++ [e] } }
    syncEvq t
  else State.bump { t with ev := { t.ev with mlost := t.ev.mlost + 1 } } pDDLM DDL_M_EVQ_LOST

/-- The events that die Muslin had not seen acknowledged wait again, ahead of those in the buffer. -/
def keepEvents (flight : List Packet) (s : State) : State :=
  let es := (flight.filter fun p => p.type == tEvent && (packetEvent p).code != 0).map packetEvent
  let old := s.ev.mbuf
  tellDiscarded s (forAll (es ++ old) bufferEvent { s with ev := { s.ev with mbuf := [] } })

/-- The deliveries whose last packet still waits were not sent, though earlier packets of them may have been (log entry 117):
each counts with those that it would have reported as missed (R32). -/
def missDeliveries (waiting : List Packet) (s : State) : State :=
  forAll (waiting.filter fun p => p.type == tSample && (p.word 0).getLsbD 26) (fun p s =>
    let kind := ((p.word 0).extractLsb' 28 4).toNat
    let key := if kind = 3 then 3 + ((p.word 1).extractLsb' 0 3).toNat else kind
    setMissed key (missedOf key s + 1 + (p.word 2).toNat) s) s

/-! ## Leaving UP -/

/-- What die Damask does when the link leaves UP. -/
def damaskLosesLink (flight : List Packet) (s : State) : State :=
  let s := raiseFault 6 false 0 0 s
  let s := evsLinkDown flight (retireTxns s)
  let s := { s with ev := { s.ev with levels := 0 }, inputs := { s.inputs with parts := [] } }
  cryLinkDown (hartLinkDown .damask (q31Abort s))

/-- What die Muslin does when the link leaves UP. -/
def muslinLosesLink (flight waiting : List Packet) (s : State) : State :=
  let s := ohmEngage (s.put pDDLM DDL_STAT_MTBSYNC 0)
  let s := { s with rep := { synced := 0, at_ := s.replica, acc := 0 } }
  let s := hartLinkDown .muslin (vaultLinkDown (missDeliveries waiting (keepEvents flight s)))
  let s := if s.meter.xtalLost then forAll allChans hartStop s else s
  let s := s.put pPMU PMU_CTRL_RESTORE 0
  let s := if s.power.leaving then retainLost s else muslinFault pDDLM 6 true 0 s
  if s.power.leaving && !planRuns s then damaskOff s else s

/-- The link of die `d` leaves UP. Its state is DOWN before anything else happens. -/
def leaveUp (d : Die) (s : State) : State :=
  let l := s.link d
  let flight := l.unacked.map (·.pkt) ++ l.waiting
  let p := ddlPage d
  let s := (s.put p DDL_STAT_STATE stDown).setLink d { linkIdle with nonce := l.nonce }
  let s := ((s.put p DDL_STAT_SESSION 0).setReg p 0x044 0).incr p DDL_DOWNCNT_COUNT
  let s := match d with
    | .damask => damaskLosesLink flight s
    | .muslin => muslinLosesLink flight l.waiting s
  raise p DDL_IRQ_RAW_LINKDOWN s

/-- The link of die `d` enters DOWN. -/
def toDown (d : Die) (s : State) : State :=
  let s := if s.linkUp d then leaveUp d s
    else (s.put (ddlPage d) DDL_STAT_STATE stDown).setLink d linkIdle
  s.setLink d { s.link d with since := s.now d }

/-- Nothing holds the link of die `d` in DOWN: it has power, EN is 1 and it is not looped. -/
def mayTrain (d : Die) (s : State) : Bool :=
  (d == .muslin || damaskOn s) && !s.power.held && s.bit (ddlPage d) DDL_CTRL_EN && !s.bit (ddlPage d) DDL_CTRL_LOOPBACK

/-- Muslin switches Damask off, and with that declares the link down (R376). -/
def damaskCut (s : State) : State :=
  let s := if s.linkUp .muslin then toDown .muslin s else s
  if s.bit pPMU PMU_STAT_DOFF then s else damaskOff s

/-- The 150 ms of Damask's way into OFF are over (R376). -/
def damaskOverdue (s : State) : State := if s.power.leaving && s.power.cutAt ≤ s.replica then damaskCut (retainLost s) else s

/-- The link of die `d` enters TRAIN. -/
def toTrain (d : Die) (s : State) : State :=
  let s := (s.put (ddlPage d) DDL_STAT_STATE stTrain).put (ddlPage d) DDL_CTRL_RETRAIN 0
  s.setLink d { s.link d with since := s.now d }

/-- A write of DDL_CTRL has taken its bits: EN, LOOPBACK and RETRAIN act. -/
def ddlSettle (d : Die) (s : State) : State :=
  let p := ddlPage d
  if !s.bit p DDL_CTRL_EN || s.bit p DDL_CTRL_LOOPBACK then
    if s.linkState d = stDown then s else toDown d s
  else if s.bit p DDL_CTRL_RETRAIN then toTrain d (toDown d s)
  else s

def ddlWrite (d : Die) (off : Nat) (a : Access) (s : State) : State :=
  let s := plainWrite (ddlPage d) off a s
  if off = 0x008 then ddlSettle d s else s

/-! ## Boot attempts (R361) -/

/-- The next instant, each 10 ms after the half's start, at which ROM writes RETRAIN while it waits for the link; none once
100 ms are over. -/
def nextRetrain (h : Half) (s : State) : Option Nat :=
  let start := (s.rom h).start
  let t := start + 1000000 * ((s.mtb - start) / 1000000 + 1)
  if t < start + 10000000 then some t else none

/-- Step 1 of a half whose link is not UP: ROM writes RETRAIN at its next instant, or has waited for 100 ms. East carries it out
once for both slots. -/
def awaitLink (h : Half) (s : State) : State :=
  match nextRetrain h s with
  | some t => ddlSettle .damask ((s.untilMtb t).put pDDL DDL_CTRL_RETRAIN 1)
  | none =>
    match slotDue h s with
    | (some k, s) => attemptEnds h k (some 1) (s.untilMtb ((s.rom h).start + 10000000))
    | (none, s) => s

/-- BOOT_ATTEMPT: the ROM of a half goes on with its attempt on a slot; at 1 s after the half's start, or later, it finds its
time over. -/
def execBootAttempt (h : Half) (u : RomUpset) (s : State) : Host.Outcome State Fault Refusal :=
  ok s (if !damaskOn s || halfState h s != hsRom then s
  else if bootLimit h s ≤ s.mtb then bootOver h s
  else if !linkInTime h s && ((s.rom h).half || h == .west || (s.rom h).slot.isNone) then awaitLink h s
  else
    match slotDue h s with
    | (none, s) => s
    | (some k, s) => attemptSlot h k u s)

/-- Time passes to count `t` of the time base of a die. -/
def untilNow (d : Die) (t : Nat) (s : State) : State :=
  match d with
  | .damask => s.untilMtb t
  | .muslin => s.untilReplica t

/-- LINK_DOWN_TIMEOUT: 100 µs after the start of the last valid packet. -/
def execLinkDownTimeout (d : Die) (s : State) : Host.Outcome State Fault Refusal :=
  ok s (if s.linkUp d then toDown d (untilNow d ((s.link d).lastValid + 10000) s) else s)

/-- DOWN_WAIT_EXPIRY: 1 ms after DOWN was entered. -/
def execDownWaitExpiry (d : Die) (s : State) : Host.Outcome State Fault Refusal :=
  ok s (if s.linkState d = stDown && mayTrain d s then toTrain d (untilNow d ((s.link d).since + 100000) s) else s)

/-- TRAIN_TIMEOUT: training has not completed within 200 µs. -/
def execTrainTimeout (d : Die) (s : State) : Host.Outcome State Fault Refusal :=
  ok s (if s.linkState d = stTrain then toDown d (untilNow d ((s.link d).since + 20000) s) else s)

/-- A die whose 200 µs of training are over is in DOWN (R7, R34). -/
def trainOver (d : Die) (s : State) : State :=
  if s.linkState d = stTrain ∧ (s.link d).since + 20000 ≤ s.now d then toDown d s else s

/-- TRAINING_COMPLETE: both dies have locked; the delay is measured and the nonces are exchanged. One that comes when the
200 µs of a die are over finds that die in DOWN. -/
def execTrainingComplete (delay : BitVec 12) (s : State) : Host.Outcome State Fault Refusal :=
  ok s (let s := trainOver .muslin (trainOver .damask s)
  if s.linkState .damask = stTrain && s.linkState .muslin = stTrain then
    let a := drawBytes 16 s
    let b := drawBytes 16 a.2
    let s := b.2.put pDDLM DDL_M_DELAY_DELAY delay.toNat
    let s := { s with damask := { s.damask with nonce := a.1 }, muslin := { s.muslin with nonce := b.1 } }
    (s.put pDDL DDL_STAT_STATE stPair).put pDDLM DDL_STAT_STATE stPair
  else s)

/-! ## Pairing and UP (R39, R40) -/

/-- The pairing proof that a secret gives for the nonces. -/
def pairProof (secret : List Byte) (s : State) : List Byte := hmac secret (s.damask.nonce ++ s.muslin.nonce)
def sessionKeyOf (secret : List Byte) (s : State) : List Byte :=
  hkdf32 secret (s.damask.nonce ++ s.muslin.nonce) (ascii "DDL-SEAL")

/-- The pairing secret of a die. -/
def secretOf (d : Die) (s : State) : List Byte :=
  match d with
  | .damask => s.fused.pairDamask
  | .muslin => s.fused.pairMuslin

/-- A die enters UP, with its session key after matching proofs. -/
def enterUp (d : Die) (paired : Bool) (s : State) : State :=
  let p := ddlPage d
  let s := s.setLink d { linkIdle with
    lastValid := s.now d, since := s.now d, hbAt := s.now d, nonce := (s.link d).nonce
    sessionKey := if paired then sessionKeyOf (secretOf d s) s else [] }
  let s := ((s.putBit p DDL_STAT_PAIRED paired).putBit p DDL_STAT_PAIRFLT (!paired)).putBit p DDL_STAT_SESSION paired
  (s.setReg p 0x044 (initialCredits d)).put p DDL_STAT_STATE stUp

/-- The replica value plus the delay is loaded into the MTB of a Damask that has been powered off (R38). What has been
measured since its start moves with the count. -/
def loadMtb (s : State) : State :=
  if s.g pBOOT BOOT_STAT_CAUSE = 2 && !s.bit pMTB MTB_STAT_LOADED then
    let t := (s.replica + s.g pDDLM DDL_M_DELAY_DELAY) % 2 ^ 64
    let d := t - s.mtb
    let s := { s with mtb := t, sched := { s.sched with btick := t / 25000 } }
    let s := (s.setRom .east { s.rom .east with start := s.boot.east.start + d }).setRom .west
      { s.rom .west with start := s.boot.west.start + d }
    let s := forAll allEngines (fun e s => if (s.eng e) = engStopped then s
      else s.setEng e { s.eng e with busyFrom := (s.eng e).busyFrom + d }) s
    s.put pMTB MTB_STAT_LOADED 1
  else s

/-- Muslin sends what has waited: the count of the events it could not keep, the events of its buffer, its levels. -/
def muslinLinkUp (s : State) : State :=
  let old := s.ev.mbuf
  let n := s.ev.mlost
  let lost : Event :=
    { stamp := s.replica, source := 0x81, dom := 0, severity := 1, code := 0x0001, data := padTo 10 (leBytes 4 n),
      rank := 128, ready := 0, recorded := false, mseq := 0 }
  let s := { s with ev := { s.ev with mbuf := [], mlost := 0 } }
  let s := syncEvq s
  let s := if n = 0 then s else sendPacket .muslin (eventPacket 1 lost) s
  let s := forAll old (fun e s => sendPacket .muslin (eventPacket (eventPage e) e) s) s
  syncLevels { s with ev := { s.ev with reported := ~~~muslinLevels s } }

/-- PAIRING: the proofs are compared and both dies enter UP. -/
def execPairing (s : State) : Host.Outcome State Fault Refusal :=
  ok s (if s.linkState .damask = stPair && s.linkState .muslin = stPair then
    let paired := pairProof s.fused.pairDamask s == pairProof s.fused.pairMuslin s
    let s := enterUp .muslin paired (enterUp .damask paired (loadMtb s))
    let s := raise pDDLM DDL_IRQ_RAW_LINKUP (raise pDDL DDL_IRQ_RAW_LINKUP s)
    let s := if paired then s else
      raiseFault 7 false 0 0 (raise pDDLM DDL_IRQ_RAW_PAIRFLT (raise pDDL DDL_IRQ_RAW_PAIRFLT s))
    hartLinkUp (evsLinkUp (muslinLinkUp { s with rep := { s.rep with at_ := s.replica } }))
  else s)

/-! ## Link reset (R37, R44) -/

/-- The locks of every Muslin page close (R52). -/
def closeMuslinLocks (s : State) : State := forAll (List.range 21) (fun n s => closeLock (64 + n) s) s

/-- A tag that a half boot withheld returns with the pool. -/
def clearPool (s : State) : State := syncOutstanding { s with txns := [] }

/-- LINK_RESET: the link logic of both dies is held in reset for 1 µs; TRAIN begins at its release. -/
def execLinkReset (s : State) : Host.Outcome State Fault Refusal :=
  ok s (if s.power.held then s
  else
    let s := clearPool (toDown .muslin (if damaskOn s then toDown .damask s else s))
    let s := (closeMuslinLocks s).pass 100
    let s := if mayTrain .damask s then toTrain .damask s else s
    if mayTrain .muslin s then toTrain .muslin s else s)

end Sys2Proof.Machine
end

