-- ==== Sys2Proof/Machine/FlashDone.lean ====
section
/-! DEFINITION. The flash controller: which waiting operation starts, what it programs, and what follows when it is done
(R309 to R311, R375). -/

namespace Sys2Proof.Machine

open Reg

def isRepair : FlashUser → Bool
  | .repair _ _ => true
  | _ => false

/-- The steps of a waiting operation as it would start now, its energy, and the state with the places it takes; none while
it has to wait for something other than energy. -/
def flashSteps (o : FlashOp) (s : State) : Option (List FlashStep × Nat × State) :=
  let plain := fun (x : List FlashStep × State) => (x.1, (x.1.map stepEnergy).sum, x.2)
  match o.work with
  | .program off data => some (plain ([.program off data], s))
  | .erase k => some (plain ([.erase k], s))
  | .record page off data seq compact =>
    if layerReady data.length compact s then some (plain (placeRecord page off data seq compact s)) else none
  | .count n =>
    if ctrValue n s = 0xFFFFFFFF then some ([], 0, s)
    else if countReady n s then some (plain (countSteps n s, s)) else none
  | .base n value => if baseReady n (isRepair o.user) s then some (plain (baseSteps n value s, s)) else none
  | .log => if logReady s then some (plain (logSteps s)) else none
  | .batch erases programs energy =>
    if o.user = .keyCommit then (if countReady 3 s then some (commitSteps s, energy, commitRead s) else none)
    else some (erases.map FlashStep.erase ++ programs.map fun x => FlashStep.program x.1 x.2, energy, s)

/-- The first waiting operation that can start, with its index. -/
def nextOp (s : State) : Option (FlashOp × List FlashStep × Nat × State) :=
  s.flash.waiting.findSome? fun o => (flashSteps o s).map fun x => (o, x.1, x.2.1, x.2.2)

/-- The operation at the head of the order is asked of the PMU: it starts, waits, or, a periodic save, is withdrawn. -/
def flashAdmit (s : State) : State :=
  if s.flash.running.isSome then s
  else
    let s := evrKick s
    match nextOp s with
    | none => syncWaits s
    | some (o, steps, energy, t) =>
      if admitted o energy s then
        let t := t.setFlash { t.flash with waiting := t.flash.waiting.erase o, running := some ⟨o, steps, energy⟩ }
        syncWaits (setPend (t.power.pend + energy) t)
      else if isPeriodicSave o.user then saveRefused s
      else syncWaits (s.setFlash { s.flash with refused := o :: s.flash.refused.erase o })

/-- FLASH_OP_ADMIT (R309). -/
def execFlashOpAdmit (s : State) : Host.Outcome State Fault Refusal := ok s (flashAdmit s)

/-- The counter that an operation writes. -/
def counterOf : FlashWork → Nat
  | .count n => n
  | .base n _ => n
  | _ => 0

/-- What follows when an operation of a user is done. -/
def flashFollow (o : FlashOp) (s : State) : State :=
  match o.user with
  | .nvm =>
    let seq := match o.work with
      | .record .. => (nextSeq s + 2 ^ 24 - 1) % 2 ^ 24
      | _ => 0
    syncRetainStat (compactAuto (syncLayer (nvmResult 0 seq s)))
  | .copy => compactNext (syncLayer s)
  | .victim => compactDone s
  | .badSector => compactAuto (syncLayer s)
  | .counter cmd => syncOpPend (counterWritten (counterOf o.work) cmd s)
  | .clearCount => clearCounted (counterWritten 4 false s)
  | .oldSector n cmd => (fun s => if cmd then nctDone s else s) (syncPend n (syncCounter n s))
  | .repair n last => repairDone n last s
  | .event => evrKick (syncCount s)
  | .aheadErase => syncCount s
  | .cleared => clearWritten s
  | .clearErase => clearErased s
  | .save _ last => compactAuto (syncLayer (saveDone last s))
  | .config last => compactAuto (syncLayer (configDone last s))
  | .useLog slot => useDone slot s
  | .keyCommit => updateDone s
  | .expiry _ => s
  | .retain => retainDone s
  | .retainErase => syncRetainStat s

/-- The running operation is done: its bytes stand in the flash, its energy is released. -/
def flashDone (s : State) : State :=
  match s.flash.running with
  | none => s
  | some r =>
    let s := forAll r.steps runStep (s.setFlash { s.flash with running := none })
    nvmRead (flashFollow r.op (setPend (s.power.pend - r.energy) s))

/-- FLASH_OP_DONE (R310). -/
def execFlashOpDone (s : State) : Host.Outcome State Fault Refusal := ok s (flashDone s)

end Sys2Proof.Machine
end

