-- ==== Sys2Proof/Machine/Fp.lean ====
section
/-! DEFINITION. The float instructions (R90, R91). -/

namespace Sys2Proof.Machine

/-- A float result with its sticky flags. -/
def fpResult (e : EngNo) (rd : Reg) (r : Word × FFlags) (s : State) : State :=
  result e rd r.1 (setFl e (stickyFlags (s.eng e).fl r.2) s)

/-- rd = f(ra, rb), checked by the residue on significands. -/
def fpRR (x : Issue) (rd ra rb : Reg) (f : Word → Word → Word × FFlags) (s : State) : State :=
  issue x [ra, rb] (floatResidued x fun s => fpResult x.eng rd (f (gr x.eng ra s) (gr x.eng rb s)) s) s

/-- rd = f(ra, rb), which no residue covers. -/
def fpPick (x : Issue) (rd ra rb : Reg) (f : Word → Word → Word × FFlags) (s : State) : State :=
  issue x [ra, rb] (fun s => fpResult x.eng rd (f (gr x.eng ra s) (gr x.eng rb s)) s) s

/-- rd = f(ra), which no residue covers. -/
def fpR (x : Issue) (rd ra : Reg) (f : Word → Word × FFlags) (s : State) : State :=
  issue x [ra] (fun s => fpResult x.eng rd (f (gr x.eng ra s)) s) s

/-- FADD (R90). -/
def execFadd (x : Issue) (rd ra rb : Reg) (s : State) : Host.Outcome State Fault Refusal :=
  ok s (fpRR x rd ra rb (fun a b => fAdd a b) s)

/-- FSUB (R90). -/
def execFsub (x : Issue) (rd ra rb : Reg) (s : State) : Host.Outcome State Fault Refusal :=
  ok s (fpRR x rd ra rb (fun a b => fSub a b) s)

/-- FMUL (R90). -/
def execFmul (x : Issue) (rd ra rb : Reg) (s : State) : Host.Outcome State Fault Refusal :=
  ok s (fpRR x rd ra rb (fun a b => fMul a b) s)

/-- FDIV (R90). -/
def execFdiv (x : Issue) (rd ra rb : Reg) (s : State) : Host.Outcome State Fault Refusal :=
  ok s (fpRR x rd ra rb (fun a b => fDiv a b) s)

/-- FSQRT (R90). -/
def execFsqrt (x : Issue) (rd ra : Reg) (s : State) : Host.Outcome State Fault Refusal :=
  ok s (fpRR x rd ra ra (fun a _ => fSqrt a) s)

/-- FMIN (R91). -/
def execFmin (x : Issue) (rd ra rb : Reg) (s : State) : Host.Outcome State Fault Refusal :=
  ok s (fpPick x rd ra rb fMin s)

/-- FMAX (R91). -/
def execFmax (x : Issue) (rd ra rb : Reg) (s : State) : Host.Outcome State Fault Refusal :=
  ok s (fpPick x rd ra rb fMax s)

/-- FABS (R90). -/
def execFabs (x : Issue) (rd ra : Reg) (s : State) : Host.Outcome State Fault Refusal :=
  ok s (fpR x rd ra (fun a => (fAbs a, {})) s)

/-- FNEG (R90). -/
def execFneg (x : Issue) (rd ra : Reg) (s : State) : Host.Outcome State Fault Refusal :=
  ok s (fpR x rd ra (fun a => (fNeg a, {})) s)

/-- FCMP (R91). -/
def execFcmp (x : Issue) (ra rb : Reg) (s : State) : Host.Outcome State Fault Refusal :=
  ok s (issue x [ra, rb] (fun s =>
    advance x.eng (setFl x.eng (fcmpFlags (s.eng x.eng).fl (gr x.eng ra s) (gr x.eng rb s)) s)) s)

/-- ITOF (R91). -/
def execItof (x : Issue) (rd ra : Reg) (s : State) : Host.Outcome State Fault Refusal :=
  ok s (fpR x rd ra (fun a => fOfInt a.toInt) s)

/-- FTOI (R91). -/
def execFtoi (x : Issue) (rd ra : Reg) (s : State) : Host.Outcome State Fault Refusal :=
  ok s (fpR x rd ra (fToInt true) s)

/-- FTOIZ (R91). -/
def execFtoiz (x : Issue) (rd ra : Reg) (s : State) : Host.Outcome State Fault Refusal :=
  ok s (fpR x rd ra (fToInt false) s)

end Sys2Proof.Machine
end

