-- ==== Sys2Proof/Machine/Reset.lean ====
section
/-! DEFINITION. Resets: power-on, module reset, Damask restart, half boot; supply-good and the end of the power-fail plan;
the watchdogs' last stage; the loss of crystals; the edges of Charon (R13, R37, R61, R69, R80, R144, R360, R371, R373, R376,
R382, R390, R395 to R400, R421, R427). -/

namespace Sys2Proof.Machine

open Reg

/-! ## The start of Damask (R360) -/

/-- Both halves start in ROM at the present count, with their releases held. -/
def startHalves (s : State) : State :=
  let s := { s with boot := { s.boot with east := romStart false s.mtb, west := romStart false s.mtb } }
  let s := (s.put pSCH SCH_CTRL_HOLDE 1).put pSCH SCH_CTRL_HOLDW 1
  syncProt (syncSupv s)

/-- PRF_STAT.PINEN shows the strap. -/
def syncPinen (s : State) : State := s.putBit pPRF PRF_STAT_PINEN (s.bit pMSYS MSYS_STRAP_PRF_PINEN)

/-- Damask powers up while Muslin runs (R13, R38): its count goes on from the replica's, which training loads, and its link
waits in DOWN. -/
def damaskStart (s : State) : State :=
  let s := keepCause damaskClear s
  let s := { s with
    mtb := s.replica, sched := { s.sched with btick := s.replica / 25000, cutoff := s.replica }
    damask := { s.damask with since := s.replica } }
  let s := (s.put pPMU PMU_STAT_DOFF 0).put pPMU PMU_CTRL_DOFF 0
  syncPinen (startHalves ((s.put pBOOT BOOT_STAT_CAUSE 2).put pMTB MTB_STAT_LOADED 0))

/-! ## The start of the module (R421, R427) -/

/-- An increment that Charon has asked for: one that waits at a module reset is retried when the flash is available (R300). -/
def charonCount (o : FlashOp) : Bool :=
  match o.user, o.work with
  | .counter false, .count n => n ≤ 1
  | _, _ => false

/-- What a module reset leaves before Muslin starts: reset values everywhere but in Charon, the flash, the NOR and what is
fixed at assembly. -/
def moduleBase (s : State) : State :=
  let keep := fun (a : Nat) => (0x58000000 ≤ a && a < 0x58200000) || (0x60000000 ≤ a && a < 0x64000000)
  let s := norTear s
  closeLock pCHR { State.reset with
    pins := s.pins, pending := s.pending, fused := s.fused, drawn := s.drawn, freed := s.freed, chr := s.chr
    regs := s.regs.filter fun e => e.1 / 1024 == pCHR
    mem := s.mem.filter fun e => keep e.1
    ev := { State.reset.ev with mbuf := [] }
    evr := { State.reset.evr with queue := [] }
    flash := { State.reset.flash with
      waiting := (s.flash.waiting.filter charonCount).map fun o => { o with prec := precCounter }
      refused := [], repairing := [], programmed := s.flash.programmed, errors := s.flash.errors, made := s.flash.made } }

/-- RSTCAUSE of both dies names the cause. -/
def setCause (cause : Nat) (s : State) : State :=
  (s.setReg pSYS 0x04C (word (2 ^ cause))).setReg pMSYS 0x04C (word (2 ^ cause))

/-- The levels that MSYS_STRAP shows. -/
def showStraps (x : Straps) (s : State) : State :=
  syncPinen (((s.putBit pMSYS MSYS_STRAP_RECOV x.recov).putBit pMSYS MSYS_STRAP_PRF_PINEN x.pinen).putBit pMSYS
    MSYS_STRAP_FAILDIR x.faildir)

/-- Muslin samples the strap pins, once, at the release of a reset (R61). -/
def sampleStraps (s : State) : State := showStraps s.pins s

/-- The levels that stand at the strap pins from now on. -/
def setPins (x : Straps) (s : State) : State := { s with pins := x }

/-- The straps as they were sampled last. -/
def lastStraps (s : State) : Straps :=
  ⟨s.bit pMSYS MSYS_STRAP_RECOV, s.bit pMSYS MSYS_STRAP_PRF_PINEN, s.bit pMSYS MSYS_STRAP_FAILDIR⟩

/-- The reset is released: straps, counters, recorder, vault, metering, retain areas; then both links train and both
halves start. -/
def moduleStart (s : State) : State :=
  let s := sampleStraps s
  let s := meterStart (vaultCheck (settleCounters (recorderReset s)))
  startHalves (toTrain .damask (toTrain .muslin (retainSettle s)))

/-- The module is held in reset: nothing runs but Charon. -/
def holdModule (s : State) : State :=
  { s with power := { s.power with held := true }, engs := [(0, engStopped), (32, engStopped)] }

/-- The records of a save are written before the reset, as far as energy admits them (R267, R421). -/
def writeSave (s : State) : State :=
  let mine := s.flash.waiting.filter fun o => isSave o.user
  forAll mine (fun _ s =>
    match s.flash.waiting.findSome? fun o =>
        if isSave o.user then (flashSteps o s).map fun x => (o, x.1, x.2.1, x.2.2) else none with
    | some (o, steps, energy, t) =>
      if admitted o energy s then
        forAll steps runStep (t.setFlash { t.flash with waiting := t.flash.waiting.erase o })
      else s
    | none => s) s

/-- A module reset begins (R421): admitted flash work and the metering save first. `low` tells that RESET_N stays low. -/
def moduleResetNow (cause : Nat) (low : Bool) (saved : Bool) (s : State) : State :=
  let s := flashDone s
  let s := if saved then s else writeSave (askSave .final s)
  let good := s.bit pPMU PMU_STAT_SUPGOOD
  let t := setCause cause (moduleBase s)
  let t := t.putBit pPMU PMU_STAT_SUPGOOD good
  let t := t.put pBOOT BOOT_STAT_CAUSE 1
  if low then holdModule (showStraps (lastStraps s) t) else moduleStart t

/-- A module reset asked for: during the power-fail plan it waits for the plan's end. -/
def moduleReset (cause : Nat) (low : Bool) (s : State) : State :=
  if s.power.held then s
  else if planRuns s then { s with power := { s.power with reset := some cause } }
  else if !muslinRuns s then s
  else moduleResetNow cause low false s

def causePor : Nat := 0
def causePin : Nat := 1
def causeSw : Nat := 2
def causeWdt : Nat := 3

/-- MODULE_RESET: RESET_N has been low for 256 cycles; whether it stays low, and the straps at its release. -/
def execModuleReset (low : Bool) (x : Straps) (s : State) : Host.Outcome State Fault Refusal :=
  ok s (moduleReset causePin low (setPins x s))

/-- RESET_RELEASE: RESET_N goes high. Both dies leave reset, and with them their counts, which start at zero (R38, R421). -/
def execResetRelease (x : Straps) (s : State) : Host.Outcome State Fault Refusal :=
  ok s (if s.power.held then
    moduleStart (setPins x { s with
      power := { s.power with held := false }, engs := [], mtb := 0, replica := 0, chr := { s.chr with corrMtb := 0 } })
  else s)

/-- POWER_ON_RESET: SUP_24V rises through 17.0 V; `lost` tells that Charon has had no source. -/
def execPowerOnReset (x : Straps) (lost : Bool) (s : State) : Host.Outcome State Fault Refusal :=
  ok s (let s := flashDone s
  let s := if lost || s.chr.stopped then charonStart s else s.setChr { s.chr with opRun := false }
  moduleStart (setPins x (setCause causePor (moduleBase s))))

/-! ## Supply-good, the end of the plan, wake-up (R373, R376, R382) -/

/-- Damask starts when it is OFF. -/
def wakeDamask (s : State) : State := if s.bit pPMU PMU_STAT_DOFF && !s.power.held then damaskStart s else s

/-- SUPPLY_GOOD: SUP_24V has stayed at or above 17.0 V for 10 ms. -/
def execSupplyGood (s : State) : Host.Outcome State Fault Refusal :=
  ok s (if planRuns s || s.power.held || s.bit pPMU PMU_STAT_SUPGOOD then s
  else
    let s := { s with power := { s.power with failed := false } }
    let s := chrSupplyGood s
    let s := raise pPMU PMU_IRQ_RAW_SUPGOOD (s.put pPMU PMU_STAT_SUPGOOD 1)
    let s := if s.bit pMTV MTV_CTRL_EN && !s.bit pMTV MTV_STAT_RUN && !s.meter.xtalLost then startSampling s else s
    wakeDamask (retainSettle s))

/-- POWER_FAIL_PLAN_END: the plan's last writes are complete. A module reset that has waited begins. -/
def execPowerFailPlanEnd (low : Bool) (x : Straps) (s : State) : Host.Outcome State Fault Refusal :=
  ok s (if !planRuns s || s.flash.running.isSome then s
  else
    let s := damaskCut (retainLost s)
    let s := if s.power.area.isSome then retainSkip (dropOps (fun u => u == .retain) s) else s
    let s := s.put pPMU PMU_STAT_PLAN 0
    match s.power.reset with
    | some c => moduleResetNow c low true <| setPins x { s with power := { s.power with reset := none } }
    | none => s)

/-- After edges of Charon: a fired alarm that PMU_WAKE names starts a Damask that is OFF. -/
def wakeUp (s : State) : State :=
  if s.chr.wake then
    let s := s.setChr { s.chr with wake := false }
    if muslinRuns s then wakeDamask s else s
  else s

/-! ## Edges of Charon (R289 to R300) -/

/-- CHARON_SECOND: edges up to the next second edge, which comes at a replica count. -/
def execCharonSecond (at_ : Nat) (s : State) : Host.Outcome State Fault Refusal :=
  ok s (let s := s.untilReplica at_
  wakeUp (charonTicks (toSecond s) s))

/-- ALARM_FIRE: edges, at most `n`, until alarm `a` fires. -/
def execAlarmFire (a : Fin 2) (n : Nat) (s : State) : Host.Outcome State Fault Refusal := ok s (wakeUp (ticksToAlarm a n s))

/-- TIME_LOAD: edges until E2 of a pending time write. -/
def execTimeLoad (s : State) : Host.Outcome State Fault Refusal := ok s (wakeUp (charonTicks (toLoad s) s))

/-- OPSEC_MINUTE: edges until OPSEC reaches a multiple of 60. -/
def execOpsecMinute (s : State) : Host.Outcome State Fault Refusal := ok s (wakeUp (charonTicks (toMinute s) s))

/-! ## Half boot (R37, R69, R80, R144) -/

/-- A scan that the half boot makes dead: its task runs in that half, or a job of it runs there. -/
def halfScan (h : Half) (t : TaskNo) (s : State) : Bool :=
  (s.task t).scan.isSome && (taskHalf t s == h || allEngines.any fun e => halfOf e == h && runsLive t (s.eng e))

/-- The first of the half's ENG pages. -/
def halfPage : Half → Nat
  | .east => pENG
  | .west => pENG + 4

/-- The ENG pages of a half at their reset values, except EXCL, HUNG and the error counters. -/
def resetEngPages (h : Half) (s : State) : State :=
  let p := halfPage h
  forAll (List.range 4) (fun i s =>
    let k := p + i
    let excl := s.reg k 0x008 &&& 0xFF
    let hung := s.reg k 0x00C &&& 0xFF
    let cnt := s.reg k 0x040
    let s := s.resetPages k (k + 1)
    ((s.setReg k 0x008 excl).setReg k 0x00C ((s.reg k 0x00C &&& 0xFFFFFF00) ||| hung)).setReg k 0x040 cnt) s

def firstEngine : Half → Nat
  | .east => 0
  | .west => 32

/-- Lane 0 of cluster 0 runs ROM, or lane 1 when EXCL marks lane 0 (R69). -/
def romEngine (h : Half) (s : State) : Nat := firstEngine h + if (s.reg (halfPage h) 0x008).getLsbD 0 then 1 else 0

/-- The half's engines and solvers stop, with caches, local data and latches cleared; ROM starts on its engine. -/
def stopHalf (h : Half) (s : State) : State :=
  let lo := firstEngine h
  let mine := fun (e : Nat) => lo ≤ e && e < lo + 32
  let cl := fun (k : Nat) => lo / 8 ≤ k && k < lo / 8 + 4
  let s := { s with icache := tclear mine s.icache, mtbHi := tclear mine s.mtbHi }
  let s := { s with sched := { s.sched with
    solver := tclear cl s.sched.solver, solverFrom := tclear cl s.sched.solverFrom, laneBusy := tclear cl s.sched.laneBusy
    solvBusy := tclear cl s.sched.solvBusy } }
  let s := s.clearMem (0x30000000 + 0x2000 * lo) (0x30000000 + 0x2000 * (lo + 32))
  forAll allEngines (fun e s => if halfOf e == h then s.setEng e engStopped else s) s

/-- The half boots the slot (R360, R361). -/
def halfBoot (h : Half) (slot : Nat) (s : State) : State :=
  let s := forAll allTasks (fun t s => if halfScan h t s then killScan t s else s) s
  let s := forAll allTasks (fun t s => if taskHalf t s == h then loseHeld t s else s) s
  let s := resetEngPages h (stopHalf h (withholdTxns h s))
  let r := romEngine h s
  let lo := 16 * h.ix
  let w := (s.reg pFAB 0x040 &&& ~~~word (0xFFFF * 2 ^ lo)) ||| word ((0x80 + r) * 2 ^ lo)
  let s := setSupv w s
  let s := setMode ⟨r % 64, Nat.mod_lt _ (by decide)⟩ .run (s.setEng ⟨r % 64, Nat.mod_lt _ (by decide)⟩ { engRom with mode := .idle })
  let s := (wdtHalfBoot h s).put pSCH (holdFld h) 1
  setHalfState h hsRom (s.setRom h { romStart true s.mtb with slot := some slot })

/-- A write of BOOT_HBOOT: the half boot is accepted when the partner runs and is the writer's half. -/
def hbootWrite (a : Access) (s : State) : State :=
  if !a.b BOOT_HBOOT_GO then plainWrite pBOOT 0x040 a s
  else
    let t := plainWrite pBOOT 0x040 { a with val := a.val &&& 0x7FFFFFFF } s
    let h := halfAt (t.g pBOOT BOOT_HBOOT_HALF)
    if halfRuns h.other s && halfOf a.req.eng == h.other then halfBoot h (t.g pBOOT BOOT_HBOOT_SLOT) t
    else raise pBOOT BOOT_IRQ_RAW_CFGERR s

def bootWrite (off : Nat) (a : Access) (s : State) : State :=
  if off = 0x008 then (if a.unlocked && a.b BOOT_CTRL_DRESTART then damaskStart s else s)
  else if off = 0x040 then hbootWrite a s
  else if 0x080 ≤ off ∧ off < 0x100 then bootBlockWrite off a s
  else plainWrite pBOOT off a s

/-! ## Watchdogs (R399, R400) -/

/-- Stage 2 of watchdog `r`: what ACT says. -/
def wdtAct (r : Nat) (s : State) : State :=
  let h := roleHalf r
  match s.g pWDT (wdtCfg WDT_CFG_ACT r) with
  | 0 => s
  | 1 => if halfRuns h.other s then halfBoot h (runSlot h s) s else moduleReset causeWdt false s
  | _ => moduleReset causeWdt false s

/-- The interval of watchdog `r` closes without a kick: the next stage, and what it does. -/
def wdtExpire (r : Nat) (s : State) : State :=
  match s.g pWDT (stageFld r) with
  | 0 => wdtStage1 r s
  | 1 => wdtAct r (s.put pWDT (stageFld r) 2)
  | _ => s

/-- A kick that comes at the close of the interval, or later, finds that interval closed (R7, R398). -/
def wdtOverdue (r : Nat) (s : State) : State :=
  if (s.wdt r).running && (s.wdt r).close ≤ s.mtb then wdtExpire r s else s

/-- A write of WDT_KICKr. -/
def wdtKick (r : Nat) (a : Access) (s : State) : State :=
  if !(s.wdt r).running then s
  else if a.val = 0x4B43 && holdsRole a.req.eng r s then
    let s := wdtOverdue r (wdtOverdue r s)
    if (s.wdt r).running then wdtOpen r s else s
  else raise pWDT WDT_IRQ_RAW_BADKICK s

def wdtWrite (off : Nat) (a : Access) (s : State) : State :=
  if 0x040 ≤ off ∧ off < 0x050 then wdtSync (plainWrite pWDT off a s)
  else if 0x050 ≤ off ∧ off < 0x060 then wdtKick ((off - 0x050) / 4) a s
  else plainWrite pWDT off a s

/-- WATCHDOG_EXPIRY: the interval of watchdog `r` closes without a kick. -/
def execWatchdogExpiry (r : Fin 4) (s : State) : Host.Outcome State Fault Refusal :=
  ok s (if !damaskOn s || !(s.wdt r.val).running || s.g pWDT (stageFld r.val) = 2 then s
  else wdtExpire r.val (s.untilMtb (s.wdt r.val).close))

/-- MUSLIN_WATCHDOG_EXPIRY: the fixed watchdog of Muslin's sequencers. -/
def execMuslinWatchdogExpiry (s : State) : Host.Outcome State Fault Refusal :=
  ok s (moduleReset causeWdt false s)

/-! ## Crystals (R395, R396) -/

/-- DAMASK_CRYSTAL_LOSS: every scan becomes dead and the engines halt. -/
def execDamaskCrystalLoss (s : State) : Host.Outcome State Fault Refusal :=
  ok s (if !damaskOn s then s
  else
    let s := raiseFault 10 false 0 0 (forAll allTasks killScan s)
    let s := forAll allEngines (fun e s => setMode e .halted s) s
    { s with power := { s.power with noClock := true } })

/-- METER_CRYSTAL_LOSS: `xs` are the samples up to the last good one, at which the cycles in progress are closed. -/
def execMeterCrystalLoss (xs : List MeterTick) (s : State) : Host.Outcome State Fault Refusal :=
  ok s (if s.meter.xtalLost || !muslinRuns s then s
  else
    let s := stopSampling (feedMeter xs s)
    let s := s.setMeter { s.meter with xtalLost := true }
    forAll allChans hartStop (muslinFault pMSYS 10 false 0 s))

/-- METER_CRYSTAL_RETURN: Muslin returns to the crystal at the next field-tick boundary. -/
def execMeterCrystalReturn (s : State) : Host.Outcome State Fault Refusal :=
  ok s (if !s.meter.xtalLost || !muslinRuns s then s
  else
    let s := s.untilReplica (100000 * (s.field.tick + 1))
    let s := otherEvent pMSYS 0 [] (s.setMeter { s.meter with xtalLost := false })
    if s.bit pMTV MTV_CTRL_EN && !s.bit pMTV MTV_STAT_RUN then startSampling s else s)

end Sys2Proof.Machine
end

