-- ==== Sys2Proof/Machine/RegBus.lean ====
section
/-! DEFINITION. The register bus: a read or a write of any register of any page, with the block's own behaviour, and the
access of a requester under the domain checks (R3, R10, R47 to R57, R68 to R78, R116, R117, R145, R150, R155). -/

namespace Sys2Proof.Machine

open Reg

/-! ## Registers that the S variant lacks (R3) -/

/-- Rows of registers of which the S variant lacks the elements from `first` to `count`. -/
structure AbsentRow where
  page : Nat
  base : Nat
  stride : Nat
  first : Nat
  count : Nat
  deriving DecidableEq, Repr

def absentRows : List AbsentRow :=
  [⟨pHRT, 0x100, 0x20, 16, 32⟩, ⟨pMTR, 0x080, 4, 12, 24⟩, ⟨pMTR, 0x100, 0x80, 4, 8⟩, ⟨pMTC, 0x040, 16, 12, 24⟩,
   ⟨pMTC, 0x240, 16, 4, 8⟩, ⟨pMTV, 0x040, 4, 12, 24⟩, ⟨pMTV, 0x0C0, 4, 4, 8⟩, ⟨pMTE, 0x040, 4, 4, 8⟩,
   ⟨pMTE, 0x100, 0x40, 4, 8⟩, ⟨pMTE, 0x300, 0x20, 4, 8⟩]

/-- The register belongs to a channel or feeder that the variant lacks: it reads as zero. -/
def regAbsent (p off : Nat) (s : State) : Bool :=
  s.fused.variantS && (((p == pAIOC + 2 || p == pAIOC + 3) && 0x040 ≤ off) ||
    absentRows.any fun r => p == r.page && r.base + r.stride * r.first ≤ off && off < r.base + r.stride * r.count)

/-! ## SYS, MSYS -/

/-- SYS_WHOAMI. -/
def whoAmI (r : Requester) : Word :=
  word (r.dom.toNat * 512 + (if r.sup then 256 else 0) + r.eng.val / 32 * 64 + r.eng.val)

def sysRead (r : Requester) (p off : Nat) (s : State) : Word × State :=
  if off = 0x040 then (hwType s, s)
  else if off = 0x044 then (s.fused.uid.extractLsb' 0 32, s)
  else if off = 0x048 then (s.fused.uid.extractLsb' 32 32, s)
  else if p = pSYS ∧ off = 0x050 then (whoAmI r, s)
  else plainRead p off s

/-- MODRST starts a module reset. -/
def sysWrite (p off : Nat) (a : Access) (s : State) : State :=
  if off = 0x008 then (if a.unlocked && a.b SYS_CTRL_MODRST then moduleReset causeSw false s else s)
  else plainWrite p off a s

/-! ## MTB (R45, R46) -/

def latchOf (e : EngNo) (s : State) : Word := tget (fun _ => 0) s.mtbHi e.val

def mtbRead (r : Requester) (off : Nat) (s : State) : Word × State :=
  if off = 0x040 then
    (word s.mtb, { s with mtbHi := tset (fun _ => 0) s.mtbHi r.eng.val (word (s.mtb / 2 ^ 32)) })
  else if off = 0x044 then (latchOf r.eng s, s)
  else plainRead pMTB off s

/-- EN of compare unit `n`. -/
def cmpEn (n : Nat) : Fld := ⟨0x058, n, 1⟩
def cmpValue (n : Nat) (s : State) : Nat := tget (fun _ => 0) s.cmp n

/-- A write of a compare value: dropped while the unit is armed; a write of LO commits HI with it. -/
def mtbWrite (off : Nat) (a : Access) (s : State) : State :=
  if 0x048 ≤ off ∧ off < 0x058 then
    let n := (off - 0x048) / 8
    if s.bit pMTB (cmpEn n) || !a.req.sup then s
    else
      let s := plainWrite pMTB off a s
      if off % 8 = 0 then
        { s with cmp := tset (fun _ => 0) s.cmp n ((s.reg pMTB off).toNat + 2 ^ 32 * (s.reg pMTB (off + 4)).toNat) }
      else s
  else plainWrite pMTB off a s

/-! ## FAB (R69, R76, R78) -/

/-- A read of FAB_GRANTCNT moves the running total into FAB_GRANTTOT. -/
def fabRead (off : Nat) (s : State) : Word × State :=
  if off = 0x048 then
    (s.reg pFAB 0x048, { (s.setReg pFAB 0x048 0).setReg pFAB 0x04C (word s.grants) with grants := 0 })
  else plainRead pFAB off s

/-- A write of the mode: waiting requests and the ports keep their places, every deficit is cleared (R78). -/
def clearDeficits (s : State) : State :=
  let kept := (s.fabric.arbiters.map fun x => (x.1, { x.2 with deficit := 0 })).filter fun x => x.2.port != 0
  { s with fabric := { s.fabric with arbiters := kept } }

/-- A new mode is in force at once: within 8 fabric clocks (R78). -/
def fabWrite (off : Nat) (a : Access) (s : State) : State :=
  if off = 0x008 then
    let s := plainWrite pFAB off a s
    if a.unlocked then clearDeficits (s.putBit pFAB FAB_STAT_FAIRMODE (s.bit pFAB FAB_CTRL_FAIRMODE)) else s
  else if off = 0x040 then supvWrite a s
  else if off = 0x044 then
    { ((plainWrite pFAB off a s).setReg pFAB 0x048 0).setReg pFAB 0x04C 0 with grants := 0 }
  else plainWrite pFAB off a s

/-! ## ENG (R64, R79) -/

/-- A write of ENG_CTRL: EXCL cleared clears HUNG of its lane, ICINV empties the caches of the cluster. -/
def engWrite (p off : Nat) (a : Access) (s : State) : State :=
  if off = 0x008 then
    let s := plainWrite p off { a with val := a.val &&& 0xFF } s
    let s := s.setReg p 0x00C (s.reg p 0x00C &&& (0xFFFFFF00 ||| (s.reg p 0x008 &&& 0xFF)))
    if a.b ENG_CTRL_ICINV then
      let lo := 8 * (p - pENG)
      { s with icache := tclear (fun e => lo ≤ e && e < lo + 8) s.icache }
    else s
  else plainWrite p off a s

/-! ## SCH, TSK (R112, R116, R117, R144) -/

/-- The running half of each task, taken from its entry when EN is first set. -/
def placeTasks (s : State) : State :=
  forAll allTasks (fun t s =>
    if (s.task t).placed then s
    else setWest t ((s.rw (taskEntryAddr t s)).getLsbD 7) (s.setTask t { s.task t with placed := true })) s

/-- Tasks that the active profile enables. -/
def profileEnables (t : TaskNo) (s : State) : Bool :=
  profileValid (activeProfile s) s && profilePeriod (activeProfile s) t s != 0

/-- EN has been set: every task that the profile enables waits for its validation. -/
def schedulerOn (s : State) : State :=
  let s := placeTasks (s.put pSCH SCH_STAT_EN 1)
  let s := forAll allTasks (fun t s => s.setTask t { s.task t with chosen := profileEnables t s }) s
  { s with sched := { s.sched with toValidate := allTasks.filter fun t => profileEnables t s } }

/-- EN has been cleared: releases stop and every scan becomes dead. -/
def schedulerOff (s : State) : State :=
  let s := s.put pSCH SCH_STAT_EN 0
  let s := { s with sched := { s.sched with toValidate := [] } }
  forAll allTasks (fun t s =>
    let s := killScan t s
    let s := s.setTask t { s.task t with heldRel := none, chosen := false }
    if taskEnabled t s then setEnabled t false s else s) s

def schWrite (off : Nat) (a : Access) (s : State) : State :=
  if off = 0x008 then
    let was := s.bit pSCH SCH_CTRL_EN
    let s := plainWrite pSCH off a s
    let now := s.bit pSCH SCH_CTRL_EN
    if now && !was then schedulerOn s else if was && !now then schedulerOff s else s
  else if off = 0x040 then (if s.bit pSCH SCH_CTRL_EN then s else plainWrite pSCH off a s)
  else plainWrite pSCH off a s

/-- The base tick in progress. -/
def nowTick (s : State) : Nat := s.mtb / 25000

def schRead (off : Nat) (s : State) : Word × State :=
  if off = 0x044 then (word (nowTick s), s.put pSCH SCH_BTICK_HI_BTICK (nowTick s / 2 ^ 32)) else plainRead pSCH off s

def tskSelected (s : State) : TaskNo := ⟨s.g pTSK TSK_SEL_TASK % 64, Nat.mod_lt _ (by decide)⟩
def isTskReg (off : Nat) : Bool := 0x044 ≤ off && off < 0x068

/-- The base tick of a task's next release; 0 when it is not enabled. -/
def nextRelease (t : TaskNo) (s : State) : Nat :=
  match (s.task t).entry with
  | some e => if taskEnabled t s then (dueAfter t e (nowTick s) s).getD 0 else 0
  | none => 0

def tskRead (off : Nat) (s : State) : Word × State :=
  let t := tskSelected s
  let p := tskPage t
  if off = 0x044 then
    let w := s.reg p off
    let n := activeProfile s
    (setBit (setBit w 6 (carriesPrfchg t n s)) 5 (carriesMigrated t s), s)
  else if off = 0x048 then (word (nextRelease t s), s.put p TSK_NEXT_HI_BTICK (nextRelease t s / 2 ^ 32))
  else if isTskReg off then plainRead p off s
  else plainRead pTSK off s

/-! ## IMG (R145) -/

/-- The tasks that a write of one region entry concerns: the old one and the new one. -/
def rgnConcerns (old new : BitVec 16) (s : State) : Bool :=
  let tsk := fun (w : BitVec 16) =>
    if w.getLsbD 10 then some (⟨(w.extractLsb' 0 6).toNat, BitVec.isLt _⟩ : TaskNo) else none
  old != new && (taskBusy (tsk old) s || taskBusy (tsk new) s)

def rgnWrite (off : Nat) (a : Access) (s : State) : State :=
  if !a.req.sup then s
  else
    let old := s.reg pIMG off
    let t := plainWrite pIMG off a s
    let new := t.reg pIMG off
    if rgnConcerns (old.extractLsb' 0 16) (new.extractLsb' 0 16) s
        || rgnConcerns (old.extractLsb' 16 16) (new.extractLsb' 16 16) s || 16 < retainCount t then
      raise pIMG IMG_IRQ_RAW_RGNERR s
    else syncRetain t

/-- A write of IMG_CLR: GO clears both images of the region, or is refused. -/
def clrWrite (a : Access) (s : State) : State :=
  if a.b IMG_CLR_GO then
    let k := a.f IMG_CLR_REGION
    if taskBusy (rgnTask k s) s then raise pIMG IMG_IRQ_RAW_RGNERR s
    else clearRegion k (s.put pIMG IMG_CLR_REGION k)
  else s.put pIMG IMG_CLR_REGION (a.f IMG_CLR_REGION)

def imgWrite (off : Nat) (a : Access) (s : State) : State :=
  if off = 0x040 then clrWrite a s
  else if 0x800 ≤ off then rgnWrite off a s
  else plainWrite pIMG off a s

/-! ## DOM (R150, R155) -/

def pidx (s : State) : Nat := s.g pDOM DOM_PIDX_WORD
def pidxStep (s : State) : State := s.put pDOM DOM_PIDX_WORD (pidx s + 1)

/-- The four points that DOM_PDATA shows. -/
def pdataWord (s : State) : Word :=
  pointTag (4 * pidx s + 3) s ++ pointTag (4 * pidx s + 2) s ++ pointTag (4 * pidx s + 1) s ++ pointTag (4 * pidx s) s

def domRead (off : Nat) (s : State) : Word × State :=
  if off = 0x044 then (pdataWord s, pidxStep s) else plainRead pDOM off s

/-- The bits of a DOM_PGOWN word that can be written. -/
def pgownMask (off : Nat) : Word :=
  let base := if off < 0x120 then 8 * ((off - 0x100) / 4) else 64 + 8 * ((off - 0x120) / 4)
  (List.range 8).foldl (fun m i =>
    let p := base + i
    if (p < 36 || (64 ≤ p && p < 85)) && !fixedOwner p then m ||| word (15 * 2 ^ (4 * i)) else m) 0

def domWrite (off : Nat) (a : Access) (s : State) : State :=
  if off = 0x044 then
    let s := if a.req.sup then
        forAll (List.range 4) (fun i s => setPointTag (4 * pidx s + i) (a.val.extractLsb' (8 * i) 8) s) s
      else s
    pidxStep s
  else if 0x100 ≤ off ∧ off < 0x12C then
    (if a.req.sup && (rowOf pDOM off).isSome then s.setReg pDOM off (a.val &&& pgownMask off) else s)
  else plainWrite pDOM off a s

/-! ## QMG (R411) -/

/-- An advance of PROD of ring A hands the new entries over: HART requests go out at once; the other blocks take theirs
when they are free. -/
def produced (off : Nat) (s : State) : State := if off = 0x484 ∨ off = 0x490 then hartPump s else s

/-! ## Every page -/

def blockRead (r : Requester) (p off : Nat) (s : State) : Word × State :=
  if p = pSYS ∨ p = pMSYS then sysRead r p off s
  else if p = pMTB then mtbRead r off s
  else if p = pFAB then fabRead off s
  else if p = pSCH then schRead off s
  else if p = pTSK then tskRead off s
  else if p = pDOM then domRead off s
  else if p = pINT then intRead off s
  else if p = pCRY then cryRead off s
  else if p = pFBT then fbtRead off s
  else if p = pRIO then rioRead off s
  else if p = pETH then ethRead off s
  else if p = pSVC then svcRead off s
  else if p = pCHR then chrRead off s
  else if p = pKEY then keyRead off s
  else if p = pMTE then mteRead off s
  else if p = pDIO then dioRead off s
  else plainRead p off s

def damaskWrite (p off : Nat) (a : Access) (s : State) : State :=
  if p = pSYS then sysWrite p off a s
  else if p = pFAB then fabWrite off a s
  else if p = pMTB then mtbWrite off a s
  else if p = pSCH then schWrite off a s
  else if p = pIMG then imgWrite off a s
  else if p = pDOM then domWrite off a s
  else if p = pINT then intWrite off a s
  else if p = pWDT then wdtWrite off a s
  else if p = pBOOT then bootWrite off a s
  else if p = pPRF then prfWrite off a s
  else if p = pXFL then xflWrite off a s
  else if p = pCRY then cryWrite off a s
  else if p = pDDL then ddlWrite .damask off a s
  else if pENG ≤ p ∧ p < pENG + 8 then engWrite p off a s
  else if p = pFB then fbWrite 0 off a s
  else if p = pFB + 1 then fbWrite 1 off a s
  else if p = pFBT then fbtWrite off a s
  else if p = pRIO then rioWrite off a s
  else if p = pETH then ethWrite off a s
  else if p = pESW then eswWrite off a s
  else if p = pSER then serWrite 0 off a s
  else if p = pSER + 1 then serWrite 1 off a s
  else if p = pSER + 2 then serWrite 2 off a s
  else if p = pSER + 3 then serWrite 3 off a s
  else if p = pSVC then svcWrite off a s
  else if p = pQMG then produced off (qmgWrite off a s)
  else plainWrite p off a s

/-- The modems of the channels of page `p` show their conditions (R238). -/
def syncModems (p : Nat) (s : State) : State :=
  forAll (allChans.filter fun n => aioPage n == p && chanPresent n s) syncHart s

def muslinWrite (p off : Nat) (a : Access) (s : State) : State :=
  if p = pMSYS then sysWrite p off a s
  else if p = pDDLM then ddlWrite .muslin off a s
  else if p = pCHR then chrWrite off a s
  else if p = pPMU then pmuWrite off a s
  else if p = pNVM then nvmWrite off a s
  else if p = pNCT then nctWrite off a s
  else if p = pEVR then evrWrite off a s
  else if p = pKEY then keyWrite off a s
  else if p = pAIO then aioWrite off a s
  else if pAIOC ≤ p ∧ p < pAIOC + 4 then syncModems p (aioChanWrite p off a s)
  else if p = pHRT then hrtWrite off a s
  else if p = pMTR then mtrWrite off a s
  else if p = pMTC then mtcWrite off a s
  else if p = pMTV then mtvWrite off a s
  else if p = pMTE then mteWrite off a s
  else if p = pPLS then plsWrite off a s
  else if p = pDIO then dioWrite off a s
  else if p = pOHM then ohmWrite off a s
  else plainWrite p off a s

/-- A read of a register, its side effects with it. -/
def regRead (r : Requester) (p off : Nat) (s : State) : Word × State :=
  match commonRead p off s with
  | some w => (w, s)
  | none => if regAbsent p off s then (0, s) else blockRead r p off s

/-- The event 0x0100 + b of page `p` has been raised in this clock. -/
def eventNow (p b : Nat) (s : State) : Bool :=
  let sent := ((s.muslin.unacked.map fun u => u.pkt) ++ s.muslin.waiting).filter fun q => q.type == tEvent
  let src := if isMuslinPage p then byte (128 + (p - 64)) else byte p
  let at_ := if isMuslinPage p then s.replica else s.mtb
  (s.ev.waiting ++ s.ev.mbuf ++ sent.map packetEvent).any fun e =>
    e.source == src && e.code == BitVec.ofNat 16 (0x0100 + b) && e.stamp == at_

/-- A hardware setting that meets the clearing of its flag in one clock raises its event, whatever the flag held (R404); FLT's
flags raise fault events alone. -/
def tieEvents (p off : Nat) (v tie : Word) (s : State) : State :=
  if tie = 0 ∨ off ≠ irqRawOff ∨ p = pFLT then s
  else forAll (List.range 32) (fun b s =>
    if (v &&& tie &&& flagBits p off &&& s.reg p irqRawOff).getLsbD b && !eventNow p b s then
      pageEvent p 0 (BitVec.ofNat 16 (0x0100 + b)) [] s
    else s) s

/-- A write of a register: the lock's step, then the common registers or the block. `tie` holds the bits of its W1C and W1S
fields that a hardware update reaches in the same clock: there the hardware wins (R12). -/
def regWrite (r : Requester) (p off : Nat) (v : Word) (s : State) (tie : Word := 0) : State :=
  let x := lockStep p off r v (tieEvents p off v tie s) tie
  match commonWrite p off x.1 x.2 with
  | some t => t
  | none =>
    if regAbsent p off s && p != pHRT && p != pMTV then x.2
    else if isMuslinPage p then syncLevels (muslinWrite p off x.1 x.2)
    else damaskWrite p off x.1 x.2

/-! ## Access of a requester -/

/-- A page that exists: Damask 0 to 35, Muslin 64 to 84. -/
def pageExists (p : Nat) : Bool := p < 36 || isMuslinPage p

/-- The die of the page runs. -/
def pageRuns (p : Nat) (s : State) : Bool := pageExists p && (if isMuslinPage p then muslinRuns s else damaskOn s)

/-- A read by a requester: refused by the owner check, or the register's value. -/
def pageLoad (r : Requester) (p off : Nat) (s : State) : Word × State :=
  if pageRefuses r p false s then (0, collect r.eng (pageAddr p off) vkPage s) else regRead r p off s

/-- A write by a requester: refused by the owner check, or the register's own effect; an RWS field named in task mode is a
violation beside it. `tie` holds the bits that a hardware update reaches in the same clock. -/
def pageStore (r : Requester) (p off : Nat) (v : Word) (s : State) (tie : Word := 0) : State :=
  if pageRefuses r p true s then collect r.eng (pageAddr p off) vkPage s
  else
    let s := regWrite r p off v s tie
    if !r.sup && holdsRws p off then collect r.eng (pageAddr p off) vkRws s else s

/-- Page and offset of an address of the two register areas, aligned to a word. -/
def pageAt (a : Nat) : Option (Nat × Nat) :=
  if a % 4 ≠ 0 then none
  else if 0x40000000 ≤ a ∧ a < 0x40024000 then some ((a - 0x40000000) / 4096, a % 4096)
  else if 0x50000000 ≤ a ∧ a < 0x50015000 then some (64 + (a - 0x50000000) / 4096, a % 4096)
  else none

/-- An access to the page arrives there: its die runs, and over a link that is UP (R57). -/
def pageReached (p : Nat) (s : State) : Bool := pageRuns p s && (!isMuslinPage p || (damaskOn s && s.linkUp .damask))

/-- A request for a Muslin page that the link arbiter completes with an access error, past the owner check. OWNER is served
by the arbiter alone (R57, R153). -/
def linkError (p off : Nat) (s : State) : Bool :=
  isMuslinPage p && off != 0x024 && damaskOn s && !s.linkUp .damask

/-- The access arrives; OWNER of a Muslin page needs the link arbiter alone (R153). A requester is an engine or a writer of
Damask: with Damask without power there is none. -/
def pageServed (p off : Nat) (s : State) : Bool := pageReached p s || (isMuslinPage p && off == 0x024 && damaskOn s)

/-- A write command on a page: nothing while the page's die has no power or is held. -/
def writeCmd (r : Requester) (p off : Nat) (v : Word) (s : State) (tie : Word := 0) : State :=
  if linkError p off s then
    (if pageRefuses r p true s then collect r.eng (pageAddr p off) vkPage s else arbiterError r (pageAddr p off) s)
  else if pageServed p off s then pageStore r p off v s tie
  else s

/-- A write command that changes one field and writes the others back as they are. -/
def fieldCmd (r : Requester) (p : Nat) (f : Fld) (v : Nat) (s : State) : State :=
  writeCmd r p f.off (f.ins (s.reg p f.off) v) s

/-- A read command on a page: its value is the reader's answer. -/
def readCmd (r : Requester) (p off : Nat) (s : State) : State :=
  if linkError p off s then
    let s := if pageRefuses r p false s then collect r.eng (pageAddr p off) vkPage s else arbiterError r (pageAddr p off) s
    { s with answer := 0 }
  else if pageServed p off s then
    let x := pageLoad r p off s
    { x.2 with answer := x.1 }
  else s

end Sys2Proof.Machine
end

