-- ==== Sys2Proof/Machine/LinkRx.lean ====
section
/-! DEFINITION. The receiving side of the link: acceptance, acknowledgement, replay, credits, heartbeats, and what each
type of packet does when it is accepted (R20 to R38, R42, R57, R350, R376, R380, R412). -/

namespace Sys2Proof.Machine

open Reg

/-! ## Acceptance (R20 to R27) -/

/-- The number of the last packet accepted. -/
def lastSeq (d : Die) (s : State) : BitVec 7 := (s.link d).rxSeq - 1

/-- An ACK for everything accepted so far. -/
def sendAck (d : Die) (s : State) : State :=
  sendCtrl d tAck (lastSeq d s) [] (s.setLink d { s.link d with accepted := 0 })

/-- The packet at the head of the other die's lanes has reached die `d`. -/
def takeLane (d : Die) (s : State) : State :=
  s.setLink d.other { s.link d.other with lanes := (s.link d.other).lanes.tail }

/-- A packet discarded for its CRC or length: counted, flagged, and a masked link fault (R20, R392). -/
def corrupted (d : Die) (s : State) : State :=
  let s := raise (ddlPage d) DDL_IRQ_RAW_CRCERR (s.bump (ddlPage d) DDL_ERRCNT_CRCCNT)
  match d with
  | .damask => raiseFault 6 true 0 0 s
  | .muslin => muslinFault pDDLM 6 true 0 s

/-- The credit of an accepted packet goes back to its sender; responses use none. -/
def returnCredit (d : Die) (p : Packet) (s : State) : State :=
  if p.isResponse then s else sendCtrl d tCredit 0 [word (2 ^ (8 * p.vc))] s

/-- The packet carries the expected number. -/
def acceptPacket (d : Die) (p : Packet) (s : State) : State :=
  let l := s.link d
  let s := s.setLink d { l with
    rxSeq := l.rxSeq + 1, nakSent := false, accepted := l.accepted + 1
    acceptedAt := if l.accepted = 0 then s.now d else l.acceptedAt }
  let s := returnCredit d p s
  if 8 ≤ (s.link d).accepted then sendAck d s else s

/-- A sequenced packet: accepted and acted on; a duplicate acknowledged again; otherwise out of order. -/
def sequence (d : Die) (p : Packet) (act : State → State) (s : State) : State :=
  let l := s.link d
  let behind := (l.rxSeq - p.seq).toNat
  if behind = 0 then act (acceptPacket d p s)
  else if behind ≤ 32 then sendAck d s
  else if l.nakSent then s
  else sendCtrl d tNak l.rxSeq [] (s.setLink d { l with nakSent := true })

/-- A packet that reaches die `d`, when it is one of the type that the command names. A corrupted one is discarded
whatever its type. -/
def receive (d : Die) (p : Packet) (fits : Packet → Bool) (act : State → State) (s : State) : State :=
  if p.crcGood && !fits p then s
  else
    let s := takeLane d s
    if !s.linkUp d then s
    else if (s.link d).lastValid + 10000 ≤ s.now d then toDown d (untilNow d ((s.link d).lastValid + 10000) s)
    else if !p.crcGood then corrupted d s
    else if !p.wellFormed then s
    else
      let s := s.setLink d { s.link d with lastValid := s.now d }
      if p.sequenced then sequence d p act s else act s

def isType (t : Nat) (p : Packet) : Bool := p.type == t

/-! ## Acknowledgement, replay, credits (R24 to R27) -/

/-- Everything up to the packet with number `n` is acknowledged, when that packet is held. -/
def acknowledged (n : BitVec 7) : List Sent → List Sent
  | l => if l.any fun x => x.pkt.seq == n then (l.dropWhile fun x => x.pkt.seq != n).tail else l

/-- The held packets from number `n` on are sent again, or the link goes down at the replay that would be the 17th. -/
def replayFrom (d : Die) (keep again : List Sent) (s : State) : State :=
  if again = [] then s
  else if again.any fun x => 16 ≤ x.replays then toDown d s
  else
    let now := s.now d
    let l := s.link d
    let s := s.setLink d { l with
      unacked := keep ++ again.map fun x => { x with since := now, replays := x.replays + 1 }
      lanes := l.lanes ++ again.map fun x => x.pkt }
    let s := raise (ddlPage d) DDL_IRQ_RAW_REPLAY (s.bump (ddlPage d) DDL_ERRCNT_REPLAYCNT again.length)
    s

/-- ACK received by die `d`. -/
def execAck (d : Die) (p : Packet) (s : State) : Host.Outcome State Fault Refusal :=
  ok s (receive d p (isType tAck) (fun s =>
    pump d (s.setLink d { s.link d with unacked := acknowledged p.seq (s.link d).unacked })) s)

/-- NAK received by die `d`. -/
def execNak (d : Die) (p : Packet) (s : State) : Host.Outcome State Fault Refusal :=
  ok s (receive d p (isType tNak) (fun s =>
    let l := (s.link d).unacked
    replayFrom d (l.takeWhile fun x => x.pkt.seq != p.seq) (l.dropWhile fun x => x.pkt.seq != p.seq) s) s)

/-- Credits added to what die `d` holds. -/
def addCredits (d : Die) (w : Word) (s : State) : State :=
  forAll (List.range 4) (fun i s => s.bump (ddlPage d) (creditFld i) (w.extractLsb' (8 * i) 8).toNat) s

/-- CREDIT received by die `d`. -/
def execCredit (d : Die) (p : Packet) (s : State) : Host.Outcome State Fault Refusal :=
  ok s (receive d p (isType tCredit) (fun s => pump d (addCredits d (p.word 0) s)) s)

/-- ACK_TIMEOUT: 1 µs after the first packet accepted and not yet acknowledged. -/
def execAckTimeout (d : Die) (s : State) : Host.Outcome State Fault Refusal :=
  ok s (if s.linkUp d && (s.link d).accepted != 0 then sendAck d (untilNow d ((s.link d).acceptedAt + 100) s) else s)

/-- REPLAY_TIMEOUT: the oldest packet has waited 4 µs. -/
def execReplayTimeout (d : Die) (s : State) : Host.Outcome State Fault Refusal :=
  ok s (match (s.link d).unacked with
    | x :: l => if s.linkUp d then replayFrom d [] (x :: l) (untilNow d (x.since + 400) s) else s
    | [] => s)

/-! ## Heartbeats (R35, R38) -/

/-- HEARTBEAT_SEND: 10 µs after the last one; Damask's carries its MTB. -/
def execHeartbeatSend (d : Die) (s : State) : Host.Outcome State Fault Refusal :=
  ok s (if s.linkUp d then
    let s := untilNow d ((s.link d).hbAt + 1000) s
    let s := s.setLink d { s.link d with hbAt := s.now d }
    match d with
    | .damask => sendCtrl d tHeartbeat 0 [word s.mtb, word (s.mtb / 2 ^ 32)] s
    | .muslin => sendCtrl d tHeartbeat 0 [] s
  else s)

/-- A count moved by `e`, modulo 2^64. -/
def movedBy (n : Nat) (e : Int) : Nat := ((Int.ofNat n + e) % 2 ^ 64).toNat

/-- The replica moves by `e`; what Muslin's end of the link and the locks of its pages have measured on it moves along. -/
def moveReplica (e : Int) (s : State) : State :=
  let l := s.muslin
  { s with
    replica := movedBy s.replica e
    lockAt := (s.lockAt.map fun x => (x.1, if isMuslinPage x.1 then movedBy x.2 e else x.2)).filter fun x => x.2 != 0
    muslin := { l with
      lastValid := movedBy l.lastValid e, since := movedBy l.since e, hbAt := movedBy l.hbAt e
      acceptedAt := movedBy l.acceptedAt e
      unacked := l.unacked.map fun x => { x with since := movedBy x.since e } } }

/-- The rate adjustment toward `e` since the last heartbeat: at most 500 ppm; how much of it is taken is a free value. -/
def slewReplica (e : Int) (s : State) : State :=
  let acc := s.rep.acc + (s.replica - s.rep.at_)
  let most := min (acc / 2000) e.natAbs
  let n := (Config.freeWord s.freed).toNat % (most + 1)
  let s := { s with freed := s.freed + 1 }
  let s := moveReplica (if e < 0 then -(Int.ofNat n) else Int.ofNat n) s
  { s with rep := { s.rep with at_ := s.replica, acc := min 1999 (acc - 2000 * n) } }

/-- Muslin's work on a heartbeat of Damask: the error, the step or the slew, MTBSYNC. -/
def followMtb (stamp : Nat) (s : State) : State :=
  let e := Int.ofNat (stamp + s.g pDDLM DDL_M_DELAY_DELAY) - Int.ofNat s.replica
  let s := s.setReg pDDLM 0x058 (BitVec.ofInt 32 e)
  let n := if e.natAbs ≤ 2 then min 8 (s.rep.synced + 1) else 0
  let s := { s with rep := { s.rep with synced := n } }
  let s := s.putBit pDDLM DDL_STAT_MTBSYNC (n == 8)
  if 100 < e.natAbs then
    let s := moveReplica e s
    raise pDDLM DDL_IRQ_RAW_MTBSTEP { s with rep := { s.rep with at_ := s.replica, acc := 0 } }
  else slewReplica e s

/-- HEARTBEAT received by die `d`. -/
def execHeartbeat (d : Die) (p : Packet) (s : State) : Host.Outcome State Fault Refusal :=
  ok s (receive d p (isType tHeartbeat) (fun s =>
    match d with
    | .muslin => if p.len = 2 then followMtb ((p.word 0).toNat + 2 ^ 32 * (p.word 1).toNat) s else s
    | .damask => s) s)

/-! ## Register requests and responses (R57) -/

/-- The requester that a packet names; engines are not distinguished on Muslin. -/
def packetRequester (p : Packet) : Requester := ⟨0, p.sup, p.dom⟩

/-- The running operation erases the sector of an offset. -/
def erasing (off : Nat) (s : State) : Bool :=
  s.flash.running.any fun r => r.steps.any fun st => match st with
    | .erase k => k == off / sectorSize
    | .program _ _ => false

/-- A word of the flash window: zero in the key vault (R307), none for a granule with a double-bit error (R308). A read of the
sector being erased waits until the erase ends (R310). -/
def flashRead (off : Nat) (s : State) : Option Word × State :=
  let s := if erasing off s then flashDone s else s
  let gs := granules off 4
  if 0x190000 ≤ off ∧ off < 0x1A0000 then (some 0, s)
  else (if readable off 4 s then some (s.rw (flashBase + off)) else none, eccReport gs s)

/-- A read of Muslin's address window: the value, none for an access error. -/
def remoteRead (r : Requester) (a : Nat) (s : State) : Option Word × State :=
  if a < 0x15000 then
    let x := regRead r (64 + a / 4096) (a % 4096) s
    (some x.1, x.2)
  else if 0x8000000 ≤ a ∧ a < 0x8200000 then flashRead (a - 0x8000000) s
  else (none, s)

/-- RD_REQ received by Muslin. -/
def execRdReq (p : Packet) (s : State) : Host.Outcome State Fault Refusal :=
  ok s (receive .muslin p (isType tRdReq) (fun s =>
    let x := remoteRead (packetRequester p) ((p.word 0).toNat / 4 * 4) s
    sendPacket .muslin (mkPacket tRdRsp x.1.isNone p.dom p.tag 0 [x.1.getD 0]) x.2) s)

/-- WR_REQ received by Muslin; `tie` holds the bits of the register's W1C and W1S fields that a hardware update reaches in the
same clock (R12). -/
def execWrReq (p : Packet) (s : State) (tie : Word := 0) : Host.Outcome State Fault Refusal :=
  ok s (receive .muslin p (isType tWrReq) (fun s =>
    let a := (p.word 0).toNat / 4 * 4
    if a < 0x15000 then
      let s := s.setReg pDDLM 0x04C (word (p.tag * 2 ^ 25 + a % 4096))
      let s := s.setReg pDDLM 0x050 (word (a / 4096))
      sendPacket .muslin (mkPacket tWrRsp false p.dom p.tag 0 []) (regWrite (packetRequester p) (64 + a / 4096) (a % 4096) (p.word 1) s tie)
    else sendPacket .muslin (mkPacket tWrRsp true p.dom p.tag 0 []) s) s)

/-- RD_RSP received by Damask. -/
def execRdRsp (p : Packet) (s : State) : Host.Outcome State Fault Refusal :=
  ok s (receive .damask p (isType tRdRsp) (completeTxn p.tag (p.word 0) p.sup) s)

/-- WR_RSP received by Damask. -/
def execWrRsp (p : Packet) (s : State) : Host.Outcome State Fault Refusal :=
  ok s (receive .damask p (isType tWrRsp) (completeTxn p.tag 0 p.sup) s)

/-! ## Events and samples (R32, R33) -/

/-- EVENT_PACKET received by Damask. -/
def execEventPacket (p : Packet) (s : State) : Host.Outcome State Fault Refusal :=
  ok s (receive .damask p (isType tEvent) (fun s =>
    let e := packetEvent p
    if e.code = 0 then { s with ev := { s.ev with levels := (p.word 3).extractLsb' 0 21 } }
    else evsTake { e with ready := s.mtb } s) s)

/-- Bytes of a delivery by KIND. -/
def deliveryLen : Nat → Nat
  | 1 => 512
  | 2 => 144
  | 3 => 192
  | _ => 0

/-- A 32-bit tick number brought up to the tick at or before the present one. -/
def wholeTick (w : Word) (s : State) : Nat :=
  let cur := s.mtb / 100000
  cur - (word cur - w).toNat

def setInputs (x : Inputs) (s : State) : State := { s with inputs := x }

/-- A delivery that has arrived whole waits to be written. -/
def deliveryDone (kind : Nat) (w1 : Word) (bs : List Byte) (s : State) : State :=
  if kind = 3 then
    setInputs { s.inputs with feeders := s.inputs.feeders ++ [((w1.extractLsb' 0 3).toNat, s.mtb, bs)] } s
  else setInputs { s.inputs with locals := s.inputs.locals ++ [⟨kind, wholeTick w1 s, s.mtb, bs⟩] } s

/-- One SAMPLE packet joins its delivery; a gap in the offsets discards the delivery. -/
def samplePart (p : Packet) (s : State) : State :=
  let w0 := p.word 0
  let kind := (w0.extractLsb' 28 4).toNat
  let off := (w0.extractLsb' 0 16).toNat
  let w1 := p.word 1
  let key := if kind = 3 then 3 + (w1.extractLsb' 0 3).toNat else kind
  let rest := s.inputs.parts.filter fun x => x.1 != key
  let s' := setInputs { s.inputs with parts := rest } s
  let held := if off = 0 then some [] else
    (s.inputs.parts.find? fun x => x.1 == key && x.2.1 == w1 && x.2.2.length == off).map fun x => x.2.2
  if kind = 0 ∨ 3 < kind then s
  else match held with
  | none => s'
  | some bs =>
    let bs := bs ++ wordsBytes (p.data.drop 3)
    if w0.getLsbD 26 then
      (if bs.length = deliveryLen kind then deliveryDone kind w1 bs s' else s')
    else setInputs { s'.inputs with parts := rest ++ [(key, w1, bs)] } s'

/-- SAMPLE_PACKET received by Damask. -/
def execSamplePacket (p : Packet) (s : State) : Host.Outcome State Fault Refusal :=
  ok s (receive .damask p (isType tSample) (samplePart p) s)

/-! ## The local input update (R122, R208, R253) -/

/-- The record area of a delivery: base and length. -/
def localArea (kind : Nat) (s : State) : Nat × Nat :=
  if kind = 1 then (s.g pAIO AIO_INBASE_BASE * 16, 512) else (s.g pDIO DIO_INBASE_BASE * 16, 144)

/-- A copy list has an entry that covers a part of the records of one of the deliveries `ks`. -/
def coversLocals (ks : List Nat) (list count : Nat) (s : State) : Bool :=
  (copyList list count s).any fun e => ks.any fun k => overlap e.addr e.len (localArea k s).1 (localArea k s).2

/-- When the delivery would be written alone: 100 µs after the boundary that ends its tick, or on its arrival. -/
def Delivery.alone (x : Delivery) : Nat := max x.at_ (100000 * (x.tick + 1) + 10000)

/-- When the update that writes a delivery becomes ready: with its partner, or alone. -/
def updateAt (x : Delivery) (s : State) : Nat :=
  match s.inputs.locals.find? fun y => y.tick == x.tick && y.kind != x.kind with
  | some y => min (max x.at_ y.at_) (min x.alone y.alone)
  | none => x.alone

/-- The update that is waiting: the tick of the oldest delivery that is ready, and when it became ready. -/
def updateReady (s : State) : Option (Nat × Nat) :=
  (s.inputs.locals.find? fun x => updateAt x s ≤ s.mtb).map fun x => (x.tick, updateAt x s)

/-- The deliveries of tick `f` that have arrived. -/
def updateKinds (f : Nat) (s : State) : List Nat := (s.inputs.locals.filter fun x => x.tick == f).map (·.kind)

/-- When the phase at the head of its copy engine became ready: due, with the engine free. -/
def copyReady (h : Half) (c : CopyPhase) (s : State) : Nat := max c.at_ (s.copyFree h)

/-- A SNAPSHOT holds back the update of tick `f`, ready at `r`: it covers its records and is in progress, or it became ready
no later and so goes first. -/
def holdsUpdate (h : Half) (f r : Nat) (s : State) : Bool :=
  match s.copyQ h with
  | c :: _ => !c.publish && coversLocals (updateKinds f s) c.list.toNat c.count s && (c.started || copyReady h c s ≤ r)
  | [] => false

/-- A SNAPSHOT that is due must wait: an update whose records it covers has become ready before it. -/
def snapshotWaits (h : Half) (c : CopyPhase) (s : State) : Bool :=
  match updateReady s with
  | some (f, r) => coversLocals (updateKinds f s) c.list.toNat c.count s && r < copyReady h c s
  | none => false

/-- The records of tick `f` written into point space in one burst. -/
def writeLocals (f : Nat) (s : State) : State :=
  let mine := s.inputs.locals.filter fun x => x.tick == f
  let s := forAll mine (fun x s => s.wbytes (localArea x.kind s).1 x.bytes) s
  setInputs { s.inputs with locals := s.inputs.locals.filter fun x => x.tick != f } s

def localUpdate (s : State) : State :=
  match updateReady s with
  | some (f, r) => if holdsUpdate .east f r s || holdsUpdate .west f r s then s else writeLocals f s
  | none => s

/-- LOCAL_INPUT_UPDATE. -/
def execLocalInputUpdate (s : State) : Host.Outcome State Fault Refusal :=
  ok s (if damaskOn s then localUpdate s else s)

/-- LONE_DELIVERY_TIMEOUT: 100 µs after the boundary that ends the oldest delivery's tick. -/
def execLoneDeliveryTimeout (s : State) : Host.Outcome State Fault Refusal :=
  ok s (match s.inputs.locals with
    | x :: _ => if damaskOn s then localUpdate (s.untilMtb x.alone) else s
    | [] => s)

/-- The snapshot entry that a copy engine is at touches the area of a write that became ready at count `r`: it is being
copied, or it became ready no later and so goes first (R195, R253). -/
def entryFirst (h : Half) (a n r : Nat) (s : State) : Bool :=
  match s.copyQ h with
  | c :: _ =>
    let e := copyEntry c.list.toNat c.entry s
    !c.publish && decide (c.entry < c.count) && overlap e.addr e.len a n
      && (c.started || (decide (copyReady h c s ≤ r) && !snapshotWaits h c s))
  | [] => false

/-- FEEDER_RECORD_WRITE (R253): a feeder's record written in one burst, after a snapshot entry that goes first. -/
def execFeederRecordWrite (s : State) : Host.Outcome State Fault Refusal :=
  ok s (match s.inputs.feeders with
    | (k, r, bs) :: rest =>
      let a := s.g pMTR MTR_IMGBASE_BASE * 16 + 192 * k
      if damaskOn s && !entryFirst .east a 192 r s && !entryFirst .west a 192 r s then
        (setInputs { s.inputs with feeders := rest } s).wbytes a bs
      else s
    | [] => s)

/-! ## Bulk transfers (R31) -/

/-- The identifiers that a die receives. -/
def xidKnown (d : Die) (x : Nat) : Bool :=
  match d with
  | .muslin => [0x01, 0x02, 0x04, 0x05, 0x07, 0xC1].contains x
  | .damask => [0x03, 0x06, 0x07, 0xC1].contains x

/-- A BULK packet of transfer `x`, or of one that the die does not know. -/
def isBulk (d : Die) (x : Nat) (p : Packet) : Bool := p.type == tBulk && (p.xid == x || !xidKnown d p.xid)

/-- Die `d` has discarded transfer `x`, of which `ws` had come: the sender's client sees an abort, as under R36, and starts
a transfer that it still owes anew. -/
def bulkAborted (d : Die) (x : Nat) (ws : List Word) (s : State) : State :=
  match x with
  | 0x02 => if s.power.leaving then sendBulk .damask 0x02 (retainWords s) s else s
  | 0x03 => s.put pPMU PMU_CTRL_RESTORE 0
  | 0x04 => toRecorder (numberedOf ws) s
  | 0x05 => hartBroken (wordsBytes ws) s
  | 0x06 => hartLose s
  | 0x07 => q31Abort s
  | 0xC1 => match d with
    | .muslin => cryBroken s
    | .damask => vaultBroken s
  | _ => s

/-- An accepted packet joins its transfer; `done` acts on a transfer that is whole. A transfer is broken by a packet out of
its run, and by one that starts it again. -/
def bulkPart (d : Die) (p : Packet) (done : List Word → State → State) (s : State) : State :=
  if !xidKnown d p.xid then s
  else
    let l := s.link d
    let rest := l.bulkIn.filter fun x => x.1 != p.xid
    let open_ := (l.bulkIn.find? fun x => x.1 == p.xid).map fun x => x.2
    let drop := s.setLink d { l with bulkIn := rest }
    match if p.first then some [] else open_ with
    | none => s
    | some ws =>
      if p.offset ≠ ws.length then bulkAborted d p.xid (open_.getD (p.data.drop 1)) drop
      else
        let drop := if p.first && open_.isSome then bulkAborted d p.xid (open_.getD []) drop else drop
        let l := drop.link d
        let ws := ws ++ p.data.drop 1
        if p.last then done ws drop else drop.setLink d { l with bulkIn := rest ++ [(p.xid, ws)] }

/-- A BULK packet of transfer `x` received by die `d`. -/
def receiveBulk (d : Die) (x : Nat) (p : Packet) (done : List Word → State → State) (s : State) : State :=
  receive d p (isBulk d x) (bulkPart d p done) s

/-- A transfer that is whole now is that of the boundary ahead: it began at the cut-off, 2,000 counts before it, by a replica
that may be 1 µs off. One that is whole at the boundary's count or later is late (R8, R132, R209; log 133). -/
def outputInTime (s : State) : Bool :=
  let b := 100000 * (s.field.tick + 1)
  decide (b ≤ s.replica + 2100 ∧ s.replica < b)

/-- A whole local output image, for the next field tick or late. Digital records that had no base at their cut-off are none
(R224, R431; log 133). -/
def takeOutputs (bs : List Byte) (s : State) : State :=
  if outputInTime s then
    let got := s.field.dio.got || (s.field.doBased && s.bit pDIO DIO_CTRL_IMGEN)
    { s with field := { s.field with xfer := some bs, dio := { s.field.dio with got := got } } }
  else s

/-- OUTPUT_IMAGE_TRANSFER: the local output image for the next field tick. -/
def execOutputImageTransfer (p : Packet) (s : State) : Host.Outcome State Fault Refusal :=
  ok s (receiveBulk .muslin 0x01 p (fun ws s => takeOutputs (wordsBytes ws) s) s)

/-- The words of a transfer that a die has received. -/
def bulkWords (d : Die) (x : Nat) (s : State) : List Word := (((s.link d).bulkIn.find? fun y => y.1 == x).map (·.2)).getD []

/-- RETAIN_TRANSFER: the images are programmed as they arrive; Damask, which has nothing left to do, then loses its power
(R376, R382). -/
def execRetainTransfer (p : Packet) (s : State) : Host.Outcome State Fault Refusal :=
  ok s (let t := receiveBulk .muslin 0x02 p (fun ws s =>
    let s := retainStore ws true s
    if s.power.leaving then damaskCut s else s) s
  if t.power.leaving && bulkWords .muslin 0x02 t != bulkWords .muslin 0x02 s then retainStore (bulkWords .muslin 0x02 t) false t
  else t)

/-- RETAIN_RESTORE_TRANSFER. -/
def execRetainRestoreTransfer (p : Packet) (s : State) : Host.Outcome State Fault Refusal :=
  ok s (receiveBulk .damask 0x03 p restoreApply s)

/-- A numbered event accepted by the recorder; one that is discarded sets LOST. -/
def acceptNumbered (ws : List Word) (s : State) : State :=
  let n := numberedOf ws
  let t := recAccept (recordBytes s n.seq n.ev.source (dslByte n.ev.dom n.ev.severity false) n.ev.code n.ev.data) s
  if s.evr.dropped < t.evr.dropped then raise pEVR EVR_IRQ_RAW_LOST t else t

/-- EVENT_RECORD_TRANSFER. -/
def execEventRecordTransfer (p : Packet) (s : State) : Host.Outcome State Fault Refusal :=
  ok s (receiveBulk .muslin 0x04 p acceptNumbered s)

/-- HART_REQUEST. -/
def execHartRequest (p : Packet) (s : State) : Host.Outcome State Fault Refusal :=
  ok s (receiveBulk .muslin 0x05 p (fun ws s => hartTake (wordsBytes ws) s) s)

/-- HART_RESULT_TRANSFER. -/
def execHartResultTransfer (p : Packet) (s : State) : Host.Outcome State Fault Refusal :=
  ok s (receiveBulk .damask 0x06 p (fun ws s => hartResult (wordsBytes ws) s) s)

/-- VAULT_REQUEST: a request of CRY at Muslin, or the payload of an update at Damask. -/
def execVaultRequest (d : Die) (p : Packet) (s : State) : Host.Outcome State Fault Refusal :=
  ok s (receiveBulk d 0xC1 p (fun ws s =>
    match d with
    | .muslin => vaultRequest (wordsBytes ws) s
    | .damask => cryTransport (wordsBytes ws) s) s)

/-- BLOCK_TRANSFER: QMG takes an entry of Q31, or a packet of its transfer reaches a die. -/
def execBlockTransfer (x : Option (Die × Packet)) (s : State) : Host.Outcome State Fault Refusal :=
  ok s (match x with
    | none => if damaskOn s then q31Take s else s
    | some (.muslin, p) => receiveBulk .muslin 0x07 p q31Serve s
    | some (.damask, p) => receiveBulk .damask 0x07 p q31Done s)

/-! ## Sealed transfers (R41, R42) -/

/-- A whole sealed transfer: authenticated and acted on by its kind, or rejected. -/
def sealedWhole (d : Die) (bs : List Byte) (s : State) : State :=
  match openSealed d bs s with
  | none => raiseLog (ddlPage d) DDL_IRQ_RAW_SEALREJ [] s
  | some (kind, slot, n, plain) =>
    let s := s.setLink d { s.link d with sealRx := n }
    match d with
    | .damask => if kind = 1 then cryKey slot plain s else s
    | .muslin => if kind = 2 then vaultAsk (.blob plain slot) s else if kind = 3 then updateReturned plain s else s

/-- The bytes of consecutive SEALED packets up to the length of the transfer. -/
def sealedPart (d : Die) (p : Packet) (s : State) : State :=
  let l := s.link d
  let bs := l.sealIn ++ wordsBytes p.data
  match sealLength bs with
  | some n =>
    if n ≤ bs.length then sealedWhole d (bs.take n) (s.setLink d { l with sealIn := [] })
    else s.setLink d { l with sealIn := bs }
  | none => s.setLink d { l with sealIn := bs }

/-- SEALED_TRANSFER: one SEALED packet received by die `d`. -/
def execSealedTransfer (d : Die) (p : Packet) (s : State) : Host.Outcome State Fault Refusal :=
  ok s (receive d p (isType tSealed) (sealedPart d p) s)

/-! ## REBOOT of the download protocol (R370) -/

/-- REBOOT: CHR_BOOTFAIL is cleared when the link is UP, the answer goes out, and the module is reset. -/
def execDlReboot (x : DlFrame) (s : State) : Host.Outcome State Fault Refusal :=
  let run := fun (b : List Byte) (ss : Session) (s : State) =>
    if b.length ≠ 0 then (6, ss, s)
    else (0, ss, if s.linkUp .damask && s.linkUp .muslin then s.put pCHR CHR_BOOTFAIL_COUNT 0 else s)
  let t := dlRequest 5 x run s
  ok s (match s.boot.session, t.boot.session with
    | some a, some b =>
      if a.lastSeq ≠ b.lastSeq ∧ framePayload x = [] ∧ (dlBytes x).getD 1 0 = 0 then
        let u := moduleReset causeSw false t
        { u with comms := { u.comms with wire := t.comms.wire } }
      else t
    | _, _ => t)

end Sys2Proof.Machine
end

