-- ==== Sys2Proof/Machine/Memory.lean ====
section
/-! DEFINITION. Data accesses of the engines: the checks of R94 in their order, every region of the address space, the
domain rules, the routing of instance space to the twin images, and requests that cross the link (R47, R48, R57, R63 to
R68, R71, R72, R76, R93 to R96, R130, R137, R153, R394). -/

namespace Sys2Proof.Machine

open Reg

/-! ## Regions (R47) -/

/-- The KIND with which a read or write of `size` bytes at `a` fails the region check; none where it is allowed. Every access
to message RAM is one of 32 bits (R161): a narrower one fails as on a register page (log entry 45). -/
def regionError (e : EngNo) (write : Bool) (size a : Nat) (s : State) : Option Nat :=
  let task := inTask e s
  if inRom a || inFlashWindow a || inNorWindow a then (if task then some 5 else if write then some 1 else none)
  else if inCode a then
    if codeHalf e a != halfOf e then
      (if write then some 1 else if inHalfBoot (codeHalf e a) s then some 6 else none)
    else if write && task then some 1 else none
  else if inGsram a || inInstance a || inLocal a then none
  else if inDamaskPages a || inMuslinPages a || inMsgRam a then (if size < 4 then some 3 else none)
  else some 0

/-- A load that fails the region check: its target answers zero (R48), and the instruction, which raises the access error,
writes no register (R109; log entry 16). -/
def failingLoad (e : EngNo) (kind : Nat) (addr : Word) (s : State) : State :=
  { accessError e kind addr s with answer := 0 }

/-- What an access that fails alignment, region and mode does; none for one that passes (R94, R130). -/
def refusal (e : EngNo) (write : Bool) (size a : Nat) (s : State) : Option (State → State) :=
  if a % size ≠ 0 then some (exception e xAlign 0 (word a))
  else match regionError e write size a s with
    | some k => some (if write then accessError e k (word a) else failingLoad e k (word a))
    | none =>
      if write && inInstance a && !inTask e s && taskBusy (rgnTask (regionOf a) s) s then
        some fun s => accessError e 1 (word a) (raise pIMG IMG_IRQ_RAW_SUPWR s)
      else none

/-- The first refusal of several word accesses: (write, address). -/
def refusals (e : EngNo) (l : List (Bool × Nat)) (s : State) : Option (State → State) :=
  l.findSome? fun x => refusal e x.1 4 x.2 s

/-! ## Slots and tags (R28, R66) -/

/-- The access goes to Muslin over the link: not the OWNER register, which the link arbiter serves (R153). -/
def crossesLink (a : Nat) : Bool := inFlashWindow a || (inMuslinPages a && a % 4096 != 0x024)

/-- A tag of the pool for a request: the lowest free one; R28 does not say which (log entry 111). -/
def freeTag (s : State) : Option Nat := (List.range 128).find? fun t => (txnOf t s).isNone

/-- The engine waits for one of its slots, or for a tag of the pool. -/
def slotsShort (e : EngNo) (as : List Nat) (s : State) : Bool :=
  let far := as.filter fun a => !inLocal a
  4 < slotsUsed e s + far.length
    || (s.linkUp .damask && 128 < s.txns.length + (far.filter crossesLink).length)

/-! ## Grants (R76 to R78) -/

/-- The target for which an instruction waits: that of its first access outside local data. Its other accesses follow that
one (log entry 125). -/
def firstTarget (e : EngNo) (as : List Nat) : Option Nat := (as.find? fun a => !inLocal a).map (targetOf e)

/-- An instruction with these accesses waits in the fabric. -/
def fabricWaits (e : EngNo) (as : List Nat) (s : State) : Bool := (firstTarget e as).any fun t => targetWaits e t s

/-- An access of an engine is granted. -/
def grant (e : EngNo) (a : Nat) (s : State) : State := if inLocal a then s else grantTarget e (targetOf e a) s

/-- The request of an instruction with these accesses waits. -/
def waitInFabric (e : EngNo) (as : List Nat) (s : State) : State :=
  match firstTarget e as with
  | some t => waitForTarget e t s
  | none => s

/-- Something keeps the accesses waiting. -/
def mustWait (e : EngNo) (as : List Nat) (s : State) : Bool := slotsShort e as s || fabricWaits e as s

/-- An instruction that makes these accesses, when nothing keeps it waiting; one that could execute then waits in the
fabric. -/
def issueMem (x : Issue) (srcs : List Reg) (as : List Nat) (run : State → State) (s : State) : State :=
  if slotsShort x.eng as s then s
  else if canIssue x.eng srcs s && fabricWaits x.eng as s then waitInFabric x.eng as s
  else issue x srcs run s

/-! ## Global SRAM (R148, R149, R394) -/

/-- The domain and windows of the job, when the engine runs one. -/
def taskMay (e : EngNo) (write : Bool) (a : Nat) (s : State) : Bool :=
  match (s.eng e).job with
  | none => true
  | some j =>
    if write then gsramWritable j.dom j.yb.toNat a s else gsramReadable j.dom j.xb.toNat j.yb.toNat a s

/-- A double-bit error of a word read: class 4, and the scan of the job is dead. -/
def gsramDouble (e : EngNo) (a : Nat) (s : State) : State :=
  match (s.eng e).job with
  | some j => if j.dead then s else gsramDead j.task j.job (raiseFault 4 false e.val (word a) s)
  | none => raiseFault 4 false e.val (word a) s

/-- What the code of a word read finds. -/
def gsramChecked (x : Issue) (a : Nat) (s : State) : State :=
  match x.upset with
  | .gsramSingle 0 => if jobDead x.eng s then s else raiseFault 4 true x.eng.val (word a) s
  | .gsramDouble 0 => gsramDouble x.eng a s
  | _ => s

/-! ## Instance space (R71, R72, R95, R130) -/

/-- The tag of a live job's stores. -/
def tagOf (e : EngNo) (s : State) : Option LineTag :=
  match (s.eng e).job with
  | some j => if j.dead then none else some ⟨j.task, j.job⟩
  | none => none

def instReadable (e : EngNo) (a : Nat) (s : State) : Bool :=
  match (s.eng e).job with
  | some j => rgnValid (regionOf a) s && rgnDom (regionOf a) s == j.dom
  | none => true

def instWritable (e : EngNo) (a : Nat) (s : State) : Bool :=
  match (s.eng e).job with
  | some j => instReadable e a s && rgnTask (regionOf a) s == some j.task
  | none => true

/-- The aligned word of instance space as the engine loads it. -/
def instWordAt (e : EngNo) (a : Nat) (s : State) : Word := s.rw (loadPlace (tagOf e s) (a / 4 * 4) s)

/-- A load of a word: an error of its code is masked from the other image, or fails. None: the instruction is over. -/
def readInst (x : Issue) (a : Nat) (s : State) : Option Word × State :=
  let e := x.eng
  let w := a / 4 * 4
  if x.upset = .instWord 0 then
    let ix := (w - instBase) % 0x80000 / 4
    let place := loadPlace (tagOf e s) w s
    if place = baseAddr w s ∧ lineInSync (lineOf w) s ∧ s.bit pIMG IMG_CTRL_TWIN then
      let good := s.rw (workAddr w s)
      let s := errCount e 2 ix true (s.ww place good)
      (some good, if jobDead e s then s else raiseFault 1 true e.val (word w) s)
    else (none, checkFails e 2 ix (word w) s)
  else (some (instWordAt e w s), s)

/-- A word stored into instance space: the work image, with its line tagged; firmware writes both images. -/
def writeInst (e : EngNo) (a : Nat) (v : Word) (s : State) : State :=
  match tagOf e s with
  | some t =>
    let s := settleLine (lineOf a) s
    setLineTag (lineOf a) (some t) (s.ww (workAddr a s) v)
  | none => (s.ww (imageAddr 0 a) v).ww (imageAddr 1 a) v

/-! ## Message RAM (R47, R161, R162) -/

def msgMay (e : EngNo) (a : Nat) (s : State) : Bool :=
  match (s.eng e).job with
  | some j => !msgImplemented a || objDom (msgChan a) (msgObj a) s == j.dom
  | none => true

/-- A word written; a job's write of OBJ_CFG, OBJ_ID or OBJ_MASK is a violation. -/
def writeMsg (e : EngNo) (a : Nat) (v : Word) (s : State) : State :=
  let s := msgWrite (!inTask e s) a v s
  if inTask e s && msgImplemented a && a % 128 < 12 then collect e (word a) vkRws s else s

/-! ## One word of any region on Damask -/

/-- The target refuses the domain of the access. -/
def domainRefuses (e : EngNo) (write : Bool) (a : Nat) (s : State) : Bool :=
  if inGsram a then !taskMay e write a s
  else if inInstance a then !(if write then instWritable e a s else instReadable e a s)
  else if inMsgRam a then !msgMay e a s
  else false

/-- The aligned word at an address, past all checks. -/
def plainWord (e : EngNo) (a : Nat) (s : State) : Word :=
  let w := a / 4 * 4
  if inRom a || inCode a then codeWord e w s
  else if inLocal a then s.rw (localBase e + w % 0x2000)
  else if inMsgRam a then (if msgImplemented a then s.rw w else 0)
  else s.rw w

/-- The word that holds `a` as the engine reads it. A refused read is zero and a violation. None: the instruction is over. -/
def readWord (x : Issue) (a : Nat) (s : State) : Option Word × State :=
  let e := x.eng
  let s := grant e a s
  if domainRefuses e false a s then (some 0, collect e (word a) vkRead s)
  else if inDamaskPages a then
    let r := pageLoad (requesterOf e s) (pageNo a) (a % 4096) s
    (some r.1, r.2)
  else if inInstance a then readInst x a s
  else if inGsram a then (some (plainWord e a s), gsramChecked x a s)
  else if inCode a && x.upset == .codeData 0 then (none, codeParity e a s)
  else if inLocal a && x.upset == .localData 0 then (none, checkFails e 6 (a % 0x2000 / 4) (word a) s)
  else (some (plainWord e a s), s)

/-- A whole word put in its place, past all checks. -/
def putWord (x : Issue) (a : Nat) (v : Word) (s : State) : State :=
  let e := x.eng
  if inDamaskPages a then pageStore (requesterOf e s) (pageNo a) (a % 4096) v s x.tie
  else if inInstance a then writeInst e a v s
  else if inCode a then s.ww (codePlace e a) v
  else if inLocal a then s.ww (localBase e + a % 0x2000) v
  else if inMsgRam a then writeMsg e a v s
  else s.ww a v

/-- A whole word stored, past alignment and region. Refused stores are dropped as violations; those of a dead job to
instance space and global SRAM are dropped at issue. -/
def writeWord (x : Issue) (a : Nat) (v : Word) (s : State) : State :=
  let e := x.eng
  let s := grant e a s
  if jobDead e s && (inGsram a || inInstance a) then s
  else if domainRefuses e true a s then collect e (word a) vkWrite s
  else putWord x a v s

/-- The old word with the low `size` bytes of `v` in the place of `a`. -/
def mergeWord (size a : Nat) (old v : Word) : Word :=
  let f : Fld := ⟨0, 8 * (a % 4), 8 * size⟩
  f.ins old v.toNat

/-! ## Accesses that cross the link (R57, R153) -/

/-- A request enters the link under a tag: a store, or a read for a register or for word `i` of a record. -/
def sendRequest (e : EngNo) (type : Nat) (load : Option (LoadKind × Reg)) (i : Option Nat) (a : Nat) (data : List Word)
    (s : State) : State :=
  match freeTag s with
  | none => s
  | some tag =>
    let r := requesterOf e s
    let s := syncOutstanding (setTxn tag (some ⟨e, load, word a, r.dom, r.sup, i, false, false⟩) s)
    sendPacket .damask (mkPacket type r.sup r.dom tag 0 (word (a - 0x50000000) :: data)) s

/-- A page of Muslin refuses the requester; the flash window has no owner. -/
def remoteRefuses (e : EngNo) (write : Bool) (a : Nat) (s : State) : Bool :=
  inMuslinPages a && pageRefuses (requesterOf e s) (pageNo a) write s

/-- A load from Muslin: the owner check, OWNER itself, then a request. -/
def remoteLoad (e : EngNo) (k : LoadKind) (rd : Reg) (a : Nat) (s : State) : State :=
  let s := grant e a s
  if remoteRefuses e false a s then setGr e rd 0 (collect e (word a) vkPage s)
  else if !crossesLink a then setGr e rd ((pageOwner (pageNo a) s).setWidth 32) s
  else if !s.linkUp .damask then setGr e rd 0 (arbiterError (requesterOf e s) (word a) s)
  else sendRequest e tRdReq (some (k, rd)) none a [] (dropLoad e rd s)

/-- A task's write that names RWS fields is a violation; Muslin applies it to the register's other fields (R10, R151). -/
def remoteRws (e : EngNo) (a : Nat) (s : State) : State :=
  if inTask e s && holdsRws (pageNo a) (a % 4096) then collect e (word a) vkRws s else s

/-- A store to Muslin. -/
def remoteStore (e : EngNo) (a : Nat) (v : Word) (s : State) : State :=
  let s := grant e a s
  if remoteRefuses e true a s then collect e (word a) vkPage s
  else if !crossesLink a then
    if inTask e s then collect e (word a) vkRws s else setPageOwner (pageNo a) (v.extractLsb' 0 4) s
  else if !s.linkUp .damask then arbiterError (requesterOf e s) (word a) s
  else sendRequest e tWrReq none none a [v] (remoteRws e a s)

/-! ## Loads and stores (R93) -/

def LoadKind.size : LoadKind → Nat
  | .w => 4
  | .h | .hu => 2
  | .b | .bu => 1

/-- A load past its checks. -/
def loadFrom (x : Issue) (k : LoadKind) (rd : Reg) (a : Nat) (s : State) : State :=
  let e := x.eng
  if isRemote a then advance e (remoteLoad e k rd a s)
  else match readWord x a s with
    | (some w, s) => result e rd (loadDatum k a w) s
    | (none, s) => s

/-- A load. -/
def load (x : Issue) (k : LoadKind) (rd ra : Reg) (b : Sys2Proof.Base) (off : BitVec 15) (s : State) : State :=
  let a := (dataAddr x.eng ra b off s).toNat
  issueMem x [ra] [a] (residued x fun s =>
    match refusal x.eng false (LoadKind.size k) a s with
    | some f => f s
    | none => loadFrom x k rd a s) s

/-- The old word of a byte or halfword store to instance space or global SRAM is read as a load: none where the store
writes nothing and the instruction is over, or goes on. In local data and code SRAM the parity of the old word is not checked
(log 135). -/
def mergeRead (x : Issue) (a : Nat) (s : State) : Option Word × State :=
  if inInstance a then readInst x a s
  else if inGsram a then
    if x.upset = .gsramDouble 0 then (none, advance x.eng (gsramDouble x.eng a s))
    else (some (plainWord x.eng a s), gsramChecked x a s)
  else (some (plainWord x.eng a s), s)

/-- A store past its checks: the next instruction follows whatever the store sets off. -/
def storeTo (x : Issue) (size a : Nat) (v : Word) (s : State) : State :=
  let e := x.eng
  if isRemote a then remoteStore e a v (advance e s)
  else if size = 4 ∨ domainRefuses e true a s ∨ (jobDead e s ∧ (inGsram a ∨ inInstance a)) then
    writeWord x a v (advance e s)
  else match mergeRead x a s with
    | (some old, s) => putWord x (a / 4 * 4) (mergeWord size a old v) (grant e a (advance e s))
    | (none, s) => s

/-- A store of the low `size` bytes of `rd`. -/
def store (x : Issue) (size : Nat) (rd ra : Reg) (b : Sys2Proof.Base) (off : BitVec 15) (s : State) : State :=
  let a := (dataAddr x.eng ra b off s).toNat
  issueMem x [rd, ra] [a] (residued x fun s =>
    match refusal x.eng true size a s with
    | some f => f s
    | none => storeTo x size a (gr x.eng rd s) s) s

/-- LW (R93). -/
def execLw (x : Issue) (rd ra : Reg) (b : Sys2Proof.Base) (off : BitVec 15) (s : State) : Host.Outcome State Fault Refusal :=
  ok s (load x .w rd ra b off s)

/-- LH (R93). -/
def execLh (x : Issue) (rd ra : Reg) (b : Sys2Proof.Base) (off : BitVec 15) (s : State) : Host.Outcome State Fault Refusal :=
  ok s (load x .h rd ra b off s)

/-- LHU (R93). -/
def execLhu (x : Issue) (rd ra : Reg) (b : Sys2Proof.Base) (off : BitVec 15) (s : State) : Host.Outcome State Fault Refusal :=
  ok s (load x .hu rd ra b off s)

/-- LB (R93). -/
def execLb (x : Issue) (rd ra : Reg) (b : Sys2Proof.Base) (off : BitVec 15) (s : State) : Host.Outcome State Fault Refusal :=
  ok s (load x .b rd ra b off s)

/-- LBU (R93). -/
def execLbu (x : Issue) (rd ra : Reg) (b : Sys2Proof.Base) (off : BitVec 15) (s : State) : Host.Outcome State Fault Refusal :=
  ok s (load x .bu rd ra b off s)

/-- SW (R93). -/
def execSw (x : Issue) (rd ra : Reg) (b : Sys2Proof.Base) (off : BitVec 15) (s : State) : Host.Outcome State Fault Refusal :=
  ok s (store x 4 rd ra b off s)

/-- SH (R93). -/
def execSh (x : Issue) (rd ra : Reg) (b : Sys2Proof.Base) (off : BitVec 15) (s : State) : Host.Outcome State Fault Refusal :=
  ok s (store x 2 rd ra b off s)

/-- SB (R93). -/
def execSb (x : Issue) (rd ra : Reg) (b : Sys2Proof.Base) (off : BitVec 15) (s : State) : Host.Outcome State Fault Refusal :=
  ok s (store x 1 rd ra b off s)

/-! ## Block call and return (R98) -/

/-- Both words of a frame: aligned, and in local data. -/
def frameRefusal (e : EngNo) (f : Nat) : Option (State → State) :=
  [f, (f + 4) % 2 ^ 32].findSome? fun a =>
    if a % 4 ≠ 0 then some (exception e xAlign 0 (word a))
    else if !inLocal a then some (accessError e 0 (word a)) else none

/-- BCALL: `ra` is the new IB, `rb` the entry. -/
def execBcall (x : Issue) (ra rb : Reg) (s : State) : Host.Outcome State Fault Refusal :=
  ok s (issue x [ra, rb] (residued x fun s =>
    let e := x.eng
    let y := s.eng e
    let ib := gr e ra s
    let entry := gr e rb s
    let f := y.sp - 8
    if entry.extractLsb' 0 2 ≠ 0 then exception e xAlign 0 entry s
    else match frameRefusal e f.toNat with
      | some g => g s
      | none =>
        let s := writeWord x (f.toNat + 4) y.ib (writeWord x f.toNat (y.pc + 4) s)
        s.setEng e { s.eng e with sp := f, ib := ib, pc := entry }) s)

/-- The rest of an execution whose first `n` words have been read. -/
def pastWords (x : Issue) (n : Nat) : Issue :=
  let upset := match x.upset with
    | .instWord k => if n ≤ k then .instWord (k - n) else .none
    | .codeData k => if n ≤ k then .codeData (k - n) else .none
    | .localData k => if n ≤ k then .localData (k - n) else .none
    | .gsramSingle k => if n ≤ k then .gsramSingle (k - n) else .none
    | .gsramDouble k => if n ≤ k then .gsramDouble (k - n) else .none
    | u => u
  { x with upset := upset }

/-- The words of a list of places, in order; a check that fails on one of them ends the instruction. -/
def readWords (x : Issue) : List Nat → State → Option (List Word) × State
  | [], s => (some [], s)
  | a :: as, s =>
    match readWord x a s with
    | (none, s) => (none, s)
    | (some w, s) =>
      match readWords (pastWords x 1) as s with
      | (none, s) => (none, s)
      | (some ws, s) => (some (w :: ws), s)

/-- BRET. The PC that the frame holds is taken as it is: R98 checks the alignment of BCALL's target alone (log entry 112). -/
def execBret (x : Issue) (s : State) : Host.Outcome State Fault Refusal :=
  ok s (issue x [] (residued x fun s =>
    let e := x.eng
    let f := (s.eng e).sp
    match frameRefusal e f.toNat with
    | some g => g s
    | none =>
      match readWords x [f.toNat, f.toNat + 4] s with
      | (none, s) => s
      | (some ws, s) => s.setEng e { s.eng e with sp := f + 8, ib := ws.getD 1 0, pc := ws.getD 0 0 }) s)

end Sys2Proof.Machine
end

