-- ==== Sys2Proof/Machine/Primitives.lean ====
section
/-! DEFINITION. The control primitives EDGE, TMR and CNT (R99 to R101). -/

namespace Sys2Proof.Machine

/-- TT: the release's base tick in a job, the most recent base tick outside one (R84). -/
def ttOf (e : EngNo) (s : State) : Word := if inTask e s then (s.eng e).tt else word (nowTick s)

/-! ## Records -/

/-- A record's words written back, in order. -/
def writeRecord (x : Issue) : List (Nat × Word) → State → State
  | [], s => s
  | (a, v) :: rest, s => writeRecord x rest (if isRemote a then remoteStore x.eng a v s else writeWord x a v s)

/-- The read of word `i` of a record on a Muslin page, as a load makes it (R57, R95): refused by the owner, OWNER itself, an
access error while the link is not UP, or a request. The word where it is known at once. -/
def askRecordWord (e : EngNo) (i a : Nat) (s : State) : Option Word × State :=
  let s := grant e a s
  if remoteRefuses e false a s then (some 0, collect e (word a) vkPage s)
  else if !crossesLink a then (some ((pageOwner (pageNo a) s).setWidth 32), s)
  else if !s.linkUp .damask then (some 0, arbiterError (requesterOf e s) (word a) s)
  else (none, sendRequest e tRdReq none (some i) a [] s)

/-- The reads of a record on a Muslin page, in order. -/
def askRecord (e : EngNo) : Nat → List Nat → State → List (Option Word) × State
  | _, [], s => ([], s)
  | i, a :: as, s =>
    let w := askRecordWord e i a s
    let ws := askRecord e (i + 1) as w.2
    (w.1 :: ws.1, ws.2)

/-- A primitive's step on the record that it has read: the first words written back, the result, the next instruction. -/
def primitiveStep (x : Issue) (rd : Reg) (as : List Nat) (f : List Word → State → List Word × Word) (ws : List Word)
    (s : State) : State :=
  let r := f ws s
  writeRecord x (as.zip r.1) (result x.eng rd r.2 s)

/-- A primitive on a record of `n` words at IB + 4 × woff, of which it writes the first ones back. A record on a Muslin page
is read over the link: the engine is within the instruction until every word has come, and goes on at its next execution. -/
def primitive (x : Issue) (rd : Reg) (srcs : List Reg) (woff : BitVec 12) (n wr : Nat)
    (f : List Word → State → List Word × Word) (s : State) : State :=
  let e := x.eng
  let a := (recordAddr e woff s).toNat
  let as := (List.range n).map fun i => (a + 4 * i) % 2 ^ 32
  let step := primitiveStep x rd as f
  match (s.eng e).record with
  | some ws =>
    if (s.eng e).mode != .run || !ws.all (·.isSome) || slotsShort e (as.take wr) s then s
    else if fabricWaits e (as.take wr) s then waitInFabric e (as.take wr) s
    else residued x (step (ws.map fun w => w.getD 0)) (s.setEng e { s.eng e with record := none })
  | none =>
    issueMem x srcs (if isRemote a then as else as.take wr) (residued x fun s =>
      match refusals e (as.map (fun a => (false, a)) ++ (as.take wr).map fun a => (true, a)) s with
      | some g => g s
      | none =>
        if isRemote a then
          let r := askRecord e 0 as s
          if r.1.all (·.isSome) then step (r.1.map fun w => w.getD 0) r.2
          else r.2.setEng e { r.2.eng e with record := some r.1 }
        else match readWords x as s with
          | (none, s) => s
          | (some ws, s) => step ws s) s

/-! ## EDGE -/

/-- The record and the result from the stored word and the input. -/
def edgeStep (old : Word) (input : Bool) : Word × Word :=
  let prev := old.getLsbD 0
  (truth input, word ((input && !prev).toNat + 2 * (prev && !input).toNat))

/-- EDGE (R99). -/
def execEdge (x : Issue) (rd ra : Reg) (woff : BitVec 12) (s : State) : Host.Outcome State Fault Refusal :=
  ok s (primitive x rd [ra] woff 1 1 (fun ws s =>
    let r := edgeStep (ws.getD 0 0) (gr x.eng ra s != 0)
    ([r.1], r.2)) s)

/-! ## TMR -/

/-- A timer record. -/
structure Timer where
  start : Word
  et : Word
  q : Bool
  run : Bool
  inp : Bool
  deriving DecidableEq, Repr

def timerOf (ws : List Word) : Timer :=
  let f := ws.getD 2 0
  ⟨ws.getD 0 0, ws.getD 1 0, f.getLsbD 0, f.getLsbD 1, f.getLsbD 2⟩

def Timer.words (t : Timer) : List Word :=
  [t.start, t.et, word (t.q.toNat + 2 * t.run.toNat + 4 * t.inp.toNat)]

/-- Elapsed time, at most the preset. -/
def Timer.elapsed (t : Timer) (tt pt : Word) : Word := if tt - t.start ≤ pt then tt - t.start else pt

/-- A running timer takes its elapsed time; at the preset it stops with output `q`. -/
def Timer.tick (t : Timer) (tt pt : Word) (q : Bool) : Timer :=
  if t.run then
    let et := t.elapsed tt pt
    if et = pt then { t with et := et, q := q, run := false } else { t with et := et }
  else t

def tonStep (t : Timer) (i : Bool) (tt pt : Word) : Timer :=
  if !i then { t with q := false, run := false, et := 0 }
  else
    let t := if !t.run && !t.q then { t with start := tt, run := true } else t
    t.tick tt pt true

def tofStep (t : Timer) (i : Bool) (tt pt : Word) : Timer :=
  if i then { t with q := true, run := false, et := 0 }
  else
    let t := if t.inp && t.q && !t.run then { t with start := tt, run := true } else t
    t.tick tt pt false

def tpStep (t : Timer) (i : Bool) (tt pt : Word) : Timer :=
  let t := if i && !t.inp && !t.run then { t with start := tt, run := true, q := true } else t
  if t.run then t.tick tt pt false else if !i then { t with et := 0 } else t

/-- The preset: at most 0x7FFF_FFFF base ticks. -/
def presetOf (v : Word) : Word := if v ≤ 0x7FFFFFFF then v else 0x7FFFFFFF

def timer (x : Issue) (rd ra rb : Reg) (woff : BitVec 12) (f : Timer → Bool → Word → Word → Timer) (s : State) : State :=
  primitive x rd [ra, rb] woff 3 3 (fun ws s =>
    let i := gr x.eng ra s != 0
    let t := f (timerOf ws) i (ttOf x.eng s) (presetOf (gr x.eng rb s))
    (Timer.words { t with inp := i }, truth t.q)) s

/-- TMR with sub TON (R100). -/
def execTon (x : Issue) (rd ra rb : Reg) (woff : BitVec 12) (s : State) : Host.Outcome State Fault Refusal :=
  ok s (timer x rd ra rb woff tonStep s)

/-- TMR with sub TOF (R100). -/
def execTof (x : Issue) (rd ra rb : Reg) (woff : BitVec 12) (s : State) : Host.Outcome State Fault Refusal :=
  ok s (timer x rd ra rb woff tofStep s)

/-- TMR with sub TP (R100). -/
def execTp (x : Issue) (rd ra rb : Reg) (woff : BitVec 12) (s : State) : Host.Outcome State Fault Refusal :=
  ok s (timer x rd ra rb woff tpStep s)

/-! ## CNT -/

/-- The value within the limits; LO when they are crossed. -/
def clampCount (lo hi v : Int) : Int := max lo (min v hi)

/-- The new count and flags of a counter record under inputs `i` and preset `pv`. -/
def countStep (up down : Bool) (ws : List Word) (i pv : Word) : Word × Word :=
  let cv := (ws.getD 0 0).toInt
  let fl := ws.getD 1 0
  let lo := (ws.getD 2 0).toInt
  let hi := (ws.getD 3 0).toInt
  let u := i.getLsbD 0 && !fl.getLsbD 0 && up
  let d := i.getLsbD 1 && !fl.getLsbD 1 && down
  let cv :=
    if i.getLsbD 2 then clampCount lo hi 0
    else if i.getLsbD 3 then clampCount lo hi pv.toInt
    else clampCount lo hi
      (if u && !d && cv < hi then cv + 1 else if d && !u && cv > lo then cv - 1 else cv)
  (BitVec.ofInt 32 cv, i &&& 3)

def counter (x : Issue) (rd ra rb : Reg) (woff : BitVec 12) (up down : Bool) (s : State) : State :=
  primitive x rd [ra, rb] woff 4 2 (fun ws s =>
    let pv := gr x.eng rb s
    let r := countStep up down ws (gr x.eng ra s) pv
    ([r.1, r.2], word ((decide (pv.toInt ≤ r.1.toInt)).toNat + 2 * (decide (r.1.toInt ≤ 0)).toNat))) s

/-- CNT with sub CTU (R101). -/
def execCtu (x : Issue) (rd ra rb : Reg) (woff : BitVec 12) (s : State) : Host.Outcome State Fault Refusal :=
  ok s (counter x rd ra rb woff true false s)

/-- CNT with sub CTD (R101). -/
def execCtd (x : Issue) (rd ra rb : Reg) (woff : BitVec 12) (s : State) : Host.Outcome State Fault Refusal :=
  ok s (counter x rd ra rb woff false true s)

/-- CNT with sub CTUD (R101). -/
def execCtud (x : Issue) (rd ra rb : Reg) (woff : BitVec 12) (s : State) : Host.Outcome State Fault Refusal :=
  ok s (counter x rd ra rb woff true true s)

end Sys2Proof.Machine
end

