-- ==== Sys2Proof/Machine/RegRows.lean ====
section
/-! DEFINITION. The commands that are a write or a read of one register: each is that access by its requester. -/

namespace Sys2Proof.Machine

open Reg

/-- A command word: GO set, the operation in its field, the other bits as given. -/
def cmdWord (go op : Fld) (n : Nat) (v : Word) : Word := go.ins (op.ins v n) 1

/-- Page and offset of a record base (R431). -/
def recordBase : RecordBase → Nat × Nat
  | .aioIn => (pAIO, 0x044)
  | .aioOut => (pAIO, 0x048)
  | .dioIn => (pDIO, 0x040)
  | .dioOut => (pDIO, 0x044)
  | .meter => (pMTR, 0x040)

/-- The page that holds IMGEN of a block. -/
def imagePage : ImageBlock → Nat
  | .aio => pAIO
  | .dio => pDIO
  | .mtr => pMTR

/-- Page and offset of a calibration register of metering channel `n` (R245). -/
def calReg (w : CalReg) (n : Nat) : Nat × Nat :=
  match w with
  | .gain => (pMTC, 0x040 + 16 * n)
  | .offset => (pMTC, 0x044 + 16 * n)
  | .scale => (pMTC, 0x048 + 16 * n)
  | .delay => (pMTV, 0x040 + 4 * n)

/-- REGISTER_WRITE: a write of the register at address `a` (R10); `tie` holds the bits of its W1C and W1S fields that a
hardware update reaches in the same clock (R12). -/
def execRegisterWrite (r : Requester) (a : Nat) (v : Word) (s : State) (tie : Word := 0) :
    Host.Outcome State Fault Refusal :=
  ok s (match pageAt a with | some (p, off) => writeCmd r p off v s tie | none => s)

/-- READ_CLEAR: a read of the register at address `a`; its RC fields clear (R10). -/
def execReadClear (r : Requester) (a : Nat) (s : State) :
    Host.Outcome State Fault Refusal :=
  ok s (match pageAt a with | some (p, off) => readCmd r p off s | none => s)

/-- IRQ_FORCE: a write of IRQ_FORCE of page `p` (R50). -/
def execIrqForce (r : Requester) (p : Nat) (v : Word) (s : State) :
    Host.Outcome State Fault Refusal :=
  ok s (writeCmd r p 0x01C v s)

/-- LOCK_WRITE: a write of LOCK of page `p` (R51). -/
def execLockWrite (r : Requester) (p : Nat) (v : Word) (s : State) :
    Host.Outcome State Fault Refusal :=
  ok s (writeCmd r p 0x020 v s)

/-- LOCK_TIMEOUT: 400 counts after page `p` was unlocked (R52). -/
def execLockTimeout (p : Nat) (s : State) :
    Host.Outcome State Fault Refusal :=
  ok s (if pageRuns p s then lockTimeout p s else s)

/-- MODRST: SYS_CTRL.MODRST or MSYS_CTRL.MODRST written 1 (R421). -/
def execModrst (r : Requester) (d : Die) (s : State) :
    Host.Outcome State Fault Refusal :=
  ok s (match d with | .damask => fieldCmd r pSYS SYS_CTRL_MODRST 1 s | .muslin => fieldCmd r pMSYS MSYS_CTRL_MODRST 1 s)

/-- DAMASK_RESTART: BOOT_CTRL.DRESTART written 1 (R360). -/
def execDamaskRestart (r : Requester) (s : State) :
    Host.Outcome State Fault Refusal :=
  ok s (fieldCmd r pBOOT BOOT_CTRL_DRESTART 1 s)

/-- HALF_BOOT: BOOT_HBOOT written with GO (R37, R361). -/
def execHalfBoot (r : Requester) (h : Half) (slot : Fin 2) (s : State) :
    Host.Outcome State Fault Refusal :=
  ok s (writeCmd r pBOOT 0x040 (BOOT_HBOOT_GO.ins (BOOT_HBOOT_HALF.ins (BOOT_HBOOT_SLOT.ins 0 slot.val) h.ix) 1) s)

/-- RETRAIN: RETRAIN written 1 (R34, R43). -/
def execRetrain (r : Requester) (d : Die) (s : State) :
    Host.Outcome State Fault Refusal :=
  ok s (fieldCmd r (ddlPage d) DDL_CTRL_RETRAIN 1 s)

/-- LINK_EN: EN written (R43). -/
def execLinkEn (r : Requester) (d : Die) (on : Bool) (s : State) :
    Host.Outcome State Fault Refusal :=
  ok s (fieldCmd r (ddlPage d) DDL_CTRL_EN on.toNat s)

/-- LOOPBACK: LOOPBACK written (R43). -/
def execLoopback (r : Requester) (d : Die) (on : Bool) (s : State) :
    Host.Outcome State Fault Refusal :=
  ok s (fieldCmd r (ddlPage d) DDL_CTRL_LOOPBACK on.toNat s)

/-- MTB_LO_READ: a read of MTB_LO (R45). -/
def execMtbLoRead (r : Requester) (s : State) :
    Host.Outcome State Fault Refusal :=
  ok s (readCmd r pMTB 0x040 s)

/-- MTB_CMP_WRITE: a write of MTB_CMPn_LO (R46). -/
def execMtbCmpWrite (r : Requester) (n : Fin 2) (v : Word) (s : State) :
    Host.Outcome State Fault Refusal :=
  ok s (writeCmd r pMTB (0x048 + 8 * n.val) v s)

/-- ICINV: ICINV of cluster `k` written 1 (R64). -/
def execIcinv (r : Requester) (k : Fin 8) (s : State) :
    Host.Outcome State Fault Refusal :=
  ok s (fieldCmd r (pENG + k.val) ENG_CTRL_ICINV 1 s)

/-- FAIRMODE_WRITE: FAIRMODE written (R78). -/
def execFairmodeWrite (r : Requester) (port : Bool) (s : State) :
    Host.Outcome State Fault Refusal :=
  ok s (fieldCmd r pFAB FAB_CTRL_FAIRMODE port.toNat s)

/-- SUPV_WRITE: a write of FAB_SUPV (R69). -/
def execSupvWrite (r : Requester) (v : Word) (s : State) :
    Host.Outcome State Fault Refusal :=
  ok s (writeCmd r pFAB 0x040 v s)

/-- OBSSEL_WRITE: a write of FAB_OBSSEL (R76). -/
def execObsselWrite (r : Requester) (v : Word) (s : State) :
    Host.Outcome State Fault Refusal :=
  ok s (writeCmd r pFAB 0x044 v s)

/-- GRANTCNT_READ: a read of FAB_GRANTCNT (R76). -/
def execGrantcntRead (r : Requester) (s : State) :
    Host.Outcome State Fault Refusal :=
  ok s (readCmd r pFAB 0x048 s)

/-- SCHEDULER_ENABLE: SCH_CTRL.EN written (R116). -/
def execSchedulerEnable (r : Requester) (on : Bool) (s : State) :
    Host.Outcome State Fault Refusal :=
  ok s (fieldCmd r pSCH SCH_CTRL_EN on.toNat s)

/-- HOLD_HALF: HOLDE or HOLDW written (R144). -/
def execHoldHalf (r : Requester) (h : Half) (on : Bool) (s : State) :
    Host.Outcome State Fault Refusal :=
  ok s (fieldCmd r pSCH (holdFld h) on.toNat s)

/-- REGION_CLEAR: IMG_CLR written with GO for region `k` (R145). -/
def execRegionClear (r : Requester) (k : Fin 1024) (s : State) :
    Host.Outcome State Fault Refusal :=
  ok s (writeCmd r pIMG 0x040 (IMG_CLR_GO.ins (word k.val) 1) s)

/-- IMG_RGN_WRITE: a write of an IMG_RGN word (R145). -/
def execImgRgnWrite (r : Requester) (i : Fin 512) (v : Word) (s : State) :
    Host.Outcome State Fault Refusal :=
  ok s (writeCmd r pIMG (0x800 + 4 * i.val) v s)

/-- BTICK_LO_READ: a read of SCH_BTICK_LO (R117). -/
def execBtickLoRead (r : Requester) (s : State) :
    Host.Outcome State Fault Refusal :=
  ok s (readCmd r pSCH 0x044 s)

/-- NEXT_LO_READ: a read of TSK_NEXT_LO (R117). -/
def execNextLoRead (r : Requester) (s : State) :
    Host.Outcome State Fault Refusal :=
  ok s (readCmd r pTSK 0x048 s)

/-- PDATA_ACCESS: DOM_PDATA written, or read (R150). -/
def execPdataAccess (r : Requester) (v : Option Word) (s : State) :
    Host.Outcome State Fault Refusal :=
  ok s (match v with | some w => writeCmd r pDOM 0x044 w s | none => readCmd r pDOM 0x044 s)

/-- PGOWN_WRITE: a write of a DOM_PGOWN word (R155). -/
def execPgownWrite (r : Requester) (d : Die) (i : Fin 5) (v : Word) (s : State) :
    Host.Outcome State Fault Refusal :=
  ok s (writeCmd r pDOM ((match d with | .damask => 0x100 | .muslin => 0x120) + 4 * i.val) v s)

/-- RECOVER: RECOVER written 1 (R159). -/
def execRecover (r : Requester) (c : FbNo) (s : State) :
    Host.Outcome State Fault Refusal :=
  ok s (fieldCmd r (fbPage c) FB_CTRL_RECOVER 1 s)

/-- FB_CTRL_WRITE: a write of FBn_CTRL (R187). -/
def execFbCtrlWrite (r : Requester) (c : FbNo) (v : Word) (s : State) :
    Host.Outcome State Fault Refusal :=
  ok s (writeCmd r (fbPage c) 0x008 v s)

/-- BANK_REQUEST: BANK0 or BANK1 written (R179). -/
def execBankRequest (r : Requester) (c : FbNo) (bank : Fin 2) (s : State) :
    Host.Outcome State Fault Refusal :=
  ok s (fieldCmd r pFBT (bankFld c) bank.val s)

/-- REDUNDANT_WRITE: REDUNDANT written (R188). -/
def execRedundantWrite (r : Requester) (on : Bool) (s : State) :
    Host.Outcome State Fault Refusal :=
  ok s (fieldCmd r pFBT FBT_CTRL_REDUNDANT on.toNat s)

/-- MDATA_ACCESS: FBT_MDATA written, or read (R188). -/
def execMdataAccess (r : Requester) (v : Option Word) (s : State) :
    Host.Outcome State Fault Refusal :=
  ok s (match v with | some w => writeCmd r pFBT 0x044 w s | none => readCmd r pFBT 0x044 s)

/-- STATION_ENABLE: a write of RIO_SCFG of the station that RIO_SIDX names (R198). -/
def execStationEnable (r : Requester) (v : Word) (s : State) :
    Host.Outcome State Fault Refusal :=
  ok s (writeCmd r pRIO 0x044 v s)

/-- MISWIRE_REARM: STS.MISWIRE written 1 (R218). -/
def execMiswireRearm (r : Requester) (n : ChanNo) (s : State) :
    Host.Outcome State Fault Refusal :=
  ok s (writeCmd r (aioPage n) (af AIOC_STS_MISWIRE n).off (AIOC_STS_MISWIRE.ins 0 1) s)

/-- AIO_CFG_WRITE: a write of a channel's CFG (R219). -/
def execAioCfgWrite (r : Requester) (n : ChanNo) (v : Word) (s : State) :
    Host.Outcome State Fault Refusal :=
  ok s (writeCmd r (aioPage n) (af AIOC_CFG_MODE n).off v s)

/-- RECORD_BASE_WRITE: a write of a record base (R431). -/
def execRecordBaseWrite (r : Requester) (b : RecordBase) (v : Word) (s : State) :
    Host.Outcome State Fault Refusal :=
  ok s (writeCmd r (recordBase b).1 (recordBase b).2 v s)

/-- IMGEN_WRITE: IMGEN of AIO, DIO or MTR written (R431). -/
def execImgenWrite (r : Requester) (b : ImageBlock) (on : Bool) (s : State) :
    Host.Outcome State Fault Refusal :=
  ok s (fieldCmd r (imagePage b) AIO_CTRL_IMGEN on.toNat s)

/-- DI_LO_READ: a read of DIO_DI_LO (R223). -/
def execDiLoRead (r : Requester) (s : State) :
    Host.Outcome State Fault Refusal :=
  ok s (readCmd r pDIO 0x048 s)

/-- HRT_CFG_WRITE: a write of HRT_CFGn (R241). -/
def execHrtCfgWrite (r : Requester) (n : ChanNo) (v : Word) (s : State) :
    Host.Outcome State Fault Refusal :=
  ok s (writeCmd r pHRT (0x100 + 0x20 * n.val) v s)

/-- METER_SAVE: MTE_CTRL.SAVE written 1 (R267). -/
def execMeterSave (r : Requester) (s : State) :
    Host.Outcome State Fault Refusal :=
  ok s (fieldCmd r pMTE MTE_CTRL_SAVE 1 s)

/-- CONFIG_COMMIT: MTV_CTRL.COMMIT written 1 (R266). -/
def execConfigCommit (r : Requester) (s : State) :
    Host.Outcome State Fault Refusal :=
  ok s (fieldCmd r pMTV MTV_CTRL_COMMIT 1 s)

/-- METERING_ENABLE: MTV_CTRL.EN written (R269). -/
def execMeteringEnable (r : Requester) (on : Bool) (s : State) :
    Host.Outcome State Fault Refusal :=
  ok s (fieldCmd r pMTV MTV_CTRL_EN on.toNat s)

/-- FEEDER_CFG_WRITE: a write of MTV_FCFGk (R271). -/
def execFeederCfgWrite (r : Requester) (k : FeederNo) (v : Word) (s : State) :
    Host.Outcome State Fault Refusal :=
  ok s (writeCmd r pMTV (vf MTV_FCFG_EN k).off v s)

/-- CALIBRATION_WRITE: a write of GAIN, OFFSET, SCALE or DELAY of metering channel `n` (R245). -/
def execCalibrationWrite (r : Requester) (n : Fin 30) (w : CalReg) (v : Word) (s : State) :
    Host.Outcome State Fault Refusal :=
  ok s (writeCmd r (calReg w n.val).1 (calReg w n.val).2 v s)

/-- FEEDER_CLEAR: MTE_CLR written with GO for feeder `k` (R272). -/
def execFeederClear (r : Requester) (k : FeederNo) (s : State) :
    Host.Outcome State Fault Refusal :=
  ok s (writeCmd r pMTE 0x068 (MTE_CLR_GO.ins (word k.val) 1) s)

/-- LSB_WRITE: a write of MTE_FCFGk (R272). -/
def execLsbWrite (r : Requester) (k : FeederNo) (v : Word) (s : State) :
    Host.Outcome State Fault Refusal :=
  ok s (writeCmd r pMTE (MTE_FCFG_LSB.at 4 k.val).off v s)

/-- ACCLO_READ: a read of an MTE_ACCLO (R256). -/
def execAccloRead (r : Requester) (k : FeederNo) (acc : Fin 6) (s : State) :
    Host.Outcome State Fault Refusal :=
  ok s (readCmd r pMTE (accOff k acc.val) s)

/-- DEMAND_MAX_CLEAR: DCLR of feeder `k` written 1 (R260). -/
def execDemandMaxClear (r : Requester) (k : FeederNo) (s : State) :
    Host.Outcome State Fault Refusal :=
  ok s (writeCmd r pMTE (0x31C + 0x20 * k.val) 1 s)

/-- PULSE_CFG_WRITE: a write of PLS_CFGn or PLS_Kn (R263). -/
def execPulseCfgWrite (r : Requester) (n : Fin 8) (weight : Bool) (v : Word) (s : State) :
    Host.Outcome State Fault Refusal :=
  ok s (writeCmd r pPLS ((lf PLS_CFG_EN n).off + if weight then 4 else 0) v s)

/-- SVC_TXD_WRITE: a write of SVC_TXD (R282). -/
def execSvcTxdWrite (r : Requester) (b : Byte) (s : State) :
    Host.Outcome State Fault Refusal :=
  ok s (writeCmd r pSVC 0x048 (b.setWidth 32) s)

/-- SVC_RXD_READ: a read of SVC_RXD (R282). -/
def execSvcRxdRead (r : Requester) (s : State) :
    Host.Outcome State Fault Refusal :=
  ok s (readCmd r pSVC 0x04C s)

/-- TXTS_TAG_READ: a read of ETH_TXTS_TAG (R286). -/
def execTxtsTagRead (r : Requester) (s : State) :
    Host.Outcome State Fault Refusal :=
  ok s (readCmd r pETH 0x040 s)

/-- VLAN_WRITE: a write of ESW_VLANd (R285). -/
def execVlanWrite (r : Requester) (d : Dom) (v : Word) (s : State) :
    Host.Outcome State Fault Refusal :=
  ok s (writeCmd r pESW (vlanOff d.toNat) v s)

/-- TIME_WRITE: a write of CHR_SEC_LO (R292). -/
def execTimeWrite (r : Requester) (v : Word) (s : State) :
    Host.Outcome State Fault Refusal :=
  ok s (writeCmd r pCHR 0x044 v s)

/-- ALARM_WRITE: a write of register `i` of alarm `a` (R297). -/
def execAlarmWrite (r : Requester) (a : Fin 2) (i : Fin 4) (v : Word) (s : State) :
    Host.Outcome State Fault Refusal :=
  ok s (writeCmd r pCHR (0x080 + 16 * a.val + 4 * i.val) v s)

/-- SEC_LO_READ: a read of CHR_SEC_LO (R291). -/
def execSecLoRead (r : Requester) (s : State) :
    Host.Outcome State Fault Refusal :=
  ok s (readCmd r pCHR 0x044 s)

/-- CORR_LO_READ: a read of CHR_CORR_LO (R298). -/
def execCorrLoRead (r : Requester) (s : State) :
    Host.Outcome State Fault Refusal :=
  ok s (readCmd r pCHR 0x04C s)

/-- OPSEC_READ: a read of CHR_OPSEC (R300). -/
def execOpsecRead (r : Requester) (s : State) :
    Host.Outcome State Fault Refusal :=
  ok s (readCmd r pCHR 0x058 s)

/-- NVM_READ: NVM_CMD with GO and OP 0 (R319). -/
def execNvmRead (r : Requester) (v : Word) (s : State) :
    Host.Outcome State Fault Refusal :=
  ok s (writeCmd r pNVM 0x040 (cmdWord NVM_CMD_GO NVM_CMD_OP 0 v) s)

/-- NVM_WRITE: NVM_CMD with GO and OP 1 (R319). -/
def execNvmWrite (r : Requester) (v : Word) (s : State) :
    Host.Outcome State Fault Refusal :=
  ok s (writeCmd r pNVM 0x040 (cmdWord NVM_CMD_GO NVM_CMD_OP 1 v) s)

/-- RAW_PROG: NVM_CMD with GO and OP 2 (R320). -/
def execRawProg (r : Requester) (v : Word) (s : State) :
    Host.Outcome State Fault Refusal :=
  ok s (writeCmd r pNVM 0x040 (cmdWord NVM_CMD_GO NVM_CMD_OP 2 v) s)

/-- RAW_ERASE: NVM_CMD with GO and OP 3 (R320). -/
def execRawErase (r : Requester) (v : Word) (s : State) :
    Host.Outcome State Fault Refusal :=
  ok s (writeCmd r pNVM 0x040 (cmdWord NVM_CMD_GO NVM_CMD_OP 3 v) s)

/-- COMPACT: NVM_CTRL.COMPACT written 1 (R317). -/
def execCompact (r : Requester) (s : State) :
    Host.Outcome State Fault Refusal :=
  ok s (fieldCmd r pNVM NVM_CTRL_COMPACT 1 s)

/-- COUNTER_INCREMENT: NCT_CMD with GO and OP 0 (R322). -/
def execCounterIncrement (r : Requester) (n : Fin 8) (s : State) :
    Host.Outcome State Fault Refusal :=
  ok s (writeCmd r pNCT 0x040 (cmdWord NCT_CMD_GO NCT_CMD_OP 0 (word n.val)) s)

/-- COUNTER_ADVANCE: NCT_CMD with GO and OP 1; the value stands in NCT_ARG (R323). -/
def execCounterAdvance (r : Requester) (n : Fin 8) (s : State) :
    Host.Outcome State Fault Refusal :=
  ok s (writeCmd r pNCT 0x040 (cmdWord NCT_CMD_GO NCT_CMD_OP 1 (word n.val)) s)

/-- EVENT_CLEAR: EVR_CLR written with GO (R334). -/
def execEventClear (r : Requester) (s : State) :
    Host.Outcome State Fault Refusal :=
  ok s (writeCmd r pEVR 0x05C 0x80000000 s)

/-- KEY_UPDATE: KEY_UCMD written with GO (R346). -/
def execKeyUpdate (r : Requester) (s : State) :
    Host.Outcome State Fault Refusal :=
  ok s (writeCmd r pKEY 0x040 0x80000000 s)

/-- LOADVAULT: CRY_WCMD with GO and OP 0 (R348). -/
def execWsLoadVault (r : Requester) (v : Word) (s : State) :
    Host.Outcome State Fault Refusal :=
  ok s (writeCmd r pCRY 0x040 (cmdWord CRY_WCMD_GO CRY_WCMD_OP 0 v) s)

/-- LOADBLOB: CRY_WCMD with GO and OP 1 (R348). -/
def execWsLoadBlob (r : Requester) (v : Word) (s : State) :
    Host.Outcome State Fault Refusal :=
  ok s (writeCmd r pCRY 0x040 (cmdWord CRY_WCMD_GO CRY_WCMD_OP 1 v) s)

/-- GENERATE: CRY_WCMD with GO and OP 2 (R348). -/
def execWsGenerate (r : Requester) (v : Word) (s : State) :
    Host.Outcome State Fault Refusal :=
  ok s (writeCmd r pCRY 0x040 (cmdWord CRY_WCMD_GO CRY_WCMD_OP 2 v) s)

/-- IMPORT: CRY_WCMD with GO and OP 3 (R348). -/
def execWsImport (r : Requester) (v : Word) (s : State) :
    Host.Outcome State Fault Refusal :=
  ok s (writeCmd r pCRY 0x040 (cmdWord CRY_WCMD_GO CRY_WCMD_OP 3 v) s)

/-- CLEAR: CRY_WCMD with GO and OP 4 (R348). -/
def execWsClear (r : Requester) (v : Word) (s : State) :
    Host.Outcome State Fault Refusal :=
  ok s (writeCmd r pCRY 0x040 (cmdWord CRY_WCMD_GO CRY_WCMD_OP 4 v) s)

/-- XFL_ERASE: XFL_CMD with GO and OP 0 (R364). -/
def execXflErase (r : Requester) (s : State) :
    Host.Outcome State Fault Refusal :=
  ok s (writeCmd r pXFL 0x040 (cmdWord XFL_CMD_GO XFL_CMD_OP 0 0) s)

/-- XFL_PROG: XFL_CMD with GO and OP 1 (R364). -/
def execXflProg (r : Requester) (s : State) :
    Host.Outcome State Fault Refusal :=
  ok s (writeCmd r pXFL 0x040 (cmdWord XFL_CMD_GO XFL_CMD_OP 1 0) s)

/-- XFL_HASH: XFL_CMD with GO and OP 2 (R365). -/
def execXflHash (r : Requester) (s : State) :
    Host.Outcome State Fault Refusal :=
  ok s (writeCmd r pXFL 0x040 (cmdWord XFL_CMD_GO XFL_CMD_OP 2 0) s)

/-- XFL_READ: XFL_CMD with GO and OP 3 (R364). -/
def execXflRead (r : Requester) (s : State) :
    Host.Outcome State Fault Refusal :=
  ok s (writeCmd r pXFL 0x040 (cmdWord XFL_CMD_GO XFL_CMD_OP 3 0) s)

/-- DOFF: PMU_CTRL.DOFF written 1 (R382). -/
def execDoff (r : Requester) (s : State) :
    Host.Outcome State Fault Refusal :=
  ok s (fieldCmd r pPMU PMU_CTRL_DOFF 1 s)

/-- RESTORE: PMU_CTRL.RESTORE written 1 (R380). -/
def execRestore (r : Requester) (s : State) :
    Host.Outcome State Fault Refusal :=
  ok s (fieldCmd r pPMU PMU_CTRL_RESTORE 1 s)

/-- PRF_LOAD: PRF_LOAD written with GO (R386). -/
def execPrfLoad (r : Requester) (n : Fin 4) (s : State) :
    Host.Outcome State Fault Refusal :=
  ok s (writeCmd r pPRF 0x044 (cmdWord PRF_LOAD_GO PRF_LOAD_PROFILE n.val 0) s)

/-- PRF_CMD: PRF_CMD written with GO (R388). -/
def execPrfCmd (r : Requester) (n : Fin 4) (s : State) :
    Host.Outcome State Fault Refusal :=
  ok s (writeCmd r pPRF 0x040 (cmdWord PRF_CMD_GO PRF_CMD_PROFILE n.val 0) s)

/-- RETRY: PRF_CTRL.RETRY written 1 (R388). -/
def execRetry (r : Requester) (s : State) :
    Host.Outcome State Fault Refusal :=
  ok s (fieldCmd r pPRF PRF_CTRL_RETRY 1 s)

/-- WDT_KICK: a write of WDT_KICKi (R398). -/
def execWdtKick (r : Requester) (i : Fin 4) (v : Word) (s : State) :
    Host.Outcome State Fault Refusal :=
  ok s (writeCmd r pWDT (0x050 + 4 * i.val) v s)

/-- SOFTWARE_INTERRUPT: a write of INT_SWSET or INT_SWCLR (R401). -/
def execSoftwareInterrupt (r : Requester) (set : Bool) (v : BitVec 16) (s : State) :
    Host.Outcome State Fault Refusal :=
  ok s (writeCmd r pINT (if set then 0x050 else 0x054) (v.setWidth 32) s)

/-- QUEUE_CONFIG_WRITE: a write of a descriptor of queue 16 + `q` (R411). -/
def execQueueConfigWrite (r : Requester) (q : QueueNo) (reg : Fin 5) (v : Word) (s : State) :
    Host.Outcome State Fault Refusal :=
  ok s (writeCmd r pQMG (0x300 + 0x20 * q.val + 4 * reg.val) v s)

/-- RING_PRODUCE: PROD of ring A of queue 16 + `q` written (R411). -/
def execRingProduce (r : Requester) (q : QueueNo) (prod : BitVec 13) (s : State) :
    Host.Outcome State Fault Refusal :=
  ok s (fieldCmd r pQMG (QMG_AIDX_PROD.at 0x20 q.val) prod.toNat s)

/-- RELEASE: OHM_CTRL.RELEASE written 1 (R367). -/
def execRelease (r : Requester) (s : State) :
    Host.Outcome State Fault Refusal :=
  ok s (fieldCmd r pOHM OHM_CTRL_RELEASE 1 s)

end Sys2Proof.Machine
end

