-- ==== Sys2Proof/Machine/Scans.lean ====
section
/-! DEFINITION. What happens in the course of base ticks, scans and field ticks: compare units, base ticks with releases,
activity and the power forecast, validation, the phases of a scan, the job timer, the output cut-off, the field tick
(R46, R79, R116 to R145, R205, R381 to R384, R388, R420). -/

namespace Sys2Proof.Machine

open Reg

/-! ## Compare units (R46) -/

/-- MTB_COMPARE_FIRE. -/
def execMtbCompareFire (n : Fin 2) (s : State) : Host.Outcome State Fault Refusal :=
  ok s (if damaskOn s && s.bit pMTB (cmpEn n.val) then
    let s := s.untilMtb (cmpValue n.val s)
    raise pMTB ⟨0x010, n.val, 1⟩ (s.put pMTB (cmpEn n.val) 0)
  else s)

/-! ## Activity and power gating (R381, R383) -/

/-- MTB counts as fabric clocks. -/
def fabricClocks (n : Nat) : Nat := n * 5 / 2

/-- Execution of an engine that goes on is counted up to now. -/
def countBusy (e : EngNo) (s : State) : State :=
  let x := s.eng e
  if engBusy x.mode then
    let k := clusterOf e
    let n := tget (fun _ => 0) s.sched.laneBusy k + (s.mtb - x.busyFrom)
    { s with sched := { s.sched with laneBusy := tset (fun _ => 0) s.sched.laneBusy k n } }.setEng e { x with busyFrom := s.mtb }
  else s

/-- A running solver operation is counted up to now. -/
def countSolver (k : Nat) (s : State) : State :=
  if tget (fun _ => []) s.sched.solver k = [] then s
  else
    let n := tget (fun _ => 0) s.sched.solvBusy k + (s.mtb - tget (fun _ => 0) s.sched.solverFrom k)
    { s with sched := { s.sched with
        solvBusy := tset (fun _ => 0) s.sched.solvBusy k n, solverFrom := tset (fun _ => 0) s.sched.solverFrom k s.mtb } }

/-- ENG_ACTIVITY and ENG_SOLVACT of every cluster take the base tick that has ended. -/
def activityTick (s : State) : State :=
  let s := forAll (List.range 8) countSolver (forAll allEngines countBusy s)
  let s := forAll (List.range 8) (fun k s =>
    (s.put (pENG + k) ENG_ACTIVITY_LANEBUSY (min 500000 (fabricClocks (tget (fun _ => 0) s.sched.laneBusy k)))).put
      (pENG + k) ENG_SOLVACT_BUSY (min 62500 (fabricClocks (tget (fun _ => 0) s.sched.solvBusy k)))) s
  { s with sched := { s.sched with laneBusy := [], solvBusy := [] } }

/-- An enabled task has a job whose home is cluster `k`; a task that migrates counts in both halves. -/
def homedIn (k : Nat) (s : State) : Bool :=
  allTasks.any fun t => taskEnabled t s &&
    ((taskHalf t s).ix == k / 4 || (targetHalf t s).ix == k / 4) &&
    match (s.task t).entry with
    | some e => (List.range e.njobs).any fun j => (jobDesc e.graph.toNat j s).home == k % 4
    | none => false

/-- A cluster that cannot be dormant. -/
def clusterNeeded (k : Nat) (s : State) : Bool :=
  homedIn k s
    || ((List.range 8).any fun c => s.deque (dequeKey c (if k < 4 then .east else .west) (k % 4)) != [])
    || (allEngines.any fun e => clusterOf e == k && ((s.eng e).job.isSome || isSupervisor e s))

/-- GATED of every cluster; a gated cluster shows no activity. -/
def gateClusters (s : State) : State :=
  forAll (List.range 8) (fun k s =>
    let gated := s.bit pPMU PMU_CTRL_DORMEN && !clusterNeeded k s
    let s := s.putBit (pENG + k) ENG_STAT_GATED gated
    if gated then (s.put (pENG + k) ENG_ACTIVITY_LANEBUSY 0).put (pENG + k) ENG_SOLVACT_BUSY 0 else s) s

/-- Clusters that have become needed wake. -/
def wakeClusters (s : State) : State :=
  forAll (List.range 8) (fun k s =>
    if s.bit (pENG + k) ENG_STAT_GATED && clusterNeeded k s then s.put (pENG + k) ENG_STAT_GATED 0 else s) s

/-! ## The power forecast (R383, R384), in units of 0.01 µW -/

/-- The N term of one release, in halves of a fabric clock. -/
def releaseLoad (t : TaskNo) (s : State) : Nat :=
  match (s.task t).entry with
  | some e => min (5 * (s.rw (e.graph.toNat + 12)).toNat) 125000
  | none => 0

/-- The task is released at base tick `b` under the active profile. -/
def dueUnderActive (t : TaskNo) (b : Nat) (s : State) : Bool :=
  match (s.task t).entry with
  | some e =>
    let p := if profileValid (activeProfile s) s then profilePeriod (activeProfile s) t s else 0
    taskEnabled t s && p != 0 && b % p == e.phase % p
  | none => false

/-- P_F for base tick `b`. -/
def forecast (b : Nat) (s : State) : Nat :=
  let a := (List.range 8).foldl (fun n k => n + s.g (pENG + k) ENG_ACTIVITY_LANEBUSY) 0
  let v := (List.range 8).foldl (fun n k => n + s.g (pENG + k) ENG_SOLVACT_BUSY) 0
  let n := (allTasks.filter fun t => dueUnderActive t b s).foldl (fun n t => n + releaseLoad t s) 0
  430000000 + 192 * a + 96 * n + 400 * v

/-- The limit in force: less the charger's draw while the store fills (R374). -/
def powerLimit (s : State) : Nat :=
  100000 * (s.g pPMU PMU_CAP_LIMIT - if s.bit pPMU PMU_STAT_PFREADY then 0 else 2300)

/-- The tasks in class and then task order. -/
def byClass (s : State) : List TaskNo := (List.range 8).flatMap fun c => allTasks.filter fun t => taskClass t s == c

/-- Releases held at earlier base ticks start while the forecast, with their own load, does not exceed the limit; in a half
that releases no tasks they are dropped (R144). -/
def startHeld (b pf : Nat) (s : State) : State :=
  forAll (byClass s) (fun t s =>
    match (s.task t).heldRel with
    | some (b', p) =>
      if halfHeld (taskHalf t s) s then loseHeld t s
      else if b' < b && pf + 96 * releaseLoad t s ≤ powerLimit s then
        startRelease t b' p (s.setTask t { s.task t with heldRel := none })
      else s
    | none => s) s

/-- The forecast at base tick `b` for the next one, and what it does to held releases. -/
def powerTick (b : Nat) (s : State) : State :=
  let pf := forecast (b + 1) s
  let s := s.put pPMU PMU_FORECAST_PF (min 0xFFFF (pf / 100000))
  let cls := s.g pPMU PMU_CAP_DEFER_CLASS
  let s := { s with sched := { s.sched with defer := if powerLimit s < pf ∧ cls < 8 then some (b + 1, cls) else none } }
  let s := startHeld b pf s
  s.put pPMU PMU_FORECAST_HELD (allTasks.filter fun t => (s.task t).heldRel.isSome).length

/-! ## Base tick (R117 to R119, R388) -/

/-- A task's period under the profile of base tick `b`. Disabled under it, its held release goes; a live scan of a task
whose period changes has its next deadline at or after `b`. -/
def periodTick (t : TaskNo) (b : Nat) (s : State) : State :=
  match (s.task t).entry with
  | some e =>
    if !taskEnabled t s then s
    else
      let p := profilePeriod (profileAt b s) t s
      if p = e.period then s
      else if p = 0 then setEnabled t false (s.setTask t { s.task t with heldRel := none })
      else
        let x := s.task t
        s.setTask t { x with
          entry := some { e with period := p }
          scan := x.scan.map fun sc => { sc with overrunAt := max sc.overrunAt (b - 1) } }
  | none => s

/-- A held release that still waits at its deadline is dropped. -/
def dropHeld (t : TaskNo) (s : State) : State :=
  if (s.task t).heldRel.isSome then (loseHeld t s).bump pPMU PMU_DEFCNT_DROPPED else s

/-- The release of a task at base tick `b`, when it is due and has not been determined. -/
def releaseTick (t : TaskNo) (b : Nat) (s : State) : State :=
  match (s.task t).entry with
  | some e =>
    let known := match (s.task t).lastRel with | some r => b ≤ r | none => false
    if taskEnabled t s && s.bit pSCH SCH_STAT_EN && b % e.period == e.phase % e.period && !known then
      let s := dropHeld t s
      if (s.task t).scan.isSome && !halfHeld (taskHalf t s) s then overrun t b s else determineRelease t b s
    else s
  | none => s

/-- BASE_TICK: the next base tick; `v` is what PRF_SEL shows. -/
def execBaseTick (v : Fin 4) (s : State) : Host.Outcome State Fault Refusal :=
  ok s (if damaskOn s then
    let b := s.sched.btick + 1
    let s := s.untilMtb (25000 * b)
    let s := { s with sched := { s.sched with btick := b } }
    let s := raise pMTB MTB_IRQ_RAW_BTICK s
    let s := pinSample v.val (forAll allTasks (fun t s => periodTick t b s) s)
    let s := activityTick s
    let s := forAll (byClass s) (fun t s => releaseTick t b s) s
    powerTick b (gateClusters (ethTick s))
  else s)

/-! ## Validation (R112, R116, R141) -/

/-- The task's block state is cleared where its entry says INIT. A scan of the task that is still live keeps its dirty lines,
which the spec leaves open (log entry 115). -/
def clearInit (t : TaskNo) (s : State) : State :=
  if (s.rw (taskEntryAddr t s)).getLsbD 9 then
    forAll ((regionsOfTask t s).filter fun k => !rgnRetain k s) clearRegion s
  else s

/-- A validated task is enabled; its first release is at a base tick that begins after now. -/
def enableTask (t : TaskNo) (e : TaskEntry) (s : State) : State :=
  let p := tskPage t
  let s := clearInit t s
  let s := s.setTask t { s.task t with
    entry := some e, lastProfile := if (s.task t).committed then (s.task t).lastProfile else activeProfile s, lastRel := some (nowTick s), scan := (s.task t).scan.map fun sc => { sc with renewed := true } }
  let s := (s.put p TSK_TSTAT_GRAPHERR 0).put p TSK_TSTAT_FIRST 1
  let s := (s.put p TSK_TSTAT_DOM e.dom.toNat).put p TSK_TSTAT_CLASS e.cls.val
  wakeClusters (setEnabled t true (s.putBit p TSK_TSTAT_POLICY e.abort))

/-- A task that fails is not released, also when it was enabled before and two switches have enabled it anew (log 127). -/
def failValidation (t : TaskNo) (s : State) : State :=
  let s := setEnabled t false (s.setTask t { s.task t with heldRel := none })
  raiseLog pSCH SCH_IRQ_RAW_GRAPHERR [byte t.val] (s.put (tskPage t) TSK_TSTAT_GRAPHERR 1)

/-- TASK_VALIDATION of a task that waits for it. -/
def execTaskValidation (t : TaskNo) (s : State) : Host.Outcome State Fault Refusal :=
  ok s (if s.sched.toValidate.contains t then
    let s := { s with sched := { s.sched with toValidate := s.sched.toValidate.erase t } }
    if profileEnables t s then
      match validate t (profilePeriod (activeProfile s) t s) s with
      | some e => enableTask t e s
      | none => failValidation t s
    else s
  else s)

/-! ## SNAPSHOT (R121, R122) -/

/-- The header that is written at XB. -/
def scanHeader (t : TaskNo) (sc : Scan) (s : State) : List Byte :=
  let p := tskPage t
  wordBytes (word (sc.first.toNat + 2 * sc.restored.toNat + 4 * s.g p TSK_TSTAT_PRFCHG
    + 8 * s.g p TSK_TSTAT_MIGRATED))
    ++ wordBytes (word sc.skippedBase) ++ wordBytes (word (s.task t).aborted) ++ wordBytes (word sc.profile)

/-- The phase of a copy engine has ended when its list has: it leaves the engine. -/
def copyNext (h : Half) (c : CopyPhase) (s : State) : State :=
  let rest := (s.copyQ h).tail
  if c.entry < c.count then s.setCopyQ h (c :: rest)
  else
    let s := s.setCopyQ h rest
    match c.publish, (s.task c.task).scan with
    | false, some sc => setScan c.task (some { sc with phase := .ready }) s
    | _, _ => s

/-- SNAPSHOT_START: the half's copy engine takes the release at its head and writes the header. -/
def execSnapshotStart (h : Half) (s : State) : Host.Outcome State Fault Refusal :=
  ok s (match s.copyQ h with
    | c :: _ =>
      if c.publish || c.started || snapshotWaits h c s then s
      else match (s.task c.task).scan with
        | some sc =>
          let s := s.wbytes c.base.toNat (scanHeader c.task sc s)
          copyNext h { c with started := true } (setScan c.task (some { sc with phase := .snapshot 0 }) s)
        | none => s
    | [] => s)

/-- An entry is refused: one violation event for the release. -/
def refuseEntry (c : CopyPhase) (addr : Word) (kind : Nat) (s : State) : State :=
  if c.violated then s else releaseViolation (1 + pDOM) c.dom c.task 0xFFFF addr 1 kind s

/-- A single-bit error of the source is corrected and reported (R394). -/
def correctedEntry (base : Nat) (bad : Option EntryUpset) (s : State) : State :=
  match bad with
  | some u => if u.double then s else raiseFault 4 true 0 (word (base + 4 * u.word)) s
  | none => s

/-- The place of a double-bit error in the source. -/
def deadWord (base : Nat) (bad : Option EntryUpset) : Option Word :=
  match bad with
  | some u => if u.double then some (word (base + 4 * u.word)) else none
  | none => none

/-- SNAPSHOT_ENTRY: the next entry of the SNAPSHOT in progress. -/
def execSnapshotEntry (h : Half) (bad : Option EntryUpset) (s : State) : Host.Outcome State Fault Refusal :=
  ok s (match s.copyQ h with
    | c :: _ =>
      match (s.task c.task).scan, (s.task c.task).entry with
      | some sc, some e =>
        if c.publish || !c.started then s
        else
          let x := copyEntry c.list.toNat c.entry s
          let next := { c with entry := c.entry + 1 }
          if entryReadable c.dom e.xb.toNat e.yb.toNat x.addr x.len s then
            let s := correctedEntry x.addr bad s
            let s := s.wbytes (c.base.toNat + x.off) (s.bytes x.addr x.len)
            match deadWord x.addr bad with
            | some a => gsramDead c.task 0 (raiseFault 4 false 0 a s)
            | none => copyNext h next (setScan c.task (some { sc with phase := .snapshot next.entry }) s)
          else
            let s := s.wbytes (c.base.toNat + x.off) (List.replicate x.len 0)
            let s := refuseEntry { c with violated := sc.violated } (word x.addr) vkSnapshot s
            copyNext h { next with violated := true }
              (setScan c.task (some { sc with phase := .snapshot next.entry, violated := true }) s)
      | _, _ => s
    | [] => s)

/-! ## EXECUTE and COMMIT (R123 to R129) -/

/-- The ready counts are written and the root jobs queued. -/
def beginExecute (t : TaskNo) (sc : Scan) (e : TaskEntry) (s : State) : State :=
  let ds := (List.range e.njobs).map fun j => (j, (jobDesc e.graph.toNat j s).npred)
  let s := forAll ds (fun d s => s.wh (e.rcbase.toNat + 2 * d.1) d.2) s
  let s := setScan t (some { sc with phase := .execute }) s
  checkStall t (forAll (ds.filter fun d => d.2 == 0) (fun d s => queueJob t e d.1 s) s)

/-- EXECUTE_START: SNAPSHOT has ended, and nothing of the task is pending at the bank ports. -/
def execExecuteStart (t : TaskNo) (s : State) : Host.Outcome State Fault Refusal :=
  ok s (match (s.task t).scan, (s.task t).entry with
    | some sc, some e => if sc.phase == .ready && !taskPending t s then beginExecute t sc e s else s
    | _, _ => s)

/-- JOB_TAKE: an interrupt that a sleeping supervisor engine could take comes before a job (R107). -/
def execJobTake (e : EngNo) (s : State) : Host.Outcome State Fault Refusal :=
  ok s (if isSupervisor e s && (offered e s).isSome then s else takeJob e s)

/-- COPY_FORWARD_DONE: the lines of the task that wait at the bank ports are copied. -/
def execCopyForwardDone (t : TaskNo) (s : State) : Host.Outcome State Fault Refusal := ok s (copyDone t s)

/-- SCAN_DEADLINE: the start of the task's next release finds its scan not committed. -/
def execScanDeadline (t : TaskNo) (s : State) : Host.Outcome State Fault Refusal :=
  ok s (match deadlineTick t s with
    | some b => overrun t b (s.untilMtb (25000 * b))
    | none => s)

/-! ## PUBLISH (R131, R387, R394) -/

/-- One word of an entry, with the override that the active profile puts in its place. -/
def publishWord (dst src : Nat) (s : State) : State := s.ww dst ((overrideAt dst s).getD (s.rw src))

/-- The first cut-off at or after now that has not passed. -/
def nextCutoff (s : State) : Nat :=
  let f := (s.mtb + 2000) / 100000
  let c := if (s.mtb + 2000) % 100000 = 0 then 100000 * f - 2000 else 100000 * (f + 1) - 2000
  if c ≤ s.sched.cutoff then c + 100000 else c

/-- The cut-off at count `c`: the local output image, as it stands, goes to Muslin. -/
def cutoffAt (c : Nat) (s : State) : State :=
  let s := { s with sched := { s.sched with cutoff := c }, field := { s.field with
    aoBased := s.g pAIO AIO_OUTBASE_BASE != 0, doBased := s.g pDIO DIO_OUTBASE_BASE != 0 } }
  if s.linkUp .damask then
    sendBulk .damask 0x01 (bytesWords (s.bytes (s.g pAIO AIO_OUTBASE_BASE * 16) 512
      ++ s.bytes (s.g pDIO DIO_OUTBASE_BASE * 16) 48)) s
  else s

/-- A publish entry that completes at the count of a cut-off comes after it (R132). -/
def cutoffFirst (s : State) : State := if nextCutoff s = s.mtb then cutoffAt s.mtb s else s

/-- PUBLISH_ENTRY: the copy engine takes the PUBLISH at its head, or goes on with it. -/
def execPublishEntry (h : Half) (bad : Option EntryUpset) (s : State) : Host.Outcome State Fault Refusal :=
  ok s (match s.copyQ h with
    | c :: rest =>
      if !c.publish then s
      else
        let s := cutoffFirst s
        let x := copyEntry c.list.toNat c.entry s
        let src := c.base.toNat + x.off
        let next := { c with entry := c.entry + 1, started := true }
        if entryWritable c.dom c.base.toNat x.addr x.len s then
          let s := correctedEntry src bad s
          match deadWord src bad with
          | some a =>
            let s := raiseFault 4 false 0 a (s.setCopyQ h rest)
            let s := s.setReg pSCH 0x06C (word (2 ^ 29 + c.task.val * 2 ^ 23))
            raise pSCH SCH_IRQ_RAW_JOBFAULT s
          | none =>
            copyNext h next (forAll (List.range (x.len / 4)) (fun i s => publishWord (x.addr + 4 * i) (src + 4 * i) s) s)
        else copyNext h { next with violated := true } (refuseEntry c (word x.addr) vkPublish s)
    | [] => s)

/-! ## Job timer (R79, R137) -/

/-- MTB count at which 4 × WCET engine clocks have passed since the job started. -/
def timerEnd (j : JobRun) : Nat := j.start + (8 * j.wcet + 9) / 10

/-- The requests at a cluster's solver. -/
def setSolver (k : Nat) (ops : List SolverOp) (s : State) : State :=
  { s with sched := { s.sched with solver := tset (fun _ => []) s.sched.solver k ops } }

/-- A lane that is halted and reset: its transactions bring it nothing any more, and its solver operation is withdrawn. A lane that held no role can take jobs
again once firmware clears its EXCL. -/
def haltLane (e : EngNo) (s : State) : State :=
  let s := withholdWhere (fun x => x.eng == e) s
  let s := { s with icache := tclear (fun k => k == e.val) s.icache }
  let k := clusterOf e
  let ops := tget (fun _ => []) s.sched.solver k
  let s := setSolver k (ops.filter fun o => o.eng != e) (countSolver k s)
  setMode e (if isSupervisor e s then .halted else .idle) (s.setEng e { engStopped with mode := (s.eng e).mode, busyFrom := (s.eng e).busyFrom })

/-- JOB_TIMER_EXPIRY. -/
def execJobTimerExpiry (e : EngNo) (s : State) : Host.Outcome State Fault Refusal :=
  ok s (match (s.eng e).job with
    | some j =>
      let s := s.untilMtb (timerEnd j)
      let s := setExcl e (errCount e 7 0 false s)
      let s := s.put (engPage e) ⟨0x00C, laneOf e, 1⟩ 1
      haltLane e (jobError e 7 0 s)
    | none => s)

/-! ## Output cut-off (R132) -/

/-- OUTPUT_TRANSFER_CUTOFF: the local output image goes to Muslin. -/
def execOutputTransferCutoff (s : State) : Host.Outcome State Fault Refusal :=
  ok s (if damaskOn s then
    let c := nextCutoff s
    cutoffAt c (s.untilMtb c)
  else s)

/-! ## Field tick (R205, R308, R375, R420) -/

/-- A bit error appears in a flash granule. -/
def decay (x : Nat × Bool) (s : State) : State :=
  s.setFlash { s.flash with errors := tset (fun _ => 0) s.flash.errors x.1 (if x.2 then 2 else 1) }

/-- The four indicators. -/
def ledStates (s : State) : List Led :=
  let off := s.bit pPMU PMU_STAT_DOFF
  let e := halfState .east s
  let w := halfState .west s
  [if off then .slow else if s.bit pPMU PMU_STAT_SUPGOOD then .on else .off,
   if faultNLow s then .on else .off,
   if e = hsRecovery ∨ w = hsRecovery then .fast
   else if e = hsRun ∧ w = hsRun then .on else if e = hsRun ∨ w = hsRun then .slow else .off,
   if s.bit pDDLM DDL_STAT_PAIRFLT then .fast else if s.linkUp .muslin then .on else .off]

/-- The field side of the boundary that ends tick `f`. -/
def fieldSide (f : Nat) (x : FieldSample) (s : State) : State :=
  let was := allChans.map fun n => (n, (s.ain n).cfg)
  let s := fieldBoundary f x s
  let s := forAll was (fun c s => hartBoundary c.1 c.2 s) s
  let s := flashAdmit s
  syncLevels { s with field := { s.field with leds := ledStates s } }

/-- The tick that a boundary opens: the next one, or the one in which a replica that was stepped forward lies (R38). -/
def openedTick (s : State) : Nat := max (s.field.tick + 1) (s.replica / 100000)

/-- FIELD_TICK: the boundary that ends the field tick in progress, at its end or, past it, at once. After the power-fail
plan Muslin only watches its supply. -/
def execFieldTick (x : FieldSample) (s : State) : Host.Outcome State Fault Refusal :=
  let s := setPins x.straps s
  ok s (if s.power.held then s
  else
    let f := s.field.tick
    let g := openedTick s
    let s := s.untilReplica (100000 * (f + 1))
    let s := { s with field := { s.field with tick := g } }
    let s := pmuMeasure x (forAll x.decayed decay s)
    if muslinRuns s then damaskOverdue (fieldSide f x s) else s)

end Sys2Proof.Machine
end

