-- ==== Sys2Proof/Machine/Solver.lean ====
section
/-! DEFINITION. The solver unit of a cluster: the operands of MAT, the four operations in binary32, the column-sum check,
completion (R73 to R75, R102). -/

namespace Sys2Proof.Machine

open Reg

/-! ## Issue (R102) -/

def solverQueue (k : Nat) (s : State) : List SolverOp := tget (fun _ => []) s.sched.solver k

/-- The dimension word allows the operation (R73). -/
def dimsGood (fn : SolverFn) (o : SolverOp) (dims : Word) : Bool :=
  let good := fun (d : Nat) => 1 ≤ d && d ≤ 32
  (dims &&& ~~~0x003F3F3F) == 0 &&
    match fn with
    | .gemv => o.k == 0 && good o.m && good o.n
    | .gemm => good o.m && good o.k && good o.n
    | .chol => o.m == 0 && o.k == 0 && good o.n && o.b == 0
    | .solve => o.m == 0 && o.k == 0 && good o.n

/-- Address and words of the inputs, then of the result. -/
def extents (o : SolverOp) : List (Word × Nat) × (Word × Nat) :=
  match o.fn with
  | .gemv => ([(o.a, o.m * o.n), (o.b, o.n)], (o.c, o.m))
  | .gemm => ([(o.a, o.m * o.k), (o.b, o.k * o.n)], (o.c, o.m * o.n))
  | .chol => ([(o.a, o.n * o.n)], (o.c, o.n * o.n))
  | .solve => ([(o.a, o.n * o.n), (o.b, o.n)], (o.c, o.n))

/-- The operand check that fails first, as the address it is about; 0 where it is about no address. -/
def matFault (ra : Reg) (dims : Word) (o : SolverOp) : Option Word :=
  let (ins, out) := extents o
  let all := ins ++ [out]
  let base := instBase + 0x80000 * clusterOf o.eng
  if ra = 0 ∨ 12 < ra.val ∨ !dimsGood o.fn o dims then some 0
  else match all.find? fun x => x.1.extractLsb' 0 2 != 0 with
    | some x => some x.1
    | none =>
      match all.find? fun x => x.1.toNat < base ∨ base + 0x80000 < x.1.toNat + 4 * x.2 with
      | some x => some x.1
      | none =>
        if ins.any fun x => x.1.toNat < out.1.toNat + 4 * out.2 && out.1.toNat < x.1.toNat + 4 * x.2 then some out.1
        else none

/-- The registers ra to ra + 3. -/
def operandReg (ra : Reg) (i : Nat) : Reg := ⟨(ra.val + i) % 16, Nat.mod_lt _ (by decide)⟩

/-- The slot and the grant that MAT needs: its cluster's crossbar grants it the solver (R76). -/
def issueMat (x : Issue) (srcs : List Reg) (run : State → State) (s : State) : State :=
  let t := solverTarget (clusterOf x.eng)
  if slotsShort x.eng [instBase] s then s
  else if canIssue x.eng srcs s && targetWaits x.eng t s then waitForTarget x.eng t s
  else issue x srcs run s

/-- MAT: the operands are checked and the operation joins the cluster's waiting requests. -/
def matIssue (x : Issue) (fn : SolverFn) (rd ra : Reg) (s : State) : State :=
  let e := x.eng
  let srcs := (List.range 4).map fun i => operandReg ra i
  issueMat x srcs (residued x fun s =>
    let v := fun i => gr e (operandReg ra i) s
    let d := v 3
    let o : SolverOp :=
      ⟨e, rd, fn, v 0, v 1, v 2, (d.extractLsb' 0 6).toNat, (d.extractLsb' 8 6).toNat, (d.extractLsb' 16 6).toNat⟩
    match matFault ra d o with
    | some a => exception e xMat 0 a s
    | none =>
      let k := clusterOf e
      let s := grantTarget e (solverTarget k) s
      let q := solverQueue k s
      let s := if q = [] then
          { s with sched := { s.sched with solverFrom := tset (fun _ => 0) s.sched.solverFrom k s.mtb } } else s
      setMode e .solver (setSolver k (q ++ [o]) s)) s

/-- MAT with fn GEMV. -/
def execGemv (x : Issue) (rd ra : Reg) (s : State) : Host.Outcome State Fault Refusal := ok s (matIssue x .gemv rd ra s)

/-- MAT with fn GEMM. -/
def execGemm (x : Issue) (rd ra : Reg) (s : State) : Host.Outcome State Fault Refusal := ok s (matIssue x .gemm rd ra s)

/-- MAT with fn CHOL. -/
def execChol (x : Issue) (rd ra : Reg) (s : State) : Host.Outcome State Fault Refusal := ok s (matIssue x .chol rd ra s)

/-- MAT with fn SOLVE. -/
def execSolve (x : Issue) (rd ra : Reg) (s : State) : Host.Outcome State Fault Refusal := ok s (matIssue x .solve rd ra s)

/-! ## Arithmetic (R74) -/

def mulF (a b : Word) : Word := (fMul a b).1
def addF (a b : Word) : Word := (fAdd a b).1
def subF (a b : Word) : Word := (fSub a b).1
def divF (a b : Word) : Word := (fDiv a b).1
def sqrtF (a : Word) : Word := (fSqrt a).1

/-- Element (i, j) of a row-major matrix with `n` columns. -/
def elemAt (v : List Word) (n i j : Nat) : Word := v.getD (n * i + j) 0

/-- A dot product over eight lanes: lane l sums the terms l, l + 8, … from +0. -/
def dotF (xs : List (Word × Word)) : Word :=
  let lane := fun l => ((List.range xs.length).filter fun j => j % 8 == l).foldl (fun acc j =>
    addF acc (mulF (xs.getD j (0, 0)).1 (xs.getD j (0, 0)).2)) 0
  addF (addF (addF (lane 0) (lane 1)) (addF (lane 2) (lane 3))) (addF (addF (lane 4) (lane 5)) (addF (lane 6) (lane 7)))

def gemm (m k n : Nat) (a b : List Word) : List Word :=
  (List.range m).flatMap fun i => (List.range n).map fun j =>
    dotF ((List.range k).map fun l => (elemAt a k i l, elemAt b n l j))

/-- Element (i, j), j ≤ i, of the factor; `l` holds the elements computed before it. -/
def cholElem (n : Nat) (a l : List Word) (i j : Nat) : Word :=
  let v := subF (elemAt a n i j) (dotF ((List.range j).map fun c => (elemAt l n i c, elemAt l n j c)))
  if i = j then (if !fIsNaN v && fKey v ≤ 0 then fNaN else sqrtF v) else divF v (elemAt l n j j)

/-- A pivot that is not positive: it has given NaN without being one. -/
def badPivot (n : Nat) (a l : List Word) (i : Nat) : Bool :=
  let v := subF (elemAt a n i i) (dotF ((List.range i).map fun c => (elemAt l n i c, elemAt l n i c)))
  !fIsNaN v && decide (fKey v ≤ 0)

/-- The elements of the lower triangle in the order in which they are computed. -/
def cholOrder (rows : Bool) (n : Nat) : List (Nat × Nat) :=
  if rows then (List.range n).flatMap fun i => (List.range (i + 1)).map fun j => (i, j)
  else (List.range n).flatMap fun j => (List.range (n - j)).map fun d => (j + d, j)

/-- The factor: after a non-positive pivot every later element is NaN. -/
def chol (n : Nat) (a : List Word) : List Word :=
  ((cholOrder Config.cholRows n).foldl (fun (acc : List Word × Bool) ij =>
    let l := acc.1
    if acc.2 then (l.set (n * ij.1 + ij.2) fNaN, true)
    else (l.set (n * ij.1 + ij.2) (cholElem n a l ij.1 ij.2), ij.1 == ij.2 && badPivot n a l ij.1))
    (List.replicate (n * n) 0, false)).1

/-- L·y = b forward, then Lᵀ·x = y backward. -/
def solve (n : Nat) (l b : List Word) : List Word :=
  let y := (List.range n).foldl (fun y i =>
    y ++ [divF (subF (b.getD i 0) (dotF ((List.range i).map fun j => (elemAt l n i j, y.getD j 0)))) (elemAt l n i i)])
    []
  (List.range n).reverse.foldl (fun x i =>
    divF (subF (y.getD i 0) (dotF ((List.range (n - 1 - i)).map fun d => (elemAt l n (i + 1 + d) i, x.getD d 0))))
      (elemAt l n i i) :: x) []

/-! ## Column-sum check (R75) -/

def finiteF (w : Word) : Bool := fExp w != 255

/-- A number rounded to the 53 significant bits of binary64, ties to even. Every number here is an integer in a fixed unit,
2⁻¹⁴⁹ for each binary32 factor, and far from the ends of binary64's range. -/
def round53 (n : Int) : Int :=
  let m := n.natAbs
  let k := Nat.log2 m - 52
  let q := m / 2 ^ k
  let r := 2 * (m % 2 ^ k)
  let up := 2 ^ k < r ∨ (2 ^ k = r ∧ q % 2 = 1)
  let v := Int.ofNat ((if up then q + 1 else q) * 2 ^ k)
  if n < 0 then -v else v

/-- A binary64 sum and product; terms are added in the order in which they stand (log entry 23). -/
def sum64 (l : List Int) : Int := l.foldl (fun a b => round53 (a + b)) 0
def mul64 (a b : Int) : Int := round53 (a * b)
def absSum64 (l : List Int) : Int := sum64 (l.map fun p => Int.ofNat p.natAbs)

/-- |s − t| ≤ 2⁻¹⁶ × B. -/
def sumClose (s t b : Int) : Bool := (s - t).natAbs * 2 ^ 16 ≤ b.natAbs

/-- Column `j` of C = A·B: the sum of its elements, and the sum that the column sums of A predict; B is the sum of the
products' absolute values. A column with a factor that is not finite has no finite B. -/
def gemmColumnGood (m k n : Nat) (a b c : List Word) (j : Nat) : Bool :=
  let col := (List.range k).map fun l => elemAt b n l j
  let res := (List.range m).map fun i => elemAt c n i j
  if (col ++ a).any fun w => !finiteF w then true
  else if res.any fIsNaN || (res.any fun w => fIsInf w && fSign w) && (res.any fun w => fIsInf w && !fSign w) then true
  else if res.any fIsInf then false
  else
    let aSum := fun l => sum64 ((List.range m).map fun i => fInt (elemAt a k i l))
    let t := sum64 ((List.range k).map fun l => mul64 (aSum l) (fInt (elemAt b n l j)))
    let ps := (List.range m).flatMap fun i => (List.range k).map fun l => mul64 (fInt (elemAt a k i l)) (fInt (elemAt b n l j))
    sumClose (sum64 (res.map fun w => fInt w * 2 ^ 149)) t (absSum64 ps)

def gemmGood (m k n : Nat) (a b c : List Word) : Bool := (List.range n).all (gemmColumnGood m k n a b c)

/-- The products that form element (i, j) of L·Lᵀ. -/
def squareTerms (n : Nat) (l : List Word) (i j : Nat) : List (Word × Word) :=
  (List.range (min i j + 1)).map fun c => (elemAt l n i c, elemAt l n j c)
def squareProducts (n : Nat) (l : List Word) (i j : Nat) : List Int :=
  (squareTerms n l i j).map fun x => mul64 (fInt x.1) (fInt x.2)
def squareFinite (n : Nat) (l : List Word) (i j : Nat) : Bool :=
  (squareTerms n l i j).all fun x => finiteF x.1 && finiteF x.2

/-- CHOL: the column sums of L·Lᵀ and of A. -/
def cholGood (n : Nat) (a l : List Word) : Bool :=
  (List.range n).all fun j =>
    if (List.range n).any fun i => !squareFinite n l i j then true
    else
      let elems := (List.range n).map fun i => sum64 (squareProducts n l i j)
      let t := sum64 ((List.range n).map fun i => fInt (elemAt a n (max i j) (min i j)) * 2 ^ 149)
      sumClose (sum64 elems) t (absSum64 ((List.range n).flatMap fun i => squareProducts n l i j))

/-- SOLVE: the sum of A·x, with A formed again from L, and the sum of b; B is over the products of A and x. -/
def solveGood (n : Nat) (l b x : List Word) : Bool :=
  let pairs := (List.range n).flatMap fun i => (List.range n).map fun j => (i, j)
  if (pairs.any fun y => !squareFinite n l y.1 y.2) || (x.any fun w => !finiteF w) || b.any fun w => !finiteF w then true
  else
    let ps := pairs.map fun y => mul64 (sum64 (squareProducts n l y.1 y.2)) (fInt (x.getD y.2 0))
    sumClose (sum64 ps) (sum64 (b.map fun w => fInt w * 2 ^ 298)) (absSum64 ps)

/-- The result of an operation on its operands, and whether its check passes. -/
def solverCompute (o : SolverOp) (a b : List Word) : List Word × Bool :=
  match o.fn with
  | .gemv => let y := gemm o.m o.n 1 a b; (y, gemmGood o.m o.n 1 a b y)
  | .gemm => let c := gemm o.m o.k o.n a b; (c, gemmGood o.m o.k o.n a b c)
  | .chol => let l := chol o.n a; (l, cholGood o.n a l)
  | .solve => let x := solve o.n a b; (x, solveGood o.n a b x)

/-! ## Element accesses (R71, R73, R95) -/

/-- The elements of an operand that the operation reads, by index: CHOL and SOLVE read only the diagonal and the lower
triangle of their matrix (R102). -/
def elemsRead (o : SolverOp) (operand n : Nat) : List Nat :=
  if operand = 0 ∧ (o.fn = .chol ∨ o.fn = .solve) then (List.range n).filter fun i => i % o.n ≤ i / o.n else List.range n

/-- An element read for the issuing job: a refused one is zero and a violation; an error of its code is masked, or fails the
operation. -/
def readElem (x : Issue) (a : Nat) (s : State) : Option Word × State :=
  if instReadable x.eng a s then readInst x a s else (some 0, collect x.eng (word a) vkRead s)

/-- The elements at these indexes of an operand, in rising order (log entry 114); the others count as zero. -/
def readElems (x : Issue) (a : Nat) : List Nat → List Word → State → Option (List Word) × State
  | [], vs, s => (some vs, s)
  | i :: is, vs, s =>
    match readElem x (a + 4 * i) s with
    | (none, s) => (none, s)
    | (some v, s) => readElems (pastWords x 1) a is (vs.set i v) s

/-- Operand `k` of `n` words, when `past` elements have been read before it. -/
def readOperand (x : Issue) (o : SolverOp) (k past a n : Nat) (s : State) : Option (List Word) × State :=
  readElems (pastWords x past) a (elemsRead o k n) (List.replicate n 0) s

/-- Elements written for the issuing job; those of a dead job are dropped. -/
def writeElems (e : EngNo) (a : Nat) : List Word → State → State
  | [], s => s
  | v :: vs, s =>
    writeElems e (a + 4) vs
      (if jobDead e s then s else if instWritable e a s then writeInst e a v s else collect e (word a) vkWrite s)

/-- The regions of a result of firmware hold a busy task: the stores are refused (R130). -/
def resultBusy (e : EngNo) (a n : Nat) (s : State) : Option Nat :=
  if inTask e s then none
  else ((List.range n).map fun i => a + 4 * i).find? fun w => taskBusy (rgnTask (regionOf w) s) s

/-! ## Completion (R75, R102) -/

/-- The next waiting operation begins. -/
def solverNext (k : Nat) (s : State) : State :=
  let s := countSolver k s
  let s := setSolver k (solverQueue k s).tail s
  (s.incr (pENG + k) ENG_SOLVCNT_COUNT)

/-- The operation's arithmetic is done: the column-sum check, then the result's stores. -/
def solverResult (o : SolverOp) (u : Upset) (a b : List Word) (s : State) : State :=
  let e := o.eng
  let out := (extents o).2
  let r := solverCompute o a b
  if !r.2 || u == .columnSum then checkFails e 3 0 0 s
  else match resultBusy e out.1.toNat out.2 s with
    | some w => accessError e 1 (word w) (raise pIMG IMG_IRQ_RAW_SUPWR s)
    | none => result e o.rd 0 (writeElems e out.1.toNat r.1 s)

/-- The running operation completes for the engine that waits for it: A or L, then the second operand, then the result
(log entry 114). -/
def solverFinish (o : SolverOp) (u : Upset) (s : State) : State :=
  let x : Issue := ⟨o.eng, u, 0⟩
  let ins := (extents o).1
  let na := (ins.getD 0 (0, 0)).2
  match readOperand x o 0 0 o.a.toNat na (setMode o.eng .run s) with
  | (none, s) => s
  | (some a, s) =>
    match readOperand x o 1 (elemsRead o 0 na).length o.b.toNat (ins.getD 1 (0, 0)).2 s with
    | (none, s) => s
    | (some b, s) => solverResult o u a b s

/-- SOLVER_OP_DONE: the operation at the head of cluster `k`'s solver completes. -/
def execSolverOpDone (k : Fin 8) (u : Upset) (s : State) : Host.Outcome State Fault Refusal :=
  ok s (match solverQueue k.val s with
    | o :: _ =>
      let s := solverNext k.val s
      if (s.eng o.eng).mode == .solver then solverFinish o u s else s
    | [] => s)

end Sys2Proof.Machine
end

