-- ==== Sys2Proof/Machine/Supervisor.lean ====
section
/-! DEFINITION. Special registers, the end of a job, the supervisor instructions, interrupts and the exceptions that no
instruction's operands raise (R70, R82 to R84, R86, R104 to R111, R142, R143). -/

namespace Sys2Proof.Machine

open Reg

/-! ## Special registers (R82, R83) -/

/-- The value of a special register 0 to 12. -/
def special (e : EngNo) (n : Nat) (s : State) : Word :=
  let x := s.eng e
  match n with
  | 0 => x.pc
  | 1 => x.fl
  | 2 => x.ib
  | 3 => x.xb
  | 4 => x.yb
  | 5 => ttOf e s
  | 6 => x.sp
  | 7 => if inTask e s then x.jobid else 0
  | 8 => x.epc
  | 9 => x.efl
  | 10 => x.ecause
  | 11 => x.eaddr
  | _ => x.vbase

/-- The special register written. -/
def setSpecial (e : EngNo) (n : Nat) (v : Word) (s : State) : State :=
  let x := s.eng e
  match n with
  | 1 => s.setEng e { x with fl := writeFl (inTask e s) x.fl v }
  | 2 => s.setEng e { x with ib := v }
  | 3 => s.setEng e { x with xb := v }
  | 4 => s.setEng e { x with yb := v }
  | 6 => s.setEng e { x with sp := v }
  | 8 => s.setEng e { x with epc := v }
  | 9 => s.setEng e { x with efl := v }
  | 10 => s.setEng e { x with ecause := v }
  | 11 => s.setEng e { x with eaddr := v }
  | 12 => s.setEng e { x with vbase := v &&& 0xFFFFFF00 }
  | _ => s

/-- MFS (R82). -/
def execMfs (x : Issue) (rd : Reg) (n : BitVec 16) (s : State) : Host.Outcome State Fault Refusal :=
  ok s (issue x [] (fun s =>
    if 12 < n.toNat then exception x.eng xIllegal 0 0 s
    else if inTask x.eng s && 8 ≤ n.toNat then exception x.eng xPrivileged 0 0 s
    else result x.eng rd (special x.eng n.toNat s) s) s)

/-- MTS (R82). -/
def execMts (x : Issue) (ra : Reg) (n : BitVec 16) (s : State) : Host.Outcome State Fault Refusal :=
  ok s (issue x [ra] (fun s =>
    let k := n.toNat
    if 12 < k ∨ k = 0 ∨ k = 5 ∨ k = 7 then exception x.eng xIllegal 0 0 s
    else if inTask x.eng s && (8 ≤ k || (2 ≤ k && k ≤ 4)) then exception x.eng xPrivileged 0 0 s
    else advance x.eng (setSpecial x.eng k (gr x.eng ra s) s)) s)

/-! ## The end of a job (R104, R105) -/

/-- YIELD: the job is complete when the engine's slots are free. -/
def execYield (x : Issue) (s : State) : Host.Outcome State Fault Refusal :=
  ok s (issue x [] (fun s =>
    if inTask x.eng s then settleYield x.eng (setMode x.eng .yielding s)
    else exception x.eng xIllegal 0 0 s) s)

/-- FAULT. -/
def execFault (x : Issue) (code : BitVec 16) (s : State) : Host.Outcome State Fault Refusal :=
  ok s (issue x [] (fun s => exception x.eng xFault code.toNat 0 s) s)

/-! ## Supervisor instructions (R106 to R108) -/

/-- A store of a word to a register page, of either die. -/
def storePage (x : Issue) (a : Nat) (v : Word) (s : State) : State :=
  if isRemote a then remoteStore x.eng a v s else writeWord x a v s

/-- PLK: the unlock value to LOCK of the target's page, then the value to the target. -/
def execPlk (x : Issue) (ra rb rc : Reg) (s : State) : Host.Outcome State Fault Refusal :=
  let a := (gr x.eng ra s).toNat
  let lock := a / 4096 * 4096 + 0x020
  ok s (issueMem x [ra, rb, rc] [lock, a] (privileged x.eng fun s =>
    residued x (fun s =>
      let e := x.eng
      match refusal e true 4 a s with
      | some f => f s
      | none =>
        if !(inDamaskPages a || inMuslinPages a) || !(a % 4096 == 0x008 || 0x040 ≤ a % 4096) then accessError e 7 (word a) s
        else
          let unlock := gr e rb s
          let v := gr e rc s
          storePage x a v (storePage x lock unlock (advance e s))) s) s)

/-- IRET. -/
def execIret (x : Issue) (s : State) : Host.Outcome State Fault Refusal :=
  ok s (issue x [] (privileged x.eng fun s =>
    let y := s.eng x.eng
    s.setEng x.eng { y with pc := y.epc, fl := y.efl &&& 0xFF1F }) s)

/-- SLEEP. -/
def execSleep (x : Issue) (s : State) : Host.Outcome State Fault Refusal :=
  ok s (issue x [] (privileged x.eng fun s => setMode x.eng .sleep (advance x.eng s)) s)

/-- The scheduler's answer to a request to move task `t` to half `h`, and what it does. -/
def migrate (t : TaskNo) (h : Half) (s : State) : Word × State :=
  if !taskEnabled t s then (2, s)
  else if taskMigPend t s || taskHalf t s == h then (1, s)
  else
    let s := if (s.task t).scan.isSome then setMigPend t true s
      else raise pSCH SCH_IRQ_RAW_MIGDONE (setWest t (h == .west) s)
    (0, wakeClusters s)

/-- MIGRATE. -/
def execMigrate (x : Issue) (rd ra rb : Reg) (s : State) : Host.Outcome State Fault Refusal :=
  ok s (issue x [ra, rb] (privileged x.eng fun s =>
    let t := gr x.eng ra s
    let h := gr x.eng rb s
    if 64 ≤ t.toNat ∨ 2 ≤ h.toNat then result x.eng rd 3 s
    else
      let r := migrate ⟨t.toNat % 64, Nat.mod_lt _ (by decide)⟩ (halfAt h.toNat) s
      result x.eng rd r.1 r.2) s)

/-! ## Interrupts (R70, R107, R110) -/

/-- INTERRUPT_ENTRY: an engine in supervisor mode with IE = 1 takes the lowest pending source routed to it. Between
instructions an exception that waits comes first; in SLEEP the interrupt is taken (R107), and the exception then comes at the
handler's first instruction (R111). -/
def execInterruptEntry (e : EngNo) (s : State) : Host.Outcome State Fault Refusal :=
  ok s (
    let x := s.eng e
    match offered e s with
    | some n =>
      if !inTask e s && (x.mode == .sleep || (x.mode == .run && x.record == none && x.remErr == none)) && x.fl.getLsbD flIE then
        setMode e .run (s.setEng e
          { x with epc := x.pc, efl := x.fl, fl := setBit x.fl flIE false, ecause := ecauseWord xInterrupt n false,
                   eaddr := 0, pc := x.vbase + 0x40 })
      else s
    | none => s)

/-- SLEEP_WAKE: a pending interrupt with IE = 0 ends SLEEP. -/
def execSleepWake (e : EngNo) (s : State) : Host.Outcome State Fault Refusal :=
  ok s (
    let x := s.eng e
    if x.mode == .sleep && !x.fl.getLsbD flIE && (offered e s).isSome then setMode e .run s else s)

/-! ## Exceptions that no instruction raises (R47, R86, R111) -/

/-- REMOTE_ACCESS_EXCEPTION: the error of a transaction is taken at an instruction boundary or at YIELD. -/
def execRemoteAccessException (e : EngNo) (s : State) : Host.Outcome State Fault Refusal :=
  ok s (
    let x := s.eng e
    match x.remErr with
    | some a =>
      if (x.mode == .run && x.record == none) || x.mode == .yielding then
        if inTask e s then jobFault e 2 xRemote a s
        else enterException e xRemote 4 a true (s.setEng e { x with remErr := none })
      else s
    | none => s)

/-- ILLEGAL_INSTRUCTION: the word fetched is no instruction. -/
def execIllegalInstruction (x : Issue) (s : State) : Host.Outcome State Fault Refusal :=
  ok s (issue x [] (fun s => exception x.eng xIllegal 0 0 s) s)

/-- FETCH_ACCESS_ERROR: the fetch of the next instruction is not allowed. -/
def execFetchAccessError (e : EngNo) (s : State) : Host.Outcome State Fault Refusal :=
  ok s (
    let x := s.eng e
    match fetchError e x.pc.toNat s with
    | some k => if x.mode == .run && x.record == none && x.remErr == none then accessError e k x.pc s else s
    | none => s)

end Sys2Proof.Machine
end

