-- ==== Sys2Proof/Machine/Dispatch.lean ====
section
/-! DEFINITION. One arm per command: each calls its own meaning. -/

namespace Sys2Proof.Machine

def exec (i : Instr) (s : State) : Host.Outcome State Fault Refusal :=
  match i with
  | .powerOnReset x lost => Sys2Proof.Machine.execPowerOnReset x lost s
  | .moduleReset low x => Sys2Proof.Machine.execModuleReset low x s
  | .modrst r d => Sys2Proof.Machine.execModrst r d s
  | .damaskRestart r => Sys2Proof.Machine.execDamaskRestart r s
  | .halfBoot r h slot => Sys2Proof.Machine.execHalfBoot r h slot s
  | .linkReset => Sys2Proof.Machine.execLinkReset s
  | .registerWrite r a v tie => Sys2Proof.Machine.execRegisterWrite r a v s tie
  | .readClear r a => Sys2Proof.Machine.execReadClear r a s
  | .irqForce r p v => Sys2Proof.Machine.execIrqForce r p v s
  | .lockWrite r p v => Sys2Proof.Machine.execLockWrite r p v s
  | .lockTimeout p => Sys2Proof.Machine.execLockTimeout p s
  | .rdReq p => Sys2Proof.Machine.execRdReq p s
  | .wrReq p tie => Sys2Proof.Machine.execWrReq p s tie
  | .rdRsp p => Sys2Proof.Machine.execRdRsp p s
  | .wrRsp p => Sys2Proof.Machine.execWrRsp p s
  | .ack d p => Sys2Proof.Machine.execAck d p s
  | .nak d p => Sys2Proof.Machine.execNak d p s
  | .credit d p => Sys2Proof.Machine.execCredit d p s
  | .heartbeat d p => Sys2Proof.Machine.execHeartbeat d p s
  | .heartbeatSend d => Sys2Proof.Machine.execHeartbeatSend d s
  | .ackTimeout d => Sys2Proof.Machine.execAckTimeout d s
  | .replayTimeout d => Sys2Proof.Machine.execReplayTimeout d s
  | .linkDownTimeout d => Sys2Proof.Machine.execLinkDownTimeout d s
  | .downWaitExpiry d => Sys2Proof.Machine.execDownWaitExpiry d s
  | .retrain r d => Sys2Proof.Machine.execRetrain r d s
  | .linkEn r d on => Sys2Proof.Machine.execLinkEn r d on s
  | .loopback r d on => Sys2Proof.Machine.execLoopback r d on s
  | .trainTimeout d => Sys2Proof.Machine.execTrainTimeout d s
  | .trainingComplete delay => Sys2Proof.Machine.execTrainingComplete delay s
  | .pairing => Sys2Proof.Machine.execPairing s
  | .sealedTransfer d p => Sys2Proof.Machine.execSealedTransfer d p s
  | .eventPacket p => Sys2Proof.Machine.execEventPacket p s
  | .samplePacket p => Sys2Proof.Machine.execSamplePacket p s
  | .localInputUpdate => Sys2Proof.Machine.execLocalInputUpdate s
  | .loneDeliveryTimeout => Sys2Proof.Machine.execLoneDeliveryTimeout s
  | .feederRecordWrite => Sys2Proof.Machine.execFeederRecordWrite s
  | .outputImageTransfer p => Sys2Proof.Machine.execOutputImageTransfer p s
  | .retainTransfer p => Sys2Proof.Machine.execRetainTransfer p s
  | .retainRestoreTransfer p => Sys2Proof.Machine.execRetainRestoreTransfer p s
  | .eventRecordTransfer p => Sys2Proof.Machine.execEventRecordTransfer p s
  | .hartRequest p => Sys2Proof.Machine.execHartRequest p s
  | .hartResultTransfer p => Sys2Proof.Machine.execHartResultTransfer p s
  | .vaultRequest d p => Sys2Proof.Machine.execVaultRequest d p s
  | .mtbLoRead r => Sys2Proof.Machine.execMtbLoRead r s
  | .mtbCmpWrite r n v => Sys2Proof.Machine.execMtbCmpWrite r n v s
  | .mtbCompareFire n => Sys2Proof.Machine.execMtbCompareFire n s
  | .baseTick v => Sys2Proof.Machine.execBaseTick v s
  | .fieldTick x => Sys2Proof.Machine.execFieldTick x s
  | .holdExpiry => Sys2Proof.Machine.execHoldExpiry s
  | .release r => Sys2Proof.Machine.execRelease r s
  | .icinv r k => Sys2Proof.Machine.execIcinv r k s
  | .jobTimerExpiry e => Sys2Proof.Machine.execJobTimerExpiry e s
  | .fairmodeWrite r port => Sys2Proof.Machine.execFairmodeWrite r port s
  | .supvWrite r v => Sys2Proof.Machine.execSupvWrite r v s
  | .obsselWrite r v => Sys2Proof.Machine.execObsselWrite r v s
  | .grantcntRead r => Sys2Proof.Machine.execGrantcntRead r s
  | .add x rd ra rb => Sys2Proof.Machine.execAdd x rd ra rb s
  | .sub x rd ra rb => Sys2Proof.Machine.execSub x rd ra rb s
  | .and x rd ra rb => Sys2Proof.Machine.execAnd x rd ra rb s
  | .or x rd ra rb => Sys2Proof.Machine.execOr x rd ra rb s
  | .xor x rd ra rb => Sys2Proof.Machine.execXor x rd ra rb s
  | .shl x rd ra rb => Sys2Proof.Machine.execShl x rd ra rb s
  | .shr x rd ra rb => Sys2Proof.Machine.execShr x rd ra rb s
  | .sar x rd ra rb => Sys2Proof.Machine.execSar x rd ra rb s
  | .slt x rd ra rb => Sys2Proof.Machine.execSlt x rd ra rb s
  | .sltu x rd ra rb => Sys2Proof.Machine.execSltu x rd ra rb s
  | .min x rd ra rb => Sys2Proof.Machine.execMin x rd ra rb s
  | .max x rd ra rb => Sys2Proof.Machine.execMax x rd ra rb s
  | .cmp x ra rb => Sys2Proof.Machine.execCmp x ra rb s
  | .mul x rd ra rb => Sys2Proof.Machine.execMul x rd ra rb s
  | .mulh x rd ra rb => Sys2Proof.Machine.execMulh x rd ra rb s
  | .mulhu x rd ra rb => Sys2Proof.Machine.execMulhu x rd ra rb s
  | .div x rd ra rb => Sys2Proof.Machine.execDiv x rd ra rb s
  | .divu x rd ra rb => Sys2Proof.Machine.execDivu x rd ra rb s
  | .rem x rd ra rb => Sys2Proof.Machine.execRem x rd ra rb s
  | .remu x rd ra rb => Sys2Proof.Machine.execRemu x rd ra rb s
  | .addi x rd ra imm => Sys2Proof.Machine.execAddi x rd ra imm s
  | .andi x rd ra imm => Sys2Proof.Machine.execAndi x rd ra imm s
  | .ori x rd ra imm => Sys2Proof.Machine.execOri x rd ra imm s
  | .xori x rd ra imm => Sys2Proof.Machine.execXori x rd ra imm s
  | .shli x rd ra imm => Sys2Proof.Machine.execShli x rd ra imm s
  | .shri x rd ra imm => Sys2Proof.Machine.execShri x rd ra imm s
  | .sari x rd ra imm => Sys2Proof.Machine.execSari x rd ra imm s
  | .slti x rd ra imm => Sys2Proof.Machine.execSlti x rd ra imm s
  | .lui x rd imm => Sys2Proof.Machine.execLui x rd imm s
  | .cmpi x ra imm => Sys2Proof.Machine.execCmpi x ra imm s
  | .fadd x rd ra rb => Sys2Proof.Machine.execFadd x rd ra rb s
  | .fsub x rd ra rb => Sys2Proof.Machine.execFsub x rd ra rb s
  | .fmul x rd ra rb => Sys2Proof.Machine.execFmul x rd ra rb s
  | .fdiv x rd ra rb => Sys2Proof.Machine.execFdiv x rd ra rb s
  | .fsqrt x rd ra => Sys2Proof.Machine.execFsqrt x rd ra s
  | .fmin x rd ra rb => Sys2Proof.Machine.execFmin x rd ra rb s
  | .fmax x rd ra rb => Sys2Proof.Machine.execFmax x rd ra rb s
  | .fabs x rd ra => Sys2Proof.Machine.execFabs x rd ra s
  | .fneg x rd ra => Sys2Proof.Machine.execFneg x rd ra s
  | .fcmp x ra rb => Sys2Proof.Machine.execFcmp x ra rb s
  | .itof x rd ra => Sys2Proof.Machine.execItof x rd ra s
  | .ftoi x rd ra => Sys2Proof.Machine.execFtoi x rd ra s
  | .ftoiz x rd ra => Sys2Proof.Machine.execFtoiz x rd ra s
  | .lw x rd ra b off => Sys2Proof.Machine.execLw x rd ra b off s
  | .lh x rd ra b off => Sys2Proof.Machine.execLh x rd ra b off s
  | .lhu x rd ra b off => Sys2Proof.Machine.execLhu x rd ra b off s
  | .lb x rd ra b off => Sys2Proof.Machine.execLb x rd ra b off s
  | .lbu x rd ra b off => Sys2Proof.Machine.execLbu x rd ra b off s
  | .sw x rd ra b off => Sys2Proof.Machine.execSw x rd ra b off s
  | .sh x rd ra b off => Sys2Proof.Machine.execSh x rd ra b off s
  | .sb x rd ra b off => Sys2Proof.Machine.execSb x rd ra b off s
  | .b x c off => Sys2Proof.Machine.execB x c off s
  | .bl x off => Sys2Proof.Machine.execBl x off s
  | .jr x ra => Sys2Proof.Machine.execJr x ra s
  | .bcall x ra rb => Sys2Proof.Machine.execBcall x ra rb s
  | .bret x => Sys2Proof.Machine.execBret x s
  | .edge x rd ra woff => Sys2Proof.Machine.execEdge x rd ra woff s
  | .ton x rd ra rb woff => Sys2Proof.Machine.execTon x rd ra rb woff s
  | .tof x rd ra rb woff => Sys2Proof.Machine.execTof x rd ra rb woff s
  | .tp x rd ra rb woff => Sys2Proof.Machine.execTp x rd ra rb woff s
  | .ctu x rd ra rb woff => Sys2Proof.Machine.execCtu x rd ra rb woff s
  | .ctd x rd ra rb woff => Sys2Proof.Machine.execCtd x rd ra rb woff s
  | .ctud x rd ra rb woff => Sys2Proof.Machine.execCtud x rd ra rb woff s
  | .gemv x rd ra => Sys2Proof.Machine.execGemv x rd ra s
  | .gemm x rd ra => Sys2Proof.Machine.execGemm x rd ra s
  | .chol x rd ra => Sys2Proof.Machine.execChol x rd ra s
  | .solve x rd ra => Sys2Proof.Machine.execSolve x rd ra s
  | .solverOpDone k u => Sys2Proof.Machine.execSolverOpDone k u s
  | .mfs x rd n => Sys2Proof.Machine.execMfs x rd n s
  | .mts x ra n => Sys2Proof.Machine.execMts x ra n s
  | .yield x => Sys2Proof.Machine.execYield x s
  | .fault x code => Sys2Proof.Machine.execFault x code s
  | .plk x ra rb rc => Sys2Proof.Machine.execPlk x ra rb rc s
  | .iret x => Sys2Proof.Machine.execIret x s
  | .sleep x => Sys2Proof.Machine.execSleep x s
  | .migrate x rd ra rb => Sys2Proof.Machine.execMigrate x rd ra rb s
  | .interruptEntry e => Sys2Proof.Machine.execInterruptEntry e s
  | .remoteAccessException e => Sys2Proof.Machine.execRemoteAccessException e s
  | .jobTake e => Sys2Proof.Machine.execJobTake e s
  | .taskValidation t => Sys2Proof.Machine.execTaskValidation t s
  | .schedulerEnable r on => Sys2Proof.Machine.execSchedulerEnable r on s
  | .holdHalf r h on => Sys2Proof.Machine.execHoldHalf r h on s
  | .snapshotStart h => Sys2Proof.Machine.execSnapshotStart h s
  | .snapshotEntry h bad => Sys2Proof.Machine.execSnapshotEntry h bad s
  | .executeStart t => Sys2Proof.Machine.execExecuteStart t s
  | .publishEntry h bad => Sys2Proof.Machine.execPublishEntry h bad s
  | .outputTransferCutoff => Sys2Proof.Machine.execOutputTransferCutoff s
  | .copyForwardDone t => Sys2Proof.Machine.execCopyForwardDone t s
  | .scanDeadline t => Sys2Proof.Machine.execScanDeadline t s
  | .regionClear r k => Sys2Proof.Machine.execRegionClear r k s
  | .imgRgnWrite r idx v => Sys2Proof.Machine.execImgRgnWrite r idx v s
  | .btickLoRead r => Sys2Proof.Machine.execBtickLoRead r s
  | .nextLoRead r => Sys2Proof.Machine.execNextLoRead r s
  | .pdataAccess r v => Sys2Proof.Machine.execPdataAccess r v s
  | .pgownWrite r d idx v => Sys2Proof.Machine.execPgownWrite r d idx v s
  | .frameReceive c f seen => Sys2Proof.Machine.execFrameReceive c f seen s
  | .txObjectFetch c => Sys2Proof.Machine.execTxObjectFetch c s
  | .windowOpen c => Sys2Proof.Machine.execWindowOpen c s
  | .windowClose c on0 on1 => Sys2Proof.Machine.execWindowClose c on0 s on1
  | .txFrameEnd c driven how loop => Sys2Proof.Machine.execTxFrameEnd c driven how s loop
  | .arbitratingTransmit c => Sys2Proof.Machine.execArbitratingTransmit c s
  | .referenceSend c driven => Sys2Proof.Machine.execReferenceSend c driven s
  | .referenceAbandon c => Sys2Proof.Machine.execReferenceAbandon c s
  | .referenceReceive c data seen => Sys2Proof.Machine.execReferenceReceive c data seen s
  | .acceptanceTimeout c => Sys2Proof.Machine.execAcceptanceTimeout c s
  | .recover r c => Sys2Proof.Machine.execRecover r c s
  | .busoffRecoveryDone c => Sys2Proof.Machine.execBusoffRecoveryDone c s
  | .fbCtrlWrite r c v => Sys2Proof.Machine.execFbCtrlWrite r c v s
  | .bankRequest r c bank => Sys2Proof.Machine.execBankRequest r c bank s
  | .redundantWrite r on => Sys2Proof.Machine.execRedundantWrite r on s
  | .mdataAccess r v => Sys2Proof.Machine.execMdataAccess r v s
  | .inputDecision q => Sys2Proof.Machine.execInputDecision q s
  | .stationImageWrite q => Sys2Proof.Machine.execStationImageWrite q s
  | .outputSetBuild q => Sys2Proof.Machine.execOutputSetBuild q s
  | .stationEnable r v => Sys2Proof.Machine.execStationEnable r v s
  | .protectedStateEntry n => Sys2Proof.Machine.execProtectedStateEntry n s
  | .miswireRearm r n => Sys2Proof.Machine.execMiswireRearm r n s
  | .aioCfgWrite r n v => Sys2Proof.Machine.execAioCfgWrite r n v s
  | .recordBaseWrite r b v => Sys2Proof.Machine.execRecordBaseWrite r b v s
  | .imgenWrite r b on => Sys2Proof.Machine.execImgenWrite r b on s
  | .outputCurrentLimit n => Sys2Proof.Machine.execOutputCurrentLimit n s
  | .limitTurnoff n => Sys2Proof.Machine.execLimitTurnoff n s
  | .limitRetry n => Sys2Proof.Machine.execLimitRetry n s
  | .diLoRead r => Sys2Proof.Machine.execDiLoRead r s
  | .hartTxStart n => Sys2Proof.Machine.execHartTxStart n s
  | .hartTxEnd n => Sys2Proof.Machine.execHartTxEnd n s
  | .hartResponseDeadline n => Sys2Proof.Machine.execHartResponseDeadline n s
  | .hartFrameReceive n x => Sys2Proof.Machine.execHartFrameReceive n x s
  | .hartAnswerStart n => Sys2Proof.Machine.execHartAnswerStart n s
  | .hartPoll n => Sys2Proof.Machine.execHartPoll n s
  | .hrtCfgWrite r n v => Sys2Proof.Machine.execHrtCfgWrite r n v s
  | .dcSeedDone xs => Sys2Proof.Machine.execDcSeedDone s xs
  | .cycleClose k xs => Sys2Proof.Machine.execCycleClose k xs s
  | .rmsBlockEnd xs => Sys2Proof.Machine.execRmsBlockEnd xs s
  | .stuckDetect n xs => Sys2Proof.Machine.execStuckDetect n s xs
  | .demandBoundary => Sys2Proof.Machine.execDemandBoundary s
  | .pulseTimer n => Sys2Proof.Machine.execPulseTimer n s
  | .meterSaveTimer => Sys2Proof.Machine.execMeterSaveTimer s
  | .meterSave r => Sys2Proof.Machine.execMeterSave r s
  | .saveRetry => Sys2Proof.Machine.execSaveRetry s
  | .configCommit r => Sys2Proof.Machine.execConfigCommit r s
  | .meteringEnable r on => Sys2Proof.Machine.execMeteringEnable r on s
  | .feederCfgWrite r k v => Sys2Proof.Machine.execFeederCfgWrite r k v s
  | .calibrationWrite r n w v => Sys2Proof.Machine.execCalibrationWrite r n w v s
  | .feederClear r k => Sys2Proof.Machine.execFeederClear r k s
  | .lsbWrite r k v => Sys2Proof.Machine.execLsbWrite r k v s
  | .accloRead r k acc => Sys2Proof.Machine.execAccloRead r k acc s
  | .demandMaxClear r k => Sys2Proof.Machine.execDemandMaxClear r k s
  | .pulseCfgWrite r n weight v => Sys2Proof.Machine.execPulseCfgWrite r n weight v s
  | .serTransmitStart n xs => Sys2Proof.Machine.execSerTransmitStart n s xs
  | .serTransmitEnd n => Sys2Proof.Machine.execSerTransmitEnd n s
  | .modbusFrameEnd n xs => Sys2Proof.Machine.execModbusFrameEnd n xs s
  | .responseTimeout n xs => Sys2Proof.Machine.execResponseTimeout n s xs
  | .broadcastTurn n => Sys2Proof.Machine.execBroadcastTurn n s
  | .osdpPacketReceive n xs => Sys2Proof.Machine.execOsdpPacketReceive n xs s
  | .rawChunkClose n xs => Sys2Proof.Machine.execRawChunkClose n xs s
  | .svcTxdWrite r b => Sys2Proof.Machine.execSvcTxdWrite r b s
  | .svcRxdRead r => Sys2Proof.Machine.execSvcRxdRead r s
  | .svcByteReceive b => Sys2Proof.Machine.execSvcByteReceive b s
  | .ethFrameReceive x => Sys2Proof.Machine.execEthFrameReceive x s
  | .ethTransmit at1 at2 => Sys2Proof.Machine.execEthTransmit at1 at2 s
  | .ethLinkChange port up fdx speed => Sys2Proof.Machine.execEthLinkChange port up fdx speed s
  | .addressAgeing => Sys2Proof.Machine.execAddressAgeing s
  | .txtsTagRead r => Sys2Proof.Machine.execTxtsTagRead r s
  | .vlanWrite r d v => Sys2Proof.Machine.execVlanWrite r d v s
  | .charonSecond at_ => Sys2Proof.Machine.execCharonSecond at_ s
  | .alarmFire a n => Sys2Proof.Machine.execAlarmFire a n s
  | .timeWrite r v => Sys2Proof.Machine.execTimeWrite r v s
  | .timeLoad => Sys2Proof.Machine.execTimeLoad s
  | .alarmWrite r a idx v => Sys2Proof.Machine.execAlarmWrite r a idx v s
  | .secLoRead r => Sys2Proof.Machine.execSecLoRead r s
  | .corrLoRead r => Sys2Proof.Machine.execCorrLoRead r s
  | .opsecRead r => Sys2Proof.Machine.execOpsecRead r s
  | .opsecMinute => Sys2Proof.Machine.execOpsecMinute s
  | .crystalLoss32k => Sys2Proof.Machine.execCrystalLoss32k s
  | .crystalReturn32k => Sys2Proof.Machine.execCrystalReturn32k s
  | .vbatCheck cell => Sys2Proof.Machine.execVbatCheck cell s
  | .flashOpAdmit => Sys2Proof.Machine.execFlashOpAdmit s
  | .flashOpDone => Sys2Proof.Machine.execFlashOpDone s
  | .nvmRead r v => Sys2Proof.Machine.execNvmRead r v s
  | .nvmWrite r v => Sys2Proof.Machine.execNvmWrite r v s
  | .rawProg r v => Sys2Proof.Machine.execRawProg r v s
  | .rawErase r v => Sys2Proof.Machine.execRawErase r v s
  | .nvmCommandDone => Sys2Proof.Machine.execNvmCommandDone s
  | .compact r => Sys2Proof.Machine.execCompact r s
  | .compactionStart => Sys2Proof.Machine.execCompactionStart s
  | .indexBuilt => Sys2Proof.Machine.execIndexBuilt s
  | .counterIncrement r n => Sys2Proof.Machine.execCounterIncrement r n s
  | .counterAdvance r n => Sys2Proof.Machine.execCounterAdvance r n s
  | .writePointFound => Sys2Proof.Machine.execWritePointFound s
  | .evrFirst => Sys2Proof.Machine.execEvrFirst s
  | .evrNext => Sys2Proof.Machine.execEvrNext s
  | .evrAt => Sys2Proof.Machine.execEvrAt s
  | .eventClear r => Sys2Proof.Machine.execEventClear r s
  | .keyUpdate r => Sys2Proof.Machine.execKeyUpdate r s
  | .wsLoadVault r v => Sys2Proof.Machine.execWsLoadVault r v s
  | .wsLoadBlob r v => Sys2Proof.Machine.execWsLoadBlob r v s
  | .wsGenerate r v => Sys2Proof.Machine.execWsGenerate r v s
  | .wsImport r v => Sys2Proof.Machine.execWsImport r v s
  | .wsClear r v => Sys2Proof.Machine.execWsClear r v s
  | .cryJobStage => Sys2Proof.Machine.execCryJobStage s
  | .aesGcmEncrypt => Sys2Proof.Machine.execAesGcmEncrypt s
  | .aesGcmDecrypt => Sys2Proof.Machine.execAesGcmDecrypt s
  | .aesCbcEncrypt => Sys2Proof.Machine.execAesCbcEncrypt s
  | .aesCbcDecrypt => Sys2Proof.Machine.execAesCbcDecrypt s
  | .aesEcbEncrypt => Sys2Proof.Machine.execAesEcbEncrypt s
  | .aesEcbDecrypt => Sys2Proof.Machine.execAesEcbDecrypt s
  | .aesCtr => Sys2Proof.Machine.execAesCtr s
  | .aesCmacGenerate => Sys2Proof.Machine.execAesCmacGenerate s
  | .aesCmacVerify => Sys2Proof.Machine.execAesCmacVerify s
  | .hmacSha256Generate => Sys2Proof.Machine.execHmacSha256Generate s
  | .hmacSha256Verify => Sys2Proof.Machine.execHmacSha256Verify s
  | .sha256 => Sys2Proof.Machine.execSha256 s
  | .rsassaPssSign => Sys2Proof.Machine.execRsassaPssSign s
  | .rsassaPssVerify => Sys2Proof.Machine.execRsassaPssVerify s
  | .rsaOaepEncrypt => Sys2Proof.Machine.execRsaOaepEncrypt s
  | .rsaOaepDecrypt => Sys2Proof.Machine.execRsaOaepDecrypt s
  | .attest => Sys2Proof.Machine.execAttest s
  | .cryRandom => Sys2Proof.Machine.execCryRandom s
  | .cryJobComplete pk => Sys2Proof.Machine.execCryJobComplete pk s
  | .bootAttempt h u => Sys2Proof.Machine.execBootAttempt h u s
  | .bootTimeout h => Sys2Proof.Machine.execBootTimeout h s
  | .dlHello x => Sys2Proof.Machine.execDlHello x s
  | .dlStart x => Sys2Proof.Machine.execDlStart x s
  | .dlData x => Sys2Proof.Machine.execDlData x s
  | .dlEnd x => Sys2Proof.Machine.execDlEnd x s
  | .dlReboot x => Sys2Proof.Machine.execDlReboot x s
  | .dlAbort x => Sys2Proof.Machine.execDlAbort x s
  | .sessionTimeout => Sys2Proof.Machine.execSessionTimeout s
  | .xflErase r => Sys2Proof.Machine.execXflErase r s
  | .xflProg r => Sys2Proof.Machine.execXflProg r s
  | .xflHash r => Sys2Proof.Machine.execXflHash r s
  | .xflRead r => Sys2Proof.Machine.execXflRead r s
  | .xflDone err => Sys2Proof.Machine.execXflDone err s
  | .supplyFailure xs => Sys2Proof.Machine.execSupplyFailure xs s
  | .powerFailPlanEnd low x => Sys2Proof.Machine.execPowerFailPlanEnd low x s
  | .supplyGood => Sys2Proof.Machine.execSupplyGood s
  | .doff r => Sys2Proof.Machine.execDoff r s
  | .restore r => Sys2Proof.Machine.execRestore r s
  | .prfLoad r n => Sys2Proof.Machine.execPrfLoad r n s
  | .prfCmd r n => Sys2Proof.Machine.execPrfCmd r n s
  | .retry r => Sys2Proof.Machine.execRetry r s
  | .wdtKick r idx v => Sys2Proof.Machine.execWdtKick r idx v s
  | .watchdogExpiry r => Sys2Proof.Machine.execWatchdogExpiry r s
  | .muslinWatchdogExpiry => Sys2Proof.Machine.execMuslinWatchdogExpiry s
  | .damaskCrystalLoss => Sys2Proof.Machine.execDamaskCrystalLoss s
  | .meterCrystalLoss xs => Sys2Proof.Machine.execMeterCrystalLoss xs s
  | .meterCrystalReturn => Sys2Proof.Machine.execMeterCrystalReturn s
  | .softwareInterrupt r set v => Sys2Proof.Machine.execSoftwareInterrupt r set v s
  | .eventNumber => Sys2Proof.Machine.execEventNumber s
  | .sequencerStart => Sys2Proof.Machine.execSequencerStart s
  | .blockTransfer x => Sys2Proof.Machine.execBlockTransfer x s
  | .queueConfigWrite r q reg v => Sys2Proof.Machine.execQueueConfigWrite r q reg v s
  | .ringProduce r q prod => Sys2Proof.Machine.execRingProduce r q prod s
  | .resetRelease x => Sys2Proof.Machine.execResetRelease x s
  | .illegalInstruction x => Sys2Proof.Machine.execIllegalInstruction x s
  | .fetchAccessError e => Sys2Proof.Machine.execFetchAccessError e s
  | .sleepWake e => Sys2Proof.Machine.execSleepWake e s
  | .frameError c lec eight seen => Sys2Proof.Machine.execFrameError c lec eight seen s
  | .carrierDetect n on => Sys2Proof.Machine.execCarrierDetect n on s
  | .stuckClear n xs => Sys2Proof.Machine.execStuckClear n s xs
  | .svcByteSent => Sys2Proof.Machine.execSvcByteSent s
  | .onvbatChange on => Sys2Proof.Machine.execOnvbatChange on s
  | .charonStop => Sys2Proof.Machine.execCharonStop s
  | .verifierDone => Sys2Proof.Machine.execVerifierDone s

end Sys2Proof.Machine
end

