-- ==== Sys2Proof/WellFormed.lean ====
section
/-! DEFINITION. Which commands are well formed: the operands that the types of `Instr` do not bound already. A command that is
not well formed cannot happen; `exec` is total on it all the same. -/

namespace Sys2Proof

/-- An address of one of the two register areas, aligned to a word (R47, R48). -/
def registerAddr (a : Nat) : Bool :=
  a % 4 == 0 && (decide (0x40000000 ≤ a ∧ a < 0x40024000) || decide (0x50000000 ≤ a ∧ a < 0x50015000))

/-- A register page: Damask page `p`, or 64 plus a Muslin page (R49). -/
def validPage (p : Nat) : Bool := decide (p < 36) || decide (64 ≤ p ∧ p < 85)

/-- Firmware has no domain: its accesses carry D0 (R57). -/
def Requester.wf (r : Requester) : Bool := !r.sup || r.dom == 0

/-- A packet carries at most 16 data words (R20). -/
def Packet.wf (p : Packet) : Bool := decide (p.data.length ≤ 16)

/-- A frame carries at most 8 bytes, or 64 as CAN FD; a remote frame is classical (R156). -/
def CanFrame.wf (f : CanFrame) : Bool := decide (f.data.length ≤ if f.fdf then 64 else 8) && (!f.rtr || !f.fdf)

/-- A field tick delivers 32 channels (R203); a granule of the flash lies in its 2 MiB (R308). -/
def FieldSample.wf (x : FieldSample) : Bool :=
  decide (x.analog.length = 32) && x.decayed.all fun e => decide (e.1 < 0x40000)

/-- The stamps of a frame rise (R230). -/
def HartRx.wf (x : HartRx) : Bool :=
  decide (x.first ≤ x.stamp) && decide (x.stamp ≤ x.last) && decide (x.last < 2 ^ 64)

/-- A character has 8 to 11 bits after its start bit (R277, R280). -/
def SerChar.wf (x : SerChar) : Bool := decide (x.stamp < 2 ^ 64) && decide (x.bits.length ≤ 11)

/-- An Ethernet frame has its two addresses and its type (R283). -/
def EthRx.wf (x : EthRx) : Bool := decide (14 ≤ x.bytes.length) && decide (x.stamp < 2 ^ 64)

/-- Every character heard on SVC has its stamp (R369). -/
def DlFrame.wf (x : DlFrame) : Bool :=
  decide (20 ≤ x.bytes.length) && match x.path with
    | .svc => decide (x.stamps.length = x.bytes.length)
    | .eth => x.stamps.isEmpty

/-- A sampling instant has 512 bits of each modulator (R244). -/
def MeterTick.wf (x : MeterTick) : Bool :=
  decide (x.now < 2 ^ 64) && decide (x.bits.length = 32) && x.bits.all fun l => decide (l.length = 512)

/-- A step of the boot attempt (R361). -/
def RomUpset.wf : RomUpset → Bool
  | .none => true
  | .nor k => decide (1 ≤ k ∧ k ≤ 9)
  | .once k => decide (1 ≤ k ∧ k ≤ 9)
  | .check k => decide (1 ≤ k ∧ k ≤ 9)
  | .twice j k => decide (1 ≤ j ∧ j ≤ 9 ∧ 1 ≤ k ∧ k ≤ 9)

/-- A word of a copy entry of at most 16,384 bytes (R113). -/
def entryUpsetOk : Option EntryUpset → Bool
  | none => true
  | some u => decide (u.word < 4096)

def blockXferOk : Option (Die × Packet) → Bool
  | none => true
  | some x => x.2.wf

/-- The cell's voltage fits its converter: at most 3,600 mV (R303). -/
def cellOk : Option Nat → Bool
  | none => true
  | some v => decide (v ≤ 3600)

/-- The command is well formed. -/
def Instr.wf : Instr → Bool
  | .powerOnReset _ _ => true
  | .moduleReset _ _ => true
  | .modrst r _ => r.wf
  | .damaskRestart r => r.wf
  | .halfBoot r _ _ => r.wf
  | .linkReset => true
  | .registerWrite r a _ _ => r.wf && registerAddr a
  | .readClear r a => r.wf && registerAddr a
  | .irqForce r p _ => r.wf && validPage p
  | .lockWrite r p _ => r.wf && validPage p
  | .lockTimeout p => validPage p
  | .rdReq p => p.wf
  | .wrReq p _ => p.wf
  | .rdRsp p => p.wf
  | .wrRsp p => p.wf
  | .ack _ p => p.wf
  | .nak _ p => p.wf
  | .credit _ p => p.wf
  | .heartbeat _ p => p.wf
  | .heartbeatSend _ => true
  | .ackTimeout _ => true
  | .replayTimeout _ => true
  | .linkDownTimeout _ => true
  | .downWaitExpiry _ => true
  | .retrain r _ => r.wf
  | .linkEn r _ _ => r.wf
  | .loopback r _ _ => r.wf
  | .trainTimeout _ => true
  | .trainingComplete _ => true
  | .pairing => true
  | .sealedTransfer _ p => p.wf
  | .eventPacket p => p.wf
  | .samplePacket p => p.wf
  | .localInputUpdate => true
  | .loneDeliveryTimeout => true
  | .feederRecordWrite => true
  | .outputImageTransfer p => p.wf
  | .retainTransfer p => p.wf
  | .retainRestoreTransfer p => p.wf
  | .eventRecordTransfer p => p.wf
  | .hartRequest p => p.wf
  | .hartResultTransfer p => p.wf
  | .vaultRequest _ p => p.wf
  | .mtbLoRead r => r.wf
  | .mtbCmpWrite r _ _ => r.wf
  | .mtbCompareFire _ => true
  | .baseTick _ => true
  | .fieldTick x => x.wf
  | .holdExpiry => true
  | .release r => r.wf
  | .icinv r _ => r.wf
  | .jobTimerExpiry _ => true
  | .fairmodeWrite r _ => r.wf
  | .supvWrite r _ => r.wf
  | .obsselWrite r _ => r.wf
  | .grantcntRead r => r.wf
  | .add _ _ _ _ => true
  | .sub _ _ _ _ => true
  | .and _ _ _ _ => true
  | .or _ _ _ _ => true
  | .xor _ _ _ _ => true
  | .shl _ _ _ _ => true
  | .shr _ _ _ _ => true
  | .sar _ _ _ _ => true
  | .slt _ _ _ _ => true
  | .sltu _ _ _ _ => true
  | .min _ _ _ _ => true
  | .max _ _ _ _ => true
  | .cmp _ _ _ => true
  | .mul _ _ _ _ => true
  | .mulh _ _ _ _ => true
  | .mulhu _ _ _ _ => true
  | .div _ _ _ _ => true
  | .divu _ _ _ _ => true
  | .rem _ _ _ _ => true
  | .remu _ _ _ _ => true
  | .addi _ _ _ _ => true
  | .andi _ _ _ _ => true
  | .ori _ _ _ _ => true
  | .xori _ _ _ _ => true
  | .shli _ _ _ _ => true
  | .shri _ _ _ _ => true
  | .sari _ _ _ _ => true
  | .slti _ _ _ _ => true
  | .lui _ _ _ => true
  | .cmpi _ _ _ => true
  | .fadd _ _ _ _ => true
  | .fsub _ _ _ _ => true
  | .fmul _ _ _ _ => true
  | .fdiv _ _ _ _ => true
  | .fsqrt _ _ _ => true
  | .fmin _ _ _ _ => true
  | .fmax _ _ _ _ => true
  | .fabs _ _ _ => true
  | .fneg _ _ _ => true
  | .fcmp _ _ _ => true
  | .itof _ _ _ => true
  | .ftoi _ _ _ => true
  | .ftoiz _ _ _ => true
  | .lw _ _ _ _ _ => true
  | .lh _ _ _ _ _ => true
  | .lhu _ _ _ _ _ => true
  | .lb _ _ _ _ _ => true
  | .lbu _ _ _ _ _ => true
  | .sw _ _ _ _ _ => true
  | .sh _ _ _ _ _ => true
  | .sb _ _ _ _ _ => true
  | .b _ _ _ => true
  | .bl _ _ => true
  | .jr _ _ => true
  | .bcall _ _ _ => true
  | .bret _ => true
  | .edge _ _ _ _ => true
  | .ton _ _ _ _ _ => true
  | .tof _ _ _ _ _ => true
  | .tp _ _ _ _ _ => true
  | .ctu _ _ _ _ _ => true
  | .ctd _ _ _ _ _ => true
  | .ctud _ _ _ _ _ => true
  | .gemv _ _ _ => true
  | .gemm _ _ _ => true
  | .chol _ _ _ => true
  | .solve _ _ _ => true
  | .solverOpDone _ _ => true
  | .mfs _ _ _ => true
  | .mts _ _ _ => true
  | .yield _ => true
  | .fault _ _ => true
  | .plk _ _ _ _ => true
  | .iret _ => true
  | .sleep _ => true
  | .migrate _ _ _ _ => true
  | .interruptEntry _ => true
  | .remoteAccessException _ => true
  | .jobTake _ => true
  | .taskValidation _ => true
  | .schedulerEnable r _ => r.wf
  | .holdHalf r _ _ => r.wf
  | .snapshotStart _ => true
  | .snapshotEntry _ bad => entryUpsetOk bad
  | .executeStart _ => true
  | .publishEntry _ bad => entryUpsetOk bad
  | .outputTransferCutoff => true
  | .copyForwardDone _ => true
  | .scanDeadline _ => true
  | .regionClear r _ => r.wf
  | .imgRgnWrite r _ _ => r.wf
  | .btickLoRead r => r.wf
  | .nextLoRead r => r.wf
  | .pdataAccess r _ => r.wf
  | .pgownWrite r _ _ _ => r.wf
  | .frameReceive _ f seen => f.wf && decide (seen < 2 ^ 64)
  | .txObjectFetch _ => true
  | .windowOpen _ => true
  | .windowClose _ _ _ => true
  | .txFrameEnd _ driven _ _ => decide (driven < 2 ^ 64)
  | .arbitratingTransmit _ => true
  | .referenceSend _ driven => decide (driven < 2 ^ 64)
  | .referenceAbandon _ => true
  | .referenceReceive _ data seen => decide (data.length ≤ 8) && decide (seen < 2 ^ 64)
  | .acceptanceTimeout _ => true
  | .recover r _ => r.wf
  | .busoffRecoveryDone _ => true
  | .fbCtrlWrite r _ _ => r.wf
  | .bankRequest r _ _ => r.wf
  | .redundantWrite r _ => r.wf
  | .mdataAccess r _ => r.wf
  | .inputDecision _ => true
  | .stationImageWrite _ => true
  | .outputSetBuild _ => true
  | .stationEnable r _ => r.wf
  | .protectedStateEntry _ => true
  | .miswireRearm r _ => r.wf
  | .aioCfgWrite r _ _ => r.wf
  | .recordBaseWrite r _ _ => r.wf
  | .imgenWrite r _ _ => r.wf
  | .outputCurrentLimit _ => true
  | .limitTurnoff _ => true
  | .limitRetry _ => true
  | .diLoRead r => r.wf
  | .hartTxStart _ => true
  | .hartTxEnd _ => true
  | .hartResponseDeadline _ => true
  | .hartFrameReceive _ x => x.wf
  | .hartAnswerStart _ => true
  | .hartPoll _ => true
  | .hrtCfgWrite r _ _ => r.wf
  | .dcSeedDone xs => xs.all MeterTick.wf
  | .cycleClose _ xs => xs.all MeterTick.wf
  | .rmsBlockEnd xs => xs.all MeterTick.wf
  | .stuckDetect _ xs => xs.all MeterTick.wf
  | .demandBoundary => true
  | .pulseTimer _ => true
  | .meterSaveTimer => true
  | .meterSave r => r.wf
  | .saveRetry => true
  | .configCommit r => r.wf
  | .meteringEnable r _ => r.wf
  | .feederCfgWrite r _ _ => r.wf
  | .calibrationWrite r _ _ _ => r.wf
  | .feederClear r _ => r.wf
  | .lsbWrite r _ _ => r.wf
  | .accloRead r _ _ => r.wf
  | .demandMaxClear r _ => r.wf
  | .pulseCfgWrite r _ _ _ => r.wf
  | .serTransmitStart _ xs => xs.all SerChar.wf
  | .serTransmitEnd _ => true
  | .modbusFrameEnd _ xs => xs.all SerChar.wf
  | .responseTimeout _ xs => xs.all SerChar.wf
  | .broadcastTurn _ => true
  | .osdpPacketReceive _ xs => xs.all SerChar.wf
  | .rawChunkClose _ xs => xs.all SerChar.wf
  | .svcTxdWrite r _ => r.wf
  | .svcRxdRead r => r.wf
  | .svcByteReceive _ => true
  | .ethFrameReceive x => x.wf
  | .ethTransmit at1 at2 => decide (at1 < 2 ^ 64) && decide (at2 < 2 ^ 64)
  | .ethLinkChange _ _ _ _ => true
  | .addressAgeing => true
  | .txtsTagRead r => r.wf
  | .vlanWrite r _ _ => r.wf
  | .charonSecond at_ => decide (at_ < 2 ^ 64)
  | .alarmFire _ n => decide (n < 2 ^ 64)
  | .timeWrite r _ => r.wf
  | .timeLoad => true
  | .alarmWrite r _ _ _ => r.wf
  | .secLoRead r => r.wf
  | .corrLoRead r => r.wf
  | .opsecRead r => r.wf
  | .opsecMinute => true
  | .crystalLoss32k => true
  | .crystalReturn32k => true
  | .vbatCheck cell => cellOk cell
  | .flashOpAdmit => true
  | .flashOpDone => true
  | .nvmRead r _ => r.wf
  | .nvmWrite r _ => r.wf
  | .rawProg r _ => r.wf
  | .rawErase r _ => r.wf
  | .nvmCommandDone => true
  | .compact r => r.wf
  | .compactionStart => true
  | .indexBuilt => true
  | .counterIncrement r _ => r.wf
  | .counterAdvance r _ => r.wf
  | .writePointFound => true
  | .evrFirst => true
  | .evrNext => true
  | .evrAt => true
  | .eventClear r => r.wf
  | .keyUpdate r => r.wf
  | .wsLoadVault r _ => r.wf
  | .wsLoadBlob r _ => r.wf
  | .wsGenerate r _ => r.wf
  | .wsImport r _ => r.wf
  | .wsClear r _ => r.wf
  | .cryJobStage => true
  | .aesGcmEncrypt => true
  | .aesGcmDecrypt => true
  | .aesCbcEncrypt => true
  | .aesCbcDecrypt => true
  | .aesEcbEncrypt => true
  | .aesEcbDecrypt => true
  | .aesCtr => true
  | .aesCmacGenerate => true
  | .aesCmacVerify => true
  | .hmacSha256Generate => true
  | .hmacSha256Verify => true
  | .sha256 => true
  | .rsassaPssSign => true
  | .rsassaPssVerify => true
  | .rsaOaepEncrypt => true
  | .rsaOaepDecrypt => true
  | .attest => true
  | .cryRandom => true
  | .cryJobComplete _ => true
  | .bootAttempt _ u => u.wf
  | .bootTimeout _ => true
  | .dlHello x => x.wf
  | .dlStart x => x.wf
  | .dlData x => x.wf
  | .dlEnd x => x.wf
  | .dlReboot x => x.wf
  | .dlAbort x => x.wf
  | .sessionTimeout => true
  | .xflErase r => r.wf
  | .xflProg r => r.wf
  | .xflHash r => r.wf
  | .xflRead r => r.wf
  | .xflDone _ => true
  | .supplyFailure xs => xs.all MeterTick.wf
  | .powerFailPlanEnd _ _ => true
  | .supplyGood => true
  | .doff r => r.wf
  | .restore r => r.wf
  | .prfLoad r _ => r.wf
  | .prfCmd r _ => r.wf
  | .retry r => r.wf
  | .wdtKick r _ _ => r.wf
  | .watchdogExpiry _ => true
  | .muslinWatchdogExpiry => true
  | .damaskCrystalLoss => true
  | .meterCrystalLoss xs => xs.all MeterTick.wf
  | .meterCrystalReturn => true
  | .softwareInterrupt r _ _ => r.wf
  | .eventNumber => true
  | .sequencerStart => true
  | .blockTransfer x => blockXferOk x
  | .queueConfigWrite r _ _ _ => r.wf
  | .ringProduce r _ _ => r.wf
  | .resetRelease _ => true
  | .illegalInstruction _ => true
  | .fetchAccessError _ => true
  | .sleepWake _ => true
  | .frameError _ _ _ seen => decide (seen < 2 ^ 64)
  | .carrierDetect _ _ => true
  | .stuckClear _ xs => xs.all MeterTick.wf
  | .svcByteSent => true
  | .onvbatChange _ => true
  | .charonStop => true
  | .verifierDone => true

end Sys2Proof
end

