-- ==== Sys2Proof/Safety.lean ====
section
/-! DEFINITION. The terms in which statements about the module are made: what it is for a command to complete, what an
engine instruction may change, which requester may write a register, and the invariant of every safe state. -/

namespace Sys2Proof.Machine

open Reg

/-- The command has a next state, and `Q` holds of it. -/
def Completes (c : Instr) (s : State) (Q : State → Prop) : Prop := ∃ t, exec c s = .next t ∧ Q t

/-! ## Engines -/

/-- The engine executes this instruction now, and no check of R79 fails in it. -/
abbrev Ready (x : Issue) (srcs : List Reg) (s : State) : Prop := x.upset = .none ∧ canIssue x.eng srcs s = true

/-- The engine also has the slots and tags that the accesses `as` need (R66). -/
abbrev ReadyMem (x : Issue) (srcs : List Reg) (as : List Nat) (s : State) : Prop :=
  Ready x srcs s ∧ mustWait x.eng as s = false

/-- No register has changed but those of FAB, which counts the grants of the observed arbiter (R76). -/
def OnlyFab (s t : State) : Prop := ∀ p off, p ≠ pFAB → off < 4096 → t.reg p off = s.reg p off

/-- Nothing has changed but engine `e`, its pending loads and, where its next fetch is not from its cache, the instruction
caches and the fabric that granted the refill (R64, R76). -/
def OnlyEngine (e : EngNo) (s t : State) : Prop :=
  t = { s with engs := t.engs, icache := t.icache, freed := t.freed, txns := t.txns, regs := t.regs,
               grants := t.grants, fabric := t.fabric } ∧
  (∀ f, f ≠ e → t.eng f = s.eng f) ∧ t.txns.length = s.txns.length ∧ OnlyFab s t ∧
  (lineCached e s = true → t = { s with engs := t.engs, txns := t.txns })

/-- Register `rd` takes `v` (g0 stays zero), FL becomes `fl`, the PC is at the next instruction; every other register of
the engine, every other engine, every memory and every register page is as before. -/
def Sets (e : EngNo) (rd : Reg) (v fl : Word) (s t : State) : Prop :=
  (∀ r, gr e r t = if r = rd ∧ r ≠ 0 then v else gr e r s) ∧
  t.eng e = { s.eng e with g := (t.eng e).g, pc := (s.eng e).pc + 4, fl := fl } ∧ OnlyEngine e s t

/-- Nothing has changed but engine `e`, its pending loads, the instruction caches, memory, and the fabric: its arbiters,
and the grant counters that FAB shows of the observed one (R76). -/
def OnlyEngineAndMemory (e : EngNo) (s t : State) : Prop :=
  t = { s with engs := t.engs, icache := t.icache, freed := t.freed, txns := t.txns, regs := t.regs,
               grants := t.grants, fabric := t.fabric, mem := t.mem } ∧
  (∀ f, f ≠ e → t.eng f = s.eng f) ∧ OnlyFab s t

/-- The memory outside `n` bytes from `a` is as before. -/
def MemoryOutside (a n : Nat) (s t : State) : Prop := ∀ q, q < a ∨ a + n ≤ q → t.rb q = s.rb q

/-- The general registers after a result for `rd`. -/
def Registers (e : EngNo) (rd : Reg) (v : Word) (s t : State) : Prop :=
  ∀ r, gr e r t = if r = rd ∧ r ≠ 0 then v else gr e r s

/-- An access of `size` bytes at `a` passes alignment, region, mode and domain, and goes to no register page (R94, R95). -/
abbrev Granted (e : EngNo) (write : Bool) (size a : Nat) (s : State) : Prop :=
  refusal e write size a s = none ∧ isRemote a = false ∧ inDamaskPages a = false ∧ domainRefuses e write a s = false

/-- Where a store to local data, code SRAM or global SRAM goes (R47, R65). -/
def storePlace (e : EngNo) (a : Nat) : Nat :=
  if inLocal a then localBase e + a % 0x2000 else if inCode a then codePlace e a else a

/-- The special registers 0 to 12 as MFS reads them (R82). -/
def specials (e : EngNo) (s : State) : List Word :=
  let y := s.eng e
  [y.pc, y.fl, y.ib, y.xb, y.yb, ttOf e s, y.sp, if inTask e s then y.jobid else 0, y.epc, y.efl, y.ecause, y.eaddr,
   y.vbase]

/-- Engine `e` in supervisor mode after it has entered an exception (R110). -/
abbrev EnteredException (e : EngNo) (code detail : Nat) (addr : Word) (imprecise : Bool) (s t : State) : Prop :=
  t.eng e = { s.eng e with
    epc := (s.eng e).pc, efl := (s.eng e).fl, fl := setBit (setBit (s.eng e).fl 13 false) 15 true,
    ecause := word (detail * 65536 + (if imprecise then 0x8000 else 0) + code), eaddr := addr, pc := (s.eng e).vbase,
    remErr := (t.eng e).remErr }

/-- `fl` is FL after a comparison of `a` with `b` (R88): Z, N, C, V and U, every other bit as in `old`. -/
abbrev Compared (a b old fl : Word) : Prop :=
  fl.getLsbD 0 = decide (a = b) ∧ fl.getLsbD 1 = (a - b).msb ∧ fl.getLsbD 2 = decide (b.toNat ≤ a.toNat) ∧
  fl.getLsbD 3 = decide ((a - b).toInt ≠ a.toInt - b.toInt) ∧ fl.getLsbD 4 = false ∧
  ∀ i, 5 ≤ i → fl.getLsbD i = old.getLsbD i

/-- The word that the engine's next fetch gives stands for the command (R64, R85 to R87). -/
def ProgramMatches (c : Instr) (s : State) : Prop :=
  ∃ x, issueOf c = some x ∧ decodeEngine x (fetchWord x.eng s) = some c

/-! ## Register pages -/

/-- Firmware writes a page that runs. -/
abbrev Firmware (r : Requester) (p : Nat) (s : State) : Prop := r.sup = true ∧ pageReached p s = true

/-- Firmware writes a page that runs, with its lock open for it. -/
abbrev FirmwareUnlocked (r : Requester) (p : Nat) (s : State) : Prop := Firmware r p s ∧ lockOpenFor p r s = true

/-- Nothing has changed but registers of the pages `ps`. -/
abbrev OnlyPages (ps : List Nat) (s t : State) : Prop :=
  t = { s with regs := t.regs } ∧ ∀ p off, p ∉ ps → off < 4096 → t.reg p off = s.reg p off

/-! ## The link -/

/-- A whole packet of type `n` has reached die `d`, whose link is UP and has not been silent for 100 µs (R20 to R22, R35). -/
abbrev Arrives (d : Die) (p : Packet) (n : Nat) (s : State) : Prop :=
  p.crcGood = true ∧ p.wellFormed = true ∧ p.type = n ∧ s.linkUp d = true ∧ s.now d < (s.link d).lastValid + 10000

/-- The packet also has the number that the die expects (R23, R24). -/
abbrev InOrder (d : Die) (p : Packet) (n : Nat) (s : State) : Prop := Arrives d p n s ∧ p.seq = (s.link d).rxSeq

/-- An in-order packet of bulk transfer `xid` that is the whole transfer, and the words it carries (R31). -/
abbrev WholeBulk (d : Die) (xid : Nat) (p : Packet) (ws : List Word) (s : State) : Prop :=
  InOrder d p tBulk s ∧ p.xid = xid ∧ p.first = true ∧ p.last = true ∧ p.offset = 0 ∧ p.data.drop 1 = ws

/-- An in-order packet that opens bulk transfer `xid`, of which more is to come (R31). -/
abbrev OpensBulk (d : Die) (xid : Nat) (p : Packet) (s : State) : Prop :=
  InOrder d p tBulk s ∧ p.xid = xid ∧ p.first = true ∧ p.last = false ∧ p.offset = 0

/-- The words of transfer `xid` that die `d` holds. -/
def bulkHeld (d : Die) (xid : Nat) (s : State) : Option (List Word) :=
  ((s.link d).bulkIn.find? fun x => x.1 == xid).map fun x => x.2

/-! ## Queues -/

/-- Ring B of queue `q` is enabled and not full (R411). -/
abbrev RingRoom (q : Nat) (s : State) : Prop := (ringB s q).enabled = true ∧ (ringB s q).level < (ringB s q).cap

/-- Ring B of queue `q` has taken the entry `e`: it stands in the slot of PROD, PROD has advanced, and the memory outside
the slot is as before. -/
def RingTakes (q : Nat) (e : List Byte) (s t : State) : Prop :=
  let r := ringB s q
  t.bytes (r.slot r.prod) e.length = e ∧ (ringB t q).prod = (r.prod + 1) % 8192 ∧ MemoryOutside (r.slot r.prod) r.size s t

/-- CONS of ring A of queue `q` has advanced by one. -/
abbrev RingServed (q : Nat) (s t : State) : Prop := (ringA t q).cons = ((ringA s q).cons + 1) % 8192

/-! ## Safe states -/

/-- A table lists nothing that an unlisted key would read as, and its keys rise: equal contents are equal data. -/
def State.canonical (s : State) : Prop :=
  Memory.wf s.mem = true ∧ tcanon regDefault s.regs = true ∧ tcanon (fun _ => (0 : Byte)) s.points = true

/-- A safe step: the block neither faults nor refuses. -/
def State.steps (s : State) : Prop := ∃ t, step s = .next t

end Sys2Proof.Machine
end

