-- ==== Sys2Proof/Certificates/Slice0/Obligations.lean ====
section
/-! DEFINITION. The statements about the module that are to be proved: what each command does when it completes, what it
leaves alone, and what holds of every state. -/

open Sys2Proof Sys2Proof.Machine Sys2Proof.Machine.Reg

/-- One step takes the command at the front of the queue and executes it with the rest of the queue. -/
def Obligations.StepExecutesTheFrontCommand : Prop :=
  ∀ (c : Instr) (rest : List Instr) (s : State), s.pending = c :: rest → step s = exec c { s with pending := rest }

/-- Every command has a next state; it changes neither the queue behind it nor what is fixed at assembly. With no
command waiting, 10 ns pass on both time bases and nothing else changes (the model's choice, log entry 1). -/
def Obligations.EveryStepHasANextState : Prop :=
  (∀ (c : Instr) (s : State), Completes c s fun t => t.pending = s.pending ∧ t.fused = s.fused) ∧
  (∀ s : State, s.pending = [] →
     step s = .next { s with mtb := (s.mtb + 1) % 2 ^ 64, replica := (s.replica + 1) % 2 ^ 64 })

/-- R88: the integer instructions, with every operand form. Only CMP and CMPI change FL, and nothing else changes but
the destination register, the PC and what a refill changes, the instruction cache and the fabric. Forms whose next state is stated (exec c s = .next t):
add, sub, and, or, xor, shl, shr, sar, slt, sltu, min, max, cmp, mul, mulh, mulhu, div, divu, rem, remu, addi, andi,
ori, xori, shli, shri, sari, slti, lui, cmpi. -/
def Obligations.IntegerInstructionsCompute : Prop :=
  ∀ (x : Issue) (rd ra rb : Reg) (imm : BitVec 18) (sh : BitVec 5) (hi : BitVec 16) (s : State),
    let e := x.eng
    let a := gr e ra s
    let b := gr e rb s
    let fl := (s.eng e).fl
    let Gives (c : Instr) (v : Word) : Prop := Completes c s (Sets e rd v fl s)
    let Compares (c : Instr) (b : Word) : Prop := Completes c s fun t => ∃ fl', Compared a b fl fl' ∧ Sets e 0 0 fl' s t
    (Ready x [ra, rb] s →
      Gives (.add x rd ra rb) (a + b) ∧ Gives (.sub x rd ra rb) (a - b) ∧
      Gives (.and x rd ra rb) (a &&& b) ∧ Gives (.or x rd ra rb) (a ||| b) ∧ Gives (.xor x rd ra rb) (a ^^^ b) ∧
      Gives (.shl x rd ra rb) (a <<< (b.toNat % 32)) ∧ Gives (.shr x rd ra rb) (a >>> (b.toNat % 32)) ∧
      Gives (.sar x rd ra rb) (a.sshiftRight (b.toNat % 32)) ∧
      Gives (.slt x rd ra rb) (if a.toInt < b.toInt then 1 else 0) ∧
      Gives (.sltu x rd ra rb) (if a.toNat < b.toNat then 1 else 0) ∧
      Gives (.min x rd ra rb) (if a.toInt < b.toInt then a else b) ∧
      Gives (.max x rd ra rb) (if a.toInt < b.toInt then b else a) ∧
      Gives (.mul x rd ra rb) (word (a.toNat * b.toNat)) ∧
      Gives (.mulh x rd ra rb) (BitVec.ofInt 32 (a.toInt * b.toInt / 2 ^ 32)) ∧
      Gives (.mulhu x rd ra rb) (word (a.toNat * b.toNat / 2 ^ 32)) ∧
      Gives (.div x rd ra rb) (if b = 0 then 0 else if a = 0x80000000 ∧ b = 0xFFFFFFFF then 0x80000000
        else BitVec.ofInt 32 (a.toInt.tdiv b.toInt)) ∧
      Gives (.divu x rd ra rb) (if b = 0 then 0 else word (a.toNat / b.toNat)) ∧
      Gives (.rem x rd ra rb) (if b = 0 then a else if a = 0x80000000 ∧ b = 0xFFFFFFFF then 0
        else BitVec.ofInt 32 (a.toInt.tmod b.toInt)) ∧
      Gives (.remu x rd ra rb) (if b = 0 then a else word (a.toNat % b.toNat)) ∧
      Compares (.cmp x ra rb) b) ∧
    (Ready x [ra] s →
      Gives (.addi x rd ra imm) (a + imm.signExtend 32) ∧ Gives (.andi x rd ra imm) (a &&& imm.zeroExtend 32) ∧
      Gives (.ori x rd ra imm) (a ||| imm.zeroExtend 32) ∧ Gives (.xori x rd ra imm) (a ^^^ imm.zeroExtend 32) ∧
      Gives (.shli x rd ra sh) (a <<< sh.toNat) ∧ Gives (.shri x rd ra sh) (a >>> sh.toNat) ∧
      Gives (.sari x rd ra sh) (a.sshiftRight sh.toNat) ∧
      Gives (.slti x rd ra imm) (if a.toInt < (imm.signExtend 32).toInt then 1 else 0) ∧
      Compares (.cmpi x ra imm) (imm.signExtend 32)) ∧
    (Ready x [] s → Gives (.lui x rd hi) (word (hi.toNat * 2 ^ 16)))

/-- R88: quotient and remainder of DIV and REM fit together for every divisor but 0, the remainder is smaller than the
divisor and has the sign of the dividend. R90: every operation whose result is a NaN returns the one NaN, and no
operation clears a sticky flag. R91: after FCMP of two numbers exactly one of equal, less and greater holds, and the
float conditions say which; after an unordered FCMP only UN holds of conditions 10 to 14. -/
def Obligations.QuotientAndRemainderAgree : Prop :=
  (∀ a b : Word, b ≠ 0 →
     divSigned a b * b + remSigned a b = a ∧ (remSigned a b).toInt.natAbs < b.toInt.natAbs ∧
     (remSigned a b = 0 ∨ (remSigned a b).msb = a.msb)) ∧
  ((∀ a b w : Word, w ∈ [(fAdd a b).1, (fSub a b).1, (fMul a b).1, (fDiv a b).1, (fSqrt a).1, (fMin a b).1, (fMax a b).1] →
     fIsNaN w = true → w = 0x7FC00000) ∧
   ∀ (fl : Word) (f : FFlags) (i : Nat), fl.getLsbD i = true → (stickyFlags fl f).getLsbD i = true) ∧
  (∀ fl a b : Word,
     let f := fcmpFlags fl a b
     if fIsNaN a || fIsNaN b then
       condHolds .un f = true ∧ ∀ c, c ∈ [Cond.flt, .fge, .fgt, .fle] → condHolds c f = false
     else
       condHolds .un f = false ∧ condHolds .flt f = decide (fKey a < fKey b) ∧ condHolds .fge f = decide (fKey b ≤ fKey a) ∧
       condHolds .fgt f = decide (fKey b < fKey a) ∧ condHolds .fle f = decide (fKey a ≤ fKey b) ∧
       condHolds .eq f = decide (fKey a = fKey b))

/-- R90, R91: the float instructions give the value and the sticky flags of their operation and change nothing else.
Forms whose next state is stated (exec c s = .next t): fadd, fsub, fmul, fdiv, fsqrt, fmin, fmax, fabs, fneg, fcmp,
itof, ftoi, ftoiz. -/
def Obligations.FloatInstructionsCompute : Prop :=
  ∀ (x : Issue) (rd ra rb : Reg) (s : State),
    let e := x.eng
    let a := gr e ra s
    let b := gr e rb s
    let fl := (s.eng e).fl
    let Gives (c : Instr) (r : Word × FFlags) : Prop := Completes c s (Sets e rd r.1 (stickyFlags fl r.2) s)
    (Ready x [ra, rb] s →
      Gives (.fadd x rd ra rb) (fAdd a b) ∧ Gives (.fsub x rd ra rb) (fSub a b) ∧ Gives (.fmul x rd ra rb) (fMul a b) ∧
      Gives (.fdiv x rd ra rb) (fDiv a b) ∧ Gives (.fmin x rd ra rb) (fMin a b) ∧ Gives (.fmax x rd ra rb) (fMax a b) ∧
      Completes (.fcmp x ra rb) s (Sets e 0 0 (fcmpFlags fl a b) s)) ∧
    (Ready x [ra] s →
      Gives (.fabs x rd ra) (a &&& 0x7FFFFFFF, {}) ∧ Gives (.fneg x rd ra) (a ^^^ 0x80000000, {}) ∧
      Gives (.fsqrt x rd ra) (fSqrt a) ∧
      Gives (.itof x rd ra) (fOfInt a.toInt) ∧ Gives (.ftoi x rd ra) (fToInt true a) ∧
      Gives (.ftoiz x rd ra) (fToInt false a))

/-- R97: branches, with the condition of each name over Z, N, C, V and U of FL. A misaligned target of JR raises the
alignment exception with the target as its address. Forms whose next state is stated (exec c s = .next t): b, bl, jr.
-/
def Obligations.BranchesMoveThePc : Prop :=
  ∀ (x : Issue) (c : Cond) (ra : Reg) (off : BitVec 22) (s : State),
    let e := x.eng
    let pc := (s.eng e).pc
    let fl := (s.eng e).fl
    let Goes (i : Instr) (link : Reg) (v target : Word) : Prop := Completes i s fun t =>
      (∀ r, gr e r t = if r = link ∧ r ≠ 0 then v else gr e r s) ∧
      t.eng e = { s.eng e with g := (t.eng e).g, pc := target } ∧ OnlyEngine e s t
    let holds : Bool :=
      let Z : Bool := fl.getLsbD 0
      let N := fl.getLsbD 1
      let C := fl.getLsbD 2
      let V := fl.getLsbD 3
      match c with
      | .eq => Z | .ne => !Z | .lt => N != V | .ge => N == V | .gt => !Z && N == V | .le => Z || N != V
      | .ltu => !C | .geu => C | .gtu => C && !Z | .leu => !C || Z
      | .flt => N | .fge => C | .fgt => C && !Z | .fle => N || Z | .un => fl.getLsbD 4 | .al => true
    (Ready x [] s →
      Goes (.b x c off) 0 0 (if holds then pc + 4 * off.signExtend 32 else pc + 4) ∧
      Goes (.bl x off) 15 (pc + 4) (pc + 4 * off.signExtend 32)) ∧
    (Ready x [ra] s →
      if (gr e ra s).toNat % 4 = 0 then Goes (.jr x ra) 0 0 (gr e ra s)
      else Completes (.jr x ra) s fun t => t = kept s (exception e 3 0 (gr e ra s) (fetched e s)))

/-- R93, R94: a load that passes its checks takes its datum from local data, ROM, code SRAM, global SRAM, the NOR,
message RAM or the image of instance space that the engine reads. Forms whose next state is stated (exec c s = .next
t): lw, lh, lhu, lb, lbu. -/
def Obligations.LoadsTakeTheirDatum : Prop :=
  ∀ (x : Issue) (rd ra : Reg) (b : Base) (off : BitVec 15) (s : State),
    let e := x.eng
    let a := (dataAddr e ra b off s).toNat
    let w := if inInstance a then instWordAt e (a / 4 * 4) s else plainWord e a s
    let Loads (c : Instr) (size : Nat) (v : Word) : Prop := Granted e false size a s →
      Completes c s fun t => Registers e rd v s t ∧
        t.eng e = { s.eng e with g := (t.eng e).g, pc := (s.eng e).pc + 4 } ∧ OnlyEngineAndMemory e s t ∧ t.mem = s.mem
    ReadyMem x [ra] [a] s →
      Loads (.lw x rd ra b off) 4 w ∧
      Loads (.lh x rd ra b off) 2 ((w.extractLsb' (8 * (a % 4)) 16).signExtend 32) ∧
      Loads (.lhu x rd ra b off) 2 ((w.extractLsb' (8 * (a % 4)) 16).zeroExtend 32) ∧
      Loads (.lb x rd ra b off) 1 ((w.extractLsb' (8 * (a % 4)) 8).signExtend 32) ∧
      Loads (.lbu x rd ra b off) 1 ((w.extractLsb' (8 * (a % 4)) 8).zeroExtend 32)

/-- R93: a store that passes its checks puts the low bytes of its register at its address in local data, code SRAM or
global SRAM, least significant byte first, and changes no other byte. R71: a live job that stores a word to instance
space reads it back from the work image; the base image keeps the committed word. Forms whose next state is stated
(exec c s = .next t): sw, sh, sb. -/
def Obligations.StoresPutTheirBytes : Prop :=
  (∀ (x : Issue) (rd ra : Reg) (b : Base) (off : BitVec 15) (s : State),
     let e := x.eng
     let a := (dataAddr e ra b off s).toNat
     let p := storePlace e a
     let Stores (c : Instr) (size : Nat) : Prop := Granted e true size a s →
       (inLocal a || inCode a || inGsram a) = true → jobDead e s = false →
       Completes c s fun t => (∀ i, i < size → t.rb (p + i) = (gr e rd s).extractLsb' (8 * i) 8) ∧ MemoryOutside p size s t ∧
         t.eng e = { s.eng e with pc := (s.eng e).pc + 4 } ∧ OnlyEngineAndMemory e s t
     ReadyMem x [rd, ra] [a] s →
       Stores (.sw x rd ra b off) 4 ∧ Stores (.sh x rd ra b off) 2 ∧ Stores (.sb x rd ra b off) 1) ∧
  (∀ (x : Issue) (rd ra : Reg) (b : Base) (off : BitVec 15) (s : State) (j : JobRun),
     let e := x.eng
     let a := (dataAddr e ra b off s).toNat
     ReadyMem x [rd, ra] [a] s → Granted e true 4 a s → inInstance a = true → (s.eng e).job = some j → j.dead = false →
       Completes (.sw x rd ra b off) s fun t => instWordAt e a t = gr e rd s ∧ t.rw (baseAddr a t) = s.rw (baseAddr a s))

/-- R94: a misaligned access raises the alignment exception whatever its target, and stores nothing. R54, R95: an
access that the domain rules refuse reads as zero or stores nothing, and the job goes on with one more violation; the
first one's address and kind are kept. Forms whose next state is stated (exec c s = .next t): lw, lh, lhu, sw, sh. -/
def Obligations.RefusedAccessesTrapOrCount : Prop :=
  (∀ (x : Issue) (rd ra : Reg) (b : Base) (off : BitVec 15) (s : State),
     let e := x.eng
     let a := dataAddr e ra b off s
     let Traps (c : Instr) : Prop := Completes c s fun t => t = kept s (exception e 3 0 a (fetched e s))
     (ReadyMem x [ra] [a.toNat] s →
       (a.toNat % 4 ≠ 0 → Traps (.lw x rd ra b off)) ∧
       (a.toNat % 2 ≠ 0 → Traps (.lh x rd ra b off) ∧ Traps (.lhu x rd ra b off))) ∧
     (ReadyMem x [rd, ra] [a.toNat] s →
       (a.toNat % 4 ≠ 0 → Traps (.sw x rd ra b off)) ∧ (a.toNat % 2 ≠ 0 → Traps (.sh x rd ra b off)))) ∧
  (∀ (x : Issue) (rd ra : Reg) (b : Base) (off : BitVec 15) (s : State) (j : JobRun),
     let e := x.eng
     let a := (dataAddr e ra b off s).toNat
     let Counts (kind : Nat) (t : State) : Prop :=
       (t.eng e).job = some { j with viol := if j.viol.count = 0 then ⟨1, word a, kind⟩
         else { j.viol with count := min 255 (j.viol.count + 1) } } ∧ (t.eng e).pc = (s.eng e).pc + 4 ∧ t.mem = s.mem
     (s.eng e).job = some j → j.dead = false → isRemote a = false → inDamaskPages a = false →
       (ReadyMem x [ra] [a] s → refusal e false 4 a s = none → domainRefuses e false a s = true →
         Completes (.lw x rd ra b off) s fun t => Registers e rd 0 s t ∧ Counts 0 t) ∧
       (ReadyMem x [rd, ra] [a] s → refusal e true 4 a s = none → domainRefuses e true a s = true →
         Completes (.sw x rd ra b off) s fun t => Counts 1 t))

/-- R98: BCALL pushes the return address and IB as a frame in local data, BRET pops it. R99 to R101: EDGE, TMR and CNT
on a record in local data: the record and the result that the rules compute, and no other byte changed. Forms whose
next state is stated (exec c s = .next t): bcall, bret, edge, ton, tof, tp, ctu, ctd, ctud. -/
def Obligations.BlocksAndPrimitivesStep : Prop :=
  (∀ (x : Issue) (ra rb : Reg) (s : State),
     let e := x.eng
     let y := s.eng e
     (Ready x [ra, rb] s → (gr e rb s).toNat % 4 = 0 →
       ∀ f : Nat, f = (y.sp - 8).toNat → f % 4 = 0 → 0x30000000 ≤ f → f + 8 ≤ 0x30002000 →
       Completes (.bcall x ra rb) s fun t =>
         let p := localBase e + f % 0x2000
         t.rw p = y.pc + 4 ∧ t.rw (p + 4) = y.ib ∧ MemoryOutside p 8 s t ∧
         t.eng e = { y with sp := y.sp - 8, ib := gr e ra s, pc := gr e rb s } ∧ OnlyEngineAndMemory e s t) ∧
     (Ready x [] s →
       ∀ f : Nat, f = y.sp.toNat → f % 4 = 0 → 0x30000000 ≤ f → f + 8 ≤ 0x30002000 →
       Completes (.bret x) s fun t =>
         let p := localBase e + f % 0x2000
         t.eng e = { y with sp := y.sp + 8, ib := s.rw (p + 4), pc := s.rw p } ∧ t.mem = s.mem ∧ OnlyEngineAndMemory e s t)) ∧
  (∀ (x : Issue) (rd ra rb : Reg) (woff : BitVec 12) (s : State),
     let e := x.eng
     let a := (recordAddr e woff s).toNat
     let p := localBase e + a % 0x2000
     let input := gr e ra s != 0
     let Steps (c : Instr) (words : List Word) (v : Word) : Prop := Completes c s fun t =>
       (∀ i, i < words.length → t.rw (p + 4 * i) = words.getD i 0) ∧ MemoryOutside p (4 * words.length) s t ∧
       Registers e rd v s t ∧ t.eng e = { s.eng e with g := (t.eng e).g, pc := (s.eng e).pc + 4 } ∧
       OnlyEngineAndMemory e s t
     let Times (c : Instr) (f : Timer → Bool → Word → Word → Timer) : Prop :=
       let n := f (timerOf [s.rw p, s.rw (p + 4), s.rw (p + 8)]) input (ttOf e s)
         (if (gr e rb s).toNat ≤ 0x7FFFFFFF then gr e rb s else 0x7FFFFFFF)
       Steps c [n.start, n.et, word (n.q.toNat + 2 * n.run.toNat + 4 * input.toNat)] (if n.q then 1 else 0)
     let Counts (c : Instr) (up down : Bool) : Prop :=
       let r := countStep up down [s.rw p, s.rw (p + 4), s.rw (p + 8), s.rw (p + 12)] (gr e ra s) (gr e rb s)
       Steps c [r.1, gr e ra s &&& 3]
         (word ((decide ((gr e rb s).toInt ≤ r.1.toInt)).toNat + 2 * (decide (r.1.toInt ≤ 0)).toNat))
     a % 4 = 0 → 0x30000000 ≤ a →
       (ReadyMem x [ra] [a] s → a + 4 ≤ 0x30002000 →
         let prev := (s.rw p).getLsbD 0
         Steps (.edge x rd ra woff) [if input then 1 else 0]
           (word ((input && !prev).toNat + 2 * (prev && !input).toNat))) ∧
       (ReadyMem x [ra, rb] [a] s → a + 12 ≤ 0x30002000 →
         Times (.ton x rd ra rb woff) tonStep ∧ Times (.tof x rd ra rb woff) tofStep ∧ Times (.tp x rd ra rb woff) tpStep) ∧
       (ReadyMem x [ra, rb] [a] s → a + 16 ≤ 0x30002000 →
         Counts (.ctu x rd ra rb woff) true false ∧ Counts (.ctd x rd ra rb woff) false true ∧
         Counts (.ctud x rd ra rb woff) true true))

/-- R100: a running on-delay timer shows the time since its start, at most the preset, and its output is set once the
preset has been reached. R101: the count stays within its limits when they are in order, and a rising CU with a rising
CD leaves it. -/
def Obligations.TimersAndCountersKeepTheirRules : Prop :=
  (∀ (t : Timer) (tt pt : Word), t.run = true →
     let n := tonStep { t with q := false } true tt pt
     n.et = (if (tt - t.start).toNat ≤ pt.toNat then tt - t.start else pt) ∧
     (n.q = true ↔ pt.toNat ≤ (tt - t.start).toNat) ∧ n.run = !n.q) ∧
  (∀ (up down : Bool) (cv fl lo hi i pv : Word), lo.toInt ≤ hi.toInt →
     let r := countStep up down [cv, fl, lo, hi] i pv
     lo.toInt ≤ r.1.toInt ∧ r.1.toInt ≤ hi.toInt ∧ r.2 = i &&& 3 ∧
     (lo.toInt ≤ cv.toInt → cv.toInt ≤ hi.toInt → fl &&& 3 = 0 → i &&& 15 = 3 → (countStep true true [cv, fl, lo, hi] i pv).1 = cv))

/-- R102: MAT whose operands pass the checks joins its cluster's waiting operations and its engine waits. R75, R102:
the operation of firmware at the head of the solver completes: its result stands in both images, its register is zero,
its engine runs on and the count has risen by one. Forms whose next state is stated (exec c s = .next t): gemv, gemm,
chol, solve, solverOpDone. -/
def Obligations.SolverRunsItsQueue : Prop :=
  (∀ (x : Issue) (rd ra : Reg) (s : State),
     let e := x.eng
     let v := fun i => gr e (operandReg ra i) s
     let d := v 3
     let k := clusterOf e
     let Joins (c : Instr) (fn : SolverFn) : Prop :=
       let o : SolverOp := ⟨e, rd, fn, v 0, v 1, v 2, d.toNat % 64, d.toNat / 256 % 64, d.toNat / 65536 % 64⟩
       if matFault ra d o = none then
         Completes c s fun t => solverQueue k t = solverQueue k s ++ [o] ∧
           t.eng e = { s.eng e with mode := .solver, busyFrom := (t.eng e).busyFrom } ∧
           (∀ f, f ≠ e → t.eng f = s.eng f) ∧ t.mem = s.mem ∧ OnlyFab s t
       else Completes c s fun t => t = kept s (exception e 6 0 ((matFault ra d o).getD 0) (fetched e s))
     Ready x [operandReg ra 0, operandReg ra 1, operandReg ra 2, operandReg ra 3] s → slotsShort e [0x20000000] s = false →
       targetWaits e (solverTarget (clusterOf e)) s = false →
       Joins (.gemv x rd ra) .gemv ∧ Joins (.gemm x rd ra) .gemm ∧ Joins (.chol x rd ra) .chol ∧
       Joins (.solve x rd ra) .solve) ∧
  (∀ (k : Fin 8) (o : SolverOp) (rest : List SolverOp) (s : State),
     let e := o.eng
     let n := (extents o).2.2
     let c := o.c.toNat
     let operand (i : Nat) (a : Word) : List Word :=
       let n := ((extents o).1.getD i (0, 0)).2
       (List.range n).map fun j => if j ∈ elemsRead o i n then instWordAt e (a.toNat + 4 * j) s else 0
     let A := operand 0 o.a
     let B := operand 1 o.b
     let r := solverCompute o A B
     solverQueue k.val s = o :: rest → (s.eng e).mode = .solver → (s.eng e).job = none → r.2 = true →
     r.1.length = n → 0x20000000 ≤ c → c + 4 * n ≤ 0x20400000 → resultBusy e c n s = none →
       Completes (.solverOpDone k .none) s fun t =>
         solverQueue k.val t = rest ∧ (t.eng e).mode = .run ∧ (t.eng e).pc = (s.eng e).pc + 4 ∧ Registers e o.rd 0 s t ∧
         t.g (pENG + k.val) ENG_SOLVCNT_COUNT = (s.g (pENG + k.val) ENG_SOLVCNT_COUNT + 1) % 2 ^ 32 ∧
         ∀ i, i < n → t.rw (imageAddr 0 (c + 4 * i)) = r.1.getD i 0 ∧ t.rw (imageAddr 1 (c + 4 * i)) = r.1.getD i 0)

/-- R82: MFS reads, and MTS writes, each special register; a number above 12, and PC, TT and JOBID in MTS, are
illegal; task mode may not name 8 to 12, nor write IB, XB or YB. Forms whose next state is stated (exec c s = .next
t): mfs, mts. -/
def Obligations.SpecialRegistersReadAndWrite : Prop :=
  ∀ (x : Issue) (r : Reg) (n : BitVec 16) (s : State),
    let e := x.eng
    let k := n.toNat
    let v := gr e r s
    (Ready x [] s →
      if 12 < k then Completes (.mfs x r n) s fun t => t = kept s (exception e 1 0 0 (fetched e s))
      else if inTask e s = true ∧ 8 ≤ k then Completes (.mfs x r n) s fun t => t = kept s (exception e 2 0 0 (fetched e s))
      else Completes (.mfs x r n) s (Sets e r ((specials e s).getD k 0) (s.eng e).fl s)) ∧
    (Ready x [r] s →
      if 12 < k ∨ k ∈ [0, 5, 7] then Completes (.mts x r n) s fun t => t = kept s (exception e 1 0 0 (fetched e s))
      else if inTask e s = true ∧ k ∈ [2, 3, 4, 8, 9, 10, 11, 12] then
        Completes (.mts x r n) s fun t => t = kept s (exception e 2 0 0 (fetched e s))
      else Completes (.mts x r n) s fun t =>
        specials e t = (((specials e s).set 0 ((s.eng e).pc + 4)).set k
          (if k = 1 then (if inTask e s then ((s.eng e).fl &&& 0xFFFFE0E0) ||| (v &&& 0x1F1F)
              else ((s.eng e).fl &&& 0xFFFF40E0) ||| (v &&& 0xBF1F))
            else if k = 12 then v &&& 0xFFFFFF00 else v)) ∧
        (t.eng e).g = (s.eng e).g ∧ OnlyEngine e s t)

/-- R104: YIELD with every slot free and no error to take ends the job: its engine runs none, and sleeps when it is a
supervisor engine or idles when it is not. With a slot in use it waits. In supervisor mode it is illegal. R105, R109:
FAULT in task mode ends the job as a job fault; the scan fails and is counted, and an event of class 15 carries task,
job, code and address. R79: when the timer of its job expires, a lane runs no job any more, its instruction cache is
empty, EXCL and HUNG are set for it, and 4 × the job's worst-case time has passed since its start. A supervisor engine
is halted; a lane that holds no role is idle, and its PC is 0 (the model's reading, log entry 32). Forms whose next
state is stated (exec c s = .next t): jobTimerExpiry, yield, fault. -/
def Obligations.JobsEnd : Prop :=
  (∀ (x : Issue) (s : State), Ready x [] s →
     let e := x.eng
     match (s.eng e).job with
     | none => Completes (.yield x) s fun t => t = kept s (exception e 1 0 0 (fetched e s))
     | some j =>
       if slotsUsed e s = 0 then
         Completes (.yield x) s fun t => (t.eng e).job = none ∧
           (t.eng e).mode = if isSupervisor e s then .sleep else .idle
       else Completes (.yield x) s fun t => (t.eng e).mode = .yielding ∧ (t.eng e).pc = (s.eng e).pc ∧
         (t.eng e).job = some j ∧ t.mem = s.mem) ∧
  (∀ (x : Issue) (code : BitVec 16) (j : JobRun) (sc : Scan) (s : State),
     let e := x.eng
     Ready x [] s → (s.eng e).job = some j → j.dead = false → (s.task j.task).scan = some sc →
       Completes (.fault x code) s fun t =>
         (t.eng e).job = none ∧ (t.task j.task).scan = none ∧
         t.reg pSCH 0x06C = word (1 * 2 ^ 29 + j.task.val * 2 ^ 23 + j.job) ∧
         t.g pSCH SCH_CNT_FAILS = min (s.g pSCH SCH_CNT_FAILS + 1) 65535 ∧
         ∃ ev ∈ t.ev.waiting, ev.code = 0x020F ∧ ev.stamp = s.mtb ∧
           ev.data = padTo 10 (byte j.task.val :: leBytes 2 j.job ++ leBytes 2 code.toNat ++ [0, 0, 0, 0])) ∧
  (∀ (e : EngNo) (j : JobRun) (s : State), (s.eng e).job = some j →
     Completes (.jobTimerExpiry e) s fun t =>
       (t.eng e).job = none ∧ (t.eng e).pc = 0 ∧ (t.eng e).mode = (if isSupervisor e s then .halted else .idle) ∧
       icacheOf e t = [] ∧ excluded e t = true ∧ t.bit (engPage e) ⟨0x00C, laneOf e, 1⟩ = true ∧
       (s.mtb < timerEnd j → t.mtb = timerEnd j % 2 ^ 64))

/-- R109, R110: in supervisor mode an exception saves PC and FL, clears IE, sets EX, writes ECAUSE and EADDR and goes
on at VBASE; with EX set already the engine halts and its lane is excluded. R47, R48, R111: the error of a transaction
is taken as an imprecise exception with the address of the access; a fetch that is not allowed is an access error that
FAB records with its kind, unless an earlier one still stands. Forms whose next state is stated (exec c s = .next t):
yield, fault, remoteAccessException, illegalInstruction, fetchAccessError. -/
def Obligations.ExceptionsEnterTheHandler : Prop :=
  (∀ (x : Issue) (code : BitVec 16) (s : State), Ready x [] s →
     let e := x.eng
     let Enters (c : Instr) (n detail : Nat) : Prop :=
       if (s.eng e).fl.getLsbD 15 then Completes c s fun t => (t.eng e).mode = .halted ∧ excluded e t = true ∧
         (t.reg pFLT 0x010).getLsbD 5 = true
       else Completes c s fun t => EnteredException e n detail 0 false s t ∧ (t.eng e).remErr = (s.eng e).remErr ∧
         OnlyEngine e s t
     (s.eng e).job = none →
       Enters (.fault x code) 7 code.toNat ∧ Enters (.illegalInstruction x) 1 0 ∧ Enters (.yield x) 1 0) ∧
  (∀ (e : EngNo) (a : Word) (k : Nat) (s : State), (s.eng e).job = none → (s.eng e).fl.getLsbD 15 = false →
     (s.eng e).mode = .run → (s.eng e).record = none →
     ((s.eng e).remErr = some a →
       Completes (.remoteAccessException e) s fun t =>
         EnteredException e 5 4 a true s t ∧ (t.eng e).remErr = none ∧ t.regs = s.regs ∧ t.mem = s.mem) ∧
     ((s.eng e).remErr = none → fetchError e (s.eng e).pc.toNat s = some k → k < 8 →
       Completes (.fetchAccessError e) s fun t =>
         EnteredException e 4 k (s.eng e).pc false s t ∧ t.bit pFAB FAB_IRQ_RAW_ACCERR = true ∧ t.mem = s.mem ∧
         (s.bit pFAB FAB_IRQ_RAW_ACCERR = false →
           t.reg pFAB 0x050 = (s.eng e).pc ∧ t.reg pFAB 0x054 = word (k * 2 ^ 13 + 256 + e.val))))

/-- R70, R107, R110: an engine in supervisor mode with IE set takes the lowest pending source routed to it, at VBASE +
0x040 and with IE cleared; a sleeping one with IE clear only goes on. R107, R110: IRET goes back to the saved PC with
the saved FL; SLEEP stops the engine after itself. Forms whose next state is stated (exec c s = .next t): iret, sleep,
interruptEntry, sleepWake. -/
def Obligations.SupervisorGoesOnAndReturns : Prop :=
  (∀ (e : EngNo) (n : Nat) (s : State), (s.eng e).job = none → offered e s = some n →
     ((s.eng e).mode = .run ∧ (s.eng e).record = none ∧ (s.eng e).remErr = none ∨ (s.eng e).mode = .sleep →
       (s.eng e).fl.getLsbD 13 = true →
       Completes (.interruptEntry e) s fun t =>
         t.eng e = { s.eng e with
           epc := (s.eng e).pc, efl := (s.eng e).fl, fl := setBit (s.eng e).fl 13 false,
           ecause := word (n % 65536 * 65536 + 0x10), eaddr := 0, pc := (s.eng e).vbase + 0x40, mode := .run,
           busyFrom := (t.eng e).busyFrom } ∧ t.regs = s.regs ∧ t.mem = s.mem) ∧
     ((s.eng e).mode = .sleep → (s.eng e).fl.getLsbD 13 = false →
       Completes (.sleepWake e) s fun t =>
         t.eng e = { s.eng e with mode := .run, busyFrom := (t.eng e).busyFrom } ∧ t.regs = s.regs ∧ t.mem = s.mem)) ∧
  (∀ (x : Issue) (s : State), Ready x [] s → (s.eng x.eng).job = none →
     let e := x.eng
     (Completes (.iret x) s fun t =>
       t.eng e = { s.eng e with pc := (s.eng e).epc, fl := (s.eng e).efl &&& 0xFF1F } ∧ OnlyEngine e s t) ∧
     (Completes (.sleep x) s fun t =>
       t.eng e = { s.eng e with pc := (s.eng e).pc + 4, mode := .sleep, busyFrom := (t.eng e).busyFrom } ∧
       OnlyFab s t ∧ t.mem = s.mem ∧ ∀ f, f ≠ e → t.eng f = s.eng f))

/-- R106: PLK opens the lock of a Damask page and writes its target: FAIRMODE of FAB, which only an open lock lets
change, takes the value written, and the lock is closed again. R106, R107: in task mode the supervisor instructions
are privileged. R108: the four results of MIGRATE; an accepted request of a task without a live scan moves it at once,
one with a live scan waits for its end. That a task that is not enabled gives 2 before any reason for 1 is the model's
reading (log entry 30). Forms whose next state is stated (exec c s = .next t): plk, iret, sleep,
migrate. -/
def Obligations.SupervisorInstructionsAct : Prop :=
  (∀ (x : Issue) (ra rb rc : Reg) (s : State),
     let e := x.eng
     ReadyMem x [ra, rb, rc] [0x40000020 + 0x1000 * pFAB, 0x40000008 + 0x1000 * pFAB] s → (s.eng e).job = none →
     gr e ra s = word (0x40000008 + 0x1000 * pFAB) → gr e rb s = unlockValue pFAB →
       Completes (.plk x ra rb rc) s fun t =>
         t.g pFAB FAB_CTRL_FAIRMODE = FAB_CTRL_FAIRMODE.get (gr e rc s) ∧ t.bit pFAB LOCK_OPEN = false ∧
         (t.eng e).pc = (s.eng e).pc + 4 ∧ t.mem = s.mem) ∧
  (∀ (x : Issue) (rd ra rb rc : Reg) (s : State), (s.eng x.eng).job ≠ none →
     let Refused (c : Instr) : Prop := Completes c s fun t => t = kept s (exception x.eng 2 0 0 (fetched x.eng s))
     (Ready x [] s → Refused (.iret x) ∧ Refused (.sleep x)) ∧ (Ready x [ra, rb] s → Refused (.migrate x rd ra rb)) ∧
     (ReadyMem x [ra, rb, rc] [(gr x.eng ra s).toNat / 4096 * 4096 + 0x020, (gr x.eng ra s).toNat] s →
       Refused (.plk x ra rb rc))) ∧
  (∀ (x : Issue) (rd ra rb : Reg) (s : State), Ready x [ra, rb] s → (s.eng x.eng).job = none →
     let e := x.eng
     let t := (gr e ra s).toNat
     let h := halfAt (gr e rb s).toNat
     if ht : t < 64 ∧ (gr e rb s).toNat < 2 then
       let n : TaskNo := ⟨t, ht.1⟩
       if taskEnabled n s = false then Completes (.migrate x rd ra rb) s (Sets e rd 2 (s.eng e).fl s)
       else if taskMigPend n s = true ∨ taskHalf n s = h then Completes (.migrate x rd ra rb) s (Sets e rd 1 (s.eng e).fl s)
       else Completes (.migrate x rd ra rb) s fun u => Registers e rd 0 s u ∧ (u.eng e).pc = (s.eng e).pc + 4 ∧
         (if (s.task n).scan = none then taskHalf n u = h else taskMigPend n u = true ∧ taskHalf n u = taskHalf n s)
     else Completes (.migrate x rd ra rb) s (Sets e rd 3 (s.eng e).fl s))

/-- R82, R103, R124: an engine that may take a job starts the first it finds: its registers stand as a job starts.
Forms whose next state is stated (exec c s = .next t): jobTake. -/
def Obligations.JobsStart : Prop :=
  ∀ (e : EngNo) (k : Nat) (t : TaskNo) (j : Nat) (en : TaskEntry) (sc : Scan) (s : State),
    mayTake e s = true → (isSupervisor e s = true → offered e s = none) →
    (List.range 8).findSome? (fun c => findJob e c s) = some (k, (t, j)) →
    (s.task t).entry = some en → (s.task t).scan = some sc →
      Completes (.jobTake e) s fun u =>
        let d := jobDesc en.graph.toNat j s
        let y := u.eng e
        y.pc = d.entry ∧ y.fl = 0 ∧ y.ib = d.inst ∧ y.xb = en.xb ∧ y.yb = en.yb ∧ y.tt = word sc.btick ∧
        y.sp = 0x30002000 ∧ y.jobid = word (2 ^ 31 + t.val * 2 ^ 16 + j) ∧
        (∀ r, gr e r u = if r = 1 then d.arg else 0) ∧ y.mode = .run ∧ y.vbase = (s.eng e).vbase ∧
        y.epc = (s.eng e).epc ∧ inTask e u = true ∧ u.deque k = (s.deque k).erase (t, j) ∧ u.mem = s.mem

/-- R85 to R87: decoding the word of any engine instruction, with every operand, gives that instruction back. R86: a
word that stands for an instruction stands for no other, and no other word stands for it: every reserved field of the
word is checked. -/
def Obligations.EngineWordsRoundTrip : Prop :=
  (∀ (c : Instr) (x : Issue), issueOf c = some x → ∃ w, encodeEngine c = some w ∧ decodeEngine x w = some c) ∧
  (∀ (x : Issue) (w : Word) (c : Instr), decodeEngine x w = some c → encodeEngine c = some w ∧ issueOf c = some x)

/-- R85 to R87: words written out from the formats: the two examples of R87 and one of each other format; erased flash
and the reserved fields are refused. -/
def Obligations.EngineWordsSpelledOut : Prop :=
  ∀ x : Issue,
    decodeEngine x 0x10CBFFFB = some (.addi x 3 2 (-5)) ∧
    decodeEngine x 0xA5158003 = some (.ton x 4 5 6 3) ∧
    decodeEngine x 0b000001_0001_0010_0011_0000_0000000001 = some (.sub x 1 2 3) ∧
    decodeEngine x 0b010000_0111_0001_0000_0000_0000000100 = some (.fsqrt x 7 1) ∧
    decodeEngine x 0b011101_0010_0011_100_111111111111100 = some (.sw x 2 3 .sp (-4)) ∧
    decodeEngine x 0b100000_0001_1111111111111111111111 = some (.b x .ne (-1)) ∧
    decodeEngine x 0b110001_0000_0101_00_0000000000000001 = some (.mts x 5 1) ∧
    decodeEngine x 0b111000_0000_0001_0010_0011_0000000000 = some (.plk x 1 2 3) ∧
    decodeEngine x 0 = none ∧ decodeEngine x 0xFFFFFFFF = none ∧
    decodeEngine x 0b000001_0001_0010_0011_0001_0000000001 = none ∧
    decodeEngine x 0b011101_0010_0011_101_000000000000000 = none

/-- R421, R427: a power-on reset, and each module reset that is not made to wait, clears both counts, names its cause
on both dies, and starts both halves in ROM with their releases held (that both HOLD bits stand at a module start is the
model's reading, log entry 49). R61, R421: while RESET_N is low the module is held and no engine runs; its release shows
the straps as they stand in MSYS_STRAP, and starts both halves with both counts at zero. Forms whose next state is stated (exec c s = .next t): powerOnReset, moduleReset, modrst,
muslinWatchdogExpiry, resetRelease. -/
def Obligations.ResetPinRunsTheModule : Prop :=
  (∀ (x : Straps) (lost : Bool) (r : Requester) (d : Die) (s : State),
     let Starts (c : Instr) (cause : Nat) : Prop := Completes c s fun t =>
       t.mtb = 0 ∧ t.replica = 0 ∧ t.boot.east = romStart false 0 ∧ t.boot.west = romStart false 0 ∧
       t.bit pSCH SCH_CTRL_HOLDE = true ∧ t.bit pSCH SCH_CTRL_HOLDW = true ∧
       t.reg pSYS 0x04C = word (2 ^ cause) ∧ t.reg pMSYS 0x04C = word (2 ^ cause) ∧
       t.linkState .damask = stTrain ∧ t.linkState .muslin = stTrain
     Starts (.powerOnReset x lost) 0 ∧
     (muslinRuns s = true → s.power.held = false → planRuns s = false →
       Starts (.moduleReset false x) 1 ∧ Starts .muslinWatchdogExpiry 3 ∧
       (FirmwareUnlocked r (match d with | .damask => pSYS | .muslin => pMSYS) s → Starts (.modrst r d) 2))) ∧
  (∀ (x : Straps) (s : State),
     (muslinRuns s = true → s.power.held = false → planRuns s = false →
       Completes (.moduleReset true x) s fun t => t.power.held = true ∧ ∀ e, (t.eng e).mode = .idle) ∧
     (s.power.held = true →
       Completes (.resetRelease x) s fun t => t.power.held = false ∧ t.mtb = 0 ∧ t.replica = 0 ∧
         t.boot.east = romStart false 0 ∧ t.boot.west = romStart false 0 ∧
         t.bit pMSYS MSYS_STRAP_RECOV = x.recov ∧ t.bit pMSYS MSYS_STRAP_PRF_PINEN = x.pinen ∧
         t.bit pMSYS MSYS_STRAP_FAILDIR = x.faildir ∧
         t.bit pSCH SCH_CTRL_HOLDE = true ∧ t.bit pSCH SCH_CTRL_HOLDW = true))

/-- The state of a new module right after power-on is State.reset (the reset values that the spec does not give are
the model's, log entry 2). -/
def Obligations.PowerOnResetOfANewModule : Prop :=
  exec (.powerOnReset ⟨false, false, false⟩ true) State.reset = .next State.reset

/-- R13, R376, R421: a module reset asked for during the power-fail plan waits for its end; the plan's end puts Damask
off. R373, R376: a supply failure starts the power-fail plan and drops supply-good; supply-good comes back with its
flag. R376: on a Damask that is powered every scan becomes dead and both HOLD bits are set, whether or not the link is
UP (log entry 131). Forms whose next state is stated (exec c s = .next t): moduleReset, supplyFailure, powerFailPlanEnd, supplyGood.
-/
def Obligations.SupplyFailsAndReturns : Prop :=
  (∀ (x : Straps) (low : Bool) (s : State), s.power.held = false → planRuns s = true →
     (Completes (.moduleReset low x) s fun t => t = { s with pins := x, power := { s.power with reset := some causePin } }) ∧
     (s.flash.running = none → s.power.reset = none → s.bit pPMU PMU_STAT_DOFF = false →
       Completes (.powerFailPlanEnd low x) s fun t => t.bit pPMU PMU_STAT_DOFF = true ∧ t.bit pPMU PMU_STAT_PLAN = false ∧
         halfState .east t = hsOff ∧ halfState .west t = hsOff ∧ ∀ e, (t.eng e).mode = .idle)) ∧
  (∀ (xs : List MeterTick) (s : State), s.power.held = false →
     (s.power.failed = false →
       Completes (.supplyFailure xs) s fun t => t.power.failed = true ∧ t.bit pPMU PMU_STAT_SUPGOOD = false ∧
         t.bit pPMU PMU_STAT_PLAN = true ∧ t.bit pPMU PMU_IRQ_RAW_SUPFAIL = true ∧ t.chr.opRun = false ∧
         (s.power.leaving = false → s.bit pPMU PMU_STAT_DOFF = false → t.power.leaving = true ∧
           (∀ n, (t.task n).scan = none) ∧ t.bit pSCH SCH_CTRL_HOLDE = true ∧ t.bit pSCH SCH_CTRL_HOLDW = true)) ∧
     (planRuns s = false → s.bit pPMU PMU_STAT_SUPGOOD = false → s.bit pPMU PMU_STAT_DOFF = false →
       Completes .supplyGood s fun t => t.power.failed = false ∧ t.bit pPMU PMU_STAT_SUPGOOD = true ∧
         t.bit pPMU PMU_IRQ_RAW_SUPGOOD = true))

/-- R37, R69, R144, R360: a half boot by firmware of the running partner stops the half's engines, starts ROM on its
first lane or, when that is excluded, on the next, and holds the half's releases; the partner half keeps running (that
ROM starts at PC 0 is the model's reading, log entry 7). R13, R360: a Damask restart starts both halves in ROM with
cause 2, at the replica's count; the time base waits to be loaded by training (that Damask counts on from the replica
until then is the model's choice, log entry 74, and that both HOLD bits stand its reading, log entry 49). R380, R382:
DOFF with the link UP makes every scan dead and holds both halves; with the link not UP it puts Damask off at once, which
is the model's reading (log entry 72); RESTORE without a valid area is done at once. Forms whose next state is stated
(exec c s = .next t): damaskRestart, halfBoot, doff, restore. -/
def Obligations.HalvesAndDamaskRestart : Prop :=
  (∀ (r : Requester) (h : Half) (slot : Fin 2) (s : State),
     Firmware r pBOOT s → halfOf r.eng = h.other → halfRuns h.other s = true →
       Completes (.halfBoot r h slot) s fun t =>
         halfState h t = hsRom ∧ t.rom h = { romStart true s.mtb with slot := some slot.val } ∧
         t.bit pSCH (holdFld h) = true ∧ halfState h.other t = halfState h.other s ∧
         (primaryOf h t).val = firstEngine h + (if (s.reg (halfPage h) 0x008).getLsbD 0 then 1 else 0) ∧
         (t.eng (primaryOf h t)).pc = 0 ∧ (t.eng (primaryOf h t)).mode = .run ∧
         ∀ e, halfOf e = h → e ≠ primaryOf h t → isSupervisor e t = false → (t.eng e).mode = .idle ∧ (t.eng e).job = none) ∧
  (∀ (r : Requester) (s : State), FirmwareUnlocked r pBOOT s →
     Completes (.damaskRestart r) s fun t => t.mtb = s.replica ∧ t.replica = s.replica ∧
       t.g pBOOT BOOT_STAT_CAUSE = 2 ∧ t.bit pMTB MTB_STAT_LOADED = false ∧
       t.boot.east = romStart false s.replica ∧ t.boot.west = romStart false s.replica ∧
       t.bit pSCH SCH_CTRL_HOLDE = true ∧ t.bit pSCH SCH_CTRL_HOLDW = true ∧ halfState .east t = hsRom ∧
       halfState .west t = hsRom) ∧
  (∀ (r : Requester) (s : State), Firmware r pPMU s → s.power.leaving = false → s.bit pPMU PMU_STAT_DOFF = false →
     s.bit pPMU PMU_CTRL_RESTORE = false → s.bit pPMU PMU_CTRL_DOFF = false →
     (s.linkUp .muslin = false → Completes (.doff r) s fun t => t.bit pPMU PMU_STAT_DOFF = true ∧
       halfState .east t = hsOff ∧ halfState .west t = hsOff ∧ t.sched.tasks = []) ∧
     (s.linkUp .muslin = true → Completes (.doff r) s fun t => t.power.leaving = true ∧ (∀ n, (t.task n).scan = none) ∧
       t.bit pSCH SCH_CTRL_HOLDE = true ∧ t.bit pSCH SCH_CTRL_HOLDW = true) ∧
     (newestArea s = none → Completes (.restore r) s fun t => t.bit pPMU PMU_STAT_RESTDONE = true))

/-- R361: an attempt whose checks all pass hands over: the half runs, its releases are no longer held, and its primary
supervisor stands at ENTRY in supervisor mode with IE clear. One that fails in a step shows the step's FAIL code; an
attempt that a check of R79 ends is made once more; one whose key the vault has yet to load stays in ROM. R361: a half
that has not handed over 1 s after its start is ended with FAIL 11, at that time or later; an attempt that comes too late
finds its time over. R361, R362, R368: after a module start or Damask restart East waits 100 ms for the link, writing
RETRAIN every 10 ms, and then enters recovery with cause 4; with the link UP it counts CHR_BOOTFAIL, enters recovery with
cause 1 on the strap and with cause 3 when CHR_BOOTFAIL read 3 or more, and otherwise tries the slot with the correct
MAGIC and the higher SEQNO, A on a tie, the other one when CHR_BOOTFAIL read 1; when that fails it goes on to the other
slot. Forms whose next state is stated (exec c s = .next t): bootAttempt, bootTimeout. -/
def Obligations.BootHandsOverOrFails : Prop :=
  (∀ (h : Half) (u : RomUpset) (k : Nat) (s : State),
     damaskOn s = true → halfState h s = hsRom → (s.rom h).half = true → (s.rom h).slot = some k → linkInTime h s = true →
     s.mtb < (s.rom h).start + 100000000 →
       let r := tryAttempt h k u s
       match r.1 with
       | .waits => Completes (.bootAttempt h u) s fun t => t = kept s r.2 ∧ halfState h t = hsRom
       | .passed => Completes (.bootAttempt h u) s fun t =>
           let y := t.eng (primaryOf h r.2)
           halfState h t = hsRun ∧ t.bit pSCH (holdFld h) = false ∧ y.mode = .run ∧
           y.pc = word (0x08000000 + slotEntry k r.2) ∧ y.fl.getLsbD 14 = true ∧ y.fl.getLsbD 13 = false
       | .failed c => Completes (.bootAttempt h u) s fun t => t.g pBOOT ⟨infoOff h, 28, 4⟩ = c % 16) ∧
  (∀ (h : Half) (k : Nat) (s : State),
     damaskOn s = true → halfState h s = hsRom → (s.rom h).half = true → (s.rom h).slot = some k →
       (Completes (.bootTimeout h) s fun t => t.g pBOOT ⟨infoOff h, 28, 4⟩ = 11 ∧
         (s.mtb < (s.rom h).start + 100000000 → t.mtb = ((s.rom h).start + 100000000) % 2 ^ 64)) ∧
       ((s.rom h).start + 100000000 ≤ s.mtb →
         Completes (.bootAttempt h .none) s fun t => t.g pBOOT ⟨infoOff h, 28, 4⟩ = 11)) ∧
  (∀ (u : RomUpset) (s : State),
     let n := s.g pCHR CHR_BOOTFAIL_COUNT
     let start := s.boot.east.start
     let Recovers (cause : Nat) (t : State) : Prop := t.g pBOOT BOOT_STAT_RCAUSE = cause ∧
       halfState .east t = hsRecovery ∧ halfState .west t = hsRecovery
     damaskOn s = true → halfState .east s = hsRom → s.boot.east.half = false → s.boot.east.slot = none →
     start ≤ s.mtb → s.mtb < start + 100000000 → start + 100000000 < 2 ^ 64 →
       (linkInTime .east s = true →
         (s.bit pMSYS MSYS_STRAP_RECOV = true → Completes (.bootAttempt .east u) s fun t => Recovers 1 t ∧
           t.g pCHR CHR_BOOTFAIL_COUNT = min (n + 1) 7) ∧
         (s.bit pMSYS MSYS_STRAP_RECOV = false → 3 ≤ n → Completes (.bootAttempt .east u) s fun t => Recovers 3 t ∧
           t.g pCHR CHR_BOOTFAIL_COUNT = min (n + 1) 7) ∧
         (s.bit pMSYS MSYS_STRAP_RECOV = false → n < 3 → s.bit pDDL DDL_STAT_PAIRFLT = false → s.boot.east.key = .none →
           s.boot.east.tries = 0 →
           Completes (.bootAttempt .east (.nor 2)) s fun t => t.g pCHR CHR_BOOTFAIL_COUNT = n + 1 ∧
             t.g pBOOT ⟨infoOff .east, 28, 4⟩ = 10 ∧ halfState .east t = hsRom ∧
             let best := if slotMagic 1 s = true ∧ (slotMagic 0 s = false ∨ slotSeqno 0 s < slotSeqno 1 s) then 1 else 0
             t.boot.east.slot = some (if n = 1 then best else 1 - best))) ∧
       (linkInTime .east s = false → start + 9000000 ≤ s.mtb → Completes (.bootAttempt .east u) s fun t => Recovers 4 t ∧
         t.g pBOOT ⟨infoOff .east, 28, 4⟩ = 1 ∧ t.g pCHR CHR_BOOTFAIL_COUNT = n) ∧
       (linkInTime .east s = false → s.mtb < start + 9000000 → s.bit pDDL DDL_CTRL_EN = true →
         s.bit pDDL DDL_CTRL_LOOPBACK = false → Completes (.bootAttempt .east u) s fun t =>
           t.linkState .damask = stTrain ∧ t.mtb = start + 1000000 * ((s.mtb - start) / 1000000 + 1)))

/-- R368 to R370: an accepted request of the download protocol is answered with its SEQ and status, and its answer is
kept for a repetition; START opens a slot, DATA advances it, END compares the hash, ABORT closes the session. R368,
R370: HELLO binds the session and is answered with INFO; 60 s without a frame end the session. Forms whose next state
is stated (exec c s = .next t): dlHello, dlStart, dlData, dlEnd, dlReboot, dlAbort, sessionTimeout. -/
def Obligations.DownloadSessionServes : Prop :=
  (∀ (x : DlFrame) (ss : Session) (s : State),
     let b := framePayload x
     let Takes (type : Nat) : Prop := s.boot.session = some ss ∧ s.mtb < ss.at_ + 6000000000 ∧ inRecovery s = true ∧
       ss.path = x.path ∧ frameGood x s = true ∧ ((dlBytes x).getD 0 0).toNat = type ∧ frameSeq x = (ss.lastSeq + 1) % 2 ^ 32 ∧
       frameSeq x ≠ ss.lastSeq ∧ (dlBytes x).getD 1 0 = 0
     let Answered (status : Nat) (slot : Option (Nat × Nat × Nat)) (t : State) : Prop :=
       (∃ st, t.boot.session = some st ∧ st.lastSeq = frameSeq x ∧ st.slot = slot ∧
         st.lastReply = replyFrame 0x81 (frameSeq x) [byte status, 0, 0, 0] s) ∧ t.comms.wire.length = 1
     (Takes 2 → b.length = 8 → leField b 1 3 = 0 → leField b 0 1 ≤ 1 → leField b 4 4 ≤ 0x1000000 →
       Completes (.dlStart x) s (Answered 0 (some (leField b 0 1, leField b 4 4, 0)))) ∧
     (∀ k total off, Takes 3 → ss.slot = some (k, total, off) → 8 ≤ b.length → b.length % 4 = 0 → leField b 0 4 = off →
       off + (b.length - 4) ≤ total → x.norError = false →
       Completes (.dlData x) s fun t => Answered 0 (some (k, total, off + (b.length - 4))) t ∧
         ∀ i, i < b.length - 4 → s.rb (norBase + (0x1000000 * k + off) + i) = 0xFF →
           t.rb (norBase + (0x1000000 * k + off) + i) = b.getD (4 + i) 0) ∧
     (∀ k total n, Takes 4 → ss.slot = some (k, total, n) → b.length = 32 → x.norError = false →
       Completes (.dlEnd x) s (Answered (if sha256 (s.bytes (slotBase k) n) = b then 0 else 5) ss.slot)) ∧
     (Takes 5 → b = [] → s.power.held = false → planRuns s = false → muslinRuns s = true →
       Completes (.dlReboot x) s fun t => t.boot.session = none ∧ t.comms.wire.length = 1 ∧ t.reg pSYS 0x04C = 4 ∧
         t.boot.east = romStart false 0 ∧ t.boot.west = romStart false 0) ∧
     (Takes 6 → b = [] → Completes (.dlAbort x) s fun t => t.boot.session = none ∧ t.comms.wire.length = 1)) ∧
  (∀ (x : DlFrame) (s : State),
     (inRecovery s = true → frameGood x s = true → (dlBytes x).take 4 = [1, 0, 0, 0] → s.boot.session = none →
       Completes (.dlHello x) s fun t => ∃ st, t.boot.session = some st ∧ st.path = x.path ∧ st.lastSeq = frameSeq x ∧
         st.slot = none ∧ st.lastReply.take 1 = [0x82]) ∧
     (∀ ss, s.boot.session = some ss → Completes .sessionTimeout s fun t => t.boot.session = none ∧
       (s.mtb < ss.at_ + 6000000000 → t.mtb = (ss.at_ + 6000000000) % 2 ^ 64)))

/-- R10, R12, R49, R50: a register write or read command is that access by its requester, at whatever address; no
register stands at an unaligned or unmapped one. IRQ_EN takes the bits that the page has; PAGE_ID ignores writes; a 1
written to a flag of FAB clears it unless the hardware updates it in the same clock; IRQ_FORCE sets bits of IRQ_RAW; a
register of type RC gives its value once and is zero after. R51, R52: the unlock value opens a page's lock for its
writer, any other value closes it and counts; 400 counts after it was opened an unused lock is closed. R51, R52:
without an open lock a write leaves the RWL fields of a Damask page as they are. R53 to R56: a task of another domain
than the page's owner changes nothing there, and reads zero. That such a row is an access as it reaches the page, that it
leaves the state where no register stands, and that the operand tie tells which flags the hardware sets in the same clock,
is the model's form of these rows (log entries 3, 8 and 27). Forms whose next state is stated (exec c s = .next t): damaskRestart, registerWrite, readClear, irqForce, lockWrite, lockTimeout, linkEn,
fairmodeWrite. -/
def Obligations.LocksAndOwnersProtect : Prop :=
  (∀ (r : Requester) (a p off k : Nat) (v tie : Word) (s : State), r.sup = true →
     (pageAt a = none → (Completes (.registerWrite r a v tie) s fun t => t = s) ∧ Completes (.readClear r a) s fun t => t = s) ∧
     (pageAt a = some (p, off) → pageReached p s = true →
       (Completes (.registerWrite r a v tie) s fun t => t = kept s (regWrite r p off v s tie)) ∧
       (Completes (.readClear r a) s fun t => t.answer = (regRead r p off s).1 ∧ t.regs = (regRead r p off s).2.regs)) ∧
     (p < 36 → pageRuns p s = true →
       (Completes (.registerWrite r (0x40000014 + 0x1000 * p) v tie) s fun t => t.reg p 0x014 = v &&& irqMask p ∧
         OnlyPages [p] s t) ∧
       (Completes (.registerWrite r (0x40000000 + 0x1000 * p) v tie) s fun t => t = s) ∧
       (p = pFAB → Completes (.registerWrite r (0x40000010 + 0x1000 * p) v tie) s fun t =>
         t.reg p 0x010 = s.reg p 0x010 &&& ~~~(v &&& ~~~tie &&& 3) ∧ t.mem = s.mem) ∧
       (Completes (.irqForce r p v) s fun t => t.reg p 0x010 = s.reg p 0x010 ||| (v &&& irqMask p) ∧ t.mem = s.mem)) ∧
     (k < 8 → pageRuns (pENG + k) s = true →
       Completes (.readClear r (0x40000040 + 0x1000 * (pENG + k))) s fun t => t.answer = s.reg (pENG + k) 0x040 ∧
         t.reg (pENG + k) 0x040 = 0 ∧ t.mem = s.mem)) ∧
  (∀ (r : Requester) (p : Nat) (v : Word) (s : State),
     (Firmware r p s →
       (v = unlockValue p → Completes (.lockWrite r p v) s fun t => lockOpenFor p r t = true ∧
         lockAtOf p t = s.now (dieOf p)) ∧
       (v ≠ unlockValue p → Completes (.lockWrite r p v) s fun t => t.bit p LOCK_OPEN = false ∧
         t.g p LOCK_BADCNT = min (s.g p LOCK_BADCNT + 1) 65535)) ∧
     (pageRuns p s = true → s.bit p LOCK_OPEN = true →
       Completes (.lockTimeout p) s fun t => t.bit p LOCK_OPEN = false ∧
         (s.now (dieOf p) < lockAtOf p s + 400 → t.now (dieOf p) = (lockAtOf p s + 400) % 2 ^ 64))) ∧
  (∀ (r : Requester) (d : Die) (on : Bool) (s : State), Firmware r pFAB s → Firmware r pBOOT s → Firmware r pDDL s →
     (lockOpenFor pFAB r s = false → Completes (.fairmodeWrite r on) s fun t =>
       t.bit pFAB FAB_CTRL_FAIRMODE = s.bit pFAB FAB_CTRL_FAIRMODE) ∧
     (lockOpenFor pBOOT r s = false → Completes (.damaskRestart r) s fun t => t.mtb = s.mtb ∧ t.boot = s.boot) ∧
     (d = .damask → lockOpenFor pDDL r s = false → Completes (.linkEn r d on) s fun t =>
       t.bit pDDL DDL_CTRL_EN = s.bit pDDL DDL_CTRL_EN)) ∧
  (∀ (r : Requester) (a p off : Nat) (v tie : Word) (s : State), r.sup = false → pageAt a = some (p, off) → pageRuns p s = true →
     r.dom ≠ pageOwner p s →
       (Completes (.registerWrite r a v tie) s fun t => t.regs = s.regs ∧ t.mem = s.mem ∧ t.mtb = s.mtb) ∧
       (Completes (.readClear r a) s fun t => t.regs = s.regs ∧ t.answer = 0))

/-- R45, R46: a read of MTB_LO gives the low word and latches the high one for its engine; a compare value is
committed by its low word while the unit is disarmed, and a write to an armed unit is dropped. R64, R69, R76, R78: the
fabric's registers: FAIRMODE, whose change leaves every waiting request and every port's turn as it is and clears the
deficits, the observed arbiter and its counters, the supervisor roles, and the caches that ICINV empties. Forms whose
next state is stated (exec c s = .next t): mtbLoRead, mtbCmpWrite, icinv, fairmodeWrite, supvWrite, obsselWrite,
grantcntRead. -/
def Obligations.TimeBaseAndFabricRegistersAct : Prop :=
  (∀ (r : Requester) (n : Fin 2) (v : Word) (s : State), Firmware r pMTB s →
     (Completes (.mtbLoRead r) s fun t => t.answer = word s.mtb ∧ latchOf r.eng t = word (s.mtb / 2 ^ 32) ∧ t.mtb = s.mtb ∧
       t.regs = s.regs) ∧
     (s.bit pMTB (cmpEn n.val) = false → Completes (.mtbCmpWrite r n v) s fun t =>
       cmpValue n.val t = v.toNat + 2 ^ 32 * (s.reg pMTB (0x04C + 8 * n.val)).toNat) ∧
     (s.bit pMTB (cmpEn n.val) = true → Completes (.mtbCmpWrite r n v) s fun t => cmpValue n.val t = cmpValue n.val s)) ∧
  (∀ (r : Requester) (k : Fin 8) (on : Bool) (v : Word) (s : State),
     (FirmwareUnlocked r pFAB s → Completes (.fairmodeWrite r on) s fun t => t.bit pFAB FAB_CTRL_FAIRMODE = on ∧
       t.bit pFAB FAB_STAT_FAIRMODE = on ∧ t.bit pFAB LOCK_OPEN = false ∧ t.fabric.waiting = s.fabric.waiting ∧
       ((s.fabric.arbiters.map (·.1)).Nodup →
         ∀ n, (arbiterOf n t).deficit = 0 ∧ (arbiterOf n t).port = (arbiterOf n s).port)) ∧
     (Firmware r pFAB s →
       (Completes (.obsselWrite r v) s fun t => t.reg pFAB 0x044 = v &&& 0x33F ∧ t.reg pFAB 0x048 = 0 ∧ t.reg pFAB 0x04C = 0 ∧
         t.grants = 0) ∧
       (Completes (.grantcntRead r) s fun t => t.answer = s.reg pFAB 0x048 ∧ t.reg pFAB 0x048 = 0 ∧
         t.reg pFAB 0x04C = word s.grants ∧ t.grants = 0) ∧
       ((v.extractLsb' 0 6).toNat < 32 → v.getLsbD 15 = false → v.getLsbD 31 = false → 32 ≤ (v.extractLsb' 16 6).toNat →
         Completes (.supvWrite r v) s fun t => t.reg pFAB 0x040 = v ||| 0x00800080 ∧
           roleEng 0 t = ⟨(v.extractLsb' 0 6).toNat, BitVec.isLt _⟩ ∧ roleEng 2 t = ⟨(v.extractLsb' 16 6).toNat, BitVec.isLt _⟩) ∧
       (32 ≤ (v.extractLsb' 0 6).toNat →
         Completes (.supvWrite r v) s fun t => t.bit pFAB FAB_IRQ_RAW_SUPVERR = true ∧
           (t.reg pFAB 0x040).extractLsb' 0 8 = (s.reg pFAB 0x040).extractLsb' 0 8 ||| 0x80)) ∧
     (Firmware r (pENG + k.val) s → Completes (.icinv r k) s fun t =>
       ∀ e : EngNo, icacheOf e t = if clusterOf e = k.val then [] else icacheOf e s))

/-- R145, R150, R155: image regions, point tags and page owners are written through their registers. Forms whose next
state is stated (exec c s = .next t): regionClear, imgRgnWrite, pdataAccess, pgownWrite. -/
def Obligations.DomainTablesAreWritten : Prop :=
  ∀ (r : Requester) (k : Fin 1024) (i : Fin 512) (j : Fin 5) (v : Word) (s : State),
    (Firmware r pIMG s →
      (taskBusy (rgnTask k.val s) s = false → Completes (.regionClear r k) s fun t =>
        ∀ b, b < 4096 → t.rb (imageBase 0 + 4096 * k.val + b) = 0 ∧ t.rb (imageBase 1 + 4096 * k.val + b) = 0) ∧
      (taskBusy (rgnTask k.val s) s = true → Completes (.regionClear r k) s fun t =>
        t.mem = s.mem ∧ t.bit pIMG IMG_IRQ_RAW_RGNERR = true) ∧
      (s.sched.copies = [] → (∀ n, (s.task n).scan = none) → retainCount s ≤ 14 →
        Completes (.imgRgnWrite r i v) s fun t => t.mem = s.mem ∧
          t.reg pIMG (0x800 + 4 * i.val) = (s.reg pIMG (0x800 + 4 * i.val) &&& ~~~0x0FFF0FFF) ||| (v &&& 0x0FFF0FFF))) ∧
    (Firmware r pDOM s →
      (Completes (.pdataAccess r (some v)) s fun t => pidx t = (pidx s + 1) % 2048 ∧
        ∀ n, n < 4 → pointTag (4 * pidx s + n) t = v.extractLsb' (8 * n) 8 &&& 0x7F) ∧
      (Completes (.pdataAccess r none) s fun t => pidx t = (pidx s + 1) % 2048 ∧ t.answer = pdataWord s ∧
        t.points = s.points) ∧
      (Completes (.pgownWrite r .damask j v) s fun t => ∀ n, n < 8 → 8 * j.val + n < 36 → fixedOwner (8 * j.val + n) = false →
        pageOwner (8 * j.val + n) t = v.extractLsb' (4 * n) 4))

/-- R364, R365: an XFL command with good operands runs until it is done; one that touches a protected slot, or has bad
operands, is refused. An XFL command that ran ends: the NOR bytes of an erased block are ones, programmed bytes that were
erased have the values of global SRAM, a hash shows the SHA-256 of its range in XFL_HASH0 to XFL_HASH7, and the bytes
that a read took stand in global SRAM. Forms whose next state is stated (exec c s = .next t): xflErase, xflProg, xflHash, xflRead, xflDone.
-/
def Obligations.NorCommandsRun : Prop :=
  (∀ (r : Requester) (s : State), Firmware r pXFL s → s.bit pXFL XFL_STAT_BUSY = false → s.boot.nor = none →
     let c (op : Nat) : NorCmd := ⟨op, s.g pXFL XFL_ADDR_VALUE, s.g pXFL XFL_LEN_VALUE, s.g pXFL XFL_SRC_VALUE⟩
     let Takes (i : Instr) (op : Nat) : Prop := Completes i s fun t =>
       if (c op).good && !(c op).protected s then t.boot.nor = some (c op) ∧ t.bit pXFL XFL_STAT_BUSY = true
       else t.boot.nor = none ∧ t.bit pXFL XFL_IRQ_RAW_REFUSED = true ∧
         t.g pXFL XFL_RES_STATUS = if (c op).good then 2 else 1
     Takes (.xflErase r) 0 ∧ Takes (.xflProg r) 1 ∧ Takes (.xflHash r) 2 ∧ Takes (.xflRead r) 3) ∧
  (∀ (c : NorCmd) (s : State), s.boot.nor = some c → c.op < 4 →
     Completes (.xflDone false) s fun t => t.boot.nor = none ∧ t.bit pXFL XFL_STAT_BUSY = false ∧
       t.g pXFL XFL_RES_STATUS = 0 ∧ t.bit pXFL XFL_IRQ_RAW_DONE = true ∧
       (c.op = 0 → ∀ i, i < 65536 → c.addr % 65536 = 0 → c.addr < 0x4000000 → t.rb (norBase + c.addr + i) = 0xFF) ∧
       (c.op = 1 → c.addr + c.len ≤ 0x4000000 → c.src + c.len ≤ 0x10800000 → ∀ i, i < c.len →
         s.rb (norBase + c.addr + i) = 0xFF → t.rb (norBase + c.addr + i) = s.rb (c.src + i)) ∧
       (c.op = 2 → ∀ k, k < 8 →
         t.reg pXFL (0x060 + 4 * k) = (bytesWords (sha256 (s.bytes (norBase + c.addr) c.len))).getD k 0) ∧
       (c.op = 3 → c.src + c.len ≤ 0x10800000 → ∀ i, i < c.len → t.rb (c.src + i) = s.rb (norBase + c.addr + i)))

/-- R34, R37, R39, R43, R44: the states of the link. Training that does not end and 100 µs of silence lead to DOWN, 1
ms in DOWN to TRAIN, training to pairing, pairing to UP; EN, LOOPBACK, RETRAIN and a link reset act at once. Forms
whose next state is stated (exec c s = .next t): linkReset, linkDownTimeout, downWaitExpiry, retrain, linkEn,
loopback, trainTimeout, trainingComplete, pairing. -/
def Obligations.LinkStatesFollowTheirEvents : Prop :=
  ∀ (d : Die) (r : Requester) (on : Bool) (delay : BitVec 12) (s : State),
    let p := ddlPage d
    (s.linkState d = stTrain → Completes (.trainTimeout d) s fun t => t.linkState d = stDown ∧
      t.linkState d.other = s.linkState d.other ∧ t.mem = s.mem) ∧
    (s.linkUp d = true → Completes (.linkDownTimeout d) s fun t => t.linkState d = stDown ∧ (t.link d).unacked = [] ∧
      (t.link d).sessionKey = [] ∧ t.bit p DDL_STAT_SESSION = false) ∧
    (s.linkState d = stDown → mayTrain d s = true → Completes (.downWaitExpiry d) s fun t => t.linkState d = stTrain ∧
      t.linkState d.other = s.linkState d.other ∧ t.mem = s.mem) ∧
    (s.linkState .damask = stTrain → s.linkState .muslin = stTrain → s.mtb < s.damask.since + 20000 →
      s.replica < s.muslin.since + 20000 → Completes (.trainingComplete delay) s fun t =>
      t.linkState .damask = stPair ∧ t.linkState .muslin = stPair ∧ t.g pDDLM DDL_M_DELAY_DELAY = delay.toNat ∧
      t.damask.nonce.length = 16 ∧ t.muslin.nonce.length = 16) ∧
    (s.linkState .damask = stPair → s.linkState .muslin = stPair → Completes .pairing s fun t =>
      t.linkState .damask = stUp ∧ t.linkState .muslin = stUp ∧
      (t.bit pDDL DDL_STAT_PAIRED = true ↔ pairProof s.fused.pairDamask s = pairProof s.fused.pairMuslin s) ∧
      t.bit pDDL DDL_STAT_PAIRFLT = !t.bit pDDL DDL_STAT_PAIRED) ∧
    (Firmware r p s → s.bit p DDL_CTRL_EN = true → s.bit p DDL_CTRL_LOOPBACK = false →
      Completes (.retrain r d) s fun t => t.linkState d = stTrain) ∧
    (FirmwareUnlocked r p s →
      (Completes (.linkEn r d on) s fun t => t.bit p DDL_CTRL_EN = on ∧ (on = false → t.linkState d = stDown)) ∧
      (Completes (.loopback r d on) s fun t => t.bit p DDL_CTRL_LOOPBACK = on ∧ (on = true → t.linkState d = stDown))) ∧
    (s.power.held = false → Completes .linkReset s fun t => t.txns = [] ∧ t.linkUp .muslin = false ∧
      t.linkState .muslin = (if s.bit pDDLM DDL_CTRL_EN && !s.bit pDDLM DDL_CTRL_LOOPBACK then stTrain else stDown) ∧
      ∀ n, n < 21 → t.bit (64 + n) LOCK_OPEN = false)

/-- R20, R24 to R27, R35, R38: acknowledgement, replay, credits and heartbeats. R20, R43: a corrupted packet is counted in
CRCCNT and sets CRCERR; the link's state, its numbers, the time of its last valid packet, what it has gathered and its
unacknowledged packets stay, and Damask's credits (on Muslin the event of the flag may be sent behind those packets).
Forms whose next state is stated (exec c s = .next t): ack, nak, credit, heartbeat, heartbeatSend,
ackTimeout, replayTimeout. -/
def Obligations.LinkControlPacketsAct : Prop :=
  ∀ (d : Die) (p : Packet) (s : State),
    let l := s.link d
    let Replays (c : Instr) (pre again : List Sent) : Prop := Completes c s fun t =>
      l.lanes ++ again.map (·.pkt) <+: (t.link d).lanes ∧
      (pre ++ again).map (·.pkt) <+: (t.link d).unacked.map (·.pkt) ∧
      t.g (ddlPage d) DDL_ERRCNT_REPLAYCNT = min (s.g (ddlPage d) DDL_ERRCNT_REPLAYCNT + again.length) 65535 ∧ t.mem = s.mem
    (∀ pre x post, l.unacked = pre ++ x :: post → x.pkt.seq = p.seq → (∀ y ∈ pre, y.pkt.seq ≠ p.seq) →
      (Arrives d p tAck s → l.waiting = [] → Completes (.ack d p) s fun t =>
        (t.link d).unacked = post ∧ t.regs = s.regs ∧ t.mem = s.mem) ∧
      (Arrives d p tNak s → (∀ y ∈ x :: post, y.replays < 16) →
        Replays (.nak d p) pre (x :: post))) ∧
    (Arrives d p tCredit s → l.waiting = [] → Completes (.credit d p) s fun t => t.mem = s.mem ∧
      ∀ i, i < 4 → t.g (ddlPage d) (creditFld i) = min (s.g (ddlPage d) (creditFld i) + ((p.word 0).extractLsb' (8 * i) 8).toNat) 255) ∧
    (Arrives .damask p tHeartbeat s → Completes (.heartbeat .damask p) s fun t => t.damask.lastValid = s.mtb ∧
      t.regs = s.regs ∧ t.mtb = s.mtb ∧ t.mem = s.mem) ∧
    (Arrives .muslin p tHeartbeat s → p.len = 2 →
      let at_ := (p.word 0).toNat + 2 ^ 32 * (p.word 1).toNat + s.g pDDLM DDL_M_DELAY_DELAY
      (s.replica + 100 < at_ ∨ at_ + 100 < s.replica → Completes (.heartbeat .muslin p) s fun t =>
        t.replica = at_ % 2 ^ 64 ∧ t.mtb = s.mtb ∧ t.bit pDDLM DDL_IRQ_RAW_MTBSTEP = true ∧
        t.bit pDDLM DDL_STAT_MTBSYNC = false) ∧
      (at_ = s.replica → s.replica < 2 ^ 64 → Completes (.heartbeat .muslin p) s fun t => t.replica = s.replica ∧
        (t.bit pDDLM DDL_STAT_MTBSYNC = true ↔ 7 ≤ s.rep.synced))) ∧
    (s.linkUp d = true →
      (Completes (.heartbeatSend d) s fun t => (t.link d).hbAt = t.now d ∧ (t.link d).lanes = l.lanes ++
        [mkPacket tHeartbeat false 0 0 0 (match d with | .damask => [word t.mtb, word (t.mtb / 2 ^ 32)] | .muslin => [])]) ∧
      (l.accepted ≠ 0 → Completes (.ackTimeout d) s fun t => (t.link d).accepted = 0 ∧
        (t.link d).lanes = l.lanes ++ [mkPacket tAck false 0 0 (l.rxSeq - 1) []]) ∧
      (l.unacked ≠ [] → (∀ y ∈ l.unacked, y.replays < 16) → Replays (.replayTimeout d) [] l.unacked) ∧
      ((∃ y ∈ l.unacked, 16 ≤ y.replays) → Completes (.replayTimeout d) s fun t => t.linkState d = stDown) ∧
      (p.crcGood = false → s.now d < l.lastValid + 10000 → Completes (.ack d p) s fun t =>
        t.g (ddlPage d) DDL_ERRCNT_CRCCNT = min (s.g (ddlPage d) DDL_ERRCNT_CRCCNT + 1) 65535 ∧
        t.bit (ddlPage d) DDL_IRQ_RAW_CRCERR = true ∧ t.mem = s.mem ∧ t.linkState d = s.linkState d ∧
        (t.link d).rxSeq = l.rxSeq ∧ (t.link d).accepted = l.accepted ∧ (t.link d).lastValid = l.lastValid ∧
        (t.link d).bulkIn = l.bulkIn ∧ (t.link d).sealIn = l.sealIn ∧ l.unacked <+: (t.link d).unacked ∧
        (d = .damask → (t.link d).unacked = l.unacked ∧
          ∀ i, i < 4 → t.g (ddlPage d) (creditFld i) = s.g (ddlPage d) (creditFld i))))

/-- R23, R28, R32, R33, R57: what an accepted packet in sequence does: a read or write request is answered with its
TAG, a response completes its transaction, an event and a sample delivery are kept, sealed bytes are gathered. Forms
whose next state is stated (exec c s = .next t): rdReq, wrReq, rdRsp, wrRsp, sealedTransfer, eventPacket,
samplePacket. -/
def Obligations.SequencedPacketsAct : Prop :=
  ∀ (d : Die) (p : Packet) (tie : Word) (s : State),
    let a := (p.word 0).toNat / 4 * 4
    let Frame (t : State) : Prop := t.mem = s.mem ∧ ∀ q off, q ≠ pDDLM → off < 4096 → t.reg q off = s.reg q off
    let Answers (c : Instr) (type : Nat) (err : Bool) (data : List Word) (Q : State → Prop) : Prop := Completes c s fun t =>
      t.muslin.rxSeq = s.muslin.rxSeq + 1 ∧
      (∃ n, t.muslin.lanes.getLast? = some (mkPacket type err p.dom p.tag n data)) ∧ Q t
    let Ends (c : Instr) (x : Txn) (v : Word) : Prop := Completes c s fun t =>
      txnOf p.tag t = none ∧ (∀ f, f ≠ x.eng ∨ x.orphan = true → t.eng f = s.eng f) ∧ (x.orphan = false →
      (t.eng x.eng).record = (match x.word with
        | some i => (s.eng x.eng).record.map fun ws => ws.set i (some (if p.sup then 0 else v))
        | none => (s.eng x.eng).record) ∧
      (∀ r, gr x.eng r t = match x.load with
        | some (k, rd) => if r = rd ∧ r ≠ 0 then (if p.sup then 0 else loadDatum k x.addr.toNat v) else gr x.eng r s
        | none => gr x.eng r s) ∧
      (t.eng x.eng).remErr = if p.sup then some ((s.eng x.eng).remErr.getD x.addr) else (s.eng x.eng).remErr)
    (s.muslin.waiting = [] → s.muslin.unacked.length < 30 → muslinRuns s = true →
      (InOrder .muslin p tRdReq s →
        (a < 0x15000 → a % 4096 = 0x014 →
          Answers (.rdReq p) tRdRsp false [s.reg (64 + a / 4096) 0x014] (fun t => t.mem = s.mem)) ∧
        (0x15000 ≤ a → (a < 0x8000000 ∨ 0x8200000 ≤ a) →
          Answers (.rdReq p) tRdRsp true [0] Frame)) ∧
      (InOrder .muslin p tWrReq s →
        (a < 0x15000 → a % 4096 = 0x014 → Answers (.wrReq p tie) tWrRsp false []
          (fun t => t.reg (64 + a / 4096) 0x014 = p.word 1 &&& irqMask (64 + a / 4096) ∧ t.mem = s.mem)) ∧
        (0x15000 ≤ a → Answers (.wrReq p tie) tWrRsp true [] Frame))) ∧
    (∀ x, txnOf p.tag s = some x → x.withheld = false → (s.eng x.eng).mode = .run →
      (InOrder .damask p tRdRsp s → Ends (.rdRsp p) x (p.word 0)) ∧
      (InOrder .damask p tWrRsp s → x.load = none → Ends (.wrRsp p) x 0)) ∧
    (InOrder .damask p tEvent s →
      ((packetEvent p).code = 0 → Completes (.eventPacket p) s fun t => t.ev.levels = (p.word 3).extractLsb' 0 21 ∧
        t.ev.waiting = s.ev.waiting) ∧
      ((packetEvent p).code ≠ 0 → Completes (.eventPacket p) s fun t => t.ev.levels = s.ev.levels ∧
        { packetEvent p with ready := s.mtb } ∈ t.ev.waiting ∧ t.ev.waiting.length = s.ev.waiting.length + 1)) ∧
    (InOrder .damask p tSample s → (p.word 0).extractLsb' 28 4 = 1 → (p.word 0).extractLsb' 0 16 = 0 →
      (p.word 0).getLsbD 26 = false → Completes (.samplePacket p) s fun t =>
        (1, p.word 1, wordsBytes (p.data.drop 3)) ∈ t.inputs.parts ∧ t.inputs.locals = s.inputs.locals) ∧
    (InOrder d p tSealed s → (s.link d).sealIn = [] → p.data ≠ [] →
      32 ≤ leField (wordsBytes p.data) 0 2 → Completes (.sealedTransfer d p) s fun t =>
        (t.link d).sealIn = wordsBytes p.data ∧ (t.link d).sealRx = (s.link d).sealRx)

/-- R31: a packet that opens a bulk transfer is held with its words, for each transfer that a die receives, and
changes nothing else unless it breaks one that was open, but that retain data are programmed as they arrive while Damask
is going OFF; one that is its whole transfer acts: an output image that is whole before the boundary it was sent for waits
for it, a late one does nothing (R8, R132; the span that belongs to a boundary is log entry 133), an event reaches the
recorder. Forms whose next state is stated (exec c s = .next t):
outputImageTransfer, retainTransfer, retainRestoreTransfer, eventRecordTransfer, hartRequest, hartResultTransfer,
vaultRequest, blockTransfer. -/
def Obligations.BulkTransfersAreGathered : Prop :=
  ∀ (p : Packet) (s : State),
    let Holds (c : Instr) (d : Die) (xid : Nat) : Prop := OpensBulk d xid p s → Completes c s fun t =>
      bulkHeld d xid t = some (p.data.drop 1) ∧ (t.link d).rxSeq = (s.link d).rxSeq + 1 ∧
      (bulkHeld d xid s = none → (xid = 0x02 → s.power.leaving = false) → t.regs = s.regs ∧ t.mem = s.mem)
    Holds (.outputImageTransfer p) .muslin 0x01 ∧ Holds (.retainTransfer p) .muslin 0x02 ∧
    Holds (.retainRestoreTransfer p) .damask 0x03 ∧ Holds (.eventRecordTransfer p) .muslin 0x04 ∧
    Holds (.hartRequest p) .muslin 0x05 ∧ Holds (.hartResultTransfer p) .damask 0x06 ∧
    Holds (.vaultRequest .muslin p) .muslin 0xC1 ∧ Holds (.vaultRequest .damask p) .damask 0xC1 ∧
    Holds (.blockTransfer (some (.muslin, p))) .muslin 0x07 ∧ Holds (.blockTransfer (some (.damask, p))) .damask 0x07 ∧
    (∀ ws, WholeBulk .muslin 0x01 p ws s → Completes (.outputImageTransfer p) s fun t =>
      let b := 100000 * (s.field.tick + 1)
      t.field.xfer = (if b ≤ s.replica + 2100 ∧ s.replica < b then some (wordsBytes ws) else s.field.xfer) ∧
      t.regs = s.regs ∧ t.mem = s.mem) ∧
    (∀ ws, WholeBulk .muslin 0x04 p ws s → bulkHeld .muslin 0x04 s = none → s.evr.queue.length < 64 → Completes (.eventRecordTransfer p) s fun t =>
      ∃ b, t.evr.queue = s.evr.queue ++ [b] ∧ b.length = 32 ∧ b.take 4 = wordBytes (ws.getD 0 0) ∧ t.mem = s.mem) ∧
    (∀ ws x, WholeBulk .damask 0x07 p ws s → bulkHeld .damask 0x07 s = none → s.q31 = some x → (ringB s 31).enabled = false →
      Completes (.blockTransfer (some (.damask, p))) s fun t => t.q31 = none)

/-- R122, R208, R253: the deliveries of a field tick are written into point space as records at the places that the
base registers give, when no SNAPSHOT that goes first holds them back: both at once, or one alone when its partner's
time is over; a feeder's record on its own, unless a snapshot entry of its area goes first. Forms whose next state is stated (exec c s = .next t): localInputUpdate,
loneDeliveryTimeout, feederRecordWrite. -/
def Obligations.DeliveriesBecomeRecords : Prop :=
  ∀ (k r : Nat) (x y : Delivery) (bs : List Byte) (rest : List (Nat × Nat × List Byte)) (s : State), damaskOn s = true →
    let i := s.g pAIO AIO_INBASE_BASE * 16
    let j := s.g pDIO DIO_INBASE_BASE * 16
    let m := s.g pMTR MTR_IMGBASE_BASE * 16 + 192 * k
    (s.inputs.locals = [x, y] → x.kind = 1 → y.kind = 2 → x.tick = y.tick → x.at_ ≤ s.mtb → y.at_ ≤ s.mtb →
      x.bytes.length = 512 → y.bytes.length = 144 → (i + 512 ≤ j ∨ j + 144 ≤ i) →
      (∀ h, holdsUpdate h x.tick (updateAt x s) s = false) →
      Completes .localInputUpdate s fun t => t.inputs.locals = [] ∧ s.mtb = t.mtb ∧
        (∀ n, n < 512 → t.rb (i + n) = x.bytes.getD n 0) ∧ (∀ n, n < 144 → t.rb (j + n) = y.bytes.getD n 0) ∧
        ∀ a, (a < i ∨ i + 512 ≤ a) → (a < j ∨ j + 144 ≤ a) → t.rb a = s.rb a) ∧
    (s.inputs.locals = [x] → x.kind = 1 → x.bytes.length = 512 → x.alone < 2 ^ 64 →
      (∀ h, holdsUpdate h x.tick x.alone s = false) → Completes .loneDeliveryTimeout s fun t =>
        t.inputs.locals = [] ∧ x.alone ≤ t.mtb ∧ (∀ n, n < 512 → t.rb (i + n) = x.bytes.getD n 0)) ∧
    (s.inputs.feeders = (k, r, bs) :: rest → bs.length = 192 → (∀ h, entryFirst h m 192 r s = false) → Completes .feederRecordWrite s fun t =>
      t.inputs.feeders = rest ∧ (∀ n, n < 192 → t.rb (m + n) = bs.getD n 0) ∧ MemoryOutside m 192 s t ∧ t.regs = s.regs)

/-- R46, R117, R132, R205: what comes with time: a compare unit fires once, a base tick begins at its count, a field
tick ends at its own or, past it, at once, the output image leaves 20 µs before a field tick. R117 to R119, R136: at
its base tick an enabled task of a half that runs is released; one whose scan is still live at its next release has
that release skipped, or its scan aborted, as its POLICY says. Forms whose next state is stated (exec c s = .next t):
mtbCompareFire, baseTick, fieldTick, outputTransferCutoff, scanDeadline. -/
def Obligations.TicksReleaseTheTasks : Prop :=
  (∀ (n : Fin 2) (v : Fin 4) (x : FieldSample) (s : State),
     (damaskOn s = true →
       (s.bit pMTB (cmpEn n.val) = true → Completes (.mtbCompareFire n) s fun t =>
         t.bit pMTB (cmpEn n.val) = false ∧ t.bit pMTB ⟨0x010, n.val, 1⟩ = true ∧
         (s.mtb ≤ cmpValue n.val s → cmpValue n.val s < 2 ^ 64 → t.mtb = cmpValue n.val s)) ∧
       (Completes (.baseTick v) s fun t => t.sched.btick = s.sched.btick + 1 ∧ t.bit pMTB MTB_IRQ_RAW_BTICK = true ∧
         (s.mtb ≤ 25000 * (s.sched.btick + 1) → 25000 * (s.sched.btick + 1) < 2 ^ 64 →
           t.mtb = 25000 * (s.sched.btick + 1))) ∧
       (nextCutoff s < 2 ^ 64 → Completes .outputTransferCutoff s fun t => t.mtb = nextCutoff s ∧ (t.mtb + 2000) % 100000 = 0 ∧
         (s.linkUp .damask = true → ∃ q ∈ t.damask.lanes ++ t.damask.waiting, q.type = tBulk ∧
           q.data = 0x01800000 :: (bytesWords (s.bytes (s.g pAIO AIO_OUTBASE_BASE * 16) 512
             ++ s.bytes (s.g pDIO DIO_OUTBASE_BASE * 16) 48)).take 15))) ∧
     (s.power.held = false → s.replica < 2 ^ 63 → s.field.tick ≤ s.replica / 100000 → Completes (.fieldTick x) s fun t =>
       t.field.tick = max (s.field.tick + 1) (s.replica / 100000) ∧ t.replica = max s.replica (100000 * (s.field.tick + 1)))) ∧
  (∀ (v : Fin 4) (t : TaskNo) (e : TaskEntry) (s : State), (s.task t).entry = some e →
     let b := s.sched.btick + 1
     (damaskOn s = true → s.bit pPRF PRF_STAT_PINEN = false → s.bit pSCH SCH_STAT_EN = true → taskEnabled t s = true →
       halfHeld (taskHalf t s) s = false → (s.task t).scan = none → (s.task t).heldRel = none →
       (∀ r, (s.task t).lastRel = some r → r < b) → profilePeriod (profileAt b s) t s = e.period → e.period ≠ 0 →
       b % e.period = e.phase % e.period → s.sched.defer = none →
         Completes (.baseTick v) s fun u => ∃ sc, (u.task t).scan = some sc ∧ sc.btick = b ∧ sc.phase = .due ∧
           sc.profile = profileAt b s ∧ (u.task t).lastRel = some b) ∧
     (∀ sc d, (s.task t).scan = some sc → deadlineTick t s = some d → sc.overrunAt ≠ d → e.abort = false →
       Completes (.scanDeadline t) s fun u => (u.task t).scan = some { sc with overrunAt := d } ∧
         (u.task t).lastRel = some d ∧ u.bit pSCH SCH_IRQ_RAW_SKIP = true ∧ u.mem = s.mem ∧
         u.g (tskPage t) TSK_SKIPS_COUNT = min (s.g (tskPage t) TSK_SKIPS_COUNT + 1) (2 ^ TSK_SKIPS_COUNT.wid - 1)) ∧
     (∀ sc d, (s.task t).scan = some sc → deadlineTick t s = some d → sc.overrunAt ≠ d → e.abort = true →
       Completes (.scanDeadline t) s fun u => u.bit pSCH SCH_IRQ_RAW_ABORT = true ∧ (u.task t).lastRel = some d ∧
         u.g (tskPage t) TSK_ABORTS_COUNT = min (s.g (tskPage t) TSK_ABORTS_COUNT + 1) (2 ^ TSK_ABORTS_COUNT.wid - 1)))

/-- R116, R117, R144: EN set puts every task of the active profile up for validation, EN cleared ends every scan and
disables every task; a task that fails validation is disabled and not released, with its error shown; HOLD; the reads of the tick
counts. Forms whose next state is stated (exec c s = .next t): taskValidation, schedulerEnable, holdHalf, btickLoRead,
nextLoRead. -/
def Obligations.SchedulerTakesItsCommands : Prop :=
  ∀ (r : Requester) (t : TaskNo) (h : Half) (on : Bool) (s : State),
    (FirmwareUnlocked r pSCH s →
      (s.bit pSCH SCH_CTRL_EN = false → Completes (.schedulerEnable r true) s fun u => u.bit pSCH SCH_STAT_EN = true ∧
        u.sched.toValidate = allTasks.filter fun k => profileEnables k s) ∧
      (s.bit pSCH SCH_CTRL_EN = true → Completes (.schedulerEnable r false) s fun u => u.bit pSCH SCH_STAT_EN = false ∧
        u.sched.toValidate = [] ∧ ∀ k, (u.task k).scan = none ∧ taskEnabled k u = false)) ∧
    (Firmware r pSCH s →
      (Completes (.holdHalf r h on) s fun u => halfHeld h u = on ∧ halfHeld h.other u = halfHeld h.other s ∧ u.mem = s.mem) ∧
      (Completes (.btickLoRead r) s fun u => u.answer = word (s.mtb / 25000) ∧
        u.g pSCH SCH_BTICK_HI_BTICK = s.mtb / 25000 / 2 ^ 32 % 2 ^ SCH_BTICK_HI_BTICK.wid ∧ u.mem = s.mem)) ∧
    (Firmware r pTSK s → Completes (.nextLoRead r) s fun u => u.answer = word (nextRelease (tskSelected s) s) ∧
      u.mem = s.mem ∧ u.sched = s.sched) ∧
    (t ∈ s.sched.toValidate → profileEnables t s = true →
      match validate t (profilePeriod (activeProfile s) t s) s with
      | some e => Completes (.taskValidation t) s fun u => taskEnabled t u = true ∧ (u.task t).entry = some e ∧
          u.bit (tskPage t) TSK_TSTAT_FIRST = true ∧ u.g (tskPage t) TSK_TSTAT_DOM = e.dom.toNat
      | none => Completes (.taskValidation t) s fun u => u.bit (tskPage t) TSK_TSTAT_GRAPHERR = true ∧
          u.bit pSCH SCH_IRQ_RAW_GRAPHERR = true ∧ taskEnabled t u = false ∧ (u.task t).heldRel = none ∧ u.mem = s.mem)

/-- R121 to R123, R126, R131: the phases of a scan: SNAPSHOT writes the header and copies its entries, EXECUTE starts
with the ready counts and the root jobs, PUBLISH copies its entries with the overrides of the profile; a refused entry
is a violation: zeros, or nothing. Forms whose next state is stated (exec c s = .next t): snapshotStart,
snapshotEntry, executeStart, publishEntry, copyForwardDone. -/
def Obligations.ScanPhasesCopyAndStart : Prop :=
  ∀ (h : Half) (t : TaskNo) (c : CopyPhase) (rest : List CopyPhase) (sc : Scan) (e : TaskEntry) (s : State),
    let x := copyEntry c.list.toNat c.entry s
    let dst := c.base.toNat + x.off
    (∀ sc' e', (s.task t).scan = some sc' → (s.task t).entry = some e' → sc'.phase = .ready → taskPending t s = false →
      sc'.done < e'.njobs → (∃ j, j < e'.njobs ∧ (jobDesc e'.graph.toNat j s).npred = 0) →
        Completes (.executeStart t) s fun u => (u.task t).scan = some { sc' with phase := .execute } ∧
          (∀ j, j < e'.njobs → u.rh (e'.rcbase.toNat + 2 * j) = (jobDesc e'.graph.toNat j s).npred) ∧
          MemoryOutside e'.rcbase.toNat (2 * e'.njobs) s u ∧ anyQueued t u = true) ∧
    ((∀ l ∈ s.sched.copies, l.lines ≠ [] ∧ l.cluster < 8) → Completes (.copyForwardDone t) s fun u => taskPending t u = false ∧ ∀ k, (u.task k) = s.task k) ∧
    (s.copyQ h = c :: rest →
    (c.publish = false → c.started = false → snapshotWaits h c s = false → (s.task c.task).scan = some sc →
      c.entry = 0 → c.count ≠ 0 → Completes (.snapshotStart h) s fun u =>
        u.rw c.base.toNat = word (sc.first.toNat + 2 * sc.restored.toNat
          + 4 * s.g (tskPage c.task) TSK_TSTAT_PRFCHG + 8 * s.g (tskPage c.task) TSK_TSTAT_MIGRATED) ∧
        u.rw (c.base.toNat + 4) = word sc.skippedBase ∧ u.rw (c.base.toNat + 8) = word (s.task c.task).aborted ∧
        u.rw (c.base.toNat + 12) = word sc.profile ∧ MemoryOutside c.base.toNat 16 s u ∧
        (u.task c.task).scan = some { sc with phase := .snapshot 0 }) ∧
    (c.publish = false → c.started = true → (s.task c.task).scan = some sc → (s.task c.task).entry = some e →
      (entryReadable c.dom e.xb.toNat e.yb.toNat x.addr x.len s = true → Completes (.snapshotEntry h none) s fun u =>
        (∀ i, i < x.len → u.rb (dst + i) = s.rb (x.addr + i)) ∧ MemoryOutside dst x.len s u ∧
        (u.task c.task).scan = some { sc with
          phase := if c.entry + 1 < c.count then .snapshot (c.entry + 1) else .ready }) ∧
      (entryReadable c.dom e.xb.toNat e.yb.toNat x.addr x.len s = false → Completes (.snapshotEntry h none) s fun u =>
        (∀ i, i < x.len → u.rb (dst + i) = 0) ∧ MemoryOutside dst x.len s u ∧
        ∃ sc', (u.task c.task).scan = some sc' ∧ sc'.violated = true)) ∧
    (c.publish = true →
      (entryWritable c.dom c.base.toNat x.addr x.len s = true → x.len = 4 → Completes (.publishEntry h none) s fun u =>
        u.rw x.addr = (overrideAt x.addr s).getD (s.rw dst) ∧ MemoryOutside x.addr 4 s u ∧
        (nextCutoff s ≠ s.mtb → u.regs = s.regs)) ∧
      (entryWritable c.dom c.base.toNat x.addr x.len s = true → profileValid (activeProfile s) s = false →
        (x.addr + x.len ≤ dst ∨ dst + x.len ≤ x.addr) → x.len % 4 = 0 → Completes (.publishEntry h none) s fun u =>
          (∀ i, i < x.len → u.rb (x.addr + i) = s.rb (dst + i)) ∧ MemoryOutside x.addr x.len s u) ∧
      (entryWritable c.dom c.base.toNat x.addr x.len s = false → Completes (.publishEntry h none) s fun u => u.mem = s.mem)))

/-- R156, R159, R163, R164, R176, R180: a frame that matches a receive object is stored in it in one burst; one that
matches none is counted as lost; a reference frame is never stored; an error counts, and stores nothing. Forms whose
next state is stated (exec c s = .next t): frameReceive, frameError. -/
def Obligations.FloorBusReceives : Prop :=
  ∀ (c : FbNo) (f : CanFrame) (seen : Nat) (lec : BitVec 3) (eight : Bool) (s : State), hears c seen s = true →
    let p := fbPage c
    let d := schedOf c s
    ((s.fb d).late = [] → (s.fb d).ex = none → isReference c f s = false →
      match matchObj c f (namedByCells c s) s with
      | some k => (objCfg c k s).getLsbD 29 = false → Completes (.frameReceive c f seen) s fun t =>
          let a := objAddr c k
          (∀ i, i < 64 → t.rb (a + 0x40 + i) = (payloadOf f).getD i 0) ∧
          t.rw (a + 0x10) = word (seen - s.g p FB_STAMPCOMP_RXCOMP) ∧ (t.rw (a + 0x14)).extractLsb' 0 29 = f.id ∧
          (t.rw (a + 0x14)).getLsbD 29 = f.ide ∧ (objStat c k t).getLsbD 23 = true ∧
          (objStat c k t).getLsbD 22 = (objStat c k s).getLsbD 23 ∧
          (objStat c k t).getLsbD 20 = (f.fdf && f.brs) ∧ (objStat c k t).getLsbD 19 = (f.fdf && f.esi) ∧
          (objStat c k t).extractLsb' 24 8 = (objStat c k s).extractLsb' 24 8 + 1 ∧
          (objStat c k t).extractLsb' 0 4 = f.dlc ∧ MemoryOutside a 128 s t ∧ t.rw a = s.rw a ∧ t.rw (a + 4) = s.rw (a + 4)
      | none => s.bit p FB_CTRL_UNMATCHED = false → Completes (.frameReceive c f seen) s fun t => t.mem = s.mem ∧
          t.g p FB_CNT_LOST_UNMATCHED = min (s.g p FB_CNT_LOST_UNMATCHED + 1) 65535) ∧
    (isReference c f s = true → Completes (.frameReceive c f seen) s fun t => t.mem = s.mem ∧
      (isFollower c s = false → fbMode c s ≠ 2 → s.bit p FB_ERR_RP = false →
        t.g p FB_ERR_REC = s.g p FB_ERR_REC - 1)) ∧
    ((s.fb d).late = [] → fbMode c s ≠ 2 → Completes (.frameError c lec eight seen) s fun t =>
      t.g p FB_ERR_LEC = lec.toNat ∧ t.g p FB_ERR_REC = min (s.g p FB_ERR_REC + if eight then 8 else 1) 127 ∧ t.mem = s.mem)

/-- R165, R171 to R175, R182: the windows of a cycle: a transmit object is read 200 counts before its window, unless
UPD is set; a window opens, and its object starts, or follows the frame that is on the bus; one that closes without
its frame is a miss, and one whose frame is on the bus waits for its end; a ring frame starts when it may. R158, R159,
R174, R175, R182: an attempt to send ends: a ring frame that was sent is counted and leaves its ring, an object's is
marked in its status; an error counts and leaves the frame to a further attempt, as lost arbitration does. An object that
has been cleared takes no part: its frame is not started, not repeated, and not missed (R162), and once Damask is going
OFF only frames that were in progress end (R186). The loop delay is measured in a frame with bit rate switching, at most 127. Forms whose next state is stated (exec c s = .next
t): txObjectFetch, windowOpen, windowClose, txFrameEnd, arbitratingTransmit. -/
def Obligations.FloorBusSends : Prop :=
  (∀ (c : FbNo) (st w : Nat) (x : Cell) (e : ExWin) (f : TxFrame) (b : List Byte) (s : State),
     let p := fbPage c
     (schedOf c s = c → (s.fb c).cycle = some st → nextWin c s = w → (currentRow c s)[w]? = some x →
       (x.type = 2 → maySend c s = true → objEnabled c x.obj true s = true →
         ((objStat c x.obj s).getLsbD 15 = false → Completes (.txObjectFetch c) s fun t =>
           (t.fb c).fetched = some (w, ⟨.object x.obj, objFrame c x.obj s⟩) ∧ t.mem = s.mem ∧ t.regs = s.regs) ∧
         ((objStat c x.obj s).getLsbD 15 = true → Completes (.txObjectFetch c) s fun t => (t.fb c).fetched = (s.fb c).fetched ∧
           (objStat c x.obj t).getLsbD 14 = true ∧ t.bit p FB_IRQ_RAW_TXSKIP = true)) ∧
       (Completes (.windowOpen c) s fun t => (t.fb c).win = some w ∧ (t.fb c).fetched = none ∧ t.mem = s.mem ∧
         (x.type = 1 → objEnabled c x.obj false s = true → ∃ v, (t.fb c).ex = some v ∧ v.obj = x.obj ∧ v.transmit = false ∧
           v.open_ = winOpen st (currentRow c s) w ∧ v.close = winClose st (cyclen c s) (currentRow c s) w) ∧
         (x.type = 2 → objEnabled c x.obj true s = true → (s.fb c).ex = none → (s.fb c).fetched = some (w, f) → ∀ d ∈ chansOf c s, canDrive d s = true →
           if (s.fb d).tx = none then (t.fb d).tx = some f else (t.fb d).tx = (s.fb d).tx ∧ (t.fb d).next = some f))) ∧
     (schedOf c s = c → (s.fb c).cycle = some st → (s.fb c).win = some w → (s.fb c).ex = some e → (s.fb c).late = [] →
       (e.transmit = true → objEnabled c e.obj true s = true → e.sent0 = false → e.sent1 = false → Completes (.windowClose c false false) s fun t =>
         (t.fb c).ex = none ∧ t.g p FB_CNT_MISS_TXMISS = min (s.g p FB_CNT_MISS_TXMISS + 1) 65535 ∧ t.mem = s.mem) ∧
       (e.transmit = false → e.from0 = false → e.from1 = false → objEnabled c e.obj false s = true →
         (Completes (.windowClose c false false) s fun t =>
           (t.fb c).ex = none ∧ t.g p FB_CNT_MISS_RXMISS = min (s.g p FB_CNT_MISS_RXMISS + 1) 65535 ∧ t.mem = s.mem) ∧
         (Completes (.windowClose c (c == 0) (c == 1)) s fun t => (t.fb c).ex = none ∧ (t.fb c).late.map (·.obj) = [e.obj] ∧
           t.regs = s.regs ∧ t.mem = s.mem))) ∧
     ((s.fb c).tx = none → maySend c s = true → fbSched c s = false →
       (∀ g, (s.fb c).held = some g → Completes (.arbitratingTransmit c) s fun t =>
         (t.fb c).tx = some ⟨.ring, g⟩ ∧ t.regs = s.regs ∧ t.mem = s.mem) ∧
       ((s.fb c).held = none → headA (20 + c.val) s = some b → (b.getD 4 0).extractLsb' 4 4 = 0 →
         ((b.drop 5).take 11).all (· == 0) = true → (leWord b 0).getLsbD 31 = false →
         Completes (.arbitratingTransmit c) s fun t => ∃ g, (t.fb c).tx = some ⟨.ring, g⟩ ∧ (t.fb c).held = some g ∧
           g.id = (leWord b 0).extractLsb' 0 29 ∧ g.ide = (leWord b 0).getLsbD 29 ∧ g.fdf = (leWord b 0).getLsbD 30 ∧
           g.dlc = (b.getD 4 0).extractLsb' 0 4 ∧ g.data = (b.drop 16).take (dlcLen g.fdf g.dlc) ∧ t.regs = s.regs ∧
           t.mem = s.mem))) ∧
  (∀ (c : FbNo) (k driven : Nat) (e : ExWin) (f : CanFrame) (loop : Option Nat) (s : State),
     let p := fbPage c
     let a := objAddr c k
     let stamp := driven + s.g p FB_STAMPCOMP_TXCOMP
     let behind := (s.fb c).next.filter (stillWanted c s)
     let Measures (t : State) : Prop := t.g p FB_TDC_TDCV = match loop with
       | some n => if s.bit p FB_TDC_TDCEN && f.fdf && f.brs then min 127 n else s.g p FB_TDC_TDCV
       | none => s.g p FB_TDC_TDCV
     inProgress driven s = true →
     ((s.fb c).tx = some ⟨.ring, f⟩ → ((s.fb (schedOf c s)).cycle = none ∨ arbInTime c stamp s = true) →
       (fbMode c s ≠ 3 → Completes (.txFrameEnd c driven .sent loop) s fun t => (t.fb c).tx = behind ∧
         (t.fb c).held = none ∧ t.g p FB_CNT_TX_COUNT = min (s.g p FB_CNT_TX_COUNT + 1) (2 ^ FB_CNT_TX_COUNT.wid - 1) ∧
         t.g p FB_ERR_TEC = s.g p FB_ERR_TEC - 1 ∧ (ringA t (20 + c.val)).cons = ((ringA s (20 + c.val)).cons + 1) % 8192 ∧
         Measures t ∧ t.mem = s.mem) ∧
       (busOff c s = false → s.g p FB_ERR_TEC < 248 → Completes (.txFrameEnd c driven (.error 1) loop) s fun t =>
         (t.fb c).tx = behind ∧ (t.fb c).held = (s.fb c).held ∧ t.g p FB_ERR_TEC = s.g p FB_ERR_TEC + 8 ∧
         Measures t ∧ t.mem = s.mem) ∧
       (Completes (.txFrameEnd c driven .lostArbitration none) s fun t => (t.fb c).tx = behind ∧
         (t.fb c).held = (s.fb c).held ∧ t.regs = s.regs ∧ t.mem = s.mem)) ∧
     ((s.fb c).tx = some ⟨.object k, f⟩ → redundant s = false → (s.fb c).late = [] → (s.fb c).ex = some e → e.transmit = true →
       e.obj = k → e.inside stamp = true →
       (fbMode c s ≠ 3 → e.sent0 = false → e.sent1 = false → Completes (.txFrameEnd c driven .sent loop) s fun t =>
         (t.fb c).tx = behind ∧ (objStat c k t).getLsbD 23 = true ∧
         (objStat c k t).extractLsb' 24 8 = (objStat c k s).extractLsb' 24 8 + 1 ∧ t.rw (a + 0x10) = word stamp ∧
         t.g p FB_CNT_TX_COUNT = min (s.g p FB_CNT_TX_COUNT + 1) (2 ^ FB_CNT_TX_COUNT.wid - 1) ∧ Measures t ∧
         MemoryOutside (a + 12) 8 s t) ∧
       (busOff c s = false → s.g p FB_ERR_TEC < 248 → s.power.leaving = false → objEnabled c k true s = true →
         Completes (.txFrameEnd c driven (.error 1) loop) s fun t => (t.fb c).tx = (s.fb c).tx ∧
           t.g p FB_ERR_TEC = s.g p FB_ERR_TEC + 8 ∧ Measures t ∧ t.mem = s.mem)))

/-- R159, R176 to R178: the master sends its reference; the cycle starts at the stamp of the reference that it has
sent or the follower takes, or at its nominal start; too many missed references lose the synchronisation; recovery
from bus-off clears the error counts. R160, R170, R179, R187, R188: MODE, the banks, which each write of FBT_CTRL
requests (that a write which changes neither bank requests them, and that a follower takes CYCCNT from byte 0 of the
reference, is the model's reading, log entry 99), REDUNDANT, without which no channel is FAILED, and the cells of the schedule matrix. Forms whose next state
is stated (exec c s = .next t): txFrameEnd, referenceSend, referenceAbandon, referenceReceive, acceptanceTimeout,
recover, busoffRecoveryDone, fbCtrlWrite, bankRequest, redundantWrite, mdataAccess. -/
def Obligations.ReferencesKeepTheCycle : Prop :=
  (∀ (c : FbNo) (r : Requester) (driven seen : Nat) (data : List Byte) (f : CanFrame) (s : State),
     let p := fbPage c
     let d := schedOf c s
     let len := 100 * cyclen d s
     let n := (s.fb c).refAt.getD (nextNominal c s)
     let stamp := driven + s.g p FB_STAMPCOMP_TXCOMP
     (isMaster c s = true → refUnderWay c s = false → owedRefs c s = [] → n ≤ stamp → 16 * (stamp - n) < len →
       (∃ e ∈ chansOf c s, canDrive e s = true ∧ (s.fb e).tx = none) →
       Completes (.referenceSend c driven) s fun t => (t.fb c).cycle = (s.fb c).cycle ∧ (t.fb c).refAt = some n ∧
         (∃ g, g.dlc = 8 ∧ g.id = (s.reg p 0x058).extractLsb' 0 29 ∧ ∀ e ∈ chansOf c s, canDrive e s = true →
           if (s.fb e).tx = none then (t.fb e).tx = some ⟨.reference, g⟩ else (t.fb e).next = some ⟨.reference, g⟩) ∧
         t.regs = s.regs ∧ t.mem = s.mem) ∧
     ((s.fb d).req = [] →
       (∀ m, c = d → inProgress driven s = true → (s.fb c).tx = some ⟨.reference, f⟩ → (s.fb c).refAt = some m →
         Completes (.txFrameEnd c driven .sent none) s fun t => (t.fb c).cycle = some stamp ∧ (t.fb c).nominal = m ∧
           (t.fb c).lastRef = word stamp ∧ (t.fb c).refAt = none ∧ t.g p FB_STAT_CYCCNT = nextCount c s ∧ t.mem = s.mem) ∧
       (isMaster c s = true → refUnderWay c s = false → Completes (.referenceAbandon c) s fun t => (t.fb c).cycle = some n ∧
         (t.fb c).nominal = n ∧ t.bit p FB_IRQ_RAW_REFMISS = true ∧ t.mem = s.mem) ∧
       (isFollower c s = true → hears c seen s = true → (s.fb d).cycle = none → Completes (.referenceReceive c data seen) s fun t =>
         (t.fb d).cycle = some (seen - s.g p FB_STAMPCOMP_RXCOMP) ∧ t.g p FB_STAT_TSTATE = 2 ∧
         t.g (fbPage d) FB_STAT_CYCCNT = ((data.getD 0 0).extractLsb' 0 6).toNat % ncyc d s ∧ (t.fb d).refMiss = 0) ∧
       (∀ st, isFollower c s = true → (s.fb d).cycle = some st →
         ((s.fb d).refMiss + 1 < reflim d s → Completes (.acceptanceTimeout c) s fun t => (t.fb d).cycle = some (st + len) ∧
           t.g p FB_STAT_TSTATE = 3 ∧ (t.fb d).refMiss = (s.fb d).refMiss + 1) ∧
         (reflim d s ≤ (s.fb d).refMiss + 1 → Completes (.acceptanceTimeout c) s fun t => (t.fb d).cycle = none ∧
           t.g p FB_STAT_TSTATE = 1 ∧ t.bit (fbPage d) FB_IRQ_RAW_SYNCLOST = true))) ∧
     (s.g p FB_STAT_ERRSTATE = 3 → Completes (.busoffRecoveryDone c) s fun t => t.g p FB_STAT_ERRSTATE = 0 ∧
       t.g p FB_ERR_TEC = 0 ∧ t.g p FB_ERR_REC = 0 ∧ OnlyPages [p] s t) ∧
     (Firmware r p s → s.g p FB_STAT_ERRSTATE = 2 → Completes (.recover r c) s fun t => t.g p FB_STAT_ERRSTATE = 3 ∧
       t.bit p FB_CTRL_RECOVER = false ∧ t.mem = s.mem)) ∧
  (∀ (r : Requester) (c : FbNo) (bank : Fin 2) (on : Bool) (v : Word) (s : State),
     let p := fbPage c
     let i := mdataIndex s
     (FirmwareUnlocked r p s → redundant s = false →
       (fbMode c s = 0 → FB_CTRL_MODE.get v ≠ 0 → Completes (.fbCtrlWrite r c v) s fun t =>
         fbMode c t = FB_CTRL_MODE.get v ∧
         t.g p FB_STAT_TSTATE = if v.getLsbD 4 = false then 5 else if v.getLsbD 3 ∨ FB_CTRL_MODE.get v = 2 then 1 else 4) ∧
       (fbMode c s ≠ 0 → FB_CTRL_MODE.get v = 0 → Completes (.fbCtrlWrite r c v) s fun t => fbMode c t = 0 ∧
         t.g p FB_STAT_TSTATE = 0 ∧ (t.fb c).tx = none ∧ (t.fb c).cycle = none)) ∧
     (Firmware r pFBT s →
       (redundant s = false →
         match bankFault c bank.val s with
         | none => Completes (.bankRequest r c bank) s fun t => (t.fb c).req = (s.fb c).req ++ [(bank.val, s.mtb)] ∧
             t.g pFBT (bankFld c) = bank.val ∧ t.mem = s.mem
         | some (reason, k) => (c = 0 → bankFault 1 (s.g pFBT (bankFld 1)) s = none) → Completes (.bankRequest r c bank) s fun t => (t.fb c).req = (s.fb c).req ∧
             t.bit pFBT FBT_IRQ_RAW_CELLERR = true ∧ t.reg pFBT 0x048 = word (reason * 2 ^ 16 + k)) ∧
       (cellInUse i s = false → Completes (.mdataAccess r (some v)) s fun t => t.rw (cellAddr i) = v &&& 0xC0FFFFFF ∧
         MemoryOutside (cellAddr i) 4 s t ∧ mdataIndex t = (i + 1) % 8192) ∧
       (cellInUse i s = true → Completes (.mdataAccess r (some v)) s fun t => t.mem = s.mem ∧
         t.bit pFBT FBT_IRQ_RAW_WRACT = true) ∧
       (Completes (.mdataAccess r none) s fun t => t.answer = s.rw (cellAddr i) ∧ mdataIndex t = (i + 1) % 8192 ∧ t.mem = s.mem)) ∧
     (FirmwareUnlocked r pFBT s → s.bit pFBT FBT_CTRL_REDUNDANT = !on →
       if fbMode 0 s = 0 ∧ fbMode 1 s = 0 then Completes (.redundantWrite r on) s fun t => redundant t = on ∧
         t.bit pFBT FBT_CTRL_REDUNDANT = on ∧ t.bit (fbPage 0) FB_STAT_FAILED = false ∧
         t.bit (fbPage 1) FB_STAT_FAILED = false ∧ t.mem = s.mem
       else Completes (.redundantWrite r on) s fun t => redundant t = redundant s ∧ t.bit pFBT FBT_IRQ_RAW_CFGERR = true))

/-- R193 to R199: a station that is enabled is validated and starts with a zero image; its input set is accepted or
missed when its last frame is settled; its record and image are written in one burst; its output set is numbered and
built. Forms whose next state is stated (exec c s = .next t): inputDecision, stationImageWrite, outputSetBuild,
stationEnable. -/
def Obligations.StationsAreServed : Prop :=
  ∀ (r : Requester) (q : StationNo) (c : FbNo) (st w o0 : Nat) (v : Word) (s : State),
    let p := stnPage q
    let x := s.stn q
    (Firmware r pRIO s → stnSelected s = some q →
      (stnEnabled q s = false → v.getLsbD 31 = true → Completes (.stationEnable r v) s fun t => stnEnabled q t = true ∧
        (t.stn q).image = List.replicate (inImage q t) 0 ∧ (t.stn q).oseq = 0 ∧
        t.bit p RIO_SSTAT_CFGERR = !(t.stn q).served) ∧
      (v.getLsbD 31 = false → Completes (.stationEnable r v) s fun t => stnEnabled q t = false ∧ t.mem = s.mem)) ∧
    (stationChan q s = some c → stnServed q s = true → s.power.leaving = false → infr q s ≤ x.settled.length →
      ((judge c q s).1 = true → Completes (.inputDecision q) s fun t => (t.stn q).misses = 0 ∧
        (t.stn q).write = some (true, statusRecord q t) ∧
        (t.stn q).settled = [] ∧ t.bit p RIO_SSTAT_VALID = true ∧ t.bit p RIO_SSTAT_STALE = false ∧
        t.bit p RIO_SSTAT_LOST = false ∧ t.g p RIO_SSTAT_AGE = 0 ∧ t.mem = s.mem) ∧
      ((judge c q s).1 = false → Completes (.inputDecision q) s fun t => (t.stn q).misses = x.misses + 1 ∧
        (∃ b, (t.stn q).write = some (b, statusRecord q t)) ∧ (t.stn q).image = x.image ∧ (t.stn q).settled = [] ∧ t.bit p RIO_SSTAT_STALE = true ∧
        (staleLimit q s ≤ x.misses + 1 → t.bit p RIO_SSTAT_LOST = true) ∧ t.mem = s.mem)) ∧
    (∀ b rec, x.write = some (b, rec) → rec.length = 16 → s.power.leaving = false → inPoints (sibase q s) = true →
      Completes (.stationImageWrite q) s fun t => (t.stn q).write = none ∧
        (∀ i, i < 16 → t.rb (sibase q s + i) = rec.getD i 0) ∧
        (b = true → ∀ i, i < x.image.length → t.rb (sibase q s + 16 + i) = x.image.getD i 0) ∧
        MemoryOutside (sibase q s) (16 + x.image.length) s t ∧ t.regs = s.regs) ∧
    (stationChan q s = some c → (s.fb c).cycle = some st → (oobjs q s).head? = some o0 →
      (currentRow c s).findIdx? (fun y => y.type == 2 && y.obj == o0) = some w → stnServed q s = true →
      s.power.leaving = false → x.built ≠ some st → (∀ v, (s.fb c).win = some v → v < w) →
        Completes (.outputSetBuild q) s fun t => (t.stn q).oseq = x.oseq % 255 + 1 ∧
          (∀ k, k < onfr q s → t.rb (objAddr c ((oobjs q s).getD k 0) + 0x40) = byte (x.oseq % 255 + 1)) ∧ t.regs = s.regs)

/-- R207, R208, R218 to R220, R223 to R225, R367, R425, R431: the field side: protection and its re-arming, the
configuration of a channel under the field budget, record bases and IMGEN, the current limit of an output, the hold
manager. Forms whose next state is stated (exec c s = .next t): holdExpiry, release, protectedStateEntry,
miswireRearm, aioCfgWrite, recordBaseWrite, imgenWrite, outputCurrentLimit, limitTurnoff, limitRetry, diLoRead. -/
def Obligations.FieldChannelsAct : Prop :=
  ∀ (r : Requester) (n : ChanNo) (b : RecordBase) (k : ImageBlock) (d : Fin 24) (on : Bool) (v : Word) (s : State),
    let p := aioPage n
    let off := 0x040 + 0x20 * (n.val % 8)
    let x := s.field.dio
    (chanPresent n s = true →
      (isOutput (s.ain n).mode = true → (s.ain n).prot = false → Completes (.protectedStateEntry n) s fun t =>
        (t.ain n).prot = true ∧ (t.ain n).target = none ∧ t.bit p (af AIOC_STS_MISWIRE n) = true ∧ t.bit p (irqBit n 2) = true) ∧
      (Firmware r p s →
        (s.bit p (af AIOC_STS_MISWIRE n) = true → Completes (.miswireRearm r n) s fun t =>
          t.bit p (af AIOC_STS_MISWIRE n) = false ∧ (t.ain n).rearm = true ∧ t.mem = s.mem) ∧
        (∀ w : Word, w = (s.reg p off &&& ~~~0x7FF) ||| (v &&& 0x7FF) → cfgMode w < 6 →
          if reservation n (s.reg p off) s < reservation n w s ∧ fieldCap s < reservation n w s then
            Completes (.aioCfgWrite r n v) s fun t => t.reg p off = s.reg p off ∧ t.bit p (af AIOC_STS_REFUSED n) = true ∧
              t.bit pAIO AIO_IRQ_RAW_BUDGET = true
          else Completes (.aioCfgWrite r n v) s fun t => t.reg p off = w ∧ t.bit p (af AIOC_STS_REFUSED n) = false ∧
            t.field = s.field))) ∧
    (Firmware r (recordBase b).1 s → s.bit (recordBase b).1 AIO_CTRL_IMGEN = false →
      let q := (recordBase b).1
      let o := (recordBase b).2
      let len := match b with | .aioIn | .aioOut => 512 | .dioIn => 144 | .dioOut => 48 | .meter => 1536
      Completes (.recordBaseWrite r b v) s fun t => t.mem = s.mem ∧ t.reg q o =
        if areaGood (v.toNat / 16 * 16) len then (s.reg q o &&& 0xF) ||| (v &&& 0xFFFFFFF0) else s.reg q o) ∧
    (Firmware r (imagePage k) s →
      let q := imagePage k
      let bases := match k with | .aio => [0x044, 0x048] | .dio => [0x040, 0x044] | .mtr => [0x040]
      Completes (.imgenWrite r k on) s fun t => t.mem = s.mem ∧ t.bit q AIO_CTRL_IMGEN =
        if on && bases.any (fun o => s.reg q o == 0) then s.bit q AIO_CTRL_IMGEN else on) ∧
    ((conducting x (s.g pAIO AIO_FIELD_VOLT)).getLsbD d.val = true → x.lim.getLsbD d.val = false →
      Completes (.outputCurrentLimit d) s fun t => t.field.dio.lim.getLsbD d.val = true ∧
        (t.reg pDIO 0x054).getLsbD d.val = true ∧ t.bit pDIO DIO_IRQ_RAW_DOLIM = true) ∧
    (x.lim.getLsbD d.val = true → Completes (.limitTurnoff d) s fun t => t.field.dio.trip.getLsbD d.val = true ∧
      t.field.dio.lim.getLsbD d.val = false ∧ (t.reg pDIO 0x050).getLsbD d.val = false ∧
      t.g pDIO DIO_DOTRIPS_COUNT = min (s.g pDIO DIO_DOTRIPS_COUNT + 1) 65535) ∧
    (x.trip.getLsbD d.val = true → Completes (.limitRetry d) s fun t => t.field.dio.trip.getLsbD d.val = false ∧ t.mem = s.mem) ∧
    (Firmware r pDIO s → Completes (.diLoRead r) s fun t => t.answer = s.reg pDIO 0x048 ∧
      t.g pDIO DIO_DI_HI_STATE = (x.deb.extractLsb' 32 16).toNat ∧ t.mem = s.mem) ∧
    (s.bit pOHM OHM_STAT_ENGAGED = true →
      (Completes .holdExpiry s fun t => t.field.holdOver = true ∧ t.regs = s.regs ∧
        (s.replica ≤ s.field.holdEnd → s.field.holdEnd < 2 ^ 64 → t.replica = s.field.holdEnd)) ∧
      (Firmware r pOHM s → Completes (.release r) s fun t => t.bit pOHM OHM_CTRL_RELEASE = true ∧
        t.bit pOHM OHM_STAT_ENGAGED = true ∧ t.mem = s.mem))

/-- R229 to R233, R237, R238, R241: HART: carrier, the start and the end of a transmission, the response or its
absence, a late answer, a poll, and a channel's configuration. Every transmission ends with its check byte. Forms
whose next state is stated (exec c s = .next t): hartTxStart, hartTxEnd, hartResponseDeadline, hartFrameReceive,
hartAnswerStart, hartPoll, hrtCfgWrite, carrierDetect. -/
def Obligations.HartTransactionsRun : Prop :=
  ∀ (r : Requester) (n : ChanNo) (x : HartRx) (q : HartReq) (on : Bool) (v : Word) (s : State),
    let m := s.modem n
    let off := 0x100 + 0x20 * n.val
    let last (t : State) : Nat := t.g pHRT (hf HRT_STS_LASTST n)
    let Sends (c : Instr) : Prop := Completes c s fun t => (t.modem n).phase = .sending t.replica ∧
      (t.modem n).active = some q ∧ (t.modem n).line = hartLine n q s ∧ checkByte (t.modem n).line = 0 ∧ t.mem = s.mem
    (chanPresent n s = true → s.bit pHRT (hf HRT_STS_CARRIER n) = !on → Completes (.carrierDetect n on) s fun t =>
      t.bit pHRT (hf HRT_STS_CARRIER n) = on ∧ (t.modem n).quietFrom = (if on then m.quietFrom else s.replica)) ∧
    (m.active = some q →
      (m.phase = .waiting → suppressed n s = false →
        (hartMaster n s = true → s.bit pHRT (hf HRT_STS_CARRIER n) = false → Sends (.hartTxStart n)) ∧
        (hartRole n s = 3 → s.bit pHRT (hf HRT_STS_CARRIER n) = false → max s.replica (m.quietFrom + 166667) < answerLimit m s →
          Sends (.hartAnswerStart n)) ∧
        (hartRole n s = 3 → s.bit pHRT (hf HRT_STS_CARRIER n) = false → answerLimit m s ≤ max s.replica (m.quietFrom + 166667) →
          m.discard = false →
          Completes (.hartAnswerStart n) s fun t => last t = 7)) ∧
      (∀ st, m.phase = .sending st → q.kind ≠ .answer → Completes (.hartTxEnd n) s fun t =>
        let e := st + charTime (lineChars n m s)
        (t.modem n).phase = .response e (e + 100000 * min 1000 (max 1 (s.g pHRT HRT_TIMEOUT_RTO))) ∧ (t.modem n).active = some q) ∧
      (∀ e d, m.phase = .response e d →
        (Completes (.hartResponseDeadline n) s fun t => last t = 1 ∧ t.bit pHRT HRT_IRQ_RAW_TIMEOUT = true ∧
          (t.modem n).phase = .waiting) ∧
        (hartActive n s = true → hartMaster n s = true → rxClassified x = true → rxStatus x = 0 → rxType x.bytes = 6 →
          rxMasterBit x.bytes = (hartRole n s == 1) → x.first < d → Completes (.hartFrameReceive n x) s fun t =>
            last t = 0 ∧ (t.modem n).phase = .waiting))) ∧
    (hartMaster n s = true → hartMultidrop n s = true → hartActive n s = true → cfgMode (s.ain n).cfg = aiMa →
      s.bit pHRT HRT_CTRL_EN = true → nextPoll n s ≠ 0 → m.active = none → Completes (.hartPoll n) s fun t =>
        (t.modem n).active = some (pollReq (nextPoll n s)) ∧ (t.modem n).polled = nextPoll n s ∧ t.mem = s.mem) ∧
    (Firmware r pHRT s →
      if chanPresent n s = true ∧ m.active = none ∧ m.staged = [] ∧ HRT_CFG_ROLE.get v < 4 then
        Completes (.hrtCfgWrite r n v) s fun t => t.reg pHRT off = (s.reg pHRT off &&& ~~~0x3F1F0F) ||| (v &&& 0x3F1F0F)
      else Completes (.hrtCfgWrite r n v) s fun t => t.reg pHRT off = s.reg pHRT off ∧ t.bit pHRT HRT_IRQ_RAW_CFGERR = true)

/-- R246 to R248, R250, R254, R255, R260, R265: the samples up to the command are taken first; the means of 1,600 seed
the filters, a cycle that has ended is booked to the billing registers without a loss and to the demand interval of
its end, a block of 1,600 samples gives the RMS of each channel, a stuck channel is flagged and freed; with no delay
set a channel is later by 2 samples. Forms whose next state is stated (exec c s = .next t): dcSeedDone, cycleClose,
rmsBlockEnd, stuckDetect, stuckClear. -/
def Obligations.CyclesAreBooked : Prop :=
  ∀ (k : FeederNo) (n : ChanNo) (j : Nat) (code : Int) (bits : List Bool) (xs : List MeterTick) (c : Closing) (s : State),
    let u := feedMeter xs s
    let x := u.feeder k
    (seedDue u = true → Completes (.dcSeedDone xs) s fun t =>
      t.bit pMTV MTV_STAT_SEEDED = true ∧ t.mem = s.mem ∧
      (∀ i, i < 32 → (t.meterChan i).dc = openQuot (u.meterChan i).sum 1600) ∧
      ∀ f, feederOn f u = true → feederPresent f u = true →
        (t.feeder f).running = true ∧ (t.feeder f).ref = refPhase f u ∧ (t.feeder f).bill = (u.feeder f).bill) ∧
    (measures k u = true → x.due = some c → x.acc.length = 6 → x.bill.length = 6 →
      let stamp := newestStamp u
      let e := energyOf (scaledSum k (fun p => (x.phase p).vi) u)
      let q := energyOf (scaledSum k (fun p => (x.phase p).qi) u)
      let act := if belowCreep k x.count e u then 0 else e.natAbs
      let rea := if belowCreep k x.count q u then 0 else q.natAbs
      let quadrant := if 0 ≤ e then (if 0 ≤ q then 2 else 5) else if 0 ≤ q then 3 else 4
      let total (a : Nat) (v : State) : Nat := (v.feeder k).bill.getD a 0 * lsbOf k u + (v.feeder k).acc.getD a 0
      let full := 2 ^ 64 * lsbOf k u
      Completes (.cycleClose k xs) s fun t => t.mem = s.mem ∧ (t.feeder k).count = 0 ∧ (t.feeder k).due = none ∧
        total 0 t % full = (total 0 u + if 0 ≤ e then act else 0) % full ∧
        total 1 t % full = (total 1 u + if 0 ≤ e then 0 else act) % full ∧
        (∀ a, 2 ≤ a → a < 6 → total a t % full = (total a u + if a = quadrant then rea else 0) % full) ∧
        ((∀ b, dueBoundary u = some b → stamp < b.2) → u.meter.openAt ≤ stamp →
          (t.feeder k).impE = x.impE + (if 0 ≤ e then act else 0) ∧
          (t.feeder k).expE = x.expE + (if 0 ≤ e then 0 else act)) ∧
        ∀ f, f ≠ k → t.feeder f = u.feeder f) ∧
    (blockDue u = true → Completes (.rmsBlockEnd xs) s fun t => t.mem = s.mem ∧ ∀ i, i < 32 →
        t.reg pMTR (0x080 + 4 * i) = (sqrtRat ((u.meterChan i).squares * scaleOf i u ^ 2) (1600 * sumUnit)).1 ∧
        t.bit pMTV (MTV_CH_CLIP.at 4 i) = (u.meterChan i).clip) ∧
    (stuckDue n.val u = true → Completes (.stuckDetect n xs) s fun t =>
      t.bit pMTV (MTV_CH_STUCK.at 4 n.val) = true ∧ t.bit pMTV MTV_IRQ_RAW_STUCK = true ∧ t.mem = s.mem) ∧
    (stuckOver n.val u = true → Completes (.stuckClear n xs) s fun t =>
      t.bit pMTV (MTV_CH_STUCK.at 4 n.val) = false ∧ OnlyPages [pMTV] u t) ∧
    (∀ ch : MeterChan, s.g pMTV (MTV_CH_DELAY.at 4 n.val) = 0 → s.g pMTC (MTC_GAIN_GAIN.at 16 n.val) = 2 ^ 22 →
      let x := stepChan n.val j code bits ch s
      x.out.head? = some (fix40 (x.past.getD 2 0)))

/-- R260, R262, R263, R267: the demand interval closes at its boundary; a demand maximum is cleared; an output gives
its queued pulses one by one; a pulse configuration empties its queue; metering state is saved on command, by the
timer and again after a refusal. Forms whose next state is stated (exec c s = .next t): demandBoundary, pulseTimer,
meterSaveTimer, meterSave, saveRetry, demandMaxClear, pulseCfgWrite. -/
def Obligations.DemandPulsesAndSaves : Prop :=
  ∀ (r : Requester) (k : FeederNo) (n : Fin 8) (weight : Bool) (v : Word) (s : State),
    (∀ sec at_, demandRuns s = true → dueBoundary s = some (sec, at_) →
      Completes .demandBoundary s fun t => t.meter.openSec = sec ∧ t.meter.openAt = at_ ∧
        t.meter.partialNow = (s.bit pCHR CHR_STAT_FALLBACK || !s.bit pMTV MTV_STAT_RUN) ∧
        t.bit pMTE MTE_IRQ_RAW_DEMAND = true ∧ t.mem = s.mem ∧ (s.replica ≤ at_ → at_ < 2 ^ 64 → t.replica = at_) ∧
        ∀ j, (t.feeder j).impE = (s.feeder j).nextI ∧ (t.feeder j).expE = (s.feeder j).nextE ∧
          (t.feeder j).bill = (s.feeder j).bill) ∧
    (s.chr.corrSec % demandGrid s = 0 → s.meter.openSec < s.chr.corrSec → s.chr.corrSec < s.meter.openSec + 2 ^ 32 →
      dueBoundary s = some (s.chr.corrSec, s.chr.corrMtb)) ∧
    (let x := s.pulse n
     let level := s.g pPLS (lf PLS_QUEUE_LEVEL n)
     let tick := (s.replica + 99999) / 100000
     (x.endTick ≤ tick → x.on = true → Completes (.pulseTimer n) s fun t => (t.pulse n).on = false ∧
        (t.pulse n).count = x.count ∧ t.bit pPLS ⟨0x00C, 8 + n.val, 1⟩ = false ∧ t.mem = s.mem ∧
        (s.replica ≤ 100000 * tick → 100000 * tick < 2 ^ 64 → t.replica = 100000 * tick)) ∧
     (x.endTick ≤ tick → x.on = false → 0 < level → s.bit pPLS (lf PLS_CFG_EN n) = true →
        Completes (.pulseTimer n) s fun t => (t.pulse n).on = true ∧ t.g pPLS (lf PLS_QUEUE_LEVEL n) = level - 1 ∧
          (t.pulse n).endTick = tick + min 100 (max 10 (s.g pPLS (lf PLS_CFG_WIDTH n))) ∧
          t.bit pPLS ⟨0x00C, 8 + n.val, 1⟩ = true ∧ t.mem = s.mem)) ∧
    (FirmwareUnlocked r pPLS s →
      let off := 0x040 + 0x10 * n.val + if weight then 4 else 0
      let m : Word := if weight then 0xFFFFFFFF else 0x807F0077
      Completes (.pulseCfgWrite r n weight v) s fun t => t.reg pPLS off = (s.reg pPLS off &&& ~~~m) ||| (v &&& m) ∧
        t.g pPLS (lf PLS_QUEUE_LEVEL n) = 0 ∧ (t.pulse n).count = 0 ∧ t.mem = s.mem) ∧
    (Firmware r pMTE s →
      (regAbsent pMTE (0x31C + 0x20 * k.val) s = false → Completes (.demandMaxClear r k) s fun t =>
        t.mem = s.mem ∧ t.meter = s.meter ∧ ∀ i, 2 ≤ i → i < 6 → t.reg pMTE (0x300 + 0x20 * k.val + 4 * i) = 0) ∧
      (s.bit pMTE MTE_CTRL_SAVE = false → Completes (.meterSave r) s fun t => t.bit pMTE MTE_CTRL_SAVE = true ∧
        t.bit pMTE MTE_STAT_SAVEBUSY = true ∧ t.meter.second = !s.meter.second ∧ t.mem = s.mem)) ∧
    (Completes .meterSaveTimer s fun t => t.bit pMTE MTE_STAT_SAVEBUSY = true ∧ t.meter.saveAt = t.replica + savePeriod s ∧
      t.mem = s.mem ∧ (s.replica ≤ s.meter.saveAt → s.meter.saveAt < 2 ^ 64 → t.replica = s.meter.saveAt)) ∧
    ∀ at_, s.meter.retryAt = some at_ → Completes .saveRetry s fun t => t.bit pMTE MTE_STAT_SAVEBUSY = true ∧
      t.meter.retryAt = none ∧ t.meter.second = !s.meter.second ∧ t.mem = s.mem

/-- R245, R256, R266, R269, R271, R272: metering is switched on and off, a feeder is configured while it is disabled,
a calibration register is written, a feeder is cleared, an LSB is set while its feeder is disabled, a billing register
is read as one value, a configuration is committed. Forms whose next state is stated (exec c s = .next t):
configCommit, meteringEnable, feederCfgWrite, calibrationWrite, feederClear, lsbWrite, accloRead. -/
def Obligations.MeteringIsConfigured : Prop :=
  ∀ (r : Requester) (k : FeederNo) (n : Fin 30) (w : CalReg) (acc : Fin 6) (v : Word) (s : State), s.fused.variantS = false →
    (FirmwareUnlocked r pMTV s → s.meter.xtalLost = false →
      (s.bit pMTV MTV_CTRL_EN = false → Completes (.meteringEnable r true) s fun t => t.bit pMTV MTV_CTRL_EN = true ∧
        t.bit pMTV MTV_STAT_RUN = true ∧ t.bit pMTV MTV_STAT_SEEDED = false ∧ t.mem = s.mem) ∧
      (s.bit pMTV MTV_CTRL_EN = true → (∀ j, (s.feeder j).running = false) →
        Completes (.meteringEnable r false) s fun t => t.bit pMTV MTV_CTRL_EN = false ∧
          t.bit pMTV MTV_STAT_RUN = false ∧ t.mem = s.mem) ∧
      (let off := 0x0C0 + 4 * k.val
       let old := s.reg pMTV off
       let new := (old &&& ~~~0x80000F3F) ||| (v &&& 0x80000F3F)
       if old.getLsbD 31 && (new ^^^ old) &&& 0x7FFFFFFF != 0 then
         Completes (.feederCfgWrite r k v) s fun t => t.reg pMTV off = old ∧ t.bit pMTV MTV_IRQ_RAW_CFGERR = true ∧
           t.meter = s.meter ∧ t.mem = s.mem
       else Completes (.feederCfgWrite r k v) s fun t => t.reg pMTV off = new ∧ t.mem = s.mem)) ∧
    (FirmwareUnlocked r (calReg w n.val).1 s →
      let p := (calReg w n.val).1
      let off := (calReg w n.val).2
      let m : Word := match w with | .gain => 0xFFFFFF | .offset | .scale => 0xFFFFFFFF | .delay => 0xFFF
      Completes (.calibrationWrite r n w v) s fun t => t.reg p off = (s.reg p off &&& ~~~m) ||| (v &&& m) ∧ t.mem = s.mem ∧
        ∀ j, (feederChans j s).contains n.val = true → (t.feeder j).win.calchg = true) ∧
    (FirmwareUnlocked r pMTE s →
      let off := 0x040 + 4 * k.val
      (s.bit pMTE MTE_CLR_GO = false → Completes (.feederClear r k) s fun t => t.bit pMTE MTE_CLR_GO = true ∧
        (t.feeder k).bill = [0, 0, 0, 0, 0, 0] ∧ (t.feeder k).acc = [0, 0, 0, 0, 0, 0] ∧ t.mem = s.mem ∧
        ∀ j, j ≠ k → t.feeder j = s.feeder j) ∧
      (Completes (.lsbWrite r k v) s fun t => t.mem = s.mem ∧ t.reg pMTE off =
        if feederOn k s then s.reg pMTE off else (s.reg pMTE off &&& ~~~7) ||| (v &&& 7))) ∧
    (Firmware r pMTE s → Completes (.accloRead r k acc) s fun t => t.answer = s.reg pMTE (accOff k acc.val) ∧
      t.meter = s.meter ∧ t.mem = s.mem ∧
      (t.reg pMTE (accOff k acc.val + 4)).extractLsb' 0 16 = BitVec.ofNat 16 ((s.feeder k).bill.getD acc.val 0 / 2 ^ 32)) ∧
    (Firmware r pMTV s → s.bit pMTV MTV_CTRL_COMMIT = false → Completes (.configCommit r) s fun t =>
      t.bit pMTV MTV_CTRL_COMMIT = true ∧ t.mem = s.mem ∧ t.meter = s.meter ∧
      ∀ i, i < 4 → ⟨precLayer, .record (496 + i) 0 (((configBytes s).drop (256 * i)).take 256) none false, .config (i == 3)⟩
        ∈ t.flash.waiting)

/-- R309, R310, R317, R318, R375: the flash controller admits a waiting operation when the store allows it, and makes
it wait otherwise; when it is done its bytes stand in the array and nothing else has changed; the index makes the
layer ready; compaction starts on the sector with the lowest GEN. Forms whose next state is stated (exec c s = .next
t): flashOpAdmit, flashOpDone, nvmCommandDone, compact, compactionStart, indexBuilt. -/
def Obligations.FlashRunsItsOperations : Prop :=
  ∀ (r : Requester) (prec off k v g e st seq : Nat) (data : List Byte) (u : FlashUser) (c pg : Nat) (s : State),
    (s.flash.running = none → s.evr.queue = [] → s.flash.waiting = [⟨prec, .program off data, u⟩] → isPeriodicSave u = false →
      let n := 2 * ((data.length + 7) / 8)
      let o : FlashOp := ⟨prec, .program off data, u⟩
      if admitted o n s then Completes .flashOpAdmit s fun t =>
        t.flash.running = some ⟨o, [.program off data], n⟩ ∧ t.flash.waiting = [] ∧
        t.power.pend = s.power.pend + n ∧ t.bit pNVM NVM_STAT_WAITENERGY = false ∧ t.mem = s.mem
      else Completes .flashOpAdmit s fun t => t.flash = { s.flash with refused := t.flash.refused } ∧ o ∈ t.flash.refused ∧
        t.bit pNVM NVM_STAT_WAITENERGY = true ∧ t.mem = s.mem) ∧
    (s.flash.running = some ⟨⟨precRaw, .program off data, .nvm⟩, [.program off data], e⟩ →
      Completes .flashOpDone s fun t => t.flash.running = none ∧ t.power.pend = s.power.pend - e ∧
        t.bytes (flashBase + off) data.length = data ∧ MemoryOutside (flashBase + off) data.length s t) ∧
    (s.flash.running = some ⟨⟨precRaw, .erase k, .nvm⟩, [.erase k], e⟩ → k < 512 →
      Completes .flashOpDone s fun t => t.flash.running = none ∧
        (∀ i, i < 4096 → t.rb (flashBase + 4096 * k + i) = 0xFF) ∧ MemoryOutside (flashBase + 4096 * k) 4096 s t) ∧
    (s.flash.cmd = some ⟨c, some (st, seq), pg⟩ → st < 256 → seq < 2 ^ 24 → Completes .nvmCommandDone s fun t =>
      t.flash.cmd = none ∧ t.bit pNVM NVM_STAT_BUSY = false ∧ t.g pNVM NVM_RES_STATUS = st ∧ t.g pNVM NVM_RES_SEQ = seq ∧
      t.bit pNVM (if st = 0 then NVM_IRQ_RAW_DONE else NVM_IRQ_RAW_REFUSED) = true ∧ t.mem = s.mem) ∧
    (s.bit pNVM NVM_STAT_READY = false → Completes .indexBuilt s fun t => t.bit pNVM NVM_STAT_READY = true ∧ t.mem = s.mem ∧
      t.g pNVM NVM_NEXTSEQ_SEQ = scanSeq ((allRecords s).filter fun x => x.valid)) ∧
    (s.flash.compact = none → lowest (inUse s) = some (v, g) →
      let Starts (i : Instr) : Prop := Completes i s fun t => t.flash.compact.map (fun x => x.1) = some v ∧
        t.bit pNVM NVM_STAT_COMPACTING = true ∧ t.mem = s.mem
      (Firmware r pNVM s → s.bit pNVM NVM_STAT_READY = true → s.bit pNVM NVM_CTRL_COMPACT = false → Starts (.compact r)) ∧
      (s.bit pNVM NVM_STAT_READY = true → (erasedSectors s).length < 16 → Starts .compactionStart))

/-- R315, R316, R319, R320, R322, R323: a page is read as its records give it; a write of a page, a raw program and a
raw erase wait for the flash when their operands allow it; a counter is incremented or advanced where firmware may,
and refused where it may not. Forms whose next state is stated (exec c s = .next t): nvmRead, nvmWrite, rawProg,
rawErase, counterIncrement, counterAdvance. -/
def Obligations.FlashCommandsAreTaken : Prop :=
  ∀ (r : Requester) (n : Fin 8) (v : Word) (s : State),
    (Firmware r pNVM s → s.bit pNVM NVM_STAT_BUSY = false →
      let page := NVM_CMD_PAGE.get v
      let len := NVM_CMD_LEN.get v
      let raw := s.g pNVM NVM_RAWADDR_ADDR
      let places := raw % 8 = 0 ∧ len % 8 = 0 ∧ len ≠ 0 ∧ raw % 256 + len ≤ 256 ∧ rawTarget raw s = true
      let Waits (i : Instr) (o : FlashOp) : Prop := Completes i s fun t => o ∈ t.flash.waiting ∧
        t.flash.cmd.map (fun x => x.result) = some none ∧ t.bit pNVM NVM_STAT_BUSY = true ∧ t.mem = s.mem
      (len ≠ 0 → Completes (.nvmRead r v) s fun t => t.bit pNVM NVM_STAT_BUSY = true ∧ t.mem = s.mem ∧
        if recordsErased ((allRecords s).filter fun x => x.page == page) s then t.flash.cmd.map (fun x => x.result) = some none
        else (t.flash.cmd.bind fun x => x.result.map fun y => y.1) = some 0 ∧
          ∀ i, i < 64 → t.reg pNVM (0x100 + 4 * i) = leWord (pageContent page s) (4 * i)) ∧
      (len ≠ 0 → len ≤ 256 → page < 496 → Waits (.nvmWrite r v)
        ⟨precLayer, .record page (NVM_CMD_OFFSET.get v) (nvmBuf len s) none false, .nvm⟩) ∧
      (places → erasedRange raw len s = true → Waits (.rawProg r v) ⟨precRaw, .program raw (nvmBuf len s), .nvm⟩) ∧
      (places → Waits (.rawErase r v) ⟨precRaw, .erase (raw / 4096), .nvm⟩)) ∧
    (Firmware r pNCT s → s.bit pNCT NCT_STAT_BUSY = false →
      let arg := s.g pNCT NCT_ARG_VALUE
      let Waits (i : Instr) (w : FlashWork) : Prop := Completes i s fun t =>
        ⟨precCounter, w, .counter true⟩ ∈ t.flash.waiting ∧ t.bit pNCT NCT_STAT_BUSY = true ∧ t.mem = s.mem
      let Ends (i : Instr) (f : Fld) : Prop := Completes i s fun t => t.bit pNCT f = true ∧ t.flash = s.flash ∧ t.mem = s.mem
      (5 ≤ n.val → ctrValue n.val s ≠ 0xFFFFFFFF → Waits (.counterIncrement r n) (.count n.val)) ∧
      (5 ≤ n.val → ctrValue n.val s = 0xFFFFFFFF → Ends (.counterIncrement r n) NCT_IRQ_RAW_DONE) ∧
      (n.val < 5 → Ends (.counterIncrement r n) NCT_IRQ_RAW_REFUSED) ∧
      ((n.val = 2 ∨ 5 ≤ n.val) → ctrValue n.val s < arg → Waits (.counterAdvance r n) (.base n.val arg)) ∧
      ((n.val = 2 ∨ 5 ≤ n.val) → ctrValue n.val s = arg → Ends (.counterAdvance r n) NCT_IRQ_RAW_DONE) ∧
      ((n.val < 2 ∨ n.val = 3 ∨ n.val = 4 ∨ arg < ctrValue n.val s) → Ends (.counterAdvance r n) NCT_IRQ_RAW_REFUSED))

/-- R328 to R334, R405, R406: the recorder is ready once its write point is found; an outstanding read ends with the
record that it finds, or with END; a clear message is checked, then its signature. Before the write point is known reads
and a clear wait for it (the model's reading, log entry 132). Events are numbered one by one,
once the sequencer has started with the number after the recorder's highest. Forms whose next state is stated (exec c
s = .next t): writePointFound, evrFirst, evrNext, evrAt, eventClear, eventNumber, sequencerStart, verifierDone. -/
def Obligations.EventsAreNumberedAndRead : Prop :=
  ∀ (r : Requester) (slot i : Nat) (b : List Byte) (filt : Option Dom) (e : Event) (rest : List Event) (s : State),
    let Reads (c : Instr) (op : Nat) : Prop := s.evr.read = some (op, slot, filt) →
      (wpKnown s = false → Completes c s fun t => t = s) ∧ (wpKnown s = true →
      let found := (searchSlots filt (searchOf op slot s) s).1
      (found = .record i b → i < 8192 → eraseRuns (i / 128) s = false → Completes c s fun t => t.evr.read = none ∧
        t.g pEVR EVR_RSTAT_SLOT = i ∧ t.bit pEVR EVR_RSTAT_VALID = true ∧ t.bit pEVR EVR_IRQ_RAW_RDONE = true ∧
        t.mem = s.mem ∧ ∀ j, j < 8 → t.reg pEVR (0x060 + 4 * j) = leWord b (4 * j)) ∧
      (found = .end_ → Completes c s fun t => t.evr.read = none ∧ t.bit pEVR EVR_RSTAT_END = true ∧
        t.bit pEVR EVR_RSTAT_VALID = false ∧ t.bit pEVR EVR_IRQ_RAW_RDONE = true ∧ t.mem = s.mem))
    (s.bit pEVR EVR_STAT_READY = false → s.evr.clear = .none →
      olderSectors { s with evr := { s.evr with wp := findWritePoint s } } = [] →
      Completes .writePointFound s fun t => t.bit pEVR EVR_STAT_READY = true ∧ t.evr.wp = findWritePoint s ∧ t.mem = s.mem) ∧
    Reads .evrFirst 0 ∧ Reads .evrNext 1 ∧ Reads .evrAt 2 ∧
    (Firmware r pEVR s → s.bit pEVR EVR_STAT_CLEARING = false →
      (wpKnown s = false → Completes (.eventClear r) s fun t => t.bit pEVR EVR_CLR_GO = true ∧
        t.bit pEVR EVR_STAT_CLEARING = false ∧ t.evr = s.evr ∧ t.vault = s.vault ∧ t.mem = s.mem) ∧ (wpKnown s = true →
      (clearFields (evrMsg s) s = false → Completes (.eventClear r) s fun t => t.g pEVR EVR_CLR_STATUS = 1 ∧
        t.bit pEVR EVR_IRQ_RAW_REFUSED = true ∧ t.bit pEVR EVR_STAT_CLEARING = false ∧ t.mem = s.mem) ∧
      (clearFields (evrMsg s) s = true → s.vault.queue = [] → s.vault.stage = .new → useRefusal 3 useEvauth s = 0 →
        Completes (.eventClear r) s fun t => t.bit pEVR EVR_STAT_CLEARING = true ∧ t.bit pEVR EVR_CLR_GO = true ∧
          t.evr.clear = .verify ∧ t.vault.stage = .use 3 ∧ t.mem = s.mem))) ∧
    (s.vault.stage = .verify → s.vault.queue = [.evauth] →
      if clearSigned s then Completes .verifierDone s fun t => t.evr.clear = .count ∧ t.vault.queue = [] ∧
        ⟨precCounter, .count 4, .clearCount⟩ ∈ t.flash.waiting ∧ t.mem = s.mem
      else Completes .verifierDone s fun t => t.evr.clear = .none ∧ t.vault.queue = [] ∧ t.g pEVR EVR_CLR_STATUS = 2 ∧
        t.bit pEVR EVR_IRQ_RAW_REFUSED = true ∧ t.mem = s.mem) ∧
    ((ringB s 29).enabled = false →
      (s.bit pEVS EVS_STAT_SEQVALID = true → s.ev.waiting = e :: rest → Completes .eventNumber s fun t =>
        t.reg pEVS 0x040 = s.reg pEVS 0x040 + 1 ∧ t.ev.waiting = rest ∧ t.mem = s.mem) ∧
      (s.bit pEVS EVS_STAT_SEQVALID = false → s.linkUp .damask = true → s.bit pEVR EVR_STAT_READY = true →
        Completes .sequencerStart s fun t => t.bit pEVS EVS_STAT_SEQVALID = true ∧ t.mem = s.mem ∧
          t.reg pEVS 0x040 = (match highestSeq false s with | some n => word (n + 1) | none => 0) + 1)) ∧
    (RingRoom 29 s → s.bit pEVS EVS_STAT_SEQVALID = true → s.ev.waiting = e :: rest → Completes .eventNumber s fun t =>
      RingTakes 29 (q29Entry (s.reg pEVS 0x040) e) s t ∧ t.ev.waiting = rest)

/-- R345, R346, R348: a key update's fields are checked before the use of slot 0 is consumed; a slot command writes or
clears its working slot, or goes to the vault. Forms whose next state is stated (exec c s = .next t): keyUpdate,
wsLoadVault, wsLoadBlob, wsGenerate, wsImport, wsClear. -/
def Obligations.KeysAreLoaded : Prop :=
  ∀ (r : Requester) (v : Word) (s : State),
    (Firmware r pKEY s → s.bit pKEY KEY_STAT_BUSY = false → s.vault.queue = [] → s.vault.stage = .new →
      let m := keyMsg s
      let st := updateFields m s
      (st ≠ 0 → Completes (.keyUpdate r) s fun t => t.g pKEY KEY_URES_STATUS = st ∧ t.bit pKEY KEY_IRQ_RAW_UREFUSED = true ∧
        t.vault.queue = [] ∧ t.bit pKEY KEY_STAT_BUSY = false ∧ t.mem = s.mem) ∧
      (st = 0 → useRefusal 0 useKeyauth s = 0 → Completes (.keyUpdate r) s fun t => t.vault.queue = [.update] ∧
        t.vault.stage = .use 0 ∧ t.vault.msg = m ∧ t.bit pKEY KEY_STAT_BUSY = true ∧ t.mem = s.mem)) ∧
    (Firmware r pCRY s → s.bit pCRY CRY_STAT_WBUSY = false →
      let w := CRY_WCMD_WSLOT.get v
      let addr := (s.reg pCRY 0x044).toNat
      let attr := s.reg pCRY 0x048
      let typ := CRY_WATTR_TYPE.get attr
      slotInUse w s = false →
      let Asks (i : Instr) (op : Nat) : Prop := Completes i s fun t => t.mem = s.mem ∧
        if sealReady .damask s then t.bit pCRY CRY_STAT_WBUSY = true ∧
          t.cry.wcmd = some ⟨op, w, CRY_WCMD_VSLOT.get v, addr, attr, true⟩
        else t.bit pCRY CRY_STAT_WBUSY = false ∧ t.cry.wcmd = none ∧ t.g pCRY CRY_WRES_STATUS = 8 ∧
          t.bit pCRY CRY_IRQ_RAW_WERR = true
      let Fills (i : Instr) (x : WSlot) : Prop := Completes i s fun t => t.wslot w = x ∧ t.cry.wcmd = none ∧
        t.bit pCRY CRY_STAT_WBUSY = false ∧ t.g pCRY CRY_WRES_STATUS = 0 ∧ t.bit pCRY CRY_IRQ_RAW_WDONE = true ∧
        t.mem = s.mem ∧ ∀ j, j ≠ w → t.wslot j = s.wslot j
      Asks (.wsLoadVault r v) 0 ∧
      (gsramRange addr 112 = true → Asks (.wsLoadBlob r v) 1) ∧
      (gsramRange addr 112 = true → attrGood attr = true → Asks (.wsGenerate r v) 2) ∧
      Fills (.wsClear r v) ⟨false, 0, 0, 0, 0, 0, []⟩ ∧
      (attrGood attr = true → Fills (.wsImport r v) ⟨true, 3, BitVec.ofNat 4 (CRY_WATTR_DOM.get attr), CRY_WATTR_USES.get attr, 0,
        typ, ((List.range 8).flatMap fun i => wordBytes (s.reg pCRY (0x080 + 4 * i))).take ((keyLen typ).getD 0)⟩))

/-- R351 to R356: CRY stages an entry of Q30; each operation that exists runs the oldest job of its unit with the key
of its working slot and writes its output to global SRAM, or ends in the first check that fails; the result goes to
the result ring. The order of the checks (FORMAT, NOKEY, USE, DOMAIN, ADDR), and that the output is written when the job
starts, is the model's reading (log entry 84). Forms whose next state is stated (exec c s = .next t): cryJobStage, aesGcmEncrypt, aesGcmDecrypt,
aesCbcEncrypt, aesCbcDecrypt, aesEcbEncrypt, aesEcbDecrypt, aesCtr, aesCmacGenerate, aesCmacVerify,
hmacSha256Generate, hmacSha256Verify, sha256, rsassaPssSign, rsassaPssVerify, rsaOaepEncrypt, rsaOaepDecrypt, attest,
cryRandom, cryJobComplete. -/
def Obligations.CryptoJobsRun : Prop :=
  ∀ (e : List Byte) (y : CryRun) (s : State),
    let Runs (c : Instr) (op : Nat) : Prop :=
      nextJob (isPk op) s = some e → (e.getD 0 0).toNat = op → unitIdle (isPk op) s = true →
        let j := jobOf e
        let x := s.wslot j.wslot
        let unit (t : State) : Option CryRun := if isPk op then t.cry.pk else t.cry.sym
        let Ends (n : Nat) : Prop := Completes c s fun t => unit t = some ⟨e, n, 0⟩ ∧ t.cry.staged = s.cry.staged.erase e ∧
          t.mem = s.mem
        if !jobFormat j then Ends 1
        else if !keyless op && (!x.valid || !(jobKey op).1.contains x.typ) then Ends 2
        else if !keyless op && (!x.uses.testBit (jobKey op).2 || (x.uses.testBit 5 && op != 0x11)) then Ends 3
        else if !keyless op && x.dom.toNat != j.dom then Ends 4
        else if !jobRanges j then Ends 6
        else Completes c s fun t =>
          let o := (jobOutput j x.material s).1
          unit t = some ⟨e, o.1, o.2.1.length⟩ ∧ t.cry.staged = s.cry.staged.erase e ∧
          t.mem = ((s.wbytes j.dst o.2.1).wbytes j.aux o.2.2).mem
    (headA 30 s = some e → s.bit pCRY CRY_CTRL_EN = true → s.cry.staged.length < 16 → Completes .cryJobStage s fun t =>
      t.cry.staged = s.cry.staged ++ [e] ∧ RingServed 30 s t ∧ t.g pCRY CRY_STAT_STAGED = s.cry.staged.length + 1 ∧
      t.mem = s.mem) ∧
    Runs .aesGcmEncrypt 0x01 ∧ Runs .aesGcmDecrypt 0x02 ∧ Runs .aesCbcEncrypt 0x03 ∧ Runs .aesCbcDecrypt 0x04 ∧ Runs
    .aesEcbEncrypt 0x05 ∧ Runs .aesEcbDecrypt 0x06 ∧ Runs .aesCtr 0x07 ∧ Runs .aesCmacGenerate 0x08 ∧ Runs
    .aesCmacVerify 0x09 ∧ Runs .hmacSha256Generate 0x0A ∧ Runs .hmacSha256Verify 0x0B ∧ Runs .sha256 0x0C ∧ Runs
    .rsassaPssSign 0x0D ∧ Runs .rsassaPssVerify 0x0E ∧ Runs .rsaOaepEncrypt 0x0F ∧ Runs .rsaOaepDecrypt 0x10 ∧ Runs
    .attest 0x11 ∧ Runs .cryRandom 0x12 ∧
    (s.cry.sym = some y → s.cry.wcmd = none → RingRoom 30 s → Completes (.cryJobComplete false) s fun t =>
      t.cry.sym = none ∧ t.bit pCRY CRY_STAT_SYMBUSY = false ∧ t.bit pCRY CRY_IRQ_RAW_JOBDONE = true ∧
      t.g pCRY CRY_CNT_JOBS = min (s.g pCRY CRY_CNT_JOBS + 1) 65535 ∧
      RingTakes 30 (leBytes 2 (jobOf y.entry).tag ++ [byte y.status, byte (jobOf y.entry).op] ++ leBytes 4 y.outLen
        ++ leBytes 4 s.mtb) s t)

/-- R274 to R282: a serial port hears the characters up to the command: while its driver is on it discards them, in
Modbus RTU one that comes after t3.5 of silence begins a frame and one before it goes on with the frame; it takes its
next entry and sends it, check bytes included; a frame, a packet or a chunk received becomes an entry of its ring with
the TAG of the request that it answers; a slave discards what is not for it; the response time and the turn-round time
end. R282: the service UART: a byte written waits to be sent, a byte received waits to be read, 64 of each; a byte takes
its ten bits at DIV. Forms
whose next state is stated (exec c s = .next t): serTransmitStart, serTransmitEnd, modbusFrameEnd, responseTimeout,
broadcastTurn, osdpPacketReceive, rawChunkClose, svcTxdWrite, svcRxdRead, svcByteReceive, svcByteSent. -/
def Obligations.SerialPortsRun : Prop :=
  (∀ (n : SerNo) (xs : List SerChar) (c : SerChar) (x : SerRx) (y : SerTx) (e : List Byte) (tag d : Nat) (s : State),
     let p := serPage n
     let q := serQueue n
     let u := hearLine n xs s
     let entry (kind status tag : Nat) (data : List Byte) : List Byte :=
       [byte kind, byte status] ++ leBytes 2 data.length ++ leBytes 4 x.first ++ leBytes 4 x.last ++ leBytes 2 tag ++ [0, 0] ++ data
     let clean := x.badChar = false ∧ x.badGap = false ∧ x.bytes.length ≤ 512
     let body := x.bytes.take (x.bytes.length - 2)
     let checked := 2 < x.bytes.length ∧ leBytes 2 (crcModbus body).toNat = x.bytes.drop (x.bytes.length - 2)
     ((s.ser n).tx ≠ none → (hearChar n c s).ser n = s.ser n) ∧
     (serOn n s = true → (s.ser n).tx = none → serMode n s = 1 → (s.ser n).rx = some x →
       ∃ z, ((hearChar n c s).ser n).rx = some z ∧
         if x.silentAt (t35 n s) ≤ c.stamp then z.first = c.stamp ∧ z.bytes.length = 1 ∧ z.badGap = false
         else z.first = x.first ∧ z.bytes.length = x.bytes.length + 1 ∧
           z.badGap = (x.badGap || longGap n (x.gap c.stamp) s)) ∧
     (serOn n u = true → (u.ser n).tx = none → (u.ser n).await = none → (u.ser n).rx = none → headA q u = some e →
       let data := (e.drop 16).take (leField e 2 2)
       if serEntryGood n e u then Completes (.serTransmitStart n xs) s fun t => t.bit p SER_STAT_TXBUSY = true ∧
         RingServed q u t ∧ t.mem = u.mem ∧ (t.ser n).tx = some
           { tag := leField e 12 2, expect := (e.getD 0 0).getLsbD 0,
             addr := if serMode n u = 2 then data.getD 1 0 &&& 0x7F else data.getD 0 0,
             line := serLine n data u, start := t.mtb + halfBits n 1 u }
       else Completes (.serTransmitStart n xs) s fun t => t.bit p SER_IRQ_RAW_FRAMEERR = true ∧ (t.ser n).tx = none ∧
         RingServed q u t ∧ t.mem = u.mem) ∧
     ((s.ser n).tx = some y →
       let last := y.start + halfBits n (2 * charBits n s * y.line.length) s
       Completes (.serTransmitEnd n) s fun t => (t.ser n).tx = none ∧ t.bit p SER_STAT_TXBUSY = false ∧
         (t.ser n).idleFrom = last ∧ t.mem = s.mem ∧
         (serMaster n s = true → y.expect = true → (serMode n s ≠ 1 ∨ y.addr ≠ 0) →
           (t.ser n).await = some (y.tag, last + serMs n SER_TIMER_RESPTO s)) ∧
         (serMaster n s = true → serMode n s = 1 → y.addr = 0 →
           (t.ser n).turn = last + 100000 * s.g p SER_TIMER_TURN)) ∧
     (serOn n u = true → (u.ser n).rx = some x →
       (serMode n u = 1 → serSlave n u = true → x.bytes.getD 0 0 ≠ 0 → (x.bytes.getD 0 0).toNat ≠ u.g p SER_CFG_ADDR →
         Completes (.modbusFrameEnd n xs) s fun t => (t.ser n).rx = none ∧ t.mem = u.mem) ∧
       (RingRoom q u → clean →
         (serMode n u = 1 → checked → serSlave n u = true →
           (x.bytes.getD 0 0 = 0 ∨ (x.bytes.getD 0 0).toNat = u.g p SER_CFG_ADDR) →
           Completes (.modbusFrameEnd n xs) s fun t => RingTakes q (entry 0 0 0 body) u t ∧
             t.bit p SER_IRQ_RAW_RXFRAME = true) ∧
         ((u.ser n).await = some (tag, d) → x.first < d →
           (serMode n u = 1 → checked → serSlave n u = false → Completes (.modbusFrameEnd n xs) s fun t =>
             RingTakes q (entry 0 0 tag body) u t ∧ (t.ser n).await = none ∧ t.bit p SER_IRQ_RAW_RXFRAME = true) ∧
           (serMode n u = 2 → osdpWhole x.bytes = true → (x.bytes.getD 1 0).getLsbD 7 = true →
             (x.bytes.getD 1 0) &&& 0x7F = (u.ser n).addr → osdpGood x.bytes = true →
             Completes (.osdpPacketReceive n xs) s fun t => (t.ser n).await = none ∧ t.bit p SER_IRQ_RAW_RXFRAME = true ∧
               RingTakes q (entry 0 0 tag
                 (x.bytes.take (x.bytes.length - if (x.bytes.getD 4 0).getLsbD 2 then 2 else 1))) u t)) ∧
         (serMode n u = 3 → Completes (.rawChunkClose n xs) s fun t =>
           RingTakes q (entry 1 0 0 x.bytes) u t ∧ t.bit p SER_IRQ_RAW_RXFRAME = true))) ∧
     ((u.ser n).await = some (tag, d) →
       ((u.ser n).rx = none → RingRoom q u → Completes (.responseTimeout n xs) s fun t =>
         RingTakes q ([0, 5, 0, 0, 0, 0, 0, 0, 0, 0, 0, 0] ++ leBytes 2 tag ++ [0, 0]) u t ∧ (t.ser n).await = none ∧
         t.bit p SER_IRQ_RAW_TIMEOUT = true ∧ (u.mtb ≤ d → d < 2 ^ 64 → t.mtb = d)) ∧
       ((u.ser n).rx = some x → x.first < d → serMode n u ≠ 2 → Completes (.responseTimeout n xs) s fun t =>
         (t.ser n).await = some (tag, d) ∧ t.regs = u.regs ∧ t.mem = u.mem)) ∧
     Completes (.broadcastTurn n) s fun t => t.regs = s.regs ∧ t.mem = s.mem ∧ t.comms = s.comms ∧
       (s.mtb ≤ (s.ser n).turn → (s.ser n).turn < 2 ^ 64 → t.mtb = (s.ser n).turn)) ∧
  (∀ (r : Requester) (b c : Byte) (rest : List Byte) (s : State),
     (Firmware r pSVC s →
       (Completes (.svcTxdWrite r b) s fun t => t.mem = s.mem ∧ t.comms.svcRx = s.comms.svcRx ∧
         t.comms.svcTx = if s.comms.svcTx.length < 64 then s.comms.svcTx ++ [b] else s.comms.svcTx) ∧
       (s.comms.svcRx = c :: rest → Completes (.svcRxdRead r) s fun t => t.answer = 0x100 ||| c.setWidth 32 ∧
         t.comms.svcRx = rest ∧ t.comms.svcTx = s.comms.svcTx ∧ t.mem = s.mem) ∧
       (s.comms.svcRx = [] → Completes (.svcRxdRead r) s fun t => t.answer = 0 ∧ t.comms = s.comms ∧ t.mem = s.mem)) ∧
     (s.bit pSVC SVC_CTRL_EN = true →
       (s.power.leaving = false → Completes (.svcByteReceive b) s fun t => t.mem = s.mem ∧ t.comms.svcRxEnd = t.mtb ∧
         (s.comms.svcRxEnd + svcByteTime s < 2 ^ 64 → s.comms.svcRxEnd + svcByteTime s ≤ t.mtb) ∧
         if s.comms.svcRx.length < 64 then t.comms.svcRx = s.comms.svcRx ++ [b] ∧ t.bit pSVC SVC_IRQ_RAW_RXDATA = true
         else t.comms.svcRx = s.comms.svcRx ∧ t.bit pSVC SVC_IRQ_RAW_OVERRUN = true) ∧
       (s.comms.svcTx = c :: rest → Completes .svcByteSent s fun t => t.comms.svcTx = rest ∧ t.comms.svcRx = s.comms.svcRx ∧
         t.mem = s.mem ∧ (rest = [] → t.bit pSVC SVC_IRQ_RAW_TXEMPTY = true) ∧
         ∀ st, s.comms.svcStart = some st → s.mtb ≤ st + svcByteTime s → st + svcByteTime s < 2 ^ 64 →
           t.mtb = st + svcByteTime s)))

/-- R283 to R288: the switch delivers a frame to the ports of its VLAN and learns its source; a frame of a wrong
length or with a bad FCS is dropped; a Q23 entry goes out on the wire; a link change is flagged; an address ages; a
stamp is read; a VLAN entry is written or refused. The model's readings: a runt is dropped, an untagged frame over
1,518 bytes is too long, a short frame is padded to 60 bytes, and `wire` holds what the last command of the ports put on
the wire (log entry 87); a frame waits at the egress of its port, and the statement takes egresses where none waits (log
entry 142). Forms whose next state is stated (exec c s = .next t):
ethFrameReceive, ethTransmit, ethLinkChange, addressAgeing, txtsTagRead, vlanWrite. -/
def Obligations.EthernetSwitches : Prop :=
  ∀ (r : Requester) (x : EthRx) (d : Nat) (dd : Dom) (p : Fin 2) (up fdx : Bool) (speed : BitVec 2) (e : List Byte)
    (at1 at2 port tag stamp : Nat) (rest : List (Nat × Nat × Nat)) (v : Word) (s : State),
    let n := x.bytes.length + 4
    let vid := if frameVid x.bytes = 0 then pvid x.port s else frameVid x.bytes
    let w := s.reg pESW (vlanOff d)
    let b := untagged x.bytes
    let src := (b.drop 6).take 6
    let free := s.comms.egress = []
    let good := 64 ≤ n ∧ n ≤ 1522 ∧ b.length ≤ 1514 ∧ x.fcsGood = true ∧ isPause x.bytes = false
    (ethUp x.port s = true → free →
      (¬ good → Completes (.ethFrameReceive x) s fun t => t.bit pETH ETH_IRQ_RAW_RXDROP = true ∧
        t.comms.learned = s.comms.learned ∧ t.comms.wire = [] ∧ t.mem = s.mem) ∧
      (good → s.bit pESW ESW_CTRL_EN = true → domainOf vid s = some d → vlanMember w (x.port.val + 1) = true →
        vlanMember w 0 = true → isGroup (b.take 6) = true → isGroup src = false → RingRoom 22 s →
        portFree 0 s ≤ max s.mtb x.stamp → max s.mtb x.stamp < 2 ^ 64 →
        (∀ y ∈ s.comms.learned, y.vid ≠ vid) → s.comms.learned.length < 1024 →
        Completes (.ethFrameReceive x) s fun t =>
          t.comms.learned = s.comms.learned ++ [⟨vid, src, x.port.val + 1, t.mtb⟩] ∧
          RingTakes 22 (let f := if b.length < 60 then padTo 60 b else b
            leBytes 2 f.length ++ [byte (x.port.val + 1), byte (d + (if isTagged x.bytes then 16 else 0)
              + if ptpEvent b then 32 else 0)] ++ leBytes 2 (vid + 4096 * framePcp x.bytes) ++ [0, 0] ++ leBytes 8 x.stamp
              ++ List.replicate 16 0 ++ f) s t)) ∧
    (headA 23 s = some e → free → s.bit pESW ESW_CTRL_EN = true → q23Good e = true →
      let u := s.reg pESW (vlanOff ((e.getD 3 0) &&& 0x0F).toNat)
      let f := (e.drop 32).take (leField e 0 2)
      let out := if f.length < 60 then padTo 60 f else f
      (vlanValid u = false → Completes (.ethTransmit at1 at2) s fun t => t.bit pESW ESW_IRQ_RAW_VIDERR = true ∧
        t.comms.wire = [] ∧ RingServed 23 s t ∧ t.mem = s.mem) ∧
      (vlanValid u = true → vlanMember u 1 = true → vlanMember u 2 = false → ethUp 0 s = true → isGroup (f.take 6) = true →
        portFree 1 s ≤ at1 →
        Completes (.ethTransmit at1 at2) s fun t => RingServed 23 s t ∧ t.mem = s.mem ∧ t.comms.wire = [(1,
          if pvid 0 s = vlanVid u then out else tagged (vlanVid u) (leField e 4 2 / 4096 % 8 * 2) out)])) ∧
    (free → (up = true → ethOn p s = true ∧ speed ≠ 3 ∧ (speed = 2 → fdx = true)) → Completes (.ethLinkChange p up fdx speed) s fun t => ethUp p t = up ∧
      t.comms = s.comms ∧ t.mem = s.mem ∧ (up ≠ ethUp p s →
        t.bit pETH (if p = 0 then ETH_IRQ_RAW_LINKCHG1 else ETH_IRQ_RAW_LINKCHG2) = true)) ∧
    (free → ∀ a, nextAge s = some a → Completes .addressAgeing s fun t => t.regs = s.regs ∧ t.mem = s.mem ∧
      t.comms.learned = (s.comms.learned.filter fun y => t.mtb < y.used + 30000000000) ∧
      (s.mtb ≤ a → a < 2 ^ 64 → t.mtb = a)) ∧
    (Firmware r pETH s → s.comms.stamps = (port, tag, stamp) :: rest → Completes (.txtsTagRead r) s fun t =>
      t.answer = word (2 ^ 31 + port * 2 ^ 16 + tag) ∧ t.comms.stamps = rest ∧ t.reg pETH 0x044 = word stamp ∧
      t.reg pETH 0x048 = word (stamp / 2 ^ 32) ∧ t.mem = s.mem) ∧
    (Firmware r pESW s →
      let off := vlanOff dd.toNat
      let new := (s.reg pESW off &&& ~~~0x80007FFF) ||| (v &&& 0x80007FFF)
      let taken := vlanValid new && (List.range 16).any fun k =>
        k != dd.toNat && vlanValid (s.reg pESW (vlanOff k)) && vlanVid (s.reg pESW (vlanOff k)) == vlanVid new
      if vlanVid new = 0 || vlanVid new = 4095 || taken then
        Completes (.vlanWrite r dd v) s fun t => t.reg pESW off = s.reg pESW off ∧ t.bit pESW ESW_IRQ_RAW_CFGERR = true ∧
          t.mem = s.mem
      else Completes (.vlanWrite r dd v) s fun t => t.reg pESW off = new ∧ t.comms = s.comms ∧ t.mem = s.mem)

/-- R289 to R298: Charon counts to its next second edge, fires an alarm whose compare value the count reaches, loads a
time two edges after it is written; reads of its low words latch the rest; an armed alarm's compare and mask are not
written. R299, R303: Charon loses its crystal and gets it back, checks its cell, changes to the cell and stops without
a source. Forms whose next state is stated (exec c s = .next t): charonSecond, alarmFire, timeWrite, timeLoad,
alarmWrite, secLoRead, corrLoRead, opsecRead, opsecMinute, crystalLoss32k, crystalReturn32k, vbatCheck, onvbatChange,
charonStop. -/
def Obligations.CharonKeepsTime : Prop :=
  (∀ (r : Requester) (at_ sec n : Nat) (e1 : Bool) (a : Fin 2) (i : Fin 4) (v : Word) (s : State),
     let c := s.chr.count
     let full := 2 ^ 48
     let quiet := almArmed 0 s = false ∧ almArmed 1 s = false
     (chrStill s = false → s.chr.wake = false → c < full →
       (quiet → s.chr.load = none → Completes (.charonSecond at_) s fun t => t.chr.count = (c / 32768 + 1) * 32768 % full ∧
         t.chr.corrSec = t.chr.count / 32768 ∧ t.chr.corrMtb = t.replica ∧ t.mem = s.mem ∧
         (s.replica ≤ at_ → at_ < 2 ^ 64 → t.replica = at_)) ∧
       (quiet → s.chr.load = some (sec, e1) → sec < 2 ^ 33 → Completes .timeLoad s fun t => t.chr.count = sec * 32768 ∧
         t.chr.load = none ∧ t.bit pCHR CHR_STAT_WBUSY = false ∧ t.bit pCHR CHR_STAT_VALID = true ∧ t.mem = s.mem) ∧
       (quiet → s.chr.load = none → s.chr.opRun = true → s.chr.opPre < 32768 → Completes .opsecMinute s fun t =>
         t.g pCHR CHR_OPSEC_OPSEC = (s.g pCHR CHR_OPSEC_OPSEC / 60 + 1) * 60 % 2 ^ 32 ∧ t.chr.opPre = 0 ∧ t.mem = s.mem) ∧
       (s.chr.load = none → almArmed a s = true → almFires (almMask a s) (almCmp a s) ((c + 1) % full) = true →
         s.bit pPMU PMU_STAT_DOFF = false → 0 < n → Completes (.alarmFire a n) s fun t => t.bit pCHR (almFlag a) = true ∧
           t.chr.count = (c + 1) % full ∧ t.mem = s.mem ∧
           (s.bit pCHR (almField CHR_ALM_CTRL_ONESHOT a) = true → almArmed a t = false))) ∧
     (Firmware r pCHR s →
       (Completes (.timeWrite r v) s fun t => t.chr.count = c ∧ t.mem = s.mem ∧
         if s.bit pCHR CHR_STAT_WBUSY then t.chr.load = s.chr.load ∧ t.bit pCHR CHR_IRQ_RAW_WERR = true
         else t.bit pCHR CHR_STAT_WBUSY = true ∧
           t.chr.load = some (s.g pCHR CHR_SEC_HI_SETHI * 2 ^ 32 + v.toNat, false)) ∧
       (let off := 0x080 + 0x10 * a.val + 4 * i.val
        let m : Word := if i.val = 0 then 0x80000306 else if i.val = 3 then 0x7FFF7FFF else 0xFFFFFFFF
        (almArmed a s = false → Completes (.alarmWrite r a i v) s fun t => t.mem = s.mem ∧ t.chr = s.chr ∧
          t.reg pCHR off = (s.reg pCHR off &&& ~~~m) ||| (v &&& m)) ∧
        (almArmed a s = true → i.val ≠ 0 → Completes (.alarmWrite r a i v) s fun t => t.mem = s.mem ∧ t.chr = s.chr ∧
          t.reg pCHR off = s.reg pCHR off ∧ t.bit pCHR CHR_IRQ_RAW_WERR = true) ∧
        (almArmed a s = true → i.val = 0 → Completes (.alarmWrite r a i v) s fun t => t.mem = s.mem ∧ t.chr = s.chr ∧
          t.reg pCHR off = (s.reg pCHR off &&& ~~~0x80000006) ||| (v &&& 0x80000006) ∧
          ((v ^^^ s.reg pCHR off) &&& 0x300 ≠ 0 → t.bit pCHR CHR_IRQ_RAW_WERR = true))) ∧
       (c < full → Completes (.secLoRead r) s fun t => t.answer = word (c / 32768) ∧ t.g pCHR CHR_SEC_HI_SEC32 = c / 2 ^ 47 ∧
         t.g pCHR CHR_SUBSEC_SUBSEC = c % 32768 ∧ t.chr = s.chr ∧ t.mem = s.mem) ∧
       (Completes (.corrLoRead r) s fun t => t.answer = word s.chr.corrMtb ∧ t.reg pCHR 0x050 = word (s.chr.corrMtb / 2 ^ 32) ∧
         t.reg pCHR 0x054 = word s.chr.corrSec ∧ t.chr = s.chr ∧ t.mem = s.mem) ∧
       (s.chr.opPre < 32768 → Completes (.opsecRead r) s fun t => t.answer = s.reg pCHR 0x058 ∧
         t.g pCHR CHR_OPFRAC_FRAC = 2 * s.chr.opPre ∧ t.chr = s.chr ∧ t.mem = s.mem))) ∧
  (∀ (cell : Option Nat) (on : Bool) (s : State),
     (s.bit pCHR CHR_STAT_FALLBACK = false → muslinRuns s = true → Completes .crystalLoss32k s fun t =>
       t.bit pCHR CHR_STAT_FALLBACK = true ∧ t.bit pCHR CHR_IRQ_RAW_OSCFAIL = true ∧ t.meter.partialNow = true ∧ t.chr = s.chr ∧ t.mem = s.mem) ∧
     (Completes .crystalReturn32k s fun t => t.bit pCHR CHR_STAT_FALLBACK = false ∧ OnlyPages [pCHR] s t) ∧
     (Completes (.vbatCheck cell) s fun t => t.bit pCHR CHR_STAT_VBATLOW = cell.any (· < 2500) ∧ t.chr = s.chr ∧ t.mem = s.mem ∧
       (cell.any (· < 2500) = true → t.bit pCHR CHR_IRQ_RAW_VBATLOW = true)) ∧
     (Completes (.onvbatChange on) s fun t => t.bit pCHR CHR_STAT_ONVBAT = on ∧ OnlyPages [pCHR] s t) ∧
     Completes .charonStop s fun t => t.chr = { s.chr with stopped := true } ∧ t.regs = s.regs ∧ t.mem = s.mem)

/-- R386, R388: an image is loaded and checked; a profile is commanded and taken in force when its image is valid and
the pins do not rule; a refused pin value may be tried again. Forms whose next state is stated (exec c s = .next t):
prfLoad, prfCmd, retry. -/
def Obligations.ProfilesAreSwitched : Prop :=
  ∀ (r : Requester) (n : Fin 4) (s : State), Firmware r pPRF s →
    let valid := s.g pPRF PRF_STAT_VALID
    (n.val ≠ activeProfile s → Completes (.prfLoad r n) s fun t => t.mem = s.mem ∧
      t.g pPRF PRF_STAT_ACTIVE = s.g pPRF PRF_STAT_ACTIVE ∧
      if imageGood n s then t.g pPRF PRF_STAT_VALID = valid ||| 2 ^ n.val
      else t.g pPRF PRF_STAT_VALID = valid &&& (15 - 2 ^ n.val) ∧ t.bit pPRF PRF_IRQ_RAW_BADIMG = true) ∧
    (if s.bit pPRF PRF_STAT_PINEN then Completes (.prfCmd r n) s fun t => t.bit pPRF PRF_IRQ_RAW_CMDREF = true ∧
        t.g pPRF PRF_STAT_ACTIVE = s.g pPRF PRF_STAT_ACTIVE ∧ t.mem = s.mem
      else if profileValid n.val s then Completes (.prfCmd r n) s fun t => t.g pPRF PRF_STAT_ACTIVE = n.val ∧
        t.bit pPRF PRF_IRQ_RAW_SWITCH = true ∧ t.reg pPRF 0x04C = word s.mtb
      else Completes (.prfCmd r n) s fun t => t.bit pPRF PRF_IRQ_RAW_BADIMG = true ∧
        t.g pPRF PRF_STAT_ACTIVE = s.g pPRF PRF_STAT_ACTIVE ∧ t.mem = s.mem) ∧
    Completes (.retry r) s fun t => t.power = { s.power with retry := true } ∧ OnlyPages [pPRF] { s with power := t.power } t

/-- R395, R396, R398, R399: a kick by the engine of its role opens a new interval, any other write is a bad kick; the
first interval that closes without a kick is stage 1; Damask halts without its crystal; metering stops without
Muslin's and starts again with it. Forms whose next state is stated (exec c s = .next t): wdtKick, watchdogExpiry,
damaskCrystalLoss, meterCrystalLoss, meterCrystalReturn. -/
def Obligations.WatchdogsAndCrystals : Prop :=
  ∀ (r : Requester) (i : Fin 4) (v : Word) (xs : List MeterTick) (s : State),
    (Firmware r pWDT s → (s.wdt i.val).running = true →
      (v = 0x4B43 → holdsRole r.eng i.val s = true → s.mtb < (s.wdt i.val).close → Completes (.wdtKick r i v) s fun t =>
        t.wdt i.val = ⟨true, s.mtb + wdtTimeout i.val s⟩ ∧ t.g pWDT (stageFld i.val) = 0 ∧ t.mem = s.mem) ∧
      ((v ≠ 0x4B43 ∨ holdsRole r.eng i.val s = false) → Completes (.wdtKick r i v) s fun t => t.wdts = s.wdts ∧
        t.bit pWDT WDT_IRQ_RAW_BADKICK = true ∧ t.mem = s.mem)) ∧
    (damaskOn s = true → (s.wdt i.val).running = true → s.g pWDT (stageFld i.val) = 0 →
      Completes (.watchdogExpiry i) s fun t => t.wdt i.val = ⟨true, (s.wdt i.val).close + wdtTimeout i.val s⟩ ∧
        t.g pWDT (stageFld i.val) = 1 ∧ t.bit pWDT ⟨0x010, i.val, 1⟩ = true ∧ t.mem = s.mem ∧
        (i.val % 2 = 0 → roleValid (i.val + 1) s = true → t.bit pINT (failFld (roleHalf i.val)) = true)) ∧
    (damaskOn s = true → Completes .damaskCrystalLoss s fun t => t.power.noClock = true ∧ t.mem = s.mem ∧
      (∀ e, (t.eng e).mode = .halted) ∧ ∀ n, (t.task n).scan = none) ∧
    (s.meter.xtalLost = false → muslinRuns s = true → Completes (.meterCrystalLoss xs) s fun t => t.meter.xtalLost = true ∧
      t.bit pMTV MTV_STAT_RUN = false ∧ t.bit pMTV MTV_STAT_SEEDED = false ∧ t.mem = s.mem ∧
      ∀ k, (t.feeder k).running = false) ∧
    (s.meter.xtalLost = true → muslinRuns s = true → s.replica ≤ 100000 * (s.field.tick + 1) →
      100000 * (s.field.tick + 1) < 2 ^ 64 → Completes .meterCrystalReturn s fun t => t.meter.xtalLost = false ∧
        t.replica = 100000 * (s.field.tick + 1) ∧ t.mem = s.mem ∧
        (s.bit pMTV MTV_CTRL_EN = true → s.bit pMTV MTV_STAT_RUN = false → t.bit pMTV MTV_STAT_RUN = true))

/-- R401, R411, R412: software sets and clears its interrupt sources; a ring's descriptor is written while the ring is
disabled, and its producer index at any time; QMG takes an entry of Q31. Forms whose next state is stated (exec c s =
.next t): softwareInterrupt, blockTransfer, queueConfigWrite, ringProduce. -/
def Obligations.QueuesAreServed : Prop :=
  ∀ (r : Requester) (set : Bool) (b : BitVec 16) (q : QueueNo) (reg : Fin 5) (prod : BitVec 13) (v : Word) (e : List Byte)
    (x : BlockXfer) (s : State),
    let n := 16 + q.val
    let off := 0x300 + 0x20 * q.val + 4 * reg.val
    let hasA := (ringSizes n).1 ≠ 0
    let hasB := (ringSizes n).2 ≠ 0
    let Kept : Prop := Completes (.queueConfigWrite r q reg v) s fun t => t.reg pQMG off = s.reg pQMG off ∧
      t.bit pQMG QMG_IRQ_RAW_CFGERR = true ∧ t.mem = s.mem
    let Takes (m : Word) : Prop := Completes (.queueConfigWrite r q reg v) s fun t =>
      t.reg pQMG off = (s.reg pQMG off &&& ~~~m) ||| (v &&& m) ∧ t.mem = s.mem
    (Firmware r pINT s → Completes (.softwareInterrupt r set b) s fun t => t.mem = s.mem ∧
      t.ev.sw = if set then s.ev.sw ||| b else s.ev.sw &&& ~~~b) ∧
    (Firmware r pQMG s →
      (reg.val = 0 → hasA → if (ringA s n).enabled then Kept else Takes 0xFFFFFFF0) ∧
      (reg.val = 2 → hasB → if (ringB s n).enabled then Kept else Takes 0xFFFFFFF0) ∧
      (reg.val = 3 → hasB → Takes 0x1FFF) ∧
      (reg.val = 4 → hasA → hasB → (ringA s n).enabled = false → (ringB s n).enabled = false → Takes 0xC0FF0000) ∧
      (hasA → Completes (.ringProduce r q prod) s fun t => (ringA t n).prod = prod.toNat ∧ t.mem = s.mem)) ∧
    (damaskOn s = true → s.q31 = none → headA 31 s = some e →
      (q31Entry e = some x → s.linkUp .damask = true → Completes (.blockTransfer none) s fun t => t.q31 = some x ∧
        RingServed 31 s t ∧ t.mem = s.mem) ∧
      (q31Entry e = none → RingRoom 31 s → Completes (.blockTransfer none) s fun t => t.q31 = none ∧ RingServed 31 s t ∧
        RingTakes 31 (leBytes 2 (leField e 12 2) ++ [1]) s t))

/-- Every step keeps the canonical form of the memory: addresses that rise, and no entry that an unlisted address
would read as. -/
def Obligations.MemoryStaysCanonical : Prop :=
  ∀ s t : State, Memory.wf s.mem = true → step s = .next t → Memory.wf t.mem = true

/-- The machine after reset is canonical in its memory, its registers and its point tags. -/
def Obligations.ResetIsCanonical : Prop := State.canonical State.reset
end

