-- ==== Sys2Proof/Laws/Tables.lean ====
section
/-! SUPPORT. What the table operations do: a read after a write, a write leaves every other key alone,
and every operation keeps the canonical form. -/

namespace Sys2Proof.Machine

theorem tget_tdrop_same (d : Nat → α) (t : Tbl α) (k : Nat) : tget d (tdrop t k) k = d k := by
  induction t with
  | nil => rfl
  | cons e t ih =>
    obtain ⟨k', v⟩ := e
    by_cases h : k' = k
    · simp [tdrop, h, ih]
    · simp [tdrop, tget, h, ih]

theorem tget_tdrop_ne (d : Nat → α) (t : Tbl α) {k j : Nat} (h : j ≠ k) :
    tget d (tdrop t k) j = tget d t j := by
  induction t with
  | nil => rfl
  | cons e t ih =>
    obtain ⟨k', v⟩ := e
    by_cases h' : k' = k
    · have : ¬ k' = j := fun e => h (e.symm.trans h')
      simp [tdrop, tget, h', ih, h.symm]
    · simp only [tdrop, h', if_false, tget, ih]

theorem tget_tput_ne (d : Nat → α) (t : Tbl α) {k j : Nat} (v : α) (h : j ≠ k) :
    tget d (tput t k v) j = tget d t j := by
  induction t with
  | nil => simp [tput, tget, h.symm]
  | cons e t ih =>
    obtain ⟨k', w⟩ := e
    by_cases h' : k < k'
    · simp [tput, tget, h', h.symm]
    · simp only [tput, h', if_false, tget, ih]

theorem tget_tput_drop_same (d : Nat → α) (t : Tbl α) (k : Nat) (v : α) :
    tget d (tput (tdrop t k) k v) k = v := by
  induction t with
  | nil => simp [tdrop, tput, tget]
  | cons e t ih =>
    obtain ⟨k', w⟩ := e
    by_cases h : k' = k
    · simpa [tdrop, h] using ih
    · by_cases h' : k < k'
      · simp [tdrop, tput, tget, h, h']
      · simp only [tdrop, tput, tget, h, h', if_false, ih]

/-- A read of the key just written gives the value written. -/
@[simp] theorem tget_tset_same [DecidableEq α] (d : Nat → α) (t : Tbl α) (k : Nat) (v : α) :
    tget d (tset d t k v) k = v := by
  by_cases h : v = d k
  · simp only [tset, h, if_true, tget_tdrop_same]
  · simp only [tset, h, if_false, tget_tput_drop_same]

/-- A write leaves every other key alone. -/
theorem tget_tset_ne [DecidableEq α] (d : Nat → α) (t : Tbl α) {k j : Nat} (v : α) (h : j ≠ k) :
    tget d (tset d t k v) j = tget d t j := by
  by_cases h' : v = d k
  · simp only [tset, h', if_true, tget_tdrop_ne d t h]
  · simp only [tset, h', if_false, tget_tput_ne d _ v h, tget_tdrop_ne d t h]

theorem tget_tclear (d : Nat → α) (p : Nat → Bool) (t : Tbl α) (k : Nat) :
    tget d (tclear p t) k = if p k then d k else tget d t k := by
  induction t with
  | nil => simp [tclear, tget]
  | cons e t ih =>
    obtain ⟨k', v⟩ := e
    simp only [tclear] at ih
    by_cases hp : p k' = true
    · by_cases h : k' = k
      · subst h; simp [tclear, hp, ih]
      · simp [tclear, tget, hp, h, ih]
    · by_cases h : k' = k
      · subst h; simp [tclear, tget, hp]
      · simp [tclear, tget, hp, h, ih]

theorem tcanonFrom_mono [DecidableEq α] (d : Nat → α) (t : Tbl α) {a b : Nat} (h : a ≤ b) :
    tcanonFrom d b t = true → tcanonFrom d a t = true := by
  cases t with
  | nil => exact fun _ => rfl
  | cons e t =>
    simp only [tcanonFrom, Bool.and_eq_true, decide_eq_true_eq]
    exact fun h' => ⟨⟨Nat.le_trans h h'.1.1, h'.1.2⟩, h'.2⟩

theorem tcanonFrom_tdrop [DecidableEq α] (d : Nat → α) (t : Tbl α) (k lo : Nat) :
    tcanonFrom d lo t = true → tcanonFrom d lo (tdrop t k) = true := by
  induction t generalizing lo with
  | nil => exact id
  | cons e t ih =>
    obtain ⟨k', v⟩ := e
    simp only [tcanonFrom, Bool.and_eq_true, decide_eq_true_eq]
    intro h
    by_cases h' : k' = k
    · simp only [tdrop, h', if_true]
      exact ih lo (tcanonFrom_mono d t (by omega) h.2)
    · simp only [tdrop, h', if_false, tcanonFrom, Bool.and_eq_true, decide_eq_true_eq]
      exact ⟨h.1, ih _ h.2⟩

theorem tcanonFrom_tput_drop [DecidableEq α] (d : Nat → α) (t : Tbl α) (k lo : Nat) (v : α)
    (hk : lo ≤ k) (hv : v ≠ d k) :
    tcanonFrom d lo t = true → tcanonFrom d lo (tput (tdrop t k) k v) = true := by
  induction t generalizing lo with
  | nil => simp [tdrop, tput, tcanonFrom, hk, hv]
  | cons e t ih =>
    obtain ⟨k', w⟩ := e
    simp only [tcanonFrom, Bool.and_eq_true, decide_eq_true_eq]
    intro h
    by_cases h' : k' = k
    · simp only [tdrop, h', if_true]
      exact ih lo hk (tcanonFrom_mono d t (by omega) h.2)
    · by_cases hlt : k < k'
      · simp only [tdrop, h', if_false, tput, hlt, if_true, tcanonFrom, Bool.and_eq_true, decide_eq_true_eq]
        exact ⟨⟨hk, hv⟩, ⟨by omega, h.1.2⟩, tcanonFrom_tdrop d t k _ h.2⟩
      · simp only [tdrop, h', if_false, tput, hlt, tcanonFrom, Bool.and_eq_true, decide_eq_true_eq]
        exact ⟨h.1, ih _ (by omega) h.2⟩

/-- A write keeps the canonical form. -/
theorem tcanon_tset [DecidableEq α] (d : Nat → α) (t : Tbl α) (k : Nat) (v : α) :
    tcanon d t = true → tcanon d (tset d t k v) = true := by
  intro h
  by_cases h' : v = d k
  · simp only [tset, h', if_true]; exact tcanonFrom_tdrop d t k 0 h
  · simp only [tset, h', if_false]; exact tcanonFrom_tput_drop d t k 0 v (Nat.zero_le _) h' h

theorem tcanonFrom_tclear [DecidableEq α] (d : Nat → α) (p : Nat → Bool) (t : Tbl α) (lo : Nat) :
    tcanonFrom d lo t = true → tcanonFrom d lo (tclear p t) = true := by
  induction t generalizing lo with
  | nil => exact id
  | cons e t ih =>
    obtain ⟨k, v⟩ := e
    simp only [tcanonFrom, Bool.and_eq_true, decide_eq_true_eq]
    intro h
    by_cases hp : p k = true
    · simp only [tclear, List.filter, hp, Bool.not_true]
      exact ih lo (tcanonFrom_mono d t (by omega) h.2)
    · simp only [tclear, List.filter, hp, Bool.not_false, tcanonFrom, Bool.and_eq_true, decide_eq_true_eq]
      exact ⟨h.1, ih _ h.2⟩

/-- Clearing a range of keys keeps the canonical form. -/
theorem tcanon_tclear [DecidableEq α] (d : Nat → α) (p : Nat → Bool) (t : Tbl α) :
    tcanon d t = true → tcanon d (tclear p t) = true := tcanonFrom_tclear d p t 0

end Sys2Proof.Machine
end

