-- ==== Sys2Proof/Laws/Ops.lean ====
section
/-! SUPPORT. What the operations over registers, memory, time and engines do: a read after a write, what a write leaves
alone, and that every memory operation keeps the canonical form. -/

namespace Sys2Proof.Machine

open Reg

/-! ## Registers -/

/-- The register just written reads as written. -/
@[simp] theorem reg_setReg_same (s : State) (p off : Nat) (w : Word) : (s.setReg p off w).reg p off = w := by
  simp [State.reg, State.setReg]

/-- A register at another key is as before. -/
theorem reg_setReg_ne (s : State) {p off p' off' : Nat} (w : Word) (h : regKey p' off' ≠ regKey p off) :
    (s.setReg p off w).reg p' off' = s.reg p' off' := by
  simp only [State.reg, State.setReg]; exact tget_tset_ne _ _ _ h

/-- A register of another page is as before. -/
theorem reg_setReg_page (s : State) {p off p' off' : Nat} (w : Word) (h : p' ≠ p) (ho : off < 4096) (ho' : off' < 4096) :
    (s.setReg p off w).reg p' off' = s.reg p' off' :=
  reg_setReg_ne s w (by simp only [regKey]; omega)

/-- A register word after a write, for any two keys. -/
theorem reg_setReg (s : State) (p off p' off' : Nat) (w : Word) :
    (s.setReg p off w).reg p' off' = if regKey p' off' = regKey p off then w else s.reg p' off' := by
  by_cases h : regKey p' off' = regKey p off
  · simp [State.reg, State.setReg, h]
  · rw [if_neg h]; exact reg_setReg_ne s w h

/-- A field just written reads as the value cut to its width. -/
theorem Fld.get_ins (f : Fld) (w : Word) (v : Nat) (h : f.lo + f.wid ≤ 32) : f.get (f.ins w v) = v % 2 ^ f.wid := by
  obtain ⟨off, lo, wid⟩ := f
  simp only at h
  have hv : v % 2 ^ wid < 2 ^ wid := Nat.mod_lt _ (Nat.two_pow_pos _)
  have h1 : v % 2 ^ wid * 2 ^ lo < 2 ^ 32 := by
    calc v % 2 ^ wid * 2 ^ lo < 2 ^ wid * 2 ^ lo := Nat.mul_lt_mul_of_pos_right hv (Nat.two_pow_pos _)
      _ = 2 ^ (wid + lo) := (Nat.pow_add ..).symm
      _ ≤ 2 ^ 32 := Nat.pow_le_pow_right (by decide) (by omega)
  have hm : (2 ^ wid - 1) * 2 ^ lo < 2 ^ 32 := by
    calc (2 ^ wid - 1) * 2 ^ lo < 2 ^ wid * 2 ^ lo :=
          Nat.mul_lt_mul_of_pos_right (Nat.sub_lt (Nat.two_pow_pos _) (by decide)) (Nat.two_pow_pos _)
      _ = 2 ^ (wid + lo) := (Nat.pow_add ..).symm
      _ ≤ 2 ^ 32 := Nat.pow_le_pow_right (by decide) (by omega)
  simp only [Fld.get, Fld.ins, Fld.mask]
  apply Nat.eq_of_testBit_eq
  intro i
  rw [BitVec.testBit_toNat, BitVec.getLsbD_extractLsb']
  by_cases hi : i < wid
  · have e1 : ((2 ^ wid - 1) * 2 ^ lo).testBit (lo + i) = true := by
      rw [Nat.mul_comm, Nat.testBit_two_pow_mul, Nat.testBit_two_pow_sub_one]; simp [hi]
    have e2 : (v % 2 ^ wid * 2 ^ lo).testBit (lo + i) = (v % 2 ^ wid).testBit i := by
      rw [Nat.mul_comm, Nat.testBit_two_pow_mul]; simp
    have e3 : lo + i < 32 := by omega
    rw [Nat.testBit_mod_two_pow] at e2
    simp [hi, word, BitVec.getLsbD_ofNat, e1, e2, decide_eq_true e3]
  · have : (v % 2 ^ wid).testBit i = false := by
      rw [Nat.testBit_mod_two_pow]; simp [hi]
    simp [hi, this]

/-- A field apart from the one written is as before. -/
theorem Fld.get_ins_apart (f g : Fld) (w : Word) (v : Nat) (h : f.lo + f.wid ≤ 32) (hg : g.lo + g.wid ≤ 32)
    (ha : g.lo + g.wid ≤ f.lo ∨ f.lo + f.wid ≤ g.lo) : g.get (f.ins w v) = g.get w := by
  obtain ⟨off, lo, wid⟩ := f
  obtain ⟨off', lo', wid'⟩ := g
  simp only at h hg ha
  simp only [Fld.get, Fld.ins, Fld.mask]
  apply Nat.eq_of_testBit_eq
  intro i
  rw [BitVec.testBit_toNat, BitVec.getLsbD_extractLsb', BitVec.testBit_toNat, BitVec.getLsbD_extractLsb']
  by_cases hi : i < wid'
  · have e3 : lo' + i < 32 := by omega
    have hv : v % 2 ^ wid < 2 ^ wid := Nat.mod_lt _ (Nat.two_pow_pos _)
    have e1 : ((2 ^ wid - 1) * 2 ^ lo).testBit (lo' + i) = false := by
      rw [Nat.mul_comm, Nat.testBit_two_pow_mul, Nat.testBit_two_pow_sub_one]
      simp; omega
    have e2 : (v % 2 ^ wid * 2 ^ lo).testBit (lo' + i) = false := by
      rw [Nat.mul_comm, Nat.testBit_two_pow_mul, Nat.testBit_mod_two_pow]
      simp; omega
    simp [hi, word, BitVec.getLsbD_ofNat, e1, e2, decide_eq_true e3]
  · simp [hi]

/-- The field that the hardware has just written. -/
theorem g_put_same (s : State) (p : Nat) (f : Fld) (v : Nat) (h : f.lo + f.wid ≤ 32) :
    (s.put p f v).g p f = v % 2 ^ f.wid := by
  simp only [State.g, State.put, reg_setReg_same]; exact Fld.get_ins f _ v h

/-- A field of another register. -/
theorem g_put_ne (s : State) {p p' : Nat} {f f' : Fld} (v : Nat) (h : regKey p' f'.off ≠ regKey p f.off) :
    (s.put p f v).g p' f' = s.g p' f' := by
  simp only [State.g, State.put]; rw [reg_setReg_ne s _ h]

/-- Another field of the same register. -/
theorem g_put_apart (s : State) {p : Nat} {f f' : Fld} (v : Nat) (ho : f'.off = f.off) (h : f.lo + f.wid ≤ 32)
    (h' : f'.lo + f'.wid ≤ 32) (ha : f'.lo + f'.wid ≤ f.lo ∨ f.lo + f.wid ≤ f'.lo) :
    (s.put p f v).g p f' = s.g p f' := by
  simp only [State.g, State.put, ho, reg_setReg_same]; exact Fld.get_ins_apart f f' _ v h h' ha

/-- A register other than the one whose field is written. -/
theorem reg_put_ne (s : State) {p p' off' : Nat} {f : Fld} (v : Nat) (h : regKey p' off' ≠ regKey p f.off) :
    (s.put p f v).reg p' off' = s.reg p' off' := reg_setReg_ne s _ h

/-! ## Memory -/

theorem rb_wb_same (s : State) (a : Nat) (b : Byte) : (s.wb a b).rb a = b := by simp [State.rb, State.wb]

theorem rb_wb_ne (s : State) {a a' : Nat} (b : Byte) (h : a' ≠ a) : (s.wb a b).rb a' = s.rb a' := by
  simp only [State.rb, State.wb]; exact tget_tset_ne _ _ _ h

/-- A stored word changes its four bytes and no other. -/
theorem rb_ww_outside (s : State) (a a' : Nat) (w : Word) (h : a' < a ∨ a + 4 ≤ a') : (s.ww a w).rb a' = s.rb a' := by
  simp only [State.ww]
  rw [rb_wb_ne _ _ (by omega), rb_wb_ne _ _ (by omega), rb_wb_ne _ _ (by omega), rb_wb_ne _ _ (by omega)]

/-- A word just stored reads back. -/
theorem rw_ww_same (s : State) (a : Nat) (w : Word) : (s.ww a w).rw a = w := by
  simp only [State.rw, State.ww]
  rw [rb_wb_same, rb_wb_ne _ _ (by omega), rb_wb_same, rb_wb_ne _ _ (by omega), rb_wb_ne _ _ (by omega), rb_wb_same,
    rb_wb_ne _ _ (by omega), rb_wb_ne _ _ (by omega), rb_wb_ne _ _ (by omega), rb_wb_same]
  apply BitVec.eq_of_getLsbD_eq
  intro i hi
  simp only [BitVec.getLsbD_append, BitVec.getLsbD_extractLsb']
  by_cases h1 : i < 8
  · simp [h1]
  · by_cases h2 : i - 8 < 8
    · have : 8 + (i - 8) = i := by omega
      simp [h1, h2, this]
    · by_cases h3 : i - 8 - 8 < 8
      · have : 16 + (i - 8 - 8) = i := by omega
        simp [h1, h2, h3, this]
      · have : 24 + (i - 8 - 8 - 8) = i := by omega
        have h4 : i - 8 - 8 - 8 < 8 := by omega
        simp [h1, h2, h3, h4, this]

/-- A word at another place is as before. -/
theorem rw_ww_ne (s : State) {a a' : Nat} (w : Word) (h : a' + 4 ≤ a ∨ a + 4 ≤ a') : (s.ww a w).rw a' = s.rw a' := by
  simp only [State.rw]
  rw [rb_ww_outside _ _ _ _ (by omega), rb_ww_outside _ _ _ _ (by omega), rb_ww_outside _ _ _ _ (by omega),
    rb_ww_outside _ _ _ _ (by omega)]

theorem wf_wb (s : State) (a : Nat) (b : Byte) (h : Memory.wf s.mem = true) : Memory.wf (s.wb a b).mem = true :=
  tcanon_tset _ _ _ _ h

theorem wf_ww (s : State) (a : Nat) (w : Word) (h : Memory.wf s.mem = true) : Memory.wf (s.ww a w).mem = true :=
  wf_wb _ _ _ (wf_wb _ _ _ (wf_wb _ _ _ (wf_wb _ _ _ h)))

theorem wf_wh (s : State) (a n : Nat) (h : Memory.wf s.mem = true) : Memory.wf (s.wh a n).mem = true :=
  wf_wb _ _ _ (wf_wb _ _ _ h)

theorem wf_wbytes (s : State) (a : Nat) (bs : List Byte) (h : Memory.wf s.mem = true) :
    Memory.wf (s.wbytes a bs).mem = true := by
  induction bs generalizing s a with
  | nil => exact h
  | cons b bs ih => exact ih _ _ (wf_wb _ _ _ h)

theorem wf_clearMem (s : State) (a b : Nat) (h : Memory.wf s.mem = true) : Memory.wf (s.clearMem a b).mem = true :=
  tcanon_tclear memDefault (fun k => a ≤ k && k < b) s.mem h

theorem rb_clearMem (s : State) (a b k : Nat) :
    (s.clearMem a b).rb k = if a ≤ k ∧ k < b then memDefault k else s.rb k := by
  simp only [State.rb, State.clearMem, tget_tclear, Bool.and_eq_true, decide_eq_true_eq]

/-- Right after reset the memory has the canonical form. -/
theorem wf_reset : Memory.wf State.reset.mem = true := rfl

/-! ## Engines -/

@[simp] theorem eng_setEng_same (s : State) (e : EngNo) (x : Eng) : (s.setEng e x).eng e = x := by
  simp [State.eng, State.setEng]

theorem eng_setEng_ne (s : State) {e f : EngNo} (x : Eng) (h : f ≠ e) : (s.setEng e x).eng f = s.eng f := by
  simp only [State.eng, State.setEng]; exact tget_tset_ne _ _ _ (fun hv => h (Fin.ext hv))

@[simp] theorem task_setTask_same (s : State) (t : TaskNo) (x : Task) : (s.setTask t x).task t = x := by
  simp [State.task, State.setTask]

theorem task_setTask_ne (s : State) {t u : TaskNo} (x : Task) (h : u ≠ t) : (s.setTask t x).task u = s.task u := by
  simp only [State.task, State.setTask]; exact tget_tset_ne _ _ _ (fun hv => h (Fin.ext hv))

@[simp] theorem link_setLink_same (s : State) (d : Die) (l : LinkDie) : (s.setLink d l).link d = l := by
  cases d <;> rfl

theorem link_setLink_ne (s : State) {d d' : Die} (l : LinkDie) (h : d' ≠ d) : (s.setLink d l).link d' = s.link d' := by
  cases d <;> cases d' <;> first | rfl | exact absurd rfl h

end Sys2Proof.Machine
end

