-- ==== Sys2Proof/Laws/Fabric.lean ====
section
/-! SUPPORT. What a grant of the fabric and a fetch change: the arbiters, the grant counters that FAB shows, and the caches. -/

namespace Sys2Proof.Machine

open Reg

theorem takeGrant_eq (e : EngNo) (target : Nat) (rs : List (EngNo × Nat)) (level : Nat) (s : State) :
    takeGrant e target rs level s = { s with fabric := (takeGrant e target rs level s).fabric } := by
  simp only [takeGrant]; split <;> rfl

theorem takeClock_eq (target : Nat) (s : State) :
    takeClock target s = { s with fabric := (takeClock target s).fabric } := rfl

/-- Two changes of the fabric alone are one. -/
theorem fabricOnly_trans {s t u : State} (h : t = { s with fabric := t.fabric }) (h' : u = { t with fabric := u.fabric }) :
    u = { s with fabric := u.fabric } := h'.trans (by rw [h])

/-- The arbiters' grants change the fabric only. -/
theorem arbitrate_eq (e : EngNo) (target : Nat) (s : State) :
    arbitrate e target s = { s with fabric := (arbitrate e target s).fabric } := by
  simp only [arbitrate, forAll, List.foldl_cons, List.foldl_nil]
  generalize rivals e target s = rs
  have h := fabricOnly_trans (fabricOnly_trans (takeGrant_eq e target rs 0 s) (takeGrant_eq e target rs 1 _))
    (takeGrant_eq e target rs 2 _)
  refine fabricOnly_trans ?_ (takeClock_eq target _)
  split
  · exact fabricOnly_trans h rfl
  · exact fabricOnly_trans (fabricOnly_trans h rfl) (takeClock_eq _ _)

theorem countGrant_eq (e : EngNo) (target : Nat) (s : State) :
    countGrant e target s = { s with regs := (countGrant e target s).regs, grants := (countGrant e target s).grants } := by
  simp only [countGrant, State.incr, State.put, State.setReg]; split <;> (try split) <;> rfl

/-- A count of a grant changes no page but FAB. -/
theorem countGrant_fab (e : EngNo) (target : Nat) (s : State) : OnlyFab s (countGrant e target s) := by
  intro p off hp ho
  simp only [countGrant]; split
  · split
    · exact reg_setReg_page _ _ hp (by decide) ho
    · rfl
  · rfl

/-- A grant changes the fabric, and the counters of the observed arbiter. -/
theorem grantTarget_eq (e : EngNo) (target : Nat) (s : State) :
    grantTarget e target s = { s with regs := (grantTarget e target s).regs, grants := (grantTarget e target s).grants,
                                      fabric := (grantTarget e target s).fabric } := by
  simp only [grantTarget]; rw [countGrant_eq, arbitrate_eq]

theorem grantTarget_fab (e : EngNo) (target : Nat) (s : State) : OnlyFab s (grantTarget e target s) := by
  intro p off hp ho
  simp only [grantTarget]
  rw [countGrant_fab _ _ _ p off hp ho, arbitrate_eq]; rfl

theorem fillLine_eq (e : EngNo) (s : State) :
    fillLine e s = { s with icache := (fillLine e s).icache, freed := (fillLine e s).freed } := by
  simp only [fillLine, setIcache]; split <;> rfl

/-- A fetch changes the caches, and the fabric that grants its refill. -/
theorem fetched_eq (e : EngNo) (s : State) :
    fetched e s = { s with icache := (fetched e s).icache, freed := (fetched e s).freed, regs := (fetched e s).regs,
                           grants := (fetched e s).grants, fabric := (fetched e s).fabric } := by
  simp only [fetched]; split
  · rfl
  · rw [grantTarget_eq, fillLine_eq]

/-- A fetch of a cached line changes nothing. -/
theorem fetched_cached {e : EngNo} {s : State} (h : lineCached e s = true) : fetched e s = s := by simp [fetched, h]

theorem fetched_fab (e : EngNo) (s : State) : OnlyFab s (fetched e s) := by
  intro p off hp ho
  simp only [fetched]; split
  · rfl
  · rw [grantTarget_fab _ _ _ p off hp ho, fillLine_eq]; rfl

@[simp] theorem fetched_engs (e : EngNo) (s : State) : (fetched e s).engs = s.engs := by rw [fetched_eq]
@[simp] theorem fetched_txns (e : EngNo) (s : State) : (fetched e s).txns = s.txns := by rw [fetched_eq]
@[simp] theorem fetched_fused (e : EngNo) (s : State) : (fetched e s).fused = s.fused := by rw [fetched_eq]
@[simp] theorem fetched_pending (e : EngNo) (s : State) : (fetched e s).pending = s.pending := by rw [fetched_eq]
@[simp] theorem fetched_mem (e : EngNo) (s : State) : (fetched e s).mem = s.mem := by rw [fetched_eq]
@[simp] theorem fetched_eng (e f : EngNo) (s : State) : (fetched e s).eng f = s.eng f := by simp [State.eng]
@[simp] theorem fetched_gr (e f : EngNo) (r : Reg) (s : State) : gr f r (fetched e s) = gr f r s := by simp [gr]

end Sys2Proof.Machine
end

