-- ==== Sys2Proof/Laws/State.lean ====
section
/-! SUPPORT. The fields of the state after each elementary update: every field that the update does not write is as
before. Each lemma holds by definition, so that no later proof unfolds a record update. -/

namespace Sys2Proof.Machine

/-! ## kept -/

@[simp] theorem kept_pending (s t : State) : (kept s t).pending = s.pending := rfl
@[simp] theorem kept_fused (s t : State) : (kept s t).fused = s.fused := rfl
@[simp] theorem kept_mtb (s t : State) : (kept s t).mtb = t.mtb := rfl
@[simp] theorem kept_replica (s t : State) : (kept s t).replica = t.replica := rfl
@[simp] theorem kept_regs (s t : State) : (kept s t).regs = t.regs := rfl
@[simp] theorem kept_mem (s t : State) : (kept s t).mem = t.mem := rfl
@[simp] theorem kept_points (s t : State) : (kept s t).points = t.points := rfl
@[simp] theorem kept_lockAt (s t : State) : (kept s t).lockAt = t.lockAt := rfl
@[simp] theorem kept_damask (s t : State) : (kept s t).damask = t.damask := rfl
@[simp] theorem kept_muslin (s t : State) : (kept s t).muslin = t.muslin := rfl
@[simp] theorem kept_txns (s t : State) : (kept s t).txns = t.txns := rfl
@[simp] theorem kept_ev (s t : State) : (kept s t).ev = t.ev := rfl
@[simp] theorem kept_engs (s t : State) : (kept s t).engs = t.engs := rfl
@[simp] theorem kept_icache (s t : State) : (kept s t).icache = t.icache := rfl
@[simp] theorem kept_mtbHi (s t : State) : (kept s t).mtbHi = t.mtbHi := rfl
@[simp] theorem kept_cmp (s t : State) : (kept s t).cmp = t.cmp := rfl
@[simp] theorem kept_grants (s t : State) : (kept s t).grants = t.grants := rfl
@[simp] theorem kept_fabric (s t : State) : (kept s t).fabric = t.fabric := rfl
@[simp] theorem kept_pins (s t : State) : (kept s t).pins = t.pins := rfl
@[simp] theorem kept_drawn (s t : State) : (kept s t).drawn = t.drawn := rfl
@[simp] theorem kept_freed (s t : State) : (kept s t).freed = t.freed := rfl
@[simp] theorem kept_boot (s t : State) : (kept s t).boot = t.boot := rfl
@[simp] theorem kept_fb0 (s t : State) : (kept s t).fb0 = t.fb0 := rfl
@[simp] theorem kept_fb1 (s t : State) : (kept s t).fb1 = t.fb1 := rfl
@[simp] theorem kept_stations (s t : State) : (kept s t).stations = t.stations := rfl
@[simp] theorem kept_field (s t : State) : (kept s t).field = t.field := rfl
@[simp] theorem kept_hart (s t : State) : (kept s t).hart = t.hart := rfl
@[simp] theorem kept_flash (s t : State) : (kept s t).flash = t.flash := rfl
@[simp] theorem kept_power (s t : State) : (kept s t).power = t.power := rfl
@[simp] theorem kept_meter (s t : State) : (kept s t).meter = t.meter := rfl
@[simp] theorem kept_sched (s t : State) : (kept s t).sched = t.sched := rfl
@[simp] theorem kept_chr (s t : State) : (kept s t).chr = t.chr := rfl
@[simp] theorem kept_evr (s t : State) : (kept s t).evr = t.evr := rfl
@[simp] theorem kept_vault (s t : State) : (kept s t).vault = t.vault := rfl
@[simp] theorem kept_cry (s t : State) : (kept s t).cry = t.cry := rfl
@[simp] theorem kept_comms (s t : State) : (kept s t).comms = t.comms := rfl
@[simp] theorem kept_wdts (s t : State) : (kept s t).wdts = t.wdts := rfl
@[simp] theorem kept_q31 (s t : State) : (kept s t).q31 = t.q31 := rfl
@[simp] theorem kept_inputs (s t : State) : (kept s t).inputs = t.inputs := rfl
@[simp] theorem kept_rep (s t : State) : (kept s t).rep = t.rep := rfl
@[simp] theorem kept_answer (s t : State) : (kept s t).answer = t.answer := rfl
@[simp] theorem kept_reg (s t : State) (p off : Nat) : (kept s t).reg p off = t.reg p off := rfl
@[simp] theorem kept_g (s t : State) (p : Nat) (f : Fld) : (kept s t).g p f = t.g p f := rfl
@[simp] theorem kept_bit (s t : State) (p : Nat) (f : Fld) : (kept s t).bit p f = t.bit p f := rfl
@[simp] theorem kept_rb (s t : State) (a : Nat) : (kept s t).rb a = t.rb a := rfl
@[simp] theorem kept_rw (s t : State) (a : Nat) : (kept s t).rw a = t.rw a := rfl
@[simp] theorem kept_eng (s t : State) (e : EngNo) : (kept s t).eng e = t.eng e := rfl
@[simp] theorem kept_task (s t : State) (n : TaskNo) : (kept s t).task n = t.task n := rfl
@[simp] theorem kept_link (s t : State) (d : Die) : (kept s t).link d = t.link d := by cases d <;> rfl

/-! ## setReg -/

@[simp] theorem setReg_pending (s : State) (p off : Nat) (w : Word) : (s.setReg p off w).pending = s.pending := rfl
@[simp] theorem setReg_fused (s : State) (p off : Nat) (w : Word) : (s.setReg p off w).fused = s.fused := rfl
@[simp] theorem setReg_mtb (s : State) (p off : Nat) (w : Word) : (s.setReg p off w).mtb = s.mtb := rfl
@[simp] theorem setReg_replica (s : State) (p off : Nat) (w : Word) : (s.setReg p off w).replica = s.replica := rfl
@[simp] theorem setReg_mem (s : State) (p off : Nat) (w : Word) : (s.setReg p off w).mem = s.mem := rfl
@[simp] theorem setReg_points (s : State) (p off : Nat) (w : Word) : (s.setReg p off w).points = s.points := rfl
@[simp] theorem setReg_lockAt (s : State) (p off : Nat) (w : Word) : (s.setReg p off w).lockAt = s.lockAt := rfl
@[simp] theorem setReg_damask (s : State) (p off : Nat) (w : Word) : (s.setReg p off w).damask = s.damask := rfl
@[simp] theorem setReg_muslin (s : State) (p off : Nat) (w : Word) : (s.setReg p off w).muslin = s.muslin := rfl
@[simp] theorem setReg_txns (s : State) (p off : Nat) (w : Word) : (s.setReg p off w).txns = s.txns := rfl
@[simp] theorem setReg_ev (s : State) (p off : Nat) (w : Word) : (s.setReg p off w).ev = s.ev := rfl
@[simp] theorem setReg_engs (s : State) (p off : Nat) (w : Word) : (s.setReg p off w).engs = s.engs := rfl
@[simp] theorem setReg_icache (s : State) (p off : Nat) (w : Word) : (s.setReg p off w).icache = s.icache := rfl
@[simp] theorem setReg_mtbHi (s : State) (p off : Nat) (w : Word) : (s.setReg p off w).mtbHi = s.mtbHi := rfl
@[simp] theorem setReg_cmp (s : State) (p off : Nat) (w : Word) : (s.setReg p off w).cmp = s.cmp := rfl
@[simp] theorem setReg_grants (s : State) (p off : Nat) (w : Word) : (s.setReg p off w).grants = s.grants := rfl
@[simp] theorem setReg_fabric (s : State) (p off : Nat) (w : Word) : (s.setReg p off w).fabric = s.fabric := rfl
@[simp] theorem setReg_pins (s : State) (p off : Nat) (w : Word) : (s.setReg p off w).pins = s.pins := rfl
@[simp] theorem setReg_drawn (s : State) (p off : Nat) (w : Word) : (s.setReg p off w).drawn = s.drawn := rfl
@[simp] theorem setReg_freed (s : State) (p off : Nat) (w : Word) : (s.setReg p off w).freed = s.freed := rfl
@[simp] theorem setReg_boot (s : State) (p off : Nat) (w : Word) : (s.setReg p off w).boot = s.boot := rfl
@[simp] theorem setReg_fb0 (s : State) (p off : Nat) (w : Word) : (s.setReg p off w).fb0 = s.fb0 := rfl
@[simp] theorem setReg_fb1 (s : State) (p off : Nat) (w : Word) : (s.setReg p off w).fb1 = s.fb1 := rfl
@[simp] theorem setReg_stations (s : State) (p off : Nat) (w : Word) : (s.setReg p off w).stations = s.stations := rfl
@[simp] theorem setReg_field (s : State) (p off : Nat) (w : Word) : (s.setReg p off w).field = s.field := rfl
@[simp] theorem setReg_hart (s : State) (p off : Nat) (w : Word) : (s.setReg p off w).hart = s.hart := rfl
@[simp] theorem setReg_flash (s : State) (p off : Nat) (w : Word) : (s.setReg p off w).flash = s.flash := rfl
@[simp] theorem setReg_power (s : State) (p off : Nat) (w : Word) : (s.setReg p off w).power = s.power := rfl
@[simp] theorem setReg_meter (s : State) (p off : Nat) (w : Word) : (s.setReg p off w).meter = s.meter := rfl
@[simp] theorem setReg_sched (s : State) (p off : Nat) (w : Word) : (s.setReg p off w).sched = s.sched := rfl
@[simp] theorem setReg_chr (s : State) (p off : Nat) (w : Word) : (s.setReg p off w).chr = s.chr := rfl
@[simp] theorem setReg_evr (s : State) (p off : Nat) (w : Word) : (s.setReg p off w).evr = s.evr := rfl
@[simp] theorem setReg_vault (s : State) (p off : Nat) (w : Word) : (s.setReg p off w).vault = s.vault := rfl
@[simp] theorem setReg_cry (s : State) (p off : Nat) (w : Word) : (s.setReg p off w).cry = s.cry := rfl
@[simp] theorem setReg_comms (s : State) (p off : Nat) (w : Word) : (s.setReg p off w).comms = s.comms := rfl
@[simp] theorem setReg_wdts (s : State) (p off : Nat) (w : Word) : (s.setReg p off w).wdts = s.wdts := rfl
@[simp] theorem setReg_q31 (s : State) (p off : Nat) (w : Word) : (s.setReg p off w).q31 = s.q31 := rfl
@[simp] theorem setReg_inputs (s : State) (p off : Nat) (w : Word) : (s.setReg p off w).inputs = s.inputs := rfl
@[simp] theorem setReg_rep (s : State) (p off : Nat) (w : Word) : (s.setReg p off w).rep = s.rep := rfl
@[simp] theorem setReg_answer (s : State) (p off : Nat) (w : Word) : (s.setReg p off w).answer = s.answer := rfl

/-! ## put -/

@[simp] theorem put_pending (s : State) (p : Nat) (f : Fld) (v : Nat) : (s.put p f v).pending = s.pending := rfl
@[simp] theorem put_fused (s : State) (p : Nat) (f : Fld) (v : Nat) : (s.put p f v).fused = s.fused := rfl
@[simp] theorem put_mtb (s : State) (p : Nat) (f : Fld) (v : Nat) : (s.put p f v).mtb = s.mtb := rfl
@[simp] theorem put_replica (s : State) (p : Nat) (f : Fld) (v : Nat) : (s.put p f v).replica = s.replica := rfl
@[simp] theorem put_mem (s : State) (p : Nat) (f : Fld) (v : Nat) : (s.put p f v).mem = s.mem := rfl
@[simp] theorem put_points (s : State) (p : Nat) (f : Fld) (v : Nat) : (s.put p f v).points = s.points := rfl
@[simp] theorem put_lockAt (s : State) (p : Nat) (f : Fld) (v : Nat) : (s.put p f v).lockAt = s.lockAt := rfl
@[simp] theorem put_damask (s : State) (p : Nat) (f : Fld) (v : Nat) : (s.put p f v).damask = s.damask := rfl
@[simp] theorem put_muslin (s : State) (p : Nat) (f : Fld) (v : Nat) : (s.put p f v).muslin = s.muslin := rfl
@[simp] theorem put_txns (s : State) (p : Nat) (f : Fld) (v : Nat) : (s.put p f v).txns = s.txns := rfl
@[simp] theorem put_ev (s : State) (p : Nat) (f : Fld) (v : Nat) : (s.put p f v).ev = s.ev := rfl
@[simp] theorem put_engs (s : State) (p : Nat) (f : Fld) (v : Nat) : (s.put p f v).engs = s.engs := rfl
@[simp] theorem put_icache (s : State) (p : Nat) (f : Fld) (v : Nat) : (s.put p f v).icache = s.icache := rfl
@[simp] theorem put_mtbHi (s : State) (p : Nat) (f : Fld) (v : Nat) : (s.put p f v).mtbHi = s.mtbHi := rfl
@[simp] theorem put_cmp (s : State) (p : Nat) (f : Fld) (v : Nat) : (s.put p f v).cmp = s.cmp := rfl
@[simp] theorem put_grants (s : State) (p : Nat) (f : Fld) (v : Nat) : (s.put p f v).grants = s.grants := rfl
@[simp] theorem put_fabric (s : State) (p : Nat) (f : Fld) (v : Nat) : (s.put p f v).fabric = s.fabric := rfl
@[simp] theorem put_pins (s : State) (p : Nat) (f : Fld) (v : Nat) : (s.put p f v).pins = s.pins := rfl
@[simp] theorem put_drawn (s : State) (p : Nat) (f : Fld) (v : Nat) : (s.put p f v).drawn = s.drawn := rfl
@[simp] theorem put_freed (s : State) (p : Nat) (f : Fld) (v : Nat) : (s.put p f v).freed = s.freed := rfl
@[simp] theorem put_boot (s : State) (p : Nat) (f : Fld) (v : Nat) : (s.put p f v).boot = s.boot := rfl
@[simp] theorem put_fb0 (s : State) (p : Nat) (f : Fld) (v : Nat) : (s.put p f v).fb0 = s.fb0 := rfl
@[simp] theorem put_fb1 (s : State) (p : Nat) (f : Fld) (v : Nat) : (s.put p f v).fb1 = s.fb1 := rfl
@[simp] theorem put_stations (s : State) (p : Nat) (f : Fld) (v : Nat) : (s.put p f v).stations = s.stations := rfl
@[simp] theorem put_field (s : State) (p : Nat) (f : Fld) (v : Nat) : (s.put p f v).field = s.field := rfl
@[simp] theorem put_hart (s : State) (p : Nat) (f : Fld) (v : Nat) : (s.put p f v).hart = s.hart := rfl
@[simp] theorem put_flash (s : State) (p : Nat) (f : Fld) (v : Nat) : (s.put p f v).flash = s.flash := rfl
@[simp] theorem put_power (s : State) (p : Nat) (f : Fld) (v : Nat) : (s.put p f v).power = s.power := rfl
@[simp] theorem put_meter (s : State) (p : Nat) (f : Fld) (v : Nat) : (s.put p f v).meter = s.meter := rfl
@[simp] theorem put_sched (s : State) (p : Nat) (f : Fld) (v : Nat) : (s.put p f v).sched = s.sched := rfl
@[simp] theorem put_chr (s : State) (p : Nat) (f : Fld) (v : Nat) : (s.put p f v).chr = s.chr := rfl
@[simp] theorem put_evr (s : State) (p : Nat) (f : Fld) (v : Nat) : (s.put p f v).evr = s.evr := rfl
@[simp] theorem put_vault (s : State) (p : Nat) (f : Fld) (v : Nat) : (s.put p f v).vault = s.vault := rfl
@[simp] theorem put_cry (s : State) (p : Nat) (f : Fld) (v : Nat) : (s.put p f v).cry = s.cry := rfl
@[simp] theorem put_comms (s : State) (p : Nat) (f : Fld) (v : Nat) : (s.put p f v).comms = s.comms := rfl
@[simp] theorem put_wdts (s : State) (p : Nat) (f : Fld) (v : Nat) : (s.put p f v).wdts = s.wdts := rfl
@[simp] theorem put_q31 (s : State) (p : Nat) (f : Fld) (v : Nat) : (s.put p f v).q31 = s.q31 := rfl
@[simp] theorem put_inputs (s : State) (p : Nat) (f : Fld) (v : Nat) : (s.put p f v).inputs = s.inputs := rfl
@[simp] theorem put_rep (s : State) (p : Nat) (f : Fld) (v : Nat) : (s.put p f v).rep = s.rep := rfl
@[simp] theorem put_answer (s : State) (p : Nat) (f : Fld) (v : Nat) : (s.put p f v).answer = s.answer := rfl

/-! ## putBit -/

@[simp] theorem putBit_pending (s : State) (p : Nat) (f : Fld) (b : Bool) : (s.putBit p f b).pending = s.pending := rfl
@[simp] theorem putBit_fused (s : State) (p : Nat) (f : Fld) (b : Bool) : (s.putBit p f b).fused = s.fused := rfl
@[simp] theorem putBit_mtb (s : State) (p : Nat) (f : Fld) (b : Bool) : (s.putBit p f b).mtb = s.mtb := rfl
@[simp] theorem putBit_replica (s : State) (p : Nat) (f : Fld) (b : Bool) : (s.putBit p f b).replica = s.replica := rfl
@[simp] theorem putBit_mem (s : State) (p : Nat) (f : Fld) (b : Bool) : (s.putBit p f b).mem = s.mem := rfl
@[simp] theorem putBit_points (s : State) (p : Nat) (f : Fld) (b : Bool) : (s.putBit p f b).points = s.points := rfl
@[simp] theorem putBit_lockAt (s : State) (p : Nat) (f : Fld) (b : Bool) : (s.putBit p f b).lockAt = s.lockAt := rfl
@[simp] theorem putBit_damask (s : State) (p : Nat) (f : Fld) (b : Bool) : (s.putBit p f b).damask = s.damask := rfl
@[simp] theorem putBit_muslin (s : State) (p : Nat) (f : Fld) (b : Bool) : (s.putBit p f b).muslin = s.muslin := rfl
@[simp] theorem putBit_txns (s : State) (p : Nat) (f : Fld) (b : Bool) : (s.putBit p f b).txns = s.txns := rfl
@[simp] theorem putBit_ev (s : State) (p : Nat) (f : Fld) (b : Bool) : (s.putBit p f b).ev = s.ev := rfl
@[simp] theorem putBit_engs (s : State) (p : Nat) (f : Fld) (b : Bool) : (s.putBit p f b).engs = s.engs := rfl
@[simp] theorem putBit_icache (s : State) (p : Nat) (f : Fld) (b : Bool) : (s.putBit p f b).icache = s.icache := rfl
@[simp] theorem putBit_mtbHi (s : State) (p : Nat) (f : Fld) (b : Bool) : (s.putBit p f b).mtbHi = s.mtbHi := rfl
@[simp] theorem putBit_cmp (s : State) (p : Nat) (f : Fld) (b : Bool) : (s.putBit p f b).cmp = s.cmp := rfl
@[simp] theorem putBit_grants (s : State) (p : Nat) (f : Fld) (b : Bool) : (s.putBit p f b).grants = s.grants := rfl
@[simp] theorem putBit_fabric (s : State) (p : Nat) (f : Fld) (b : Bool) : (s.putBit p f b).fabric = s.fabric := rfl
@[simp] theorem putBit_pins (s : State) (p : Nat) (f : Fld) (b : Bool) : (s.putBit p f b).pins = s.pins := rfl
@[simp] theorem putBit_drawn (s : State) (p : Nat) (f : Fld) (b : Bool) : (s.putBit p f b).drawn = s.drawn := rfl
@[simp] theorem putBit_freed (s : State) (p : Nat) (f : Fld) (b : Bool) : (s.putBit p f b).freed = s.freed := rfl
@[simp] theorem putBit_boot (s : State) (p : Nat) (f : Fld) (b : Bool) : (s.putBit p f b).boot = s.boot := rfl
@[simp] theorem putBit_fb0 (s : State) (p : Nat) (f : Fld) (b : Bool) : (s.putBit p f b).fb0 = s.fb0 := rfl
@[simp] theorem putBit_fb1 (s : State) (p : Nat) (f : Fld) (b : Bool) : (s.putBit p f b).fb1 = s.fb1 := rfl
@[simp] theorem putBit_stations (s : State) (p : Nat) (f : Fld) (b : Bool) : (s.putBit p f b).stations = s.stations := rfl
@[simp] theorem putBit_field (s : State) (p : Nat) (f : Fld) (b : Bool) : (s.putBit p f b).field = s.field := rfl
@[simp] theorem putBit_hart (s : State) (p : Nat) (f : Fld) (b : Bool) : (s.putBit p f b).hart = s.hart := rfl
@[simp] theorem putBit_flash (s : State) (p : Nat) (f : Fld) (b : Bool) : (s.putBit p f b).flash = s.flash := rfl
@[simp] theorem putBit_power (s : State) (p : Nat) (f : Fld) (b : Bool) : (s.putBit p f b).power = s.power := rfl
@[simp] theorem putBit_meter (s : State) (p : Nat) (f : Fld) (b : Bool) : (s.putBit p f b).meter = s.meter := rfl
@[simp] theorem putBit_sched (s : State) (p : Nat) (f : Fld) (b : Bool) : (s.putBit p f b).sched = s.sched := rfl
@[simp] theorem putBit_chr (s : State) (p : Nat) (f : Fld) (b : Bool) : (s.putBit p f b).chr = s.chr := rfl
@[simp] theorem putBit_evr (s : State) (p : Nat) (f : Fld) (b : Bool) : (s.putBit p f b).evr = s.evr := rfl
@[simp] theorem putBit_vault (s : State) (p : Nat) (f : Fld) (b : Bool) : (s.putBit p f b).vault = s.vault := rfl
@[simp] theorem putBit_cry (s : State) (p : Nat) (f : Fld) (b : Bool) : (s.putBit p f b).cry = s.cry := rfl
@[simp] theorem putBit_comms (s : State) (p : Nat) (f : Fld) (b : Bool) : (s.putBit p f b).comms = s.comms := rfl
@[simp] theorem putBit_wdts (s : State) (p : Nat) (f : Fld) (b : Bool) : (s.putBit p f b).wdts = s.wdts := rfl
@[simp] theorem putBit_q31 (s : State) (p : Nat) (f : Fld) (b : Bool) : (s.putBit p f b).q31 = s.q31 := rfl
@[simp] theorem putBit_inputs (s : State) (p : Nat) (f : Fld) (b : Bool) : (s.putBit p f b).inputs = s.inputs := rfl
@[simp] theorem putBit_rep (s : State) (p : Nat) (f : Fld) (b : Bool) : (s.putBit p f b).rep = s.rep := rfl
@[simp] theorem putBit_answer (s : State) (p : Nat) (f : Fld) (b : Bool) : (s.putBit p f b).answer = s.answer := rfl

/-! ## bump -/

@[simp] theorem bump_pending (s : State) (p : Nat) (f : Fld) (n : Nat) : (s.bump p f n).pending = s.pending := rfl
@[simp] theorem bump_fused (s : State) (p : Nat) (f : Fld) (n : Nat) : (s.bump p f n).fused = s.fused := rfl
@[simp] theorem bump_mtb (s : State) (p : Nat) (f : Fld) (n : Nat) : (s.bump p f n).mtb = s.mtb := rfl
@[simp] theorem bump_replica (s : State) (p : Nat) (f : Fld) (n : Nat) : (s.bump p f n).replica = s.replica := rfl
@[simp] theorem bump_mem (s : State) (p : Nat) (f : Fld) (n : Nat) : (s.bump p f n).mem = s.mem := rfl
@[simp] theorem bump_points (s : State) (p : Nat) (f : Fld) (n : Nat) : (s.bump p f n).points = s.points := rfl
@[simp] theorem bump_lockAt (s : State) (p : Nat) (f : Fld) (n : Nat) : (s.bump p f n).lockAt = s.lockAt := rfl
@[simp] theorem bump_damask (s : State) (p : Nat) (f : Fld) (n : Nat) : (s.bump p f n).damask = s.damask := rfl
@[simp] theorem bump_muslin (s : State) (p : Nat) (f : Fld) (n : Nat) : (s.bump p f n).muslin = s.muslin := rfl
@[simp] theorem bump_txns (s : State) (p : Nat) (f : Fld) (n : Nat) : (s.bump p f n).txns = s.txns := rfl
@[simp] theorem bump_ev (s : State) (p : Nat) (f : Fld) (n : Nat) : (s.bump p f n).ev = s.ev := rfl
@[simp] theorem bump_engs (s : State) (p : Nat) (f : Fld) (n : Nat) : (s.bump p f n).engs = s.engs := rfl
@[simp] theorem bump_icache (s : State) (p : Nat) (f : Fld) (n : Nat) : (s.bump p f n).icache = s.icache := rfl
@[simp] theorem bump_mtbHi (s : State) (p : Nat) (f : Fld) (n : Nat) : (s.bump p f n).mtbHi = s.mtbHi := rfl
@[simp] theorem bump_cmp (s : State) (p : Nat) (f : Fld) (n : Nat) : (s.bump p f n).cmp = s.cmp := rfl
@[simp] theorem bump_grants (s : State) (p : Nat) (f : Fld) (n : Nat) : (s.bump p f n).grants = s.grants := rfl
@[simp] theorem bump_fabric (s : State) (p : Nat) (f : Fld) (n : Nat) : (s.bump p f n).fabric = s.fabric := rfl
@[simp] theorem bump_pins (s : State) (p : Nat) (f : Fld) (n : Nat) : (s.bump p f n).pins = s.pins := rfl
@[simp] theorem bump_drawn (s : State) (p : Nat) (f : Fld) (n : Nat) : (s.bump p f n).drawn = s.drawn := rfl
@[simp] theorem bump_freed (s : State) (p : Nat) (f : Fld) (n : Nat) : (s.bump p f n).freed = s.freed := rfl
@[simp] theorem bump_boot (s : State) (p : Nat) (f : Fld) (n : Nat) : (s.bump p f n).boot = s.boot := rfl
@[simp] theorem bump_fb0 (s : State) (p : Nat) (f : Fld) (n : Nat) : (s.bump p f n).fb0 = s.fb0 := rfl
@[simp] theorem bump_fb1 (s : State) (p : Nat) (f : Fld) (n : Nat) : (s.bump p f n).fb1 = s.fb1 := rfl
@[simp] theorem bump_stations (s : State) (p : Nat) (f : Fld) (n : Nat) : (s.bump p f n).stations = s.stations := rfl
@[simp] theorem bump_field (s : State) (p : Nat) (f : Fld) (n : Nat) : (s.bump p f n).field = s.field := rfl
@[simp] theorem bump_hart (s : State) (p : Nat) (f : Fld) (n : Nat) : (s.bump p f n).hart = s.hart := rfl
@[simp] theorem bump_flash (s : State) (p : Nat) (f : Fld) (n : Nat) : (s.bump p f n).flash = s.flash := rfl
@[simp] theorem bump_power (s : State) (p : Nat) (f : Fld) (n : Nat) : (s.bump p f n).power = s.power := rfl
@[simp] theorem bump_meter (s : State) (p : Nat) (f : Fld) (n : Nat) : (s.bump p f n).meter = s.meter := rfl
@[simp] theorem bump_sched (s : State) (p : Nat) (f : Fld) (n : Nat) : (s.bump p f n).sched = s.sched := rfl
@[simp] theorem bump_chr (s : State) (p : Nat) (f : Fld) (n : Nat) : (s.bump p f n).chr = s.chr := rfl
@[simp] theorem bump_evr (s : State) (p : Nat) (f : Fld) (n : Nat) : (s.bump p f n).evr = s.evr := rfl
@[simp] theorem bump_vault (s : State) (p : Nat) (f : Fld) (n : Nat) : (s.bump p f n).vault = s.vault := rfl
@[simp] theorem bump_cry (s : State) (p : Nat) (f : Fld) (n : Nat) : (s.bump p f n).cry = s.cry := rfl
@[simp] theorem bump_comms (s : State) (p : Nat) (f : Fld) (n : Nat) : (s.bump p f n).comms = s.comms := rfl
@[simp] theorem bump_wdts (s : State) (p : Nat) (f : Fld) (n : Nat) : (s.bump p f n).wdts = s.wdts := rfl
@[simp] theorem bump_q31 (s : State) (p : Nat) (f : Fld) (n : Nat) : (s.bump p f n).q31 = s.q31 := rfl
@[simp] theorem bump_inputs (s : State) (p : Nat) (f : Fld) (n : Nat) : (s.bump p f n).inputs = s.inputs := rfl
@[simp] theorem bump_rep (s : State) (p : Nat) (f : Fld) (n : Nat) : (s.bump p f n).rep = s.rep := rfl
@[simp] theorem bump_answer (s : State) (p : Nat) (f : Fld) (n : Nat) : (s.bump p f n).answer = s.answer := rfl

/-! ## incr -/

@[simp] theorem incr_pending (s : State) (p : Nat) (f : Fld) : (s.incr p f).pending = s.pending := rfl
@[simp] theorem incr_fused (s : State) (p : Nat) (f : Fld) : (s.incr p f).fused = s.fused := rfl
@[simp] theorem incr_mtb (s : State) (p : Nat) (f : Fld) : (s.incr p f).mtb = s.mtb := rfl
@[simp] theorem incr_replica (s : State) (p : Nat) (f : Fld) : (s.incr p f).replica = s.replica := rfl
@[simp] theorem incr_mem (s : State) (p : Nat) (f : Fld) : (s.incr p f).mem = s.mem := rfl
@[simp] theorem incr_points (s : State) (p : Nat) (f : Fld) : (s.incr p f).points = s.points := rfl
@[simp] theorem incr_lockAt (s : State) (p : Nat) (f : Fld) : (s.incr p f).lockAt = s.lockAt := rfl
@[simp] theorem incr_damask (s : State) (p : Nat) (f : Fld) : (s.incr p f).damask = s.damask := rfl
@[simp] theorem incr_muslin (s : State) (p : Nat) (f : Fld) : (s.incr p f).muslin = s.muslin := rfl
@[simp] theorem incr_txns (s : State) (p : Nat) (f : Fld) : (s.incr p f).txns = s.txns := rfl
@[simp] theorem incr_ev (s : State) (p : Nat) (f : Fld) : (s.incr p f).ev = s.ev := rfl
@[simp] theorem incr_engs (s : State) (p : Nat) (f : Fld) : (s.incr p f).engs = s.engs := rfl
@[simp] theorem incr_icache (s : State) (p : Nat) (f : Fld) : (s.incr p f).icache = s.icache := rfl
@[simp] theorem incr_mtbHi (s : State) (p : Nat) (f : Fld) : (s.incr p f).mtbHi = s.mtbHi := rfl
@[simp] theorem incr_cmp (s : State) (p : Nat) (f : Fld) : (s.incr p f).cmp = s.cmp := rfl
@[simp] theorem incr_grants (s : State) (p : Nat) (f : Fld) : (s.incr p f).grants = s.grants := rfl
@[simp] theorem incr_fabric (s : State) (p : Nat) (f : Fld) : (s.incr p f).fabric = s.fabric := rfl
@[simp] theorem incr_pins (s : State) (p : Nat) (f : Fld) : (s.incr p f).pins = s.pins := rfl
@[simp] theorem incr_drawn (s : State) (p : Nat) (f : Fld) : (s.incr p f).drawn = s.drawn := rfl
@[simp] theorem incr_freed (s : State) (p : Nat) (f : Fld) : (s.incr p f).freed = s.freed := rfl
@[simp] theorem incr_boot (s : State) (p : Nat) (f : Fld) : (s.incr p f).boot = s.boot := rfl
@[simp] theorem incr_fb0 (s : State) (p : Nat) (f : Fld) : (s.incr p f).fb0 = s.fb0 := rfl
@[simp] theorem incr_fb1 (s : State) (p : Nat) (f : Fld) : (s.incr p f).fb1 = s.fb1 := rfl
@[simp] theorem incr_stations (s : State) (p : Nat) (f : Fld) : (s.incr p f).stations = s.stations := rfl
@[simp] theorem incr_field (s : State) (p : Nat) (f : Fld) : (s.incr p f).field = s.field := rfl
@[simp] theorem incr_hart (s : State) (p : Nat) (f : Fld) : (s.incr p f).hart = s.hart := rfl
@[simp] theorem incr_flash (s : State) (p : Nat) (f : Fld) : (s.incr p f).flash = s.flash := rfl
@[simp] theorem incr_power (s : State) (p : Nat) (f : Fld) : (s.incr p f).power = s.power := rfl
@[simp] theorem incr_meter (s : State) (p : Nat) (f : Fld) : (s.incr p f).meter = s.meter := rfl
@[simp] theorem incr_sched (s : State) (p : Nat) (f : Fld) : (s.incr p f).sched = s.sched := rfl
@[simp] theorem incr_chr (s : State) (p : Nat) (f : Fld) : (s.incr p f).chr = s.chr := rfl
@[simp] theorem incr_evr (s : State) (p : Nat) (f : Fld) : (s.incr p f).evr = s.evr := rfl
@[simp] theorem incr_vault (s : State) (p : Nat) (f : Fld) : (s.incr p f).vault = s.vault := rfl
@[simp] theorem incr_cry (s : State) (p : Nat) (f : Fld) : (s.incr p f).cry = s.cry := rfl
@[simp] theorem incr_comms (s : State) (p : Nat) (f : Fld) : (s.incr p f).comms = s.comms := rfl
@[simp] theorem incr_wdts (s : State) (p : Nat) (f : Fld) : (s.incr p f).wdts = s.wdts := rfl
@[simp] theorem incr_q31 (s : State) (p : Nat) (f : Fld) : (s.incr p f).q31 = s.q31 := rfl
@[simp] theorem incr_inputs (s : State) (p : Nat) (f : Fld) : (s.incr p f).inputs = s.inputs := rfl
@[simp] theorem incr_rep (s : State) (p : Nat) (f : Fld) : (s.incr p f).rep = s.rep := rfl
@[simp] theorem incr_answer (s : State) (p : Nat) (f : Fld) : (s.incr p f).answer = s.answer := rfl

/-! ## resetPages -/

@[simp] theorem resetPages_pending (s : State) (a b : Nat) : (s.resetPages a b).pending = s.pending := rfl
@[simp] theorem resetPages_fused (s : State) (a b : Nat) : (s.resetPages a b).fused = s.fused := rfl
@[simp] theorem resetPages_mtb (s : State) (a b : Nat) : (s.resetPages a b).mtb = s.mtb := rfl
@[simp] theorem resetPages_replica (s : State) (a b : Nat) : (s.resetPages a b).replica = s.replica := rfl
@[simp] theorem resetPages_mem (s : State) (a b : Nat) : (s.resetPages a b).mem = s.mem := rfl
@[simp] theorem resetPages_points (s : State) (a b : Nat) : (s.resetPages a b).points = s.points := rfl
@[simp] theorem resetPages_lockAt (s : State) (a b : Nat) : (s.resetPages a b).lockAt = s.lockAt := rfl
@[simp] theorem resetPages_damask (s : State) (a b : Nat) : (s.resetPages a b).damask = s.damask := rfl
@[simp] theorem resetPages_muslin (s : State) (a b : Nat) : (s.resetPages a b).muslin = s.muslin := rfl
@[simp] theorem resetPages_txns (s : State) (a b : Nat) : (s.resetPages a b).txns = s.txns := rfl
@[simp] theorem resetPages_ev (s : State) (a b : Nat) : (s.resetPages a b).ev = s.ev := rfl
@[simp] theorem resetPages_engs (s : State) (a b : Nat) : (s.resetPages a b).engs = s.engs := rfl
@[simp] theorem resetPages_icache (s : State) (a b : Nat) : (s.resetPages a b).icache = s.icache := rfl
@[simp] theorem resetPages_mtbHi (s : State) (a b : Nat) : (s.resetPages a b).mtbHi = s.mtbHi := rfl
@[simp] theorem resetPages_cmp (s : State) (a b : Nat) : (s.resetPages a b).cmp = s.cmp := rfl
@[simp] theorem resetPages_grants (s : State) (a b : Nat) : (s.resetPages a b).grants = s.grants := rfl
@[simp] theorem resetPages_fabric (s : State) (a b : Nat) : (s.resetPages a b).fabric = s.fabric := rfl
@[simp] theorem resetPages_pins (s : State) (a b : Nat) : (s.resetPages a b).pins = s.pins := rfl
@[simp] theorem resetPages_drawn (s : State) (a b : Nat) : (s.resetPages a b).drawn = s.drawn := rfl
@[simp] theorem resetPages_freed (s : State) (a b : Nat) : (s.resetPages a b).freed = s.freed := rfl
@[simp] theorem resetPages_boot (s : State) (a b : Nat) : (s.resetPages a b).boot = s.boot := rfl
@[simp] theorem resetPages_fb0 (s : State) (a b : Nat) : (s.resetPages a b).fb0 = s.fb0 := rfl
@[simp] theorem resetPages_fb1 (s : State) (a b : Nat) : (s.resetPages a b).fb1 = s.fb1 := rfl
@[simp] theorem resetPages_stations (s : State) (a b : Nat) : (s.resetPages a b).stations = s.stations := rfl
@[simp] theorem resetPages_field (s : State) (a b : Nat) : (s.resetPages a b).field = s.field := rfl
@[simp] theorem resetPages_hart (s : State) (a b : Nat) : (s.resetPages a b).hart = s.hart := rfl
@[simp] theorem resetPages_flash (s : State) (a b : Nat) : (s.resetPages a b).flash = s.flash := rfl
@[simp] theorem resetPages_power (s : State) (a b : Nat) : (s.resetPages a b).power = s.power := rfl
@[simp] theorem resetPages_meter (s : State) (a b : Nat) : (s.resetPages a b).meter = s.meter := rfl
@[simp] theorem resetPages_sched (s : State) (a b : Nat) : (s.resetPages a b).sched = s.sched := rfl
@[simp] theorem resetPages_chr (s : State) (a b : Nat) : (s.resetPages a b).chr = s.chr := rfl
@[simp] theorem resetPages_evr (s : State) (a b : Nat) : (s.resetPages a b).evr = s.evr := rfl
@[simp] theorem resetPages_vault (s : State) (a b : Nat) : (s.resetPages a b).vault = s.vault := rfl
@[simp] theorem resetPages_cry (s : State) (a b : Nat) : (s.resetPages a b).cry = s.cry := rfl
@[simp] theorem resetPages_comms (s : State) (a b : Nat) : (s.resetPages a b).comms = s.comms := rfl
@[simp] theorem resetPages_wdts (s : State) (a b : Nat) : (s.resetPages a b).wdts = s.wdts := rfl
@[simp] theorem resetPages_q31 (s : State) (a b : Nat) : (s.resetPages a b).q31 = s.q31 := rfl
@[simp] theorem resetPages_inputs (s : State) (a b : Nat) : (s.resetPages a b).inputs = s.inputs := rfl
@[simp] theorem resetPages_rep (s : State) (a b : Nat) : (s.resetPages a b).rep = s.rep := rfl
@[simp] theorem resetPages_answer (s : State) (a b : Nat) : (s.resetPages a b).answer = s.answer := rfl

/-! ## wb -/

@[simp] theorem wb_pending (s : State) (a : Nat) (b : Byte) : (s.wb a b).pending = s.pending := rfl
@[simp] theorem wb_fused (s : State) (a : Nat) (b : Byte) : (s.wb a b).fused = s.fused := rfl
@[simp] theorem wb_mtb (s : State) (a : Nat) (b : Byte) : (s.wb a b).mtb = s.mtb := rfl
@[simp] theorem wb_replica (s : State) (a : Nat) (b : Byte) : (s.wb a b).replica = s.replica := rfl
@[simp] theorem wb_regs (s : State) (a : Nat) (b : Byte) : (s.wb a b).regs = s.regs := rfl
@[simp] theorem wb_points (s : State) (a : Nat) (b : Byte) : (s.wb a b).points = s.points := rfl
@[simp] theorem wb_lockAt (s : State) (a : Nat) (b : Byte) : (s.wb a b).lockAt = s.lockAt := rfl
@[simp] theorem wb_damask (s : State) (a : Nat) (b : Byte) : (s.wb a b).damask = s.damask := rfl
@[simp] theorem wb_muslin (s : State) (a : Nat) (b : Byte) : (s.wb a b).muslin = s.muslin := rfl
@[simp] theorem wb_txns (s : State) (a : Nat) (b : Byte) : (s.wb a b).txns = s.txns := rfl
@[simp] theorem wb_ev (s : State) (a : Nat) (b : Byte) : (s.wb a b).ev = s.ev := rfl
@[simp] theorem wb_engs (s : State) (a : Nat) (b : Byte) : (s.wb a b).engs = s.engs := rfl
@[simp] theorem wb_icache (s : State) (a : Nat) (b : Byte) : (s.wb a b).icache = s.icache := rfl
@[simp] theorem wb_mtbHi (s : State) (a : Nat) (b : Byte) : (s.wb a b).mtbHi = s.mtbHi := rfl
@[simp] theorem wb_cmp (s : State) (a : Nat) (b : Byte) : (s.wb a b).cmp = s.cmp := rfl
@[simp] theorem wb_grants (s : State) (a : Nat) (b : Byte) : (s.wb a b).grants = s.grants := rfl
@[simp] theorem wb_fabric (s : State) (a : Nat) (b : Byte) : (s.wb a b).fabric = s.fabric := rfl
@[simp] theorem wb_pins (s : State) (a : Nat) (b : Byte) : (s.wb a b).pins = s.pins := rfl
@[simp] theorem wb_drawn (s : State) (a : Nat) (b : Byte) : (s.wb a b).drawn = s.drawn := rfl
@[simp] theorem wb_freed (s : State) (a : Nat) (b : Byte) : (s.wb a b).freed = s.freed := rfl
@[simp] theorem wb_boot (s : State) (a : Nat) (b : Byte) : (s.wb a b).boot = s.boot := rfl
@[simp] theorem wb_fb0 (s : State) (a : Nat) (b : Byte) : (s.wb a b).fb0 = s.fb0 := rfl
@[simp] theorem wb_fb1 (s : State) (a : Nat) (b : Byte) : (s.wb a b).fb1 = s.fb1 := rfl
@[simp] theorem wb_stations (s : State) (a : Nat) (b : Byte) : (s.wb a b).stations = s.stations := rfl
@[simp] theorem wb_field (s : State) (a : Nat) (b : Byte) : (s.wb a b).field = s.field := rfl
@[simp] theorem wb_hart (s : State) (a : Nat) (b : Byte) : (s.wb a b).hart = s.hart := rfl
@[simp] theorem wb_flash (s : State) (a : Nat) (b : Byte) : (s.wb a b).flash = s.flash := rfl
@[simp] theorem wb_power (s : State) (a : Nat) (b : Byte) : (s.wb a b).power = s.power := rfl
@[simp] theorem wb_meter (s : State) (a : Nat) (b : Byte) : (s.wb a b).meter = s.meter := rfl
@[simp] theorem wb_sched (s : State) (a : Nat) (b : Byte) : (s.wb a b).sched = s.sched := rfl
@[simp] theorem wb_chr (s : State) (a : Nat) (b : Byte) : (s.wb a b).chr = s.chr := rfl
@[simp] theorem wb_evr (s : State) (a : Nat) (b : Byte) : (s.wb a b).evr = s.evr := rfl
@[simp] theorem wb_vault (s : State) (a : Nat) (b : Byte) : (s.wb a b).vault = s.vault := rfl
@[simp] theorem wb_cry (s : State) (a : Nat) (b : Byte) : (s.wb a b).cry = s.cry := rfl
@[simp] theorem wb_comms (s : State) (a : Nat) (b : Byte) : (s.wb a b).comms = s.comms := rfl
@[simp] theorem wb_wdts (s : State) (a : Nat) (b : Byte) : (s.wb a b).wdts = s.wdts := rfl
@[simp] theorem wb_q31 (s : State) (a : Nat) (b : Byte) : (s.wb a b).q31 = s.q31 := rfl
@[simp] theorem wb_inputs (s : State) (a : Nat) (b : Byte) : (s.wb a b).inputs = s.inputs := rfl
@[simp] theorem wb_rep (s : State) (a : Nat) (b : Byte) : (s.wb a b).rep = s.rep := rfl
@[simp] theorem wb_answer (s : State) (a : Nat) (b : Byte) : (s.wb a b).answer = s.answer := rfl

/-! ## ww -/

@[simp] theorem ww_pending (s : State) (a : Nat) (w : Word) : (s.ww a w).pending = s.pending := by
  simp only [State.ww, wb_pending]
@[simp] theorem ww_fused (s : State) (a : Nat) (w : Word) : (s.ww a w).fused = s.fused := by
  simp only [State.ww, wb_fused]
@[simp] theorem ww_mtb (s : State) (a : Nat) (w : Word) : (s.ww a w).mtb = s.mtb := by
  simp only [State.ww, wb_mtb]
@[simp] theorem ww_replica (s : State) (a : Nat) (w : Word) : (s.ww a w).replica = s.replica := by
  simp only [State.ww, wb_replica]
@[simp] theorem ww_regs (s : State) (a : Nat) (w : Word) : (s.ww a w).regs = s.regs := by
  simp only [State.ww, wb_regs]
@[simp] theorem ww_points (s : State) (a : Nat) (w : Word) : (s.ww a w).points = s.points := by
  simp only [State.ww, wb_points]
@[simp] theorem ww_lockAt (s : State) (a : Nat) (w : Word) : (s.ww a w).lockAt = s.lockAt := by
  simp only [State.ww, wb_lockAt]
@[simp] theorem ww_damask (s : State) (a : Nat) (w : Word) : (s.ww a w).damask = s.damask := by
  simp only [State.ww, wb_damask]
@[simp] theorem ww_muslin (s : State) (a : Nat) (w : Word) : (s.ww a w).muslin = s.muslin := by
  simp only [State.ww, wb_muslin]
@[simp] theorem ww_txns (s : State) (a : Nat) (w : Word) : (s.ww a w).txns = s.txns := by
  simp only [State.ww, wb_txns]
@[simp] theorem ww_ev (s : State) (a : Nat) (w : Word) : (s.ww a w).ev = s.ev := by
  simp only [State.ww, wb_ev]
@[simp] theorem ww_engs (s : State) (a : Nat) (w : Word) : (s.ww a w).engs = s.engs := by
  simp only [State.ww, wb_engs]
@[simp] theorem ww_icache (s : State) (a : Nat) (w : Word) : (s.ww a w).icache = s.icache := by
  simp only [State.ww, wb_icache]
@[simp] theorem ww_mtbHi (s : State) (a : Nat) (w : Word) : (s.ww a w).mtbHi = s.mtbHi := by
  simp only [State.ww, wb_mtbHi]
@[simp] theorem ww_cmp (s : State) (a : Nat) (w : Word) : (s.ww a w).cmp = s.cmp := by
  simp only [State.ww, wb_cmp]
@[simp] theorem ww_grants (s : State) (a : Nat) (w : Word) : (s.ww a w).grants = s.grants := by
  simp only [State.ww, wb_grants]
@[simp] theorem ww_fabric (s : State) (a : Nat) (w : Word) : (s.ww a w).fabric = s.fabric := by
  simp only [State.ww, wb_fabric]
@[simp] theorem ww_pins (s : State) (a : Nat) (w : Word) : (s.ww a w).pins = s.pins := by
  simp only [State.ww, wb_pins]
@[simp] theorem ww_drawn (s : State) (a : Nat) (w : Word) : (s.ww a w).drawn = s.drawn := by
  simp only [State.ww, wb_drawn]
@[simp] theorem ww_freed (s : State) (a : Nat) (w : Word) : (s.ww a w).freed = s.freed := by
  simp only [State.ww, wb_freed]
@[simp] theorem ww_boot (s : State) (a : Nat) (w : Word) : (s.ww a w).boot = s.boot := by
  simp only [State.ww, wb_boot]
@[simp] theorem ww_fb0 (s : State) (a : Nat) (w : Word) : (s.ww a w).fb0 = s.fb0 := by
  simp only [State.ww, wb_fb0]
@[simp] theorem ww_fb1 (s : State) (a : Nat) (w : Word) : (s.ww a w).fb1 = s.fb1 := by
  simp only [State.ww, wb_fb1]
@[simp] theorem ww_stations (s : State) (a : Nat) (w : Word) : (s.ww a w).stations = s.stations := by
  simp only [State.ww, wb_stations]
@[simp] theorem ww_field (s : State) (a : Nat) (w : Word) : (s.ww a w).field = s.field := by
  simp only [State.ww, wb_field]
@[simp] theorem ww_hart (s : State) (a : Nat) (w : Word) : (s.ww a w).hart = s.hart := by
  simp only [State.ww, wb_hart]
@[simp] theorem ww_flash (s : State) (a : Nat) (w : Word) : (s.ww a w).flash = s.flash := by
  simp only [State.ww, wb_flash]
@[simp] theorem ww_power (s : State) (a : Nat) (w : Word) : (s.ww a w).power = s.power := by
  simp only [State.ww, wb_power]
@[simp] theorem ww_meter (s : State) (a : Nat) (w : Word) : (s.ww a w).meter = s.meter := by
  simp only [State.ww, wb_meter]
@[simp] theorem ww_sched (s : State) (a : Nat) (w : Word) : (s.ww a w).sched = s.sched := by
  simp only [State.ww, wb_sched]
@[simp] theorem ww_chr (s : State) (a : Nat) (w : Word) : (s.ww a w).chr = s.chr := by
  simp only [State.ww, wb_chr]
@[simp] theorem ww_evr (s : State) (a : Nat) (w : Word) : (s.ww a w).evr = s.evr := by
  simp only [State.ww, wb_evr]
@[simp] theorem ww_vault (s : State) (a : Nat) (w : Word) : (s.ww a w).vault = s.vault := by
  simp only [State.ww, wb_vault]
@[simp] theorem ww_cry (s : State) (a : Nat) (w : Word) : (s.ww a w).cry = s.cry := by
  simp only [State.ww, wb_cry]
@[simp] theorem ww_comms (s : State) (a : Nat) (w : Word) : (s.ww a w).comms = s.comms := by
  simp only [State.ww, wb_comms]
@[simp] theorem ww_wdts (s : State) (a : Nat) (w : Word) : (s.ww a w).wdts = s.wdts := by
  simp only [State.ww, wb_wdts]
@[simp] theorem ww_q31 (s : State) (a : Nat) (w : Word) : (s.ww a w).q31 = s.q31 := by
  simp only [State.ww, wb_q31]
@[simp] theorem ww_inputs (s : State) (a : Nat) (w : Word) : (s.ww a w).inputs = s.inputs := by
  simp only [State.ww, wb_inputs]
@[simp] theorem ww_rep (s : State) (a : Nat) (w : Word) : (s.ww a w).rep = s.rep := by
  simp only [State.ww, wb_rep]
@[simp] theorem ww_answer (s : State) (a : Nat) (w : Word) : (s.ww a w).answer = s.answer := by
  simp only [State.ww, wb_answer]

/-! ## wh -/

@[simp] theorem wh_pending (s : State) (a n : Nat) : (s.wh a n).pending = s.pending := by
  simp only [State.wh, wb_pending]
@[simp] theorem wh_fused (s : State) (a n : Nat) : (s.wh a n).fused = s.fused := by
  simp only [State.wh, wb_fused]
@[simp] theorem wh_mtb (s : State) (a n : Nat) : (s.wh a n).mtb = s.mtb := by
  simp only [State.wh, wb_mtb]
@[simp] theorem wh_replica (s : State) (a n : Nat) : (s.wh a n).replica = s.replica := by
  simp only [State.wh, wb_replica]
@[simp] theorem wh_regs (s : State) (a n : Nat) : (s.wh a n).regs = s.regs := by
  simp only [State.wh, wb_regs]
@[simp] theorem wh_points (s : State) (a n : Nat) : (s.wh a n).points = s.points := by
  simp only [State.wh, wb_points]
@[simp] theorem wh_lockAt (s : State) (a n : Nat) : (s.wh a n).lockAt = s.lockAt := by
  simp only [State.wh, wb_lockAt]
@[simp] theorem wh_damask (s : State) (a n : Nat) : (s.wh a n).damask = s.damask := by
  simp only [State.wh, wb_damask]
@[simp] theorem wh_muslin (s : State) (a n : Nat) : (s.wh a n).muslin = s.muslin := by
  simp only [State.wh, wb_muslin]
@[simp] theorem wh_txns (s : State) (a n : Nat) : (s.wh a n).txns = s.txns := by
  simp only [State.wh, wb_txns]
@[simp] theorem wh_ev (s : State) (a n : Nat) : (s.wh a n).ev = s.ev := by
  simp only [State.wh, wb_ev]
@[simp] theorem wh_engs (s : State) (a n : Nat) : (s.wh a n).engs = s.engs := by
  simp only [State.wh, wb_engs]
@[simp] theorem wh_icache (s : State) (a n : Nat) : (s.wh a n).icache = s.icache := by
  simp only [State.wh, wb_icache]
@[simp] theorem wh_mtbHi (s : State) (a n : Nat) : (s.wh a n).mtbHi = s.mtbHi := by
  simp only [State.wh, wb_mtbHi]
@[simp] theorem wh_cmp (s : State) (a n : Nat) : (s.wh a n).cmp = s.cmp := by
  simp only [State.wh, wb_cmp]
@[simp] theorem wh_grants (s : State) (a n : Nat) : (s.wh a n).grants = s.grants := by
  simp only [State.wh, wb_grants]
@[simp] theorem wh_fabric (s : State) (a n : Nat) : (s.wh a n).fabric = s.fabric := by
  simp only [State.wh, wb_fabric]
@[simp] theorem wh_pins (s : State) (a n : Nat) : (s.wh a n).pins = s.pins := by
  simp only [State.wh, wb_pins]
@[simp] theorem wh_drawn (s : State) (a n : Nat) : (s.wh a n).drawn = s.drawn := by
  simp only [State.wh, wb_drawn]
@[simp] theorem wh_freed (s : State) (a n : Nat) : (s.wh a n).freed = s.freed := by
  simp only [State.wh, wb_freed]
@[simp] theorem wh_boot (s : State) (a n : Nat) : (s.wh a n).boot = s.boot := by
  simp only [State.wh, wb_boot]
@[simp] theorem wh_fb0 (s : State) (a n : Nat) : (s.wh a n).fb0 = s.fb0 := by
  simp only [State.wh, wb_fb0]
@[simp] theorem wh_fb1 (s : State) (a n : Nat) : (s.wh a n).fb1 = s.fb1 := by
  simp only [State.wh, wb_fb1]
@[simp] theorem wh_stations (s : State) (a n : Nat) : (s.wh a n).stations = s.stations := by
  simp only [State.wh, wb_stations]
@[simp] theorem wh_field (s : State) (a n : Nat) : (s.wh a n).field = s.field := by
  simp only [State.wh, wb_field]
@[simp] theorem wh_hart (s : State) (a n : Nat) : (s.wh a n).hart = s.hart := by
  simp only [State.wh, wb_hart]
@[simp] theorem wh_flash (s : State) (a n : Nat) : (s.wh a n).flash = s.flash := by
  simp only [State.wh, wb_flash]
@[simp] theorem wh_power (s : State) (a n : Nat) : (s.wh a n).power = s.power := by
  simp only [State.wh, wb_power]
@[simp] theorem wh_meter (s : State) (a n : Nat) : (s.wh a n).meter = s.meter := by
  simp only [State.wh, wb_meter]
@[simp] theorem wh_sched (s : State) (a n : Nat) : (s.wh a n).sched = s.sched := by
  simp only [State.wh, wb_sched]
@[simp] theorem wh_chr (s : State) (a n : Nat) : (s.wh a n).chr = s.chr := by
  simp only [State.wh, wb_chr]
@[simp] theorem wh_evr (s : State) (a n : Nat) : (s.wh a n).evr = s.evr := by
  simp only [State.wh, wb_evr]
@[simp] theorem wh_vault (s : State) (a n : Nat) : (s.wh a n).vault = s.vault := by
  simp only [State.wh, wb_vault]
@[simp] theorem wh_cry (s : State) (a n : Nat) : (s.wh a n).cry = s.cry := by
  simp only [State.wh, wb_cry]
@[simp] theorem wh_comms (s : State) (a n : Nat) : (s.wh a n).comms = s.comms := by
  simp only [State.wh, wb_comms]
@[simp] theorem wh_wdts (s : State) (a n : Nat) : (s.wh a n).wdts = s.wdts := by
  simp only [State.wh, wb_wdts]
@[simp] theorem wh_q31 (s : State) (a n : Nat) : (s.wh a n).q31 = s.q31 := by
  simp only [State.wh, wb_q31]
@[simp] theorem wh_inputs (s : State) (a n : Nat) : (s.wh a n).inputs = s.inputs := by
  simp only [State.wh, wb_inputs]
@[simp] theorem wh_rep (s : State) (a n : Nat) : (s.wh a n).rep = s.rep := by
  simp only [State.wh, wb_rep]
@[simp] theorem wh_answer (s : State) (a n : Nat) : (s.wh a n).answer = s.answer := by
  simp only [State.wh, wb_answer]

/-! ## clearMem -/

@[simp] theorem clearMem_pending (s : State) (a b : Nat) : (s.clearMem a b).pending = s.pending := rfl
@[simp] theorem clearMem_fused (s : State) (a b : Nat) : (s.clearMem a b).fused = s.fused := rfl
@[simp] theorem clearMem_mtb (s : State) (a b : Nat) : (s.clearMem a b).mtb = s.mtb := rfl
@[simp] theorem clearMem_replica (s : State) (a b : Nat) : (s.clearMem a b).replica = s.replica := rfl
@[simp] theorem clearMem_regs (s : State) (a b : Nat) : (s.clearMem a b).regs = s.regs := rfl
@[simp] theorem clearMem_points (s : State) (a b : Nat) : (s.clearMem a b).points = s.points := rfl
@[simp] theorem clearMem_lockAt (s : State) (a b : Nat) : (s.clearMem a b).lockAt = s.lockAt := rfl
@[simp] theorem clearMem_damask (s : State) (a b : Nat) : (s.clearMem a b).damask = s.damask := rfl
@[simp] theorem clearMem_muslin (s : State) (a b : Nat) : (s.clearMem a b).muslin = s.muslin := rfl
@[simp] theorem clearMem_txns (s : State) (a b : Nat) : (s.clearMem a b).txns = s.txns := rfl
@[simp] theorem clearMem_ev (s : State) (a b : Nat) : (s.clearMem a b).ev = s.ev := rfl
@[simp] theorem clearMem_engs (s : State) (a b : Nat) : (s.clearMem a b).engs = s.engs := rfl
@[simp] theorem clearMem_icache (s : State) (a b : Nat) : (s.clearMem a b).icache = s.icache := rfl
@[simp] theorem clearMem_mtbHi (s : State) (a b : Nat) : (s.clearMem a b).mtbHi = s.mtbHi := rfl
@[simp] theorem clearMem_cmp (s : State) (a b : Nat) : (s.clearMem a b).cmp = s.cmp := rfl
@[simp] theorem clearMem_grants (s : State) (a b : Nat) : (s.clearMem a b).grants = s.grants := rfl
@[simp] theorem clearMem_fabric (s : State) (a b : Nat) : (s.clearMem a b).fabric = s.fabric := rfl
@[simp] theorem clearMem_pins (s : State) (a b : Nat) : (s.clearMem a b).pins = s.pins := rfl
@[simp] theorem clearMem_drawn (s : State) (a b : Nat) : (s.clearMem a b).drawn = s.drawn := rfl
@[simp] theorem clearMem_freed (s : State) (a b : Nat) : (s.clearMem a b).freed = s.freed := rfl
@[simp] theorem clearMem_boot (s : State) (a b : Nat) : (s.clearMem a b).boot = s.boot := rfl
@[simp] theorem clearMem_fb0 (s : State) (a b : Nat) : (s.clearMem a b).fb0 = s.fb0 := rfl
@[simp] theorem clearMem_fb1 (s : State) (a b : Nat) : (s.clearMem a b).fb1 = s.fb1 := rfl
@[simp] theorem clearMem_stations (s : State) (a b : Nat) : (s.clearMem a b).stations = s.stations := rfl
@[simp] theorem clearMem_field (s : State) (a b : Nat) : (s.clearMem a b).field = s.field := rfl
@[simp] theorem clearMem_hart (s : State) (a b : Nat) : (s.clearMem a b).hart = s.hart := rfl
@[simp] theorem clearMem_flash (s : State) (a b : Nat) : (s.clearMem a b).flash = s.flash := rfl
@[simp] theorem clearMem_power (s : State) (a b : Nat) : (s.clearMem a b).power = s.power := rfl
@[simp] theorem clearMem_meter (s : State) (a b : Nat) : (s.clearMem a b).meter = s.meter := rfl
@[simp] theorem clearMem_sched (s : State) (a b : Nat) : (s.clearMem a b).sched = s.sched := rfl
@[simp] theorem clearMem_chr (s : State) (a b : Nat) : (s.clearMem a b).chr = s.chr := rfl
@[simp] theorem clearMem_evr (s : State) (a b : Nat) : (s.clearMem a b).evr = s.evr := rfl
@[simp] theorem clearMem_vault (s : State) (a b : Nat) : (s.clearMem a b).vault = s.vault := rfl
@[simp] theorem clearMem_cry (s : State) (a b : Nat) : (s.clearMem a b).cry = s.cry := rfl
@[simp] theorem clearMem_comms (s : State) (a b : Nat) : (s.clearMem a b).comms = s.comms := rfl
@[simp] theorem clearMem_wdts (s : State) (a b : Nat) : (s.clearMem a b).wdts = s.wdts := rfl
@[simp] theorem clearMem_q31 (s : State) (a b : Nat) : (s.clearMem a b).q31 = s.q31 := rfl
@[simp] theorem clearMem_inputs (s : State) (a b : Nat) : (s.clearMem a b).inputs = s.inputs := rfl
@[simp] theorem clearMem_rep (s : State) (a b : Nat) : (s.clearMem a b).rep = s.rep := rfl
@[simp] theorem clearMem_answer (s : State) (a b : Nat) : (s.clearMem a b).answer = s.answer := rfl

/-! ## pass -/

@[simp] theorem pass_pending (s : State) (n : Nat) : (s.pass n).pending = s.pending := rfl
@[simp] theorem pass_fused (s : State) (n : Nat) : (s.pass n).fused = s.fused := rfl
@[simp] theorem pass_regs (s : State) (n : Nat) : (s.pass n).regs = s.regs := rfl
@[simp] theorem pass_mem (s : State) (n : Nat) : (s.pass n).mem = s.mem := rfl
@[simp] theorem pass_points (s : State) (n : Nat) : (s.pass n).points = s.points := rfl
@[simp] theorem pass_lockAt (s : State) (n : Nat) : (s.pass n).lockAt = s.lockAt := rfl
@[simp] theorem pass_damask (s : State) (n : Nat) : (s.pass n).damask = s.damask := rfl
@[simp] theorem pass_muslin (s : State) (n : Nat) : (s.pass n).muslin = s.muslin := rfl
@[simp] theorem pass_txns (s : State) (n : Nat) : (s.pass n).txns = s.txns := rfl
@[simp] theorem pass_ev (s : State) (n : Nat) : (s.pass n).ev = s.ev := rfl
@[simp] theorem pass_engs (s : State) (n : Nat) : (s.pass n).engs = s.engs := rfl
@[simp] theorem pass_icache (s : State) (n : Nat) : (s.pass n).icache = s.icache := rfl
@[simp] theorem pass_mtbHi (s : State) (n : Nat) : (s.pass n).mtbHi = s.mtbHi := rfl
@[simp] theorem pass_cmp (s : State) (n : Nat) : (s.pass n).cmp = s.cmp := rfl
@[simp] theorem pass_grants (s : State) (n : Nat) : (s.pass n).grants = s.grants := rfl
@[simp] theorem pass_fabric (s : State) (n : Nat) : (s.pass n).fabric = s.fabric := rfl
@[simp] theorem pass_pins (s : State) (n : Nat) : (s.pass n).pins = s.pins := rfl
@[simp] theorem pass_drawn (s : State) (n : Nat) : (s.pass n).drawn = s.drawn := rfl
@[simp] theorem pass_freed (s : State) (n : Nat) : (s.pass n).freed = s.freed := rfl
@[simp] theorem pass_boot (s : State) (n : Nat) : (s.pass n).boot = s.boot := rfl
@[simp] theorem pass_fb0 (s : State) (n : Nat) : (s.pass n).fb0 = s.fb0 := rfl
@[simp] theorem pass_fb1 (s : State) (n : Nat) : (s.pass n).fb1 = s.fb1 := rfl
@[simp] theorem pass_stations (s : State) (n : Nat) : (s.pass n).stations = s.stations := rfl
@[simp] theorem pass_field (s : State) (n : Nat) : (s.pass n).field = s.field := rfl
@[simp] theorem pass_hart (s : State) (n : Nat) : (s.pass n).hart = s.hart := rfl
@[simp] theorem pass_flash (s : State) (n : Nat) : (s.pass n).flash = s.flash := rfl
@[simp] theorem pass_power (s : State) (n : Nat) : (s.pass n).power = s.power := rfl
@[simp] theorem pass_meter (s : State) (n : Nat) : (s.pass n).meter = s.meter := rfl
@[simp] theorem pass_sched (s : State) (n : Nat) : (s.pass n).sched = s.sched := rfl
@[simp] theorem pass_chr (s : State) (n : Nat) : (s.pass n).chr = s.chr := rfl
@[simp] theorem pass_evr (s : State) (n : Nat) : (s.pass n).evr = s.evr := rfl
@[simp] theorem pass_vault (s : State) (n : Nat) : (s.pass n).vault = s.vault := rfl
@[simp] theorem pass_cry (s : State) (n : Nat) : (s.pass n).cry = s.cry := rfl
@[simp] theorem pass_comms (s : State) (n : Nat) : (s.pass n).comms = s.comms := rfl
@[simp] theorem pass_wdts (s : State) (n : Nat) : (s.pass n).wdts = s.wdts := rfl
@[simp] theorem pass_q31 (s : State) (n : Nat) : (s.pass n).q31 = s.q31 := rfl
@[simp] theorem pass_inputs (s : State) (n : Nat) : (s.pass n).inputs = s.inputs := rfl
@[simp] theorem pass_rep (s : State) (n : Nat) : (s.pass n).rep = s.rep := rfl
@[simp] theorem pass_answer (s : State) (n : Nat) : (s.pass n).answer = s.answer := rfl

/-! ## setEng -/

@[simp] theorem setEng_pending (s : State) (e : EngNo) (x : Eng) : (s.setEng e x).pending = s.pending := rfl
@[simp] theorem setEng_fused (s : State) (e : EngNo) (x : Eng) : (s.setEng e x).fused = s.fused := rfl
@[simp] theorem setEng_mtb (s : State) (e : EngNo) (x : Eng) : (s.setEng e x).mtb = s.mtb := rfl
@[simp] theorem setEng_replica (s : State) (e : EngNo) (x : Eng) : (s.setEng e x).replica = s.replica := rfl
@[simp] theorem setEng_regs (s : State) (e : EngNo) (x : Eng) : (s.setEng e x).regs = s.regs := rfl
@[simp] theorem setEng_mem (s : State) (e : EngNo) (x : Eng) : (s.setEng e x).mem = s.mem := rfl
@[simp] theorem setEng_points (s : State) (e : EngNo) (x : Eng) : (s.setEng e x).points = s.points := rfl
@[simp] theorem setEng_lockAt (s : State) (e : EngNo) (x : Eng) : (s.setEng e x).lockAt = s.lockAt := rfl
@[simp] theorem setEng_damask (s : State) (e : EngNo) (x : Eng) : (s.setEng e x).damask = s.damask := rfl
@[simp] theorem setEng_muslin (s : State) (e : EngNo) (x : Eng) : (s.setEng e x).muslin = s.muslin := rfl
@[simp] theorem setEng_txns (s : State) (e : EngNo) (x : Eng) : (s.setEng e x).txns = s.txns := rfl
@[simp] theorem setEng_ev (s : State) (e : EngNo) (x : Eng) : (s.setEng e x).ev = s.ev := rfl
@[simp] theorem setEng_icache (s : State) (e : EngNo) (x : Eng) : (s.setEng e x).icache = s.icache := rfl
@[simp] theorem setEng_mtbHi (s : State) (e : EngNo) (x : Eng) : (s.setEng e x).mtbHi = s.mtbHi := rfl
@[simp] theorem setEng_cmp (s : State) (e : EngNo) (x : Eng) : (s.setEng e x).cmp = s.cmp := rfl
@[simp] theorem setEng_grants (s : State) (e : EngNo) (x : Eng) : (s.setEng e x).grants = s.grants := rfl
@[simp] theorem setEng_fabric (s : State) (e : EngNo) (x : Eng) : (s.setEng e x).fabric = s.fabric := rfl
@[simp] theorem setEng_pins (s : State) (e : EngNo) (x : Eng) : (s.setEng e x).pins = s.pins := rfl
@[simp] theorem setEng_drawn (s : State) (e : EngNo) (x : Eng) : (s.setEng e x).drawn = s.drawn := rfl
@[simp] theorem setEng_freed (s : State) (e : EngNo) (x : Eng) : (s.setEng e x).freed = s.freed := rfl
@[simp] theorem setEng_boot (s : State) (e : EngNo) (x : Eng) : (s.setEng e x).boot = s.boot := rfl
@[simp] theorem setEng_fb0 (s : State) (e : EngNo) (x : Eng) : (s.setEng e x).fb0 = s.fb0 := rfl
@[simp] theorem setEng_fb1 (s : State) (e : EngNo) (x : Eng) : (s.setEng e x).fb1 = s.fb1 := rfl
@[simp] theorem setEng_stations (s : State) (e : EngNo) (x : Eng) : (s.setEng e x).stations = s.stations := rfl
@[simp] theorem setEng_field (s : State) (e : EngNo) (x : Eng) : (s.setEng e x).field = s.field := rfl
@[simp] theorem setEng_hart (s : State) (e : EngNo) (x : Eng) : (s.setEng e x).hart = s.hart := rfl
@[simp] theorem setEng_flash (s : State) (e : EngNo) (x : Eng) : (s.setEng e x).flash = s.flash := rfl
@[simp] theorem setEng_power (s : State) (e : EngNo) (x : Eng) : (s.setEng e x).power = s.power := rfl
@[simp] theorem setEng_meter (s : State) (e : EngNo) (x : Eng) : (s.setEng e x).meter = s.meter := rfl
@[simp] theorem setEng_sched (s : State) (e : EngNo) (x : Eng) : (s.setEng e x).sched = s.sched := rfl
@[simp] theorem setEng_chr (s : State) (e : EngNo) (x : Eng) : (s.setEng e x).chr = s.chr := rfl
@[simp] theorem setEng_evr (s : State) (e : EngNo) (x : Eng) : (s.setEng e x).evr = s.evr := rfl
@[simp] theorem setEng_vault (s : State) (e : EngNo) (x : Eng) : (s.setEng e x).vault = s.vault := rfl
@[simp] theorem setEng_cry (s : State) (e : EngNo) (x : Eng) : (s.setEng e x).cry = s.cry := rfl
@[simp] theorem setEng_comms (s : State) (e : EngNo) (x : Eng) : (s.setEng e x).comms = s.comms := rfl
@[simp] theorem setEng_wdts (s : State) (e : EngNo) (x : Eng) : (s.setEng e x).wdts = s.wdts := rfl
@[simp] theorem setEng_q31 (s : State) (e : EngNo) (x : Eng) : (s.setEng e x).q31 = s.q31 := rfl
@[simp] theorem setEng_inputs (s : State) (e : EngNo) (x : Eng) : (s.setEng e x).inputs = s.inputs := rfl
@[simp] theorem setEng_rep (s : State) (e : EngNo) (x : Eng) : (s.setEng e x).rep = s.rep := rfl
@[simp] theorem setEng_answer (s : State) (e : EngNo) (x : Eng) : (s.setEng e x).answer = s.answer := rfl

/-! ## setTask -/

@[simp] theorem setTask_pending (s : State) (t : TaskNo) (x : Task) : (s.setTask t x).pending = s.pending := rfl
@[simp] theorem setTask_fused (s : State) (t : TaskNo) (x : Task) : (s.setTask t x).fused = s.fused := rfl
@[simp] theorem setTask_mtb (s : State) (t : TaskNo) (x : Task) : (s.setTask t x).mtb = s.mtb := rfl
@[simp] theorem setTask_replica (s : State) (t : TaskNo) (x : Task) : (s.setTask t x).replica = s.replica := rfl
@[simp] theorem setTask_regs (s : State) (t : TaskNo) (x : Task) : (s.setTask t x).regs = s.regs := rfl
@[simp] theorem setTask_mem (s : State) (t : TaskNo) (x : Task) : (s.setTask t x).mem = s.mem := rfl
@[simp] theorem setTask_points (s : State) (t : TaskNo) (x : Task) : (s.setTask t x).points = s.points := rfl
@[simp] theorem setTask_lockAt (s : State) (t : TaskNo) (x : Task) : (s.setTask t x).lockAt = s.lockAt := rfl
@[simp] theorem setTask_damask (s : State) (t : TaskNo) (x : Task) : (s.setTask t x).damask = s.damask := rfl
@[simp] theorem setTask_muslin (s : State) (t : TaskNo) (x : Task) : (s.setTask t x).muslin = s.muslin := rfl
@[simp] theorem setTask_txns (s : State) (t : TaskNo) (x : Task) : (s.setTask t x).txns = s.txns := rfl
@[simp] theorem setTask_ev (s : State) (t : TaskNo) (x : Task) : (s.setTask t x).ev = s.ev := rfl
@[simp] theorem setTask_engs (s : State) (t : TaskNo) (x : Task) : (s.setTask t x).engs = s.engs := rfl
@[simp] theorem setTask_icache (s : State) (t : TaskNo) (x : Task) : (s.setTask t x).icache = s.icache := rfl
@[simp] theorem setTask_mtbHi (s : State) (t : TaskNo) (x : Task) : (s.setTask t x).mtbHi = s.mtbHi := rfl
@[simp] theorem setTask_cmp (s : State) (t : TaskNo) (x : Task) : (s.setTask t x).cmp = s.cmp := rfl
@[simp] theorem setTask_grants (s : State) (t : TaskNo) (x : Task) : (s.setTask t x).grants = s.grants := rfl
@[simp] theorem setTask_fabric (s : State) (t : TaskNo) (x : Task) : (s.setTask t x).fabric = s.fabric := rfl
@[simp] theorem setTask_pins (s : State) (t : TaskNo) (x : Task) : (s.setTask t x).pins = s.pins := rfl
@[simp] theorem setTask_drawn (s : State) (t : TaskNo) (x : Task) : (s.setTask t x).drawn = s.drawn := rfl
@[simp] theorem setTask_freed (s : State) (t : TaskNo) (x : Task) : (s.setTask t x).freed = s.freed := rfl
@[simp] theorem setTask_boot (s : State) (t : TaskNo) (x : Task) : (s.setTask t x).boot = s.boot := rfl
@[simp] theorem setTask_fb0 (s : State) (t : TaskNo) (x : Task) : (s.setTask t x).fb0 = s.fb0 := rfl
@[simp] theorem setTask_fb1 (s : State) (t : TaskNo) (x : Task) : (s.setTask t x).fb1 = s.fb1 := rfl
@[simp] theorem setTask_stations (s : State) (t : TaskNo) (x : Task) : (s.setTask t x).stations = s.stations := rfl
@[simp] theorem setTask_field (s : State) (t : TaskNo) (x : Task) : (s.setTask t x).field = s.field := rfl
@[simp] theorem setTask_hart (s : State) (t : TaskNo) (x : Task) : (s.setTask t x).hart = s.hart := rfl
@[simp] theorem setTask_flash (s : State) (t : TaskNo) (x : Task) : (s.setTask t x).flash = s.flash := rfl
@[simp] theorem setTask_power (s : State) (t : TaskNo) (x : Task) : (s.setTask t x).power = s.power := rfl
@[simp] theorem setTask_meter (s : State) (t : TaskNo) (x : Task) : (s.setTask t x).meter = s.meter := rfl
@[simp] theorem setTask_chr (s : State) (t : TaskNo) (x : Task) : (s.setTask t x).chr = s.chr := rfl
@[simp] theorem setTask_evr (s : State) (t : TaskNo) (x : Task) : (s.setTask t x).evr = s.evr := rfl
@[simp] theorem setTask_vault (s : State) (t : TaskNo) (x : Task) : (s.setTask t x).vault = s.vault := rfl
@[simp] theorem setTask_cry (s : State) (t : TaskNo) (x : Task) : (s.setTask t x).cry = s.cry := rfl
@[simp] theorem setTask_comms (s : State) (t : TaskNo) (x : Task) : (s.setTask t x).comms = s.comms := rfl
@[simp] theorem setTask_wdts (s : State) (t : TaskNo) (x : Task) : (s.setTask t x).wdts = s.wdts := rfl
@[simp] theorem setTask_q31 (s : State) (t : TaskNo) (x : Task) : (s.setTask t x).q31 = s.q31 := rfl
@[simp] theorem setTask_inputs (s : State) (t : TaskNo) (x : Task) : (s.setTask t x).inputs = s.inputs := rfl
@[simp] theorem setTask_rep (s : State) (t : TaskNo) (x : Task) : (s.setTask t x).rep = s.rep := rfl
@[simp] theorem setTask_answer (s : State) (t : TaskNo) (x : Task) : (s.setTask t x).answer = s.answer := rfl

/-! ## wbytes -/

theorem wbytes_eq (s : State) (a : Nat) (bs : List Byte) : s.wbytes a bs = { s with mem := (s.wbytes a bs).mem } := by
  induction bs generalizing s a with
  | nil => rfl
  | cons b bs ih => exact ih (s.wb a b) (a + 1)

@[simp] theorem wbytes_pending (s : State) (a : Nat) (bs : List Byte) : (s.wbytes a bs).pending = s.pending := by rw [wbytes_eq]
@[simp] theorem wbytes_fused (s : State) (a : Nat) (bs : List Byte) : (s.wbytes a bs).fused = s.fused := by rw [wbytes_eq]
@[simp] theorem wbytes_mtb (s : State) (a : Nat) (bs : List Byte) : (s.wbytes a bs).mtb = s.mtb := by rw [wbytes_eq]
@[simp] theorem wbytes_replica (s : State) (a : Nat) (bs : List Byte) : (s.wbytes a bs).replica = s.replica := by rw [wbytes_eq]
@[simp] theorem wbytes_regs (s : State) (a : Nat) (bs : List Byte) : (s.wbytes a bs).regs = s.regs := by rw [wbytes_eq]
@[simp] theorem wbytes_points (s : State) (a : Nat) (bs : List Byte) : (s.wbytes a bs).points = s.points := by rw [wbytes_eq]
@[simp] theorem wbytes_lockAt (s : State) (a : Nat) (bs : List Byte) : (s.wbytes a bs).lockAt = s.lockAt := by rw [wbytes_eq]
@[simp] theorem wbytes_damask (s : State) (a : Nat) (bs : List Byte) : (s.wbytes a bs).damask = s.damask := by rw [wbytes_eq]
@[simp] theorem wbytes_muslin (s : State) (a : Nat) (bs : List Byte) : (s.wbytes a bs).muslin = s.muslin := by rw [wbytes_eq]
@[simp] theorem wbytes_txns (s : State) (a : Nat) (bs : List Byte) : (s.wbytes a bs).txns = s.txns := by rw [wbytes_eq]
@[simp] theorem wbytes_ev (s : State) (a : Nat) (bs : List Byte) : (s.wbytes a bs).ev = s.ev := by rw [wbytes_eq]
@[simp] theorem wbytes_engs (s : State) (a : Nat) (bs : List Byte) : (s.wbytes a bs).engs = s.engs := by rw [wbytes_eq]
@[simp] theorem wbytes_icache (s : State) (a : Nat) (bs : List Byte) : (s.wbytes a bs).icache = s.icache := by rw [wbytes_eq]
@[simp] theorem wbytes_mtbHi (s : State) (a : Nat) (bs : List Byte) : (s.wbytes a bs).mtbHi = s.mtbHi := by rw [wbytes_eq]
@[simp] theorem wbytes_cmp (s : State) (a : Nat) (bs : List Byte) : (s.wbytes a bs).cmp = s.cmp := by rw [wbytes_eq]
@[simp] theorem wbytes_grants (s : State) (a : Nat) (bs : List Byte) : (s.wbytes a bs).grants = s.grants := by rw [wbytes_eq]
@[simp] theorem wbytes_fabric (s : State) (a : Nat) (bs : List Byte) : (s.wbytes a bs).fabric = s.fabric := by rw [wbytes_eq]
@[simp] theorem wbytes_pins (s : State) (a : Nat) (bs : List Byte) : (s.wbytes a bs).pins = s.pins := by rw [wbytes_eq]
@[simp] theorem wbytes_drawn (s : State) (a : Nat) (bs : List Byte) : (s.wbytes a bs).drawn = s.drawn := by rw [wbytes_eq]
@[simp] theorem wbytes_freed (s : State) (a : Nat) (bs : List Byte) : (s.wbytes a bs).freed = s.freed := by rw [wbytes_eq]
@[simp] theorem wbytes_boot (s : State) (a : Nat) (bs : List Byte) : (s.wbytes a bs).boot = s.boot := by rw [wbytes_eq]
@[simp] theorem wbytes_fb0 (s : State) (a : Nat) (bs : List Byte) : (s.wbytes a bs).fb0 = s.fb0 := by rw [wbytes_eq]
@[simp] theorem wbytes_fb1 (s : State) (a : Nat) (bs : List Byte) : (s.wbytes a bs).fb1 = s.fb1 := by rw [wbytes_eq]
@[simp] theorem wbytes_stations (s : State) (a : Nat) (bs : List Byte) : (s.wbytes a bs).stations = s.stations := by rw [wbytes_eq]
@[simp] theorem wbytes_field (s : State) (a : Nat) (bs : List Byte) : (s.wbytes a bs).field = s.field := by rw [wbytes_eq]
@[simp] theorem wbytes_hart (s : State) (a : Nat) (bs : List Byte) : (s.wbytes a bs).hart = s.hart := by rw [wbytes_eq]
@[simp] theorem wbytes_flash (s : State) (a : Nat) (bs : List Byte) : (s.wbytes a bs).flash = s.flash := by rw [wbytes_eq]
@[simp] theorem wbytes_power (s : State) (a : Nat) (bs : List Byte) : (s.wbytes a bs).power = s.power := by rw [wbytes_eq]
@[simp] theorem wbytes_meter (s : State) (a : Nat) (bs : List Byte) : (s.wbytes a bs).meter = s.meter := by rw [wbytes_eq]
@[simp] theorem wbytes_sched (s : State) (a : Nat) (bs : List Byte) : (s.wbytes a bs).sched = s.sched := by rw [wbytes_eq]
@[simp] theorem wbytes_chr (s : State) (a : Nat) (bs : List Byte) : (s.wbytes a bs).chr = s.chr := by rw [wbytes_eq]
@[simp] theorem wbytes_evr (s : State) (a : Nat) (bs : List Byte) : (s.wbytes a bs).evr = s.evr := by rw [wbytes_eq]
@[simp] theorem wbytes_vault (s : State) (a : Nat) (bs : List Byte) : (s.wbytes a bs).vault = s.vault := by rw [wbytes_eq]
@[simp] theorem wbytes_cry (s : State) (a : Nat) (bs : List Byte) : (s.wbytes a bs).cry = s.cry := by rw [wbytes_eq]
@[simp] theorem wbytes_comms (s : State) (a : Nat) (bs : List Byte) : (s.wbytes a bs).comms = s.comms := by rw [wbytes_eq]
@[simp] theorem wbytes_wdts (s : State) (a : Nat) (bs : List Byte) : (s.wbytes a bs).wdts = s.wdts := by rw [wbytes_eq]
@[simp] theorem wbytes_q31 (s : State) (a : Nat) (bs : List Byte) : (s.wbytes a bs).q31 = s.q31 := by rw [wbytes_eq]
@[simp] theorem wbytes_inputs (s : State) (a : Nat) (bs : List Byte) : (s.wbytes a bs).inputs = s.inputs := by rw [wbytes_eq]
@[simp] theorem wbytes_rep (s : State) (a : Nat) (bs : List Byte) : (s.wbytes a bs).rep = s.rep := by rw [wbytes_eq]
@[simp] theorem wbytes_answer (s : State) (a : Nat) (bs : List Byte) : (s.wbytes a bs).answer = s.answer := by rw [wbytes_eq]

/-! ## setLink -/

@[simp] theorem setLink_pending (s : State) (d : Die) (l : LinkDie) : (s.setLink d l).pending = s.pending := by cases d <;> rfl
@[simp] theorem setLink_fused (s : State) (d : Die) (l : LinkDie) : (s.setLink d l).fused = s.fused := by cases d <;> rfl
@[simp] theorem setLink_mtb (s : State) (d : Die) (l : LinkDie) : (s.setLink d l).mtb = s.mtb := by cases d <;> rfl
@[simp] theorem setLink_replica (s : State) (d : Die) (l : LinkDie) : (s.setLink d l).replica = s.replica := by cases d <;> rfl
@[simp] theorem setLink_regs (s : State) (d : Die) (l : LinkDie) : (s.setLink d l).regs = s.regs := by cases d <;> rfl
@[simp] theorem setLink_mem (s : State) (d : Die) (l : LinkDie) : (s.setLink d l).mem = s.mem := by cases d <;> rfl
@[simp] theorem setLink_points (s : State) (d : Die) (l : LinkDie) : (s.setLink d l).points = s.points := by cases d <;> rfl
@[simp] theorem setLink_lockAt (s : State) (d : Die) (l : LinkDie) : (s.setLink d l).lockAt = s.lockAt := by cases d <;> rfl
@[simp] theorem setLink_txns (s : State) (d : Die) (l : LinkDie) : (s.setLink d l).txns = s.txns := by cases d <;> rfl
@[simp] theorem setLink_ev (s : State) (d : Die) (l : LinkDie) : (s.setLink d l).ev = s.ev := by cases d <;> rfl
@[simp] theorem setLink_engs (s : State) (d : Die) (l : LinkDie) : (s.setLink d l).engs = s.engs := by cases d <;> rfl
@[simp] theorem setLink_icache (s : State) (d : Die) (l : LinkDie) : (s.setLink d l).icache = s.icache := by cases d <;> rfl
@[simp] theorem setLink_mtbHi (s : State) (d : Die) (l : LinkDie) : (s.setLink d l).mtbHi = s.mtbHi := by cases d <;> rfl
@[simp] theorem setLink_cmp (s : State) (d : Die) (l : LinkDie) : (s.setLink d l).cmp = s.cmp := by cases d <;> rfl
@[simp] theorem setLink_grants (s : State) (d : Die) (l : LinkDie) : (s.setLink d l).grants = s.grants := by cases d <;> rfl
@[simp] theorem setLink_fabric (s : State) (d : Die) (l : LinkDie) : (s.setLink d l).fabric = s.fabric := by cases d <;> rfl
@[simp] theorem setLink_pins (s : State) (d : Die) (l : LinkDie) : (s.setLink d l).pins = s.pins := by cases d <;> rfl
@[simp] theorem setLink_drawn (s : State) (d : Die) (l : LinkDie) : (s.setLink d l).drawn = s.drawn := by cases d <;> rfl
@[simp] theorem setLink_freed (s : State) (d : Die) (l : LinkDie) : (s.setLink d l).freed = s.freed := by cases d <;> rfl
@[simp] theorem setLink_boot (s : State) (d : Die) (l : LinkDie) : (s.setLink d l).boot = s.boot := by cases d <;> rfl
@[simp] theorem setLink_fb0 (s : State) (d : Die) (l : LinkDie) : (s.setLink d l).fb0 = s.fb0 := by cases d <;> rfl
@[simp] theorem setLink_fb1 (s : State) (d : Die) (l : LinkDie) : (s.setLink d l).fb1 = s.fb1 := by cases d <;> rfl
@[simp] theorem setLink_stations (s : State) (d : Die) (l : LinkDie) : (s.setLink d l).stations = s.stations := by cases d <;> rfl
@[simp] theorem setLink_field (s : State) (d : Die) (l : LinkDie) : (s.setLink d l).field = s.field := by cases d <;> rfl
@[simp] theorem setLink_hart (s : State) (d : Die) (l : LinkDie) : (s.setLink d l).hart = s.hart := by cases d <;> rfl
@[simp] theorem setLink_flash (s : State) (d : Die) (l : LinkDie) : (s.setLink d l).flash = s.flash := by cases d <;> rfl
@[simp] theorem setLink_power (s : State) (d : Die) (l : LinkDie) : (s.setLink d l).power = s.power := by cases d <;> rfl
@[simp] theorem setLink_meter (s : State) (d : Die) (l : LinkDie) : (s.setLink d l).meter = s.meter := by cases d <;> rfl
@[simp] theorem setLink_sched (s : State) (d : Die) (l : LinkDie) : (s.setLink d l).sched = s.sched := by cases d <;> rfl
@[simp] theorem setLink_chr (s : State) (d : Die) (l : LinkDie) : (s.setLink d l).chr = s.chr := by cases d <;> rfl
@[simp] theorem setLink_evr (s : State) (d : Die) (l : LinkDie) : (s.setLink d l).evr = s.evr := by cases d <;> rfl
@[simp] theorem setLink_vault (s : State) (d : Die) (l : LinkDie) : (s.setLink d l).vault = s.vault := by cases d <;> rfl
@[simp] theorem setLink_cry (s : State) (d : Die) (l : LinkDie) : (s.setLink d l).cry = s.cry := by cases d <;> rfl
@[simp] theorem setLink_comms (s : State) (d : Die) (l : LinkDie) : (s.setLink d l).comms = s.comms := by cases d <;> rfl
@[simp] theorem setLink_wdts (s : State) (d : Die) (l : LinkDie) : (s.setLink d l).wdts = s.wdts := by cases d <;> rfl
@[simp] theorem setLink_q31 (s : State) (d : Die) (l : LinkDie) : (s.setLink d l).q31 = s.q31 := by cases d <;> rfl
@[simp] theorem setLink_inputs (s : State) (d : Die) (l : LinkDie) : (s.setLink d l).inputs = s.inputs := by cases d <;> rfl
@[simp] theorem setLink_rep (s : State) (d : Die) (l : LinkDie) : (s.setLink d l).rep = s.rep := by cases d <;> rfl
@[simp] theorem setLink_answer (s : State) (d : Die) (l : LinkDie) : (s.setLink d l).answer = s.answer := by cases d <;> rfl

end Sys2Proof.Machine
end

