-- ==== Sys2Proof/Laws/Engine.lean ====
section
/-! SUPPORT. What the shared operations of the engine instructions do: the fetch, one execution, the write of a result. -/

namespace Sys2Proof.Machine

open Reg

/-- Every meaning ends with its effect, the assembly and the queue as they were. -/
theorem ok_next {s t u : State} (h : ok s t = .next u) : u = kept s t := by
  simp only [ok, Host.Outcome.next.injEq] at h; exact h.symm

/-- A command whose meaning ends with `ok` completes. -/
theorem completes_ok {c : Instr} {s t : State} {Q : State → Prop} (h : exec c s = ok s t) (hq : Q (kept s t)) :
    Completes c s Q := ⟨kept s t, h, hq⟩

/-- An engine that can execute the instruction, with no failing check, executes it after its fetch. -/
theorem issue_ready {x : Issue} {srcs : List Reg} {s : State} (h : Ready x srcs s) (run : State → State) :
    issue x srcs run s = run (fetched x.eng s) := by
  simp [issue, h.1, h.2]

/-- An engine that is not at its next instruction does nothing. -/
theorem issue_blocked {x : Issue} {srcs : List Reg} {s : State} (h : atIssue x.eng srcs s = false) (run : State → State) :
    issue x srcs run s = s := by simp [issue, canIssue, h]

/-- An engine whose refill waits joins the requests of the fabric. -/
theorem issue_waits {x : Issue} {srcs : List Reg} {s : State} (h : atIssue x.eng srcs s = true)
    (hw : fetchWaits x.eng s = true) (run : State → State) :
    issue x srcs run s = waitForTarget x.eng (targetOf x.eng (s.eng x.eng).pc.toNat) s := by
  simp [issue, canIssue, h, hw]

theorem residued_ready {x : Issue} (h : x.upset = .none) (run : State → State) (s : State) : residued x run s = run s := by
  simp [residued, h]

theorem floatResidued_ready {x : Issue} (h : x.upset = .none) (run : State → State) (s : State) :
    floatResidued x run s = run s := by simp [floatResidued, h]

/-- The loads that a new result cancels: only transactions of the engine change, and none ends. -/
theorem dropLoad_eq (e : EngNo) (r : Reg) (s : State) : dropLoad e r s = { s with txns := (dropLoad e r s).txns } := by
  simp only [dropLoad]; split <;> rfl

theorem dropLoad_length (e : EngNo) (r : Reg) (s : State) : (dropLoad e r s).txns.length = s.txns.length := by
  simp only [dropLoad]; split
  · simp
  · rfl

@[simp] theorem dropLoad_eng (e f : EngNo) (r : Reg) (s : State) : (dropLoad e r s).eng f = s.eng f := by
  rw [dropLoad_eq]; rfl

/-- A general register after a write: g0 keeps reading zero, every other register of the engine keeps its value. -/
theorem gr_setGr (e : EngNo) (rd r : Reg) (v : Word) (s : State) :
    gr e r (setGr e rd v s) = if r = rd ∧ r ≠ 0 then v else gr e r s := by
  by_cases hr : r = 0
  · simp [gr, hr]
  by_cases hd : rd = 0
  · have : r ≠ rd := fun h => hr (h.trans hd)
    simp [setGr, hd, hr]
  simp only [gr, hr, if_false, setGr, hd, eng_setEng_same, dropLoad_eng]
  by_cases h : r = rd
  · subst h; simp [hr]
  · have : rd.val ≠ r.val := fun hv => h (Fin.ext hv.symm)
    simp [h, Vector.getElem_set, this]

/-- Only the general registers of the engine differ. -/
theorem eng_setGr (e : EngNo) (rd : Reg) (v : Word) (s : State) :
    (setGr e rd v s).eng e = { s.eng e with g := ((setGr e rd v s).eng e).g } := by
  simp only [setGr]; split <;> simp

theorem eng_setGr_ne {e f : EngNo} (rd : Reg) (v : Word) (s : State) (h : f ≠ e) : (setGr e rd v s).eng f = s.eng f := by
  simp only [setGr]; split
  · rfl
  · rw [eng_setEng_ne _ _ h, dropLoad_eng]

theorem setGr_eq (e : EngNo) (rd : Reg) (v : Word) (s : State) :
    setGr e rd v s = { s with engs := (setGr e rd v s).engs, txns := (setGr e rd v s).txns } := by
  simp only [setGr]; split
  · rfl
  · simp only [State.setEng]; rw [dropLoad_eq]

theorem setGr_length (e : EngNo) (rd : Reg) (v : Word) (s : State) : (setGr e rd v s).txns.length = s.txns.length := by
  simp only [setGr]; split
  · rfl
  · simp [State.setEng, dropLoad_length]

/-- Where the general registers of two states of an engine agree, so does each register. -/
theorem gr_congr {e : EngNo} {s t : State} (h : (t.eng e).g = (s.eng e).g) (r : Reg) : gr e r t = gr e r s := by
  simp [gr, h]

/-- The engine with another PC: everything else of the state is as before. -/
theorem advance_eq (e : EngNo) (s : State) : advance e s = { s with engs := (advance e s).engs } := rfl
@[simp] theorem advance_eng (e : EngNo) (s : State) :
    (advance e s).eng e = { s.eng e with pc := (s.eng e).pc + 4 } := by simp [advance, setPc]
theorem advance_eng_ne {e f : EngNo} (s : State) (h : f ≠ e) : (advance e s).eng f = s.eng f := by
  simp [advance, setPc, eng_setEng_ne _ _ h]
theorem setFl_eq (e : EngNo) (fl : Word) (s : State) : setFl e fl s = { s with engs := (setFl e fl s).engs } := rfl
@[simp] theorem setFl_eng (e : EngNo) (fl : Word) (s : State) : (setFl e fl s).eng e = { s.eng e with fl := fl } := by
  simp [setFl]
theorem setFl_eng_ne {e f : EngNo} (fl : Word) (s : State) (h : f ≠ e) : (setFl e fl s).eng f = s.eng f := by
  simp [setFl, eng_setEng_ne _ _ h]

/-- Only the engine's part of the state differs, through a fetch and any later change of that part. -/
theorem onlyEngine_intro {e : EngNo} {s t : State}
    (h1 : t = { fetched e s with engs := t.engs, txns := t.txns })
    (h2 : ∀ f, f ≠ e → t.eng f = s.eng f) (h3 : t.txns.length = s.txns.length) : OnlyEngine e s (kept s t) := by
  refine ⟨?_, h2, h3, fun p off hp ho => ?_, fun h => ?_⟩
  · show kept s t = { s with engs := t.engs, icache := t.icache, freed := t.freed, txns := t.txns, regs := t.regs,
                             grants := t.grants, fabric := t.fabric }
    rw [h1, fetched_eq]; rfl
  · show t.reg p off = s.reg p off
    rw [h1]; exact fetched_fab e s p off hp ho
  · show kept s t = { s with engs := t.engs, txns := t.txns }
    rw [h1, fetched_cached h]; rfl

/-- The end of an instruction with a result and new flags: everything that it does. -/
theorem sets_flags (e : EngNo) (rd : Reg) (v fl : Word) (s : State) :
    Sets e rd v fl s (kept s (result e rd v (setFl e fl (fetched e s)))) := by
  refine ⟨fun r => ?_, ?_, onlyEngine_intro ?_ (fun f hf => ?_) ?_⟩
  · show gr e r (advance e (setGr e rd v (setFl e fl (fetched e s)))) = _
    rw [gr_congr (s := setGr e rd v (setFl e fl (fetched e s))) (by simp), gr_setGr, gr_congr (s := s) (by simp)]
  · simp only [kept_eng, result, advance_eng]
    rw [eng_setGr]; simp
  · simp only [result]
    rw [advance_eq, setGr_eq, setFl_eq]
  · simp only [result]
    rw [advance_eng_ne _ hf, eng_setGr_ne _ _ _ hf, setFl_eng_ne _ _ hf, fetched_eng]
  · show (setGr e rd v (setFl e fl (fetched e s))).txns.length = _
    rw [setGr_length]; show (fetched e s).txns.length = _; simp

/-- The end of an instruction with a result. -/
theorem sets_result (e : EngNo) (rd : Reg) (v : Word) (s : State) :
    Sets e rd v (s.eng e).fl s (kept s (result e rd v (fetched e s))) := by
  refine ⟨fun r => ?_, ?_, onlyEngine_intro ?_ (fun f hf => ?_) ?_⟩
  · show gr e r (advance e (setGr e rd v (fetched e s))) = _
    rw [gr_congr (s := setGr e rd v (fetched e s)) (by simp), gr_setGr, fetched_gr]
  · simp only [kept_eng, result, advance_eng]
    rw [eng_setGr]; simp
  · simp only [result]
    rw [advance_eq, setGr_eq]
  · simp only [result]
    rw [advance_eng_ne _ hf, eng_setGr_ne _ _ _ hf, fetched_eng]
  · show (setGr e rd v (fetched e s)).txns.length = _
    rw [setGr_length, fetched_txns]

end Sys2Proof.Machine
end

