-- ==== Sys2Proof/Tests/Slice0.lean ====
section
/-! SUPPORT. Tests on small states: a term that each well-formedness check refuses, words of engine instructions, and for
every clause of every statement a state and operands that meet its hypotheses, with what the command then does. -/

namespace Sys2Proof.Tests

set_option Elab.async false

open Sys2Proof Sys2Proof.Machine Sys2Proof.Machine.Reg

/-! ## Small states -/

/-- The state after one command. -/
def after (c : Instr) (s : State) : State :=
  match exec c s with
  | .next t => t
  | _ => s

/-- Firmware on engine 0, and a job of domain 3 on engine 5. -/
def fw : Requester := ⟨0, true, 0⟩
/-- Firmware of the West half. -/
def west : Requester := ⟨32, true, 0⟩
def job3 : Requester := ⟨5, false, 3⟩

/-- The lock of page `p` is open for firmware. -/
def openLock (p : Nat) (s : State) : State := (s.put p LOCK_OPEN 1).put p LOCK_OPENER (openerOf p fw)

/-- The link is UP on both dies. -/
def linked (s : State) : State := (s.put pDDL DDL_STAT_STATE stUp).put pDDLM DDL_STAT_STATE stUp

/-- Engine 5 runs in code SRAM, with three registers set. -/
def running (s : State) : State :=
  s.setEng 5 { s.eng 5 with
    mode := .run, pc := 0x08000000, vbase := 0x08000100, fl := 0x6000
    g := ((((Vector.replicate 16 0).set 1 0xFFFFFFF9).set 2 2).set 3 0x10000100).set 5 1 }

def eng5 : State := running State.reset
def x5 : Issue := ⟨5, .none, 0⟩

/-- Engine 5 runs job 0 of task 2. -/
def inJob (s : State) : State :=
  s.setEng 5 { s.eng 5 with job := some (
    { task := 2, job := 0, dom := 3, xb := 0, yb := 0, start := 0, wcet := 1000, dead := false, viol := ⟨0, 0, 0⟩ } : JobRun), fl := 0 }

/-- Task 2, enabled, with a live scan of one job in EXECUTE. -/
def entry2 : TaskEntry :=
  { dom := 3, cls := 1, abort := false, phase := 0, period := 4, graph := 0x10001000, rcbase := 0x10002000, xb := 0x10003000,
    snapList := 0, snapCnt := 0, pubCnt := 0, yb := 0x10004000, pubList := 0, njobs := 1 }

def scanning (s : State) : State :=
  let s := s.setTask 2 { s.task 2 with
    entry := some entry2
    scan := some { btick := 8, profile := 0, phase := .execute, done := 0, retries := [], violated := false, renewed := false, overrunAt := 0,
                   skippedBase := 0, first := false, restored := false } }
  setEnabled 2 true (setScanning 2 true s)

/-- Both halves in RUN. -/
def booted (s : State) : State := (s.put pBOOT BOOT_STAT_ESTATE 2).put pBOOT BOOT_STAT_WSTATE 2

/-- Both rings of queue `q` enabled with 4 entries; ring A at 0x10010000 holds one. -/
def openRings (q : Nat) (s : State) : State :=
  let s := ((s.put pQMG (qf QMG_QCFG_AEN q) 1).put pQMG (qf QMG_QCFG_ALOG2 q) 2).put pQMG (qf QMG_ABASE_BASE q) 0x1001000
  let s := ((s.put pQMG (qf QMG_QCFG_BEN q) 1).put pQMG (qf QMG_QCFG_BLOG2 q) 2).put pQMG (qf QMG_BBASE_BASE q) 0x1002000
  s.put pQMG (qf QMG_AIDX_PROD q) 1

/-! ## Engine instructions (R82 to R111) -/

/-- g4, PC and FL of engine 5 after a command. -/
def out5 (c : Instr) (s : State) : Word × Word × Word :=
  let t := after c s
  (gr 5 4 t, (t.eng 5).pc, (t.eng 5).fl)

/-- On −7 and 2, with FL 0x6000. -/
theorem test_integer_registers : Ready x5 [1, 2] eng5 ∧
    ([Instr.add x5 4 1 2, .sub x5 4 1 2, .and x5 4 1 2, .or x5 4 1 2, .xor x5 4 1 2, .shl x5 4 1 2, .shr x5 4 1 2,
      .sar x5 4 1 2, .slt x5 4 1 2, .sltu x5 4 1 2, .min x5 4 1 2, .max x5 4 1 2, .mul x5 4 1 2, .mulh x5 4 1 2,
      .mulhu x5 4 1 2, .div x5 4 1 2, .divu x5 4 1 2, .rem x5 4 1 2, .remu x5 4 1 2].map fun c => (out5 c eng5).1)
    = [0xFFFFFFFB, 0xFFFFFFF7, 0, 0xFFFFFFFB, 0xFFFFFFFB, 0xFFFFFFE4, 0x3FFFFFFE, 0xFFFFFFFE, 1, 0, 0xFFFFFFF9, 2, 0xFFFFFFF2,
      0xFFFFFFFF, 1, 0xFFFFFFFD, 0x7FFFFFFC, 0xFFFFFFFF, 1] := by decide +kernel

theorem test_integer_immediates : Ready x5 [1] eng5 ∧
    ([Instr.addi x5 4 1 0x3FFFF, .andi x5 4 1 0x3FFFF, .ori x5 4 1 6, .xori x5 4 1 1, .shli x5 4 1 31, .shri x5 4 1 28,
      .sari x5 4 1 1, .slti x5 4 1 0x3FFF9, .lui x5 4 0x8001].map fun c => (out5 c eng5).1)
    = [0xFFFFFFF8, 0x3FFF9, 0xFFFFFFFF, 0xFFFFFFF8, 0x80000000, 15, 0xFFFFFFFC, 0, 0x80010000] := by decide +kernel

/-- −7 against 2: N and C; against −7 itself: Z and C. A division by zero, and the one quotient that overflows. -/
theorem test_integer_corners :
    (out5 (.cmp x5 1 2) eng5).2 = (0x08000004, 0x6006) ∧ (out5 (.cmpi x5 1 0x3FFF9) eng5).2 = (0x08000004, 0x6005) ∧
    (out5 (.div x5 4 1 0) eng5).1 = 0 ∧ (out5 (.rem x5 4 1 0) eng5).1 = 0xFFFFFFF9 ∧
    divSigned 0x80000000 0xFFFFFFFF = 0x80000000 ∧ remSigned 0x80000000 0xFFFFFFFF = 0 ∧
    gr 5 0 (after (.add x5 0 1 2) eng5) = 0 := by decide +kernel

/-- 1.5 and −0.25 in g1 and g2. -/
def floats : State := eng5.setEng 5 { eng5.eng 5 with g := ((eng5.eng 5).g.set 1 0x3FC00000).set 2 0xBE800000 }

theorem test_float : Ready x5 [1, 2] floats ∧
    ([Instr.fadd x5 4 1 2, .fsub x5 4 1 2, .fmul x5 4 1 2, .fdiv x5 4 1 2, .fmin x5 4 1 2, .fmax x5 4 1 2, .fabs x5 4 2,
      .fneg x5 4 1, .fsqrt x5 4 1, .itof x5 4 3, .ftoi x5 4 1, .ftoiz x5 4 1].map fun c => (out5 c floats).1)
    = [0x3FA00000, 0x3FE00000, 0xBEC00000, 0xC0C00000, 0xBE800000, 0x3FC00000, 0x3E800000, 0xBFC00000, 0x3F9CC471, 0x4D800008,
      2, 1] ∧
    (out5 (.fcmp x5 1 2) floats).2.2 = 0x6004 ∧ (out5 (.fsqrt x5 4 2) floats).1 = 0x7FC00000 := by decide +kernel

theorem test_branches : Ready x5 [3] eng5 ∧
    (out5 (.b x5 .al 0x3FFFFF) eng5).2.1 = 0x07FFFFFC ∧ (out5 (.b x5 .eq 2) eng5).2.1 = 0x08000004 ∧
    (after (.bl x5 4) eng5 |>.eng 5).pc = 0x08000010 ∧ gr 5 15 (after (.bl x5 4) eng5) = 0x08000004 ∧
    (out5 (.jr x5 3) eng5).2.1 = 0x10000100 ∧ (out5 (.jr x5 2) eng5).2.1 = 0x08000100 ∧
    ((after (.jr x5 2) eng5).eng 5).ecause = 3 := by decide +kernel

/-- A word of global SRAM behind g3. -/
def withData : State := eng5.ww 0x10000100 0x8091A2B3

theorem test_loads : ReadyMem x5 [3] [0x10000100] withData ∧ (refusal 5 false 4 0x10000100 withData).isNone ∧
    ([Instr.lw x5 4 3 .zero 0, .lh x5 4 3 .zero 2, .lhu x5 4 3 .zero 2, .lb x5 4 3 .zero 3, .lbu x5 4 3 .zero 3].map
      fun c => (out5 c withData).1) = [0x8091A2B3, 0xFFFF8091, 0x8091, 0xFFFFFF80, 0x80] := by decide +kernel

theorem test_stores : ReadyMem x5 [1, 3] [0x10000104] withData ∧ (refusal 5 true 4 0x10000104 withData).isNone ∧
    domainRefuses 5 true 0x10000104 withData = false ∧ jobDead 5 withData = false ∧
    (after (.sw x5 1 3 .zero 4) withData).rw 0x10000104 = 0xFFFFFFF9 ∧ (after (.sh x5 1 3 .zero 4) withData).rw 0x10000104 = 0xFFF9 ∧
    (after (.sb x5 1 3 .zero 5) withData).rw 0x10000104 = 0xF900 := by decide +kernel

theorem test_misaligned :
    ((after (.lw x5 4 3 .zero 2) withData).eng 5).ecause = 3 ∧ ((after (.lw x5 4 3 .zero 2) withData).eng 5).eaddr = 0x10000102 ∧
    ((after (.lh x5 4 3 .zero 1) withData).eng 5).ecause = 3 ∧ ((after (.sw x5 1 3 .zero 1) withData).eng 5).ecause = 3 ∧
    (after (.sh x5 1 3 .zero 1) withData).mem = withData.mem := by decide +kernel

/-- A job may not store to global SRAM of another domain: violation kind 1. -/
theorem test_violation :
    domainRefuses 5 true 0x10000104 (inJob withData) = true ∧ (refusal 5 true 4 0x10000104 (inJob withData)).isNone ∧
    (((after (.sw x5 1 3 .zero 4) (inJob withData)).eng 5).job.map fun j => j.viol) = some ⟨1, 0x10000104, 1⟩ ∧
    (after (.sw x5 1 3 .zero 4) (inJob withData)).mem = withData.mem := by decide +kernel

/-- SP at the top of local data: the frame is its last 8 bytes. -/
def stacked : State := eng5.setEng 5 { eng5.eng 5 with sp := 0x30002000, ib := 0x20000040 }

theorem test_block_call :
    let t := after (.bcall x5 2 3) (stacked.setEng 5 { stacked.eng 5 with g := (stacked.eng 5).g.set 3 0x08000200 })
    t.rw (localBase 5 + 0x1FF8) = 0x08000004 ∧ t.rw (localBase 5 + 0x1FFC) = 0x20000040 ∧ (t.eng 5).sp = 0x30001FF8 ∧
    (t.eng 5).ib = 2 ∧ (t.eng 5).pc = 0x08000200 ∧
    ((after (.bret x5) t).eng 5).pc = 0x08000004 ∧ ((after (.bret x5) t).eng 5).sp = 0x30002000 ∧
    ((after (.bret x5) t).eng 5).ib = 0x20000040 := by decide +kernel

/-- Records in local data at IB. -/
def records : State :=
  (eng5.setEng 5 { eng5.eng 5 with ib := 0x30000000, tt := 100 }).ww (localBase 5 + 12) 9

theorem test_edge_and_timers :
    gr 5 4 (after (.edge x5 4 1 0) records) = 1 ∧ (after (.edge x5 4 1 0) records).rw (localBase 5) = 1 ∧
    gr 5 4 (after (.ton x5 4 1 0 0) records) = 1 ∧ gr 5 4 (after (.ton x5 4 1 2 0) records) = 0 ∧
    gr 5 4 (after (.tof x5 4 1 2 0) records) = 1 ∧ gr 5 4 (after (.tp x5 4 1 2 0) records) = 1 := by decide +kernel

/-- CV 0, limits 0 and 9: one up gives 1, one down leaves 0; at the limits the count stays. -/
theorem test_counters :
    gr 5 4 (after (.ctu x5 4 5 5 0) records) = 1 ∧ (after (.ctu x5 4 5 5 0) records).rw (localBase 5) = 1 ∧
    gr 5 4 (after (.ctd x5 4 2 5 0) records) = 2 ∧ gr 5 4 (after (.ctud x5 4 5 5 0) records) = 1 ∧
    (countStep true false [3, 0, 0, 9] 1 4).1 = 4 ∧ (countStep false true [3, 0, 0, 9] 2 4).1 = 2 ∧
    (countStep true true [3, 0, 0, 9] 3 4).1 = 3 ∧ (countStep true false [9, 0, 0, 9] 1 4).1 = 9 := by decide +kernel

/-- 1 × 1 operands A and B, both 2.0, and g1 to g4 as MAT takes them. -/
def matState (b dims : Word) : State :=
  let s := eng5.setEng 5 { eng5.eng 5 with
    g := ((((eng5.eng 5).g.set 1 0x20000000).set 2 b).set 3 0x20000080).set 4 dims }
  (s.ww (imageAddr 0 0x20000000) 0x40000000).ww (imageAddr 0 0x20000040) 0x40000000

/-- The command puts one operation into the cluster's queue, and its engine waits. -/
def joins (c : Instr) (s : State) : Bool :=
  (solverQueue 0 (after c s)).map (fun o => (o.eng, o.rd, o.c)) == [(5, 6, 0x20000080)] && ((after c s).eng 5).mode == .solver

theorem test_mat_joins : Ready x5 [1, 2, 3, 4] (matState 0x20000040 0x010001) ∧
    slotsShort 5 [0x20000000] (matState 0x20000040 0x010001) = false ∧
    joins (.gemv x5 6 1) (matState 0x20000040 0x010001) = true ∧ joins (.gemm x5 6 1) (matState 0x20000040 0x010101) = true ∧
    joins (.chol x5 6 1) (matState 0 0x010000) = true ∧ joins (.solve x5 6 1) (matState 0x20000040 0x010000) = true ∧
    ((after (.gemv x5 6 1) (matState 0x20000040 0x010101)).eng 5).ecause = 6 := by decide +kernel

theorem test_solver_done :
    (let s := after (.gemm x5 6 1) (matState 0x20000040 0x010101)
     (solverQueue 0 s).length = 1 ∧ (s.eng 5).mode = .solver ∧ (s.eng 5).job = none ∧
     (solverCompute ⟨5, 6, .gemm, 0x20000000, 0x20000040, 0x20000080, 1, 1, 1⟩ [0x40000000] [0x40000000]).2 = true ∧
     resultBusy 5 0x20000080 1 s = none) ∧
    let t := after (.solverOpDone 0 .none) (after (.gemm x5 6 1) (matState 0x20000040 0x010101))
    t.rw (imageAddr 0 0x20000080) = 0x40800000 ∧ t.rw (imageAddr 1 0x20000080) = 0x40800000 ∧ gr 5 6 t = 0 ∧
    (t.eng 5).mode = .run ∧ (t.eng 5).pc = 0x08000004 ∧ t.g pENG ENG_SOLVCNT_COUNT = 1 ∧ solverQueue 0 t = [] := by decide +kernel

theorem test_special_registers :
    gr 5 4 (after (.mfs x5 4 12) eng5) = 0x08000100 ∧ ((after (.mts x5 1 12) eng5).eng 5).vbase = 0xFFFFFF00 ∧
    ((after (.mts x5 1 1) eng5).eng 5).fl = 0xFF19 ∧ ((after (.mfs x5 4 13) eng5).eng 5).ecause = 1 ∧
    ((after (.mts x5 1 5) eng5).eng 5).ecause = 1 ∧ ((after (.mts x5 1 6) (inJob eng5)).eng 5).sp = 0xFFFFFFF9 ∧
    ((after (.mts x5 1 8) (inJob eng5)).eng 5).job = none := by decide +kernel

/-! ## Jobs and exceptions -/

theorem test_jobs_end :
    (let t := after (.yield x5) (inJob eng5)
     (t.eng 5).job = none ∧ (t.eng 5).mode = .idle) ∧
    (let t := after (.fault x5 0x1234) (inJob (scanning eng5))
     (t.eng 5).job = none ∧ (t.task 2).scan = none ∧ t.reg pSCH 0x06C = 0x21000000 ∧ t.g pSCH SCH_CNT_FAILS = 1 ∧
     (t.ev.waiting.find? fun v => v.code == 0x020F).map (fun v => v.data.take 5) = some [2, 0, 0, 0x34, 0x12]) ∧
    (let t := after (.jobTimerExpiry 5) (inJob eng5)
     (t.eng 5).job = none ∧ (t.eng 5).mode = .idle ∧ (t.eng 5).pc = 0 ∧ icacheOf 5 t = [] ∧ t.mtb = 800 ∧
     excluded 5 t = true ∧ t.bit (engPage 5) ⟨0x00C, laneOf 5, 1⟩ = true) := by decide +kernel

theorem test_exceptions :
    (let t := after (.fault x5 0x1234) eng5
     (t.eng 5).ecause = 0x12340007 ∧ (t.eng 5).epc = 0x08000000 ∧ (t.eng 5).efl = 0x6000 ∧ (t.eng 5).fl = 0xC000 ∧
     (t.eng 5).pc = 0x08000100) ∧
    ((after (.illegalInstruction x5) eng5).eng 5).ecause = 1 ∧ ((after (.yield x5) eng5).eng 5).ecause = 1 ∧
    (let t := after (.fault x5 0) (after (.fault x5 0) eng5)
     (t.eng 5).mode = .halted ∧ excluded 5 t = true ∧ (t.reg pFLT 0x010).getLsbD 5 = true) := by decide +kernel

/-- A remote error on engine 5; a fetch from global SRAM. -/
theorem test_access_errors :
    (eng5.eng 5).record = none ∧ (eng5.eng 5).job = none ∧
    (let t := after (.remoteAccessException 5) (eng5.setEng 5 { eng5.eng 5 with remErr := some 0x58000040 })
     (t.eng 5).ecause = 0x00048005 ∧ (t.eng 5).eaddr = 0x58000040 ∧ (t.eng 5).remErr = none) ∧
    (let s := eng5.setEng 5 { eng5.eng 5 with pc := 0x10000000 }
     let t := after (.fetchAccessError 5) s
     fetchError 5 0x10000000 s = some 2 ∧ (t.eng 5).ecause = 0x00020004 ∧ t.bit pFAB FAB_IRQ_RAW_ACCERR = true ∧
     t.reg pFAB 0x050 = 0x10000000 ∧ t.reg pFAB 0x054 = 0x4105) := by decide +kernel

/-- Software interrupt 0 is source 112, routed to the East primary, engine 5. -/
def interrupted : State :=
  booted (((eng5.setReg pFAB 0x040 0x00808085).setReg pINT 0x138 8).put pINT ⟨0x050, 0, 1⟩ 0 |> fun s =>
    { s with ev := { s.ev with sw := 1 } })

theorem test_interrupts : offered 5 interrupted = some 112 ∧
    (let t := after (.interruptEntry 5) interrupted
     (t.eng 5).pc = 0x08000140 ∧ (t.eng 5).ecause = 0x00700010 ∧ (t.eng 5).fl = 0x4000 ∧ (t.eng 5).epc = 0x08000000) ∧
    (let s := interrupted.setEng 5 { interrupted.eng 5 with mode := .sleep, fl := 0x4000 }
     ((after (.sleepWake 5) s).eng 5).mode = .run ∧ ((after (.sleepWake 5) s).eng 5).pc = 0x08000000) ∧
    (let s := interrupted.setEng 5 { interrupted.eng 5 with mode := .sleep, remErr := some 0x58000040 }
     let t := after (.interruptEntry 5) s
     (t.eng 5).mode = .run ∧ (t.eng 5).pc = 0x08000140 ∧ (t.eng 5).remErr = some 0x58000040) := by decide +kernel

theorem test_supervisor_instructions :
    (let s := eng5.setEng 5 { eng5.eng 5 with epc := 0x08000040, efl := 0xFFFFFFFF }
     ((after (.iret x5) s).eng 5).pc = 0x08000040 ∧ ((after (.iret x5) s).eng 5).fl = 0xFF1F) ∧
    ((after (.sleep x5) eng5).eng 5).mode = .sleep ∧ ((after (.sleep x5) eng5).eng 5).pc = 0x08000004 ∧
    (let s := scanning (eng5.setEng 5 { eng5.eng 5 with g := (eng5.eng 5).g.set 6 64 })
     gr 5 4 (after (.migrate x5 4 6 0) s) = 3 ∧ gr 5 4 (after (.migrate x5 4 5 0) s) = 2 ∧
     gr 5 4 (after (.migrate x5 4 2 0) s) = 1 ∧ gr 5 4 (after (.migrate x5 4 2 5) s) = 0 ∧
     taskMigPend 2 (after (.migrate x5 4 2 5) s) = true) ∧
    ((after (.iret x5) (inJob (scanning eng5))).task 2).scan = none ∧
    ((after (.sleep x5) (inJob (scanning eng5))).task 2).scan = none ∧
    ((after (.migrate x5 4 2 5) (inJob (scanning eng5))).task 2).scan = none := by decide +kernel

/-- PLK of FAIRMODE: g6 the register, g7 the unlock value of FAB, g5 the value. -/
def plkState : State :=
  eng5.setEng 5 { eng5.eng 5 with g := ((eng5.eng 5).g.set 6 0x40001008).set 7 (unlockValue pFAB) }

theorem test_plk : ReadyMem x5 [6, 7, 5] [0x40001020, 0x40001008] plkState ∧
    (let t := after (.plk x5 6 7 5) plkState
     t.g pFAB FAB_CTRL_FAIRMODE = 1 ∧ t.bit pFAB LOCK_OPEN = false ∧ (t.eng 5).pc = 0x08000004) := by decide +kernel

/-- Job 0 of task 2 waits in the deque of class 1 of East, cluster 0. -/
def queued : State :=
  let s := (booted (scanning State.reset)).setDeque (dequeKey 1 .east 0) [(2, 0)]
  ((s.ww 0x10001020 0x08000400).ww 0x10001024 0x20000000).ww 0x10001028 0x77

theorem test_job_start : mayTake 3 queued = true ∧
    (let t := after (.jobTake 3) queued
     (t.eng 3).pc = 0x08000400 ∧ (t.eng 3).ib = 0x20000000 ∧ (t.eng 3).sp = 0x30002000 ∧ (t.eng 3).tt = 8 ∧
     (t.eng 3).jobid = 0x80020000 ∧ gr 3 1 t = 0x77 ∧ (t.eng 3).mode = .run ∧ inTask 3 t = true ∧
     t.deque (dequeKey 1 .east 0) = []) := by decide +kernel

/-! ## Words of engine instructions (R85 to R87): one of each format -/

theorem test_words :
    decodeEngine x5 0x10CBFFFB = some (.addi x5 3 2 (-5)) ∧ decodeEngine x5 0xA5158003 = some (.ton x5 4 5 6 3) ∧
    decodeEngine x5 0b100000_0001_1111111111111111111111 = some (.b x5 .ne (-1)) ∧
    decodeEngine x5 0b110001_0000_0101_00_0000000000000001 = some (.mts x5 5 1) ∧
    decodeEngine x5 0b011101_0010_0011_100_111111111111100 = some (.sw x5 2 3 .sp (-4)) ∧
    decodeEngine x5 0 = none ∧ decodeEngine x5 0xFFFFFFFF = none := by decide +kernel

theorem test_words_round_trip :
    [Instr.add x5 1 2 3, .cmp x5 4 5, .cmpi x5 4 0x3FFFF, .lui x5 15 0xFFFF, .sari x5 1 2 31, .fadd x5 1 2 3, .fcmp x5 2 3,
      .ftoiz x5 15 14, .lbu x5 1 2 .yb 0x7FFF, .b x5 .un 0x200000, .bl x5 1, .jr x5 15, .bcall x5 1 2, .bret x5,
      .edge x5 1 2 0xFFF, .ctud x5 1 2 3 1, .gemv x5 1 12, .solve x5 1 2, .mfs x5 1 12, .yield x5, .fault x5 0xFFFF,
      .plk x5 1 2 3, .iret x5, .sleep x5, .migrate x5 1 2 3].all
      (fun c => (encodeEngine c).bind (decodeEngine x5) == some c) = true := by decide +kernel

theorem test_table_gives_no_bits : decodeTableWord 32 0x10CBFFFB = none ∧
    step { State.reset with pending := [.stuckClear 3 []] } = exec (.stuckClear 3 []) State.reset ∧
    step State.reset = .next { State.reset with mtb := 1, replica := 1 } := ⟨by decide +kernel, rfl, rfl⟩

/-! ## Resets, boot and download -/

def noStraps : Straps := ⟨false, false, false⟩

/-- What a reset with cause bit `k` leaves: MTB, the states of both halves, the holds, the causes, the link states. -/
def restarted (k : Nat) (t : State) : Bool :=
  t.mtb == 0 && t.replica == 0 && t.boot.east == romStart false 0 && t.boot.west == romStart false 0 &&
  t.bit pSCH SCH_CTRL_HOLDE && t.bit pSCH SCH_CTRL_HOLDW && t.reg pSYS 0x04C == word (2 ^ k) && t.reg pMSYS 0x04C == word (2 ^ k) &&
  t.linkState .damask == stTrain && t.linkState .muslin == stTrain

/-- A module that has run for a while. -/
def worn : State := linked (booted { State.reset with mtb := 100, replica := 200 })

theorem test_module_resets : muslinRuns worn = true ∧ worn.power.held = false ∧ planRuns worn = false ∧
    FirmwareUnlocked fw pSYS (openLock pSYS worn) ∧ FirmwareUnlocked fw pMSYS (openLock pMSYS worn) ∧
    restarted 0 (after (.powerOnReset noStraps false) worn) = true ∧ restarted 1 (after (.moduleReset false noStraps) worn) = true ∧
    restarted 3 (after .muslinWatchdogExpiry worn) = true ∧ restarted 2 (after (.modrst fw .damask) (openLock pSYS worn)) = true ∧
    restarted 2 (after (.modrst fw .muslin) (openLock pMSYS worn)) = true := by decide +kernel

theorem test_reset_pin :
    (let t := after (.moduleReset true noStraps) worn
     t.power.held = true ∧ (t.eng 0).mode = .idle ∧
     (after (.resetRelease noStraps) t).power.held = false ∧
     (after (.resetRelease noStraps) t).boot.east = romStart false 0 ∧
     (after (.resetRelease ⟨true, false, true⟩) t).g pMSYS MSYS_STRAP_RECOV = 1 ∧
     (after (.resetRelease ⟨true, false, true⟩) t).g pMSYS MSYS_STRAP_FAILDIR = 1) := by decide +kernel

/-- The supply fails: the plan runs, a reset asked for waits, and the plan's end puts Damask off. -/
theorem test_supply : worn.power.failed = false ∧ (booted State.reset).linkUp .damask = false ∧
    (let t := after (.supplyFailure []) (booted State.reset)
     t.power.failed = true ∧ t.bit pPMU PMU_STAT_SUPGOOD = false ∧ t.bit pPMU PMU_STAT_PLAN = true ∧
     t.bit pPMU PMU_IRQ_RAW_SUPFAIL = true ∧ planRuns t = true ∧
     (after (.moduleReset true noStraps) t).power.reset = some causePin ∧
     t.flash.running = none ∧ t.power.reset = none ∧
     (let u := after (.powerFailPlanEnd false noStraps) t
      u.bit pPMU PMU_STAT_DOFF = true ∧ u.bit pPMU PMU_STAT_PLAN = false ∧ halfState .east u = hsOff ∧ halfState .west u = hsOff)) ∧
    (let s := (booted State.reset).put pPMU PMU_STAT_SUPGOOD 0
     let t := after .supplyGood s
     planRuns s = false ∧ s.bit pPMU PMU_STAT_DOFF = false ∧ t.bit pPMU PMU_STAT_SUPGOOD = true ∧
     t.bit pPMU PMU_IRQ_RAW_SUPGOOD = true) := by decide +kernel

/-- With the link UP a supply failure stops the scans and holds both halves; then Damask goes OFF. -/
theorem test_supply_up :
    (let t := after (.supplyFailure []) (scanning worn)
     (scanning worn).power.leaving = false ∧ (scanning worn).bit pPMU PMU_STAT_DOFF = false ∧ t.power.leaving = true ∧
     (t.task 2).scan = none ∧ t.bit pSCH SCH_CTRL_HOLDE = true ∧ t.bit pSCH SCH_CTRL_HOLDW = true) := by decide +kernel

theorem test_half_boot : Firmware west pBOOT worn ∧ halfRuns .west worn = true ∧ halfOf west.eng = Half.west ∧
    (let t := after (.halfBoot west .east 1) worn
     halfState .east t = hsRom ∧ t.rom .east = { romStart true 100 with slot := some 1 } ∧ t.bit pSCH SCH_CTRL_HOLDE = true ∧
     halfState .west t = hsRun ∧ primaryOf .east t = 0 ∧ (t.eng 0).mode = .run ∧ (t.eng 0).pc = 0) ∧
    primaryOf .east (after (.halfBoot west .east 1) (worn.setReg pENG 0x008 1)) = 1 := by decide +kernel

theorem test_damask_restart : FirmwareUnlocked fw pBOOT (openLock pBOOT worn) ∧
    (let t := after (.damaskRestart fw) (openLock pBOOT worn)
     t.mtb = 200 ∧ t.replica = 200 ∧ t.g pBOOT BOOT_STAT_CAUSE = 2 ∧ t.bit pMTB MTB_STAT_LOADED = false ∧
     t.boot.west = romStart false 200 ∧ halfState .east t = hsRom ∧ t.bit pSCH SCH_CTRL_HOLDW = true) := by decide +kernel

theorem test_damask_off :
    (let s := (booted State.reset).put pDDL DDL_STAT_STATE stUp
     let t := after (.doff fw) s
     Firmware fw pPMU s ∧ s.power.leaving = false ∧ newestArea s = none ∧ s.linkUp .muslin = false ∧
     t.bit pPMU PMU_STAT_DOFF = true ∧ halfState .east t = hsOff ∧ halfState .west t = hsOff ∧
     (after (.restore fw) s).bit pPMU PMU_STAT_RESTDONE = true) ∧
    (let t := after (.doff fw) worn
     Firmware fw pPMU worn ∧ worn.linkUp .muslin = true ∧ t.power.leaving = true ∧ t.bit pSCH SCH_CTRL_HOLDW = true) := by
  decide +kernel

/-- West in a half boot from slot 0, East running: no package there, so the attempt ends in step 3. -/
def halfBooting : State :=
  after (.halfBoot fw .west 0) worn

theorem test_boot_attempt_fails : damaskOn halfBooting = true ∧ halfState .west halfBooting = hsRom ∧
    (halfBooting.rom .west).half = true ∧ linkInTime .west halfBooting = true ∧
    (tryAttempt .west 0 .none (syncProt halfBooting)).1 = .failed 3 ∧
    (after (.bootAttempt .west .none) halfBooting).g pBOOT ⟨infoOff .west, 28, 4⟩ = 3 ∧
    (let t := after (.bootTimeout .west) halfBooting
     t.g pBOOT ⟨infoOff .west, 28, 4⟩ = 11 ∧ t.mtb = 100000100) := by decide +kernel

/-- A module start, whose link is UP. -/
def starting : State := linked State.reset

theorem test_module_start : damaskOn starting = true ∧ halfState .east starting = hsRom ∧ starting.boot.east.half = false ∧
    starting.boot.east.slot = none ∧ linkInTime .east starting = true ∧ linkInTime .east State.reset = false ∧
    starting.mtb < 100000000 ∧ (starting.put pMSYS MSYS_STRAP_RECOV 1).bit pMSYS MSYS_STRAP_RECOV = true ∧
    starting.bit pMSYS MSYS_STRAP_RECOV = false ∧ 3 ≤ (starting.put pCHR CHR_BOOTFAIL_COUNT 7).g pCHR CHR_BOOTFAIL_COUNT ∧
    starting.g pCHR CHR_BOOTFAIL_COUNT < 3 ∧ starting.bit pDDL DDL_STAT_PAIRFLT = false ∧ starting.boot.east.key = .none ∧
    starting.boot.east.tries = 0 ∧ (firstSlot 0 starting, firstSlot 1 starting) = (0, 1) ∧
    (let t := after (.bootAttempt .east .none) { State.reset with mtb := 9500000 }
     t.g pBOOT BOOT_STAT_RCAUSE = 4 ∧ t.g pBOOT ⟨infoOff .east, 28, 4⟩ = 1 ∧ t.mtb = 10000000) ∧
    (let t := after (.bootAttempt .east .none) { State.reset with mtb := 1500000 }
     t.linkState .damask = stTrain ∧ t.mtb = 2000000) := by decide +kernel

/-- East in recovery, with a session on SVC. -/
def session : Session := { path := .svc, lastSeq := 4, lastReply := [], at_ := 0, slot := some (1, 8, 0) }
def recovering : State :=
  let s := State.reset.put pBOOT BOOT_STAT_ESTATE hsRecovery
  { s with boot := { s.boot with session := some session } }

/-- A frame of the download protocol with its CRC. -/
def dlFrame (type seq : Nat) (payload : List Byte) : DlFrame :=
  let b := [0xA5, 0x5A] ++ replyFrame type seq payload recovering
  { path := .svc, norError := false, bytes := b, stamps := List.replicate b.length 0 }

theorem test_download_frame : inRecovery recovering = true ∧ frameGood (dlFrame 2 5 (leBytes 4 0 ++ leBytes 4 4096)) recovering = true ∧
    (let t := after (.dlData (dlFrame 3 5 [0, 0, 0, 0, 1, 2, 3, 4])) recovering
     t.boot.session.map (fun x => (x.lastSeq, x.slot)) = some (5, some (1, 8, 4)) ∧ t.comms.wire.length = 1 ∧
     t.rb (norBase + 0x1000002) = 3) := by decide +kernel

theorem test_download_session :
    (after (.dlAbort (dlFrame 6 5 [])) recovering).boot.session = none ∧
    (after (.dlReboot (dlFrame 5 5 [])) recovering).boot.session = none ∧
    restarted 2 (after (.dlReboot (dlFrame 5 5 [])) recovering) = true ∧
    (after .sessionTimeout recovering).boot.session = none ∧ (after .sessionTimeout recovering).mtb = 6000000000 ∧
    (let s := { recovering with boot := { recovering.boot with session := none } }
     (after (.dlHello (dlFrame 1 9 [])) s).boot.session.map (fun x => (x.lastSeq, x.lastReply.take 1)) = some (9, [0x82])) := by
  decide +kernel

theorem test_download_start :
    (after (.dlStart (dlFrame 2 5 (leBytes 4 0 ++ leBytes 4 4096))) recovering).boot.session.map (fun x => x.slot)
      = some (some (0, 4096, 0)) := by decide +kernel

/-- ETH sessions hash what they wrote: zero bytes against their own hash. -/
theorem test_download_end :
    (after (.dlEnd (dlFrame 4 5 (sha256 []))) recovering).boot.session.map (fun x => (x.lastSeq, x.lastReply.take 1)) = some (5, [0x81]) := by
  decide +kernel

/-! ## Common registers, locks and owners -/

theorem test_common_registers :
    (after (.registerWrite fw 0x40001014 0xFFFFFFFF 0) worn).reg pFAB 0x014 = irqMask pFAB ∧
    after (.registerWrite fw 0x40001000 0xFFFFFFFF 0) worn = worn ∧
    (after (.irqForce fw pFAB 1) worn).reg pFAB 0x010 = 1 ∧
    (let s := worn.setReg pENG 0x040 7
     (after (.readClear fw (0x40000040 + 0x1000 * pENG)) s).answer = 7 ∧
     (after (.readClear fw (0x40000040 + 0x1000 * pENG)) s).reg pENG 0x040 = 0) := by decide +kernel

theorem test_lock :
    (let t := after (.lockWrite fw pFAB (unlockValue pFAB)) worn
     lockOpenFor pFAB fw t = true ∧ lockAtOf pFAB t = 100 ∧
     (after (.lockTimeout pFAB) t).bit pFAB LOCK_OPEN = false ∧ (after (.lockTimeout pFAB) t).mtb = 500 ∧
     (after (.lockWrite fw pFAB 1) t).bit pFAB LOCK_OPEN = false ∧ (after (.lockWrite fw pFAB 1) t).g pFAB LOCK_BADCNT = 1 ∧
     (after (.fairmodeWrite fw true) t).bit pFAB FAB_CTRL_FAIRMODE = true) ∧
    (after (.fairmodeWrite fw true) worn).bit pFAB FAB_CTRL_FAIRMODE = false ∧
    (after (.damaskRestart fw) worn).mtb = 100 ∧
    (after (.linkEn fw .damask false) worn).bit pDDL DDL_CTRL_EN = worn.bit pDDL DDL_CTRL_EN := by decide +kernel

theorem test_owner : pageRuns pSCH worn = true ∧ job3.dom ≠ pageOwner pSCH worn ∧
    (after (.registerWrite job3 (0x40000008 + 0x1000 * pSCH) 0xFFFFFFFF 0) worn).regs = worn.regs ∧
    (after (.readClear job3 (0x40000040 + 0x1000 * pENG)) (worn.setReg pENG 0x040 7)).answer = 0 := by decide +kernel

/-! ## Time base, fabric, domain tables, NOR commands (R45 to R78, R145 to R155, R364) -/

def timed : State := { linked State.reset with mtb := 0x100000005, replica := 0 }

theorem test_time_base :
    (let t := after (.mtbLoRead west) timed
     t.answer = 5 ∧ latchOf 32 t = 1 ∧ t.mtb = 0x100000005) ∧
    (let s := timed.setReg pMTB 0x04C 2
     cmpValue 0 (after (.mtbCmpWrite fw 0 7) s) = 0x200000007 ∧
     cmpValue 0 (after (.mtbCmpWrite fw 0 7) (s.put pMTB (cmpEn 0) 1)) = 0) := by decide +kernel

theorem test_fabric :
    (after (.fairmodeWrite fw true) (openLock pFAB (linked State.reset))).bit pFAB FAB_STAT_FAIRMODE = true ∧
    (let s := { (timed.setReg pFAB 0x048 9) with grants := 3 }
     (after (.obsselWrite fw 0xFFFFFFFF) s).reg pFAB 0x044 = 0x33F ∧ (after (.obsselWrite fw 0xFFFFFFFF) s).grants = 0 ∧
     (after (.grantcntRead fw) s).answer = 9 ∧ (after (.grantcntRead fw) s).reg pFAB 0x048 = 0 ∧
     (after (.grantcntRead fw) s).reg pFAB 0x04C = 3) ∧
    ((after (.supvWrite fw 0x00212423) timed).bit pFAB FAB_IRQ_RAW_SUPVERR) = true ∧
    (after (.supvWrite fw 0x00200005) timed).reg pFAB 0x040 = 0x00A00085 ∧
    icacheOf 9 (after (.icinv fw 1) { timed with icache := [(0, [(1, [7])]), (9, [(2, [7])])] }) = [] ∧
    icacheOf 0 (after (.icinv fw 1) { timed with icache := [(0, [(1, [7])]), (9, [(2, [7])])] }) = [(1, [7])] := by decide +kernel

/-- Region 3 is free or task 2's; point tags and owners. -/
theorem test_domain_tables :
    (let s := timed.wb (imageBase 0 + 4096 * 3 + 5) 7
     taskBusy (rgnTask 3 s) s = false ∧ (after (.regionClear fw 3) s).rb (imageBase 0 + 4096 * 3 + 5) = 0) ∧
    retainCount timed ≤ 14 ∧ (after (.imgRgnWrite fw 1 0xFFFFFFFF) timed).reg pIMG 0x804 = 0x0FFF0FFF ∧
    (let t := after (.pdataAccess fw (some 0x84838281)) timed
     pidx t = 1 ∧ pointTag 0 t = 1 ∧ pointTag 3 t = 4 ∧
     (after (.pdataAccess fw none) (t.put pDOM DOM_PIDX_WORD 0)).answer = 0x04030201) ∧
    pageOwner 9 (after (.pgownWrite fw .damask 1 0x00000050) timed) = 5 := by decide +kernel

/-- Region 3 belongs to the busy task 2. -/
theorem test_region_busy :
    (let s := scanning (timed.setReg pIMG 0x804 (0x0402 * 65536))
     let t := after (.regionClear fw 3) s
     taskBusy (rgnTask 3 s) s = true ∧ t.mem = s.mem ∧ t.bit pIMG IMG_IRQ_RAW_RGNERR = true) := by decide +kernel

/-- ADDR 0x10000, LEN 8, SRC 0x10000000 are good for every command but a hash into slots in use. -/
def norReady : State := ((timed.setReg pXFL 0x044 0x10000).setReg pXFL 0x048 8).setReg pXFL 0x04C 0x10000000

theorem test_nor :
    (let t := after (.xflErase fw) norReady
     t.boot.nor = some ⟨0, 0x10000, 8, 0x10000000⟩ ∧ t.bit pXFL XFL_STAT_BUSY = true ∧
     (after (.xflDone false) (t.wb (norBase + 0x10004) 3)).rb (norBase + 0x10004) = 0xFF ∧
     (after (.xflDone false) t).bit pXFL XFL_IRQ_RAW_DONE = true) ∧
    (after (.xflProg fw) (norReady.setReg pXFL 0x048 256)).bit pXFL XFL_STAT_BUSY = true ∧ (after (.xflHash fw) norReady).bit pXFL XFL_STAT_BUSY = true ∧
    (let t := after (.xflRead fw) (norReady.wb (norBase + 0x10004) 3)
     (after (.xflDone false) t).rb 0x10000004 = 3) ∧
    (let s := { norReady.wb 0x10000004 3 with boot := { norReady.boot with nor := some ⟨1, 0x10000, 8, 0x10000000⟩ } }
     (after (.xflDone false) s).rb (norBase + 0x10004) = 3 ∧ s.rb (norBase + 0x10004) = 0xFF) ∧
    (let s := { norReady.wbytes (norBase + 0x10000) [0x61, 0x62, 0x63] with
                boot := { norReady.boot with nor := some ⟨2, 0x10000, 3, 0x10000000⟩ } }
     (after (.xflDone false) s).reg pXFL 0x060 = 0xBF1678BA ∧ (after (.xflDone false) s).reg pXFL 0x07C = 0xAD1500F2) ∧
    (after (.xflErase fw) (norReady.setReg pXFL 0x044 0x4000000)).g pXFL XFL_RES_STATUS = 1 := by decide +kernel

/-! ## The link (R20 to R44) -/

def training : State :=
  (timed.put pDDL DDL_STAT_STATE stTrain).put pDDLM DDL_STAT_STATE stTrain

theorem test_link_states :
    (after (.trainTimeout .muslin) training).linkState .muslin = stDown ∧
    (after (.trainTimeout .muslin) training).linkState .damask = stTrain ∧
    (after (.linkDownTimeout .damask) timed).linkState .damask = stDown ∧
    (let s := timed.put pDDL DDL_STAT_STATE stDown
     mayTrain .damask s = true ∧ (after (.downWaitExpiry .damask) s).linkState .damask = stTrain) ∧
    (let s := { training with mtb := 9 }
     let t := after (.trainingComplete 7) s
     s.mtb < s.damask.since + 20000 ∧ s.replica < s.muslin.since + 20000 ∧
     t.linkState .damask = stPair ∧ t.linkState .muslin = stPair ∧ t.g pDDLM DDL_M_DELAY_DELAY = 7) ∧
    timed.bit pDDL DDL_CTRL_EN = true ∧ (after (.retrain fw .damask) timed).linkState .damask = stTrain ∧
    (after (.linkEn fw .damask false) (openLock pDDL { timed with mtb := 9 })).linkState .damask = stDown ∧
    (after (.loopback fw .muslin true) (openLock pDDLM timed)).linkState .muslin = stDown ∧
    (after .linkReset timed).linkState .muslin = stTrain := by decide +kernel

/-- Both dies of one assembly have one pairing secret: the link comes UP paired. -/
theorem test_pairing :
    ((training.put pDDL DDL_STAT_STATE stPair).put pDDLM DDL_STAT_STATE stPair).linkState .damask = stPair ∧
    (after .pairing ((training.put pDDL DDL_STAT_STATE stPair).put pDDLM DDL_STAT_STATE stPair)).linkUp .damask = true := by
  decide +kernel

def up : State := { linked State.reset with mtb := 100, replica := 100 }
def sent (n : BitVec 7) : Sent := ⟨mkPacket tEvent false 0 0 n [1], 90, 0⟩
def held : State := { up with muslin := { up.muslin with unacked := [sent 3, sent 4, sent 5] } }

theorem test_acknowledge :
    (let p := mkPacket tAck false 0 0 4 []
     Arrives .muslin p tAck held ∧ (after (.ack .muslin p) held).muslin.unacked = [sent 5]) ∧
    (let p := mkPacket tNak false 0 0 4 []
     Arrives .muslin p tNak held ∧ (after (.nak .muslin p) held).muslin.lanes.map (·.seq) = [4, 5] ∧
     (after (.nak .muslin p) held).g pDDLM DDL_ERRCNT_REPLAYCNT = 2) ∧
    (after (.replayTimeout .muslin) held).muslin.lanes.map (·.seq) = [3, 4, 5] ∧
    (after (.replayTimeout .muslin) { held with muslin := { held.muslin with unacked := [{ sent 3 with replays := 16 }] } }).linkState
      .muslin = stDown ∧
    (after (.ackTimeout .muslin) { up with muslin := { up.muslin with accepted := 2, rxSeq := 9 } }).muslin.lanes.map (·.seq) = [8] := by
  decide +kernel

theorem test_credits_and_heartbeats :
    (let p := mkPacket tCredit false 0 0 0 [0x04030201]
     let s := up.put pDDL (creditFld 2) 254
     Arrives .damask p tCredit s ∧ (after (.credit .damask p) s).g pDDL (creditFld 2) = 255 ∧
     (after (.credit .damask p) (up.put pDDL (creditFld 0) 4)).g pDDL (creditFld 0) = 5) ∧
    (let p := mkPacket tHeartbeat false 0 0 0 []
     Arrives .damask p tHeartbeat up ∧ (after (.heartbeat .damask p) up).damask.lastValid = 100) ∧
    (let p := mkPacket tHeartbeat false 0 0 0 [500, 0]
     (after (.heartbeat .muslin p) up).replica = 500 ∧ (after (.heartbeat .muslin p) up).bit pDDLM DDL_IRQ_RAW_MTBSTEP = true) ∧
    (let p := mkPacket tHeartbeat false 0 0 0 [100, 0]
     (after (.heartbeat .muslin p) up).rep.synced = 1) ∧
    (after (.heartbeatSend .damask) up).damask.lanes = [mkPacket tHeartbeat false 0 0 0 [1000, 0]] ∧
    (let p := { mkPacket tAck false 0 0 4 [] with crc := 0 }
     p.crcGood = false ∧ (after (.ack .damask p) up).g pDDL DDL_ERRCNT_CRCCNT = 1 ∧
     (after (.ack .damask p) up).bit pDDL DDL_IRQ_RAW_CRCERR = true ∧
     (after (.ack .muslin p) held).muslin.unacked.take 3 = [sent 3, sent 4, sent 5]) := by decide +kernel

/-- Muslin page 1 (MSYS + 1) answers a read; an address between the regions is an error. -/
theorem test_requests :
    (let p := mkPacket tRdReq true 0 9 0 [0x00001014]
     let s := up.setReg 65 0x014 6
     InOrder .muslin p tRdReq s ∧ (after (.rdReq p) s).muslin.lanes.getLast? = some (mkPacket tRdRsp false 0 9 0 [6]) ∧
     (after (.rdReq (mkPacket tRdReq true 0 9 0 [0x00015000])) s).muslin.lanes.getLast? = some (mkPacket tRdRsp true 0 9 0 [0])) ∧
    (let p := mkPacket tWrReq true 0 9 0 [0x00001014, 0xFFFFFFFF]
     (after (.wrReq p 0) up).muslin.lanes.getLast? = some (mkPacket tWrRsp false 0 9 0 []) ∧
     (after (.wrReq p 0) up).reg 65 0x014 = irqMask 65 ∧
     (after (.wrReq (mkPacket tWrReq true 0 9 0 [0x00020000, 1]) 0) up).muslin.lanes.getLast? = some (mkPacket tWrRsp true 0 9 0 [])) := by
  decide +kernel

/-- Engine 5 waits for the response to tag 9: a half word into g4. -/
def asked : State :=
  let s := running up
  { s with txns := [(9, some ⟨5, some (.h, 4), 0x58000042, 0, true, none, false, false⟩)] }

theorem test_responses :
    (let p := mkPacket tRdRsp false 0 9 0 [0x8001FFFF]
     InOrder .damask p tRdRsp asked ∧ txnOf 9 asked ≠ none ∧ gr 5 4 (after (.rdRsp p) asked) = 0xFFFF8001 ∧
     txnOf 9 (after (.rdRsp p) asked) = none) ∧
    (let p := mkPacket tRdRsp true 0 9 0 [0]
     ((after (.rdRsp p) asked).eng 5).remErr = some 0x58000042 ∧ gr 5 4 (after (.rdRsp p) asked) = 0) ∧
    (let s := { asked with txns := [(9, some ⟨5, none, 0x58000042, 0, true, none, false, false⟩)] }
     txnOf 9 (after (.wrRsp (mkPacket tWrRsp false 0 9 0 [])) s) = none) := by decide +kernel

theorem test_events_and_samples :
    (let p := mkPacket tEvent false 0 0 0 [0x04000000, 5, 0, 0x1F]
     InOrder .damask p tEvent up ∧ (packetEvent p).code = 0 ∧ (after (.eventPacket p) up).ev.levels = 0x1F) ∧
    (let p := mkPacket tEvent false 0 0 0 [0x04100003, 5, 0, 0, 0, 0]
     (after (.eventPacket p) up).ev.waiting.map (fun e => (e.code, e.stamp, e.ready)) = [(3, 5, 100)]) ∧
    (let p := mkPacket tSample false 0 0 0 [0x10000000, 7, 0, 0xAABBCCDD]
     (after (.samplePacket p) up).inputs.parts = [(1, 7, [0xDD, 0xCC, 0xBB, 0xAA])]) ∧
    (let p := mkPacket tSealed false 0 0 0 [0x00000040]
     (after (.sealedTransfer .muslin p) up).muslin.sealIn = [0x40, 0, 0, 0]) := by decide +kernel

/-- A packet that opens transfer `xid`, and one that is all of it. -/
def opens (xid : Nat) : Packet := mkPacket tBulk false 0 0 0 [word (xid * 2 ^ 24 + 2 ^ 23), 1, 2]
def whole (xid : Nat) : Packet := mkPacket tBulk false 0 0 0 [word (xid * 2 ^ 24 + 2 ^ 23 + 2 ^ 22), 1, 2]

theorem test_bulk_opens : OpensBulk .muslin 0x01 (opens 0x01) up ∧ OpensBulk .damask 0x06 (opens 0x06) up ∧
    bulkHeld .muslin 0x01 (after (.outputImageTransfer (opens 0x01)) up) = some [1, 2] ∧
    bulkHeld .muslin 0x02 (after (.retainTransfer (opens 0x02)) up) = some [1, 2] ∧
    bulkHeld .damask 0x03 (after (.retainRestoreTransfer (opens 0x03)) up) = some [1, 2] ∧
    bulkHeld .muslin 0x04 (after (.eventRecordTransfer (opens 0x04)) up) = some [1, 2] ∧
    bulkHeld .muslin 0x05 (after (.hartRequest (opens 0x05)) up) = some [1, 2] ∧
    bulkHeld .damask 0x06 (after (.hartResultTransfer (opens 0x06)) up) = some [1, 2] ∧
    bulkHeld .damask 0xC1 (after (.vaultRequest .damask (opens 0xC1)) up) = some [1, 2] ∧
    bulkHeld .muslin 0xC1 (after (.vaultRequest .muslin (opens 0xC1)) up) = some [1, 2] ∧
    bulkHeld .damask 0x07 (after (.blockTransfer (some (.damask, opens 0x07))) up) = some [1, 2] := by decide +kernel

theorem test_bulk_whole :
    (let s := { up with replica := 98000, muslin := { up.muslin with lastValid := 97900 } }
     (after (.outputImageTransfer (whole 0x01)) s).field.xfer = some [1, 0, 0, 0, 2, 0, 0, 0] ∧
     (after (.outputImageTransfer (whole 0x01)) { s with replica := 100000 }).field.xfer = none) ∧
    ((after (.eventRecordTransfer (whole 0x04)) up).evr.queue.drop up.evr.queue.length).map (fun b => (b.length, b.take 4)) = [(32, [1, 0, 0, 0])] := by
  decide +kernel

/-- The first bytes of AIO records at 0x10040000, DIO records at 0x10042000, feeder records at 0x10044000. -/
def delivered : State :=
  let s := ((up.put pAIO AIO_INBASE_BASE 0x1004000).put pDIO DIO_INBASE_BASE 0x1004200).put pMTR MTR_IMGBASE_BASE 0x1004400
  { s with inputs := { s.inputs with locals := [⟨1, 0, 0, [1, 2, 3]⟩, ⟨2, 0, 0, [4, 5]⟩], feeders := [(1, 0, [6, 7])] } }

theorem test_deliveries : damaskOn delivered = true ∧ holdsUpdate .east 0 0 delivered = false ∧ holdsUpdate .west 0 0 delivered = false ∧
    (let t := after .localInputUpdate delivered
     t.rb 0x10040002 = 3 ∧ t.rb 0x10042001 = 5 ∧ t.rb 0x10042002 = 0 ∧ t.inputs.locals = []) ∧
    (let t := after .loneDeliveryTimeout { delivered with inputs := { delivered.inputs with locals := [⟨1, 0, 0, [1, 2, 3]⟩] } }
     t.mtb = 110000 ∧ t.rb 0x10040002 = 3) ∧
    (let t := after .feederRecordWrite delivered
     t.rb 0x100440C1 = 7 ∧ t.rb 0x100440BF = 0 ∧ t.inputs.feeders = []) := by decide +kernel

/-- Whole deliveries wait. -/
theorem test_delivery_lengths :
    (List.replicate 512 (3 : Byte)).length = 512 ∧ (List.replicate 144 (4 : Byte)).length = 144 ∧
    (List.replicate 192 (5 : Byte)).length = 192 ∧ 0x10040000 + 512 ≤ 0x10042000 := by decide +kernel

/-! ## Time and scans (R46, R116 to R136) -/

def noSample : FieldSample :=
  { volts := 24000, analog := [], inputs := 0, limits := 0, store := 40000, ceff := none, supply := 24000, decayed := [], straps := noStraps }

theorem test_time_comes :
    (let s := ({ booted State.reset with cmp := [(0, 700)] }).put pMTB (cmpEn 0) 1
     damaskOn s = true ∧ (after (.mtbCompareFire 0) s).mtb = 700 ∧ (after (.mtbCompareFire 0) s).bit pMTB (cmpEn 0) = false ∧
     (after (.mtbCompareFire 0) s).bit pMTB ⟨0x010, 0, 1⟩ = true) ∧
    (let t := after (.baseTick 0) (booted State.reset)
     t.sched.btick = 1 ∧ t.mtb = 25000 ∧ t.bit pMTB MTB_IRQ_RAW_BTICK = true) ∧
    (after .outputTransferCutoff (booted State.reset)).mtb = 98000 ∧
    (let s := { State.reset with power := { State.reset.power with failed := true } }
     (after (.fieldTick noSample) s).field.tick = 1 ∧ (after (.fieldTick noSample) s).replica = 100000) := by decide +kernel

/-- The output image leaves in 38 packets of 15 words: the first one. -/
theorem test_cutoff_packet :
    (let t := after .outputTransferCutoff (linked (booted State.reset))
     (t.damask.lanes ++ t.damask.waiting).any
       (fun q => q.type == tBulk && q.data == 0x01800000 :: List.replicate 15 0) = true) := by decide +kernel

/-- Task 2 enabled with period 4 and phase 0 under profile 0, whose image stands at 0x10000000; base tick 8 comes next. -/
def periodic : State :=
  let s := booted State.reset
  let s := s.setTask 2 { s.task 2 with entry := some entry2, placed := true }
  let s := setEnabled 2 true (((s.put pPRF PRF_BASE_BASE 0x400).put pSCH SCH_STAT_EN 1).put pSCH SCH_CTRL_HOLDE 0)
  { (s.ww 0x10000048 4) with sched := { s.sched with tasks := s.sched.tasks, btick := 7 } }

theorem test_release : taskEnabled 2 periodic = true ∧ profilePeriod (profileAt 8 periodic) 2 periodic = 4 ∧
    periodic.bit pPRF PRF_STAT_PINEN = false ∧ periodic.sched.defer = none ∧
    ((after (.baseTick 0) periodic).task 2).scan.map (fun c => (c.btick, c.phase)) = some (8, .due) ∧
    ((after (.baseTick 0) periodic).task 2).lastRel = some 8 := by decide +kernel

/-- The scan of base tick 8 is still live at base tick 12. -/
def overdue : State :=
  let s := scanning periodic
  s.setTask 2 { s.task 2 with entry := some entry2 }

theorem test_deadline : deadlineTick 2 overdue = some 12 ∧
    (let t := after (.scanDeadline 2) overdue
     (t.task 2).scan.map (·.overrunAt) = some 12 ∧ (t.task 2).lastRel = some 12 ∧ t.bit pSCH SCH_IRQ_RAW_SKIP = true ∧
     t.g (tskPage 2) TSK_SKIPS_COUNT = 1) ∧
    (let t := after (.scanDeadline 2) (overdue.setTask 2 { overdue.task 2 with entry := some { entry2 with abort := true } })
     t.bit pSCH SCH_IRQ_RAW_ABORT = true ∧ t.g (tskPage 2) TSK_ABORTS_COUNT = 1 ∧ (t.task 2).lastRel = some 12) := by
  decide +kernel

theorem test_scheduler_commands :
    ((after (.schedulerEnable fw true) (openLock pSCH (periodic.put pSCH SCH_STAT_EN 0))).bit pSCH SCH_STAT_EN = true) ∧
    (let t := after (.schedulerEnable fw false) (openLock pSCH (overdue.put pSCH SCH_CTRL_EN 1))
     t.bit pSCH SCH_STAT_EN = false ∧ (t.task 2).scan = none ∧ taskEnabled 2 t = false) ∧
    halfHeld .west (after (.holdHalf fw .west false) periodic) = false ∧ halfHeld .east (after (.holdHalf fw .east true) periodic) = true ∧
    (after (.btickLoRead fw) { periodic with mtb := 75003 }).answer = 3 ∧
    (after (.nextLoRead fw) periodic).answer = word (nextRelease (tskSelected periodic) periodic) := by decide +kernel

/-- Task 2's entry in the table at 0x10002000 is all zero: it fails its validation. -/
theorem test_task_validation :
    (let s := { periodic with sched := { periodic.sched with toValidate := [2] } }
     let s := ((s.put pPRF PRF_STAT_VALID 1).put pSCH SCH_TBASE_BASE 0x10002).ww 0x10000000 0
     profileEnables 2 s = true ∧ validate 2 (profilePeriod (activeProfile s) 2 s) s = none ∧
     (after (.taskValidation 2) s).bit (tskPage 2) TSK_TSTAT_GRAPHERR = true ∧
     (after (.taskValidation 2) s).bit pSCH SCH_IRQ_RAW_GRAPHERR = true) := by decide +kernel

/-- The scan is ready: one job that needs no other. -/
def ready2 : State :=
  let s := scanning periodic
  s.setTask 2 { s.task 2 with scan := (s.task 2).scan.map fun c => { c with phase := .ready } }

theorem test_execute_start : taskPending 2 ready2 = false ∧
    (let t := after (.executeStart 2) ready2
     (t.task 2).scan.map (·.phase) = some .execute ∧ t.rh 0x10002000 = 0 ∧ anyQueued 2 t = true) ∧
    taskPending 2 (after (.copyForwardDone 2) { ready2 with sched := { ready2.sched with copies := [⟨2, 1, [3]⟩] } }) = false := by
  decide +kernel

/-- A phase of task 2 with one entry of 4 bytes: point 0 to offset 16 of XB, or offset 16 of staging to point 0. -/
def phase2 (publish started : Bool) : CopyPhase :=
  { task := 2, publish := publish, entry := 0, at_ := 0, started := started, base := 0x10003000, list := 0x10005000, count := 1, dom := 3,
    violated := false }
def copying (publish started : Bool) : State :=
  let s := ready2.setTask 2 { ready2.task 2 with scan := (ready2.task 2).scan.map fun c => { c with phase := .due, skippedBase := 7 } }
  let s := s.setCopyQ .east [phase2 publish started]
  (((s.ww 0x10005000 0x10040000).wh 0x10005004 16).wh 0x10005006 4).ww (if publish then 0x10003010 else 0x10040000) 0x12345678

theorem test_snapshot :
    (let t := after (.snapshotStart .east) (copying false false)
     snapshotWaits .east (phase2 false false) (copying false false) = false ∧ t.rw 0x10003004 = 7 ∧ t.rw 0x1000300C = 0 ∧
     (t.task 2).scan.map (·.phase) = some (.snapshot 0)) ∧
    (let s := copying false true
     entryReadable 3 0x10003000 0x10004000 0x10040000 4 (setPointTag 0 3 s) = true ∧
     (after (.snapshotEntry .east none) (setPointTag 0 3 s)).rw 0x10003010 = 0x12345678 ∧
     entryReadable 3 0x10003000 0x10004000 0x10040000 4 s = false ∧
     ((after (.snapshotEntry .east none) s).task 2).scan.map (·.violated) = some true) := by decide +kernel

theorem test_publish :
    (let s := setPointTag 0 (3 + 16) (copying true true)
     entryWritable 3 0x10003000 0x10040000 4 s = true ∧ profileValid (activeProfile s) s = false ∧
     (after (.publishEntry .east none) s).rw 0x10040000 = 0x12345678) ∧
    (let s := copying true true
     entryWritable 3 0x10003000 0x10040000 4 s = false ∧ (after (.publishEntry .east none) s).mem = s.mem) := by decide +kernel

/-! ## Floor bus (R156 to R188) -/

def canFrame (id : BitVec 29) (data : List Byte) : CanFrame :=
  { id := id, ide := false, fdf := false, brs := false, esi := false, rtr := false, dlc := BitVec.ofNat 4 data.length, data := data }

/-- FB0 in NORMAL without a schedule; object 3 receives 0x123, object 4 sends 0x77. -/
def bus : State :=
  let s := (booted State.reset).put (fbPage 0) FB_CTRL_MODE 1
  ((((s.ww (objAddr 0 3) 0x80000000).ww (objAddr 0 3 + 4) 0x123).ww (objAddr 0 3 + 8) 0x7FF).ww (objAddr 0 4) 0xC0000002).ww
    (objAddr 0 4 + 4) 0x77

theorem test_frame_receive : fbMode 0 bus = 1 ∧ busOff 0 bus = false ∧ isReference 0 (canFrame 0x123 [9]) bus = false ∧
    matchObj 0 (canFrame 0x123 [9]) (namedByCells 0 bus) bus = some 3 ∧ matchObj 0 (canFrame 0x124 []) (namedByCells 0 bus) bus = none ∧
    (let t := after (.frameReceive 0 (canFrame 0x123 [9, 8]) 50) bus
     t.rb (objAddr 0 3 + 0x41) = 8 ∧ t.rw (objAddr 0 3 + 0x14) = 0x123 ∧ objStat 0 3 t = 0x01800002) ∧
    (after (.frameReceive 0 (canFrame 0x124 []) 50) bus).g (fbPage 0) FB_CNT_LOST_UNMATCHED = 1 ∧
    (let t := after (.frameError 0 2 true 50) bus
     t.g (fbPage 0) FB_ERR_LEC = 2 ∧ t.g (fbPage 0) FB_ERR_REC = 8 ∧ t.mem = bus.mem) := by decide +kernel

/-- The master's cycle of 1,000 µs: window 0 sends object 4 from 100 µs, window 1 receives object 3 from 500 µs. -/
def cyclic : State :=
  let s := ((bus.put (fbPage 0) FB_CTRL_SCHED 1).put (fbPage 0) FB_CYCLE_CYCLEN 1000).put (fbPage 0) FB_STAT_TSTATE 4
  let s := ((s.ww (cellAddr 0) 0x80040064).ww (cellAddr 1) 0x400301F4).ww (cellAddr 2) 0x0000FFFF
  s.setFb 0 { s.fb 0 with cycle := some 0, bankOk := true }

theorem test_windows : currentRow 0 cyclic = [⟨2, 4, 100⟩, ⟨1, 3, 500⟩] ∧ maySend 0 cyclic = true ∧ nextWin 0 cyclic = 0 ∧
    (let t := after (.txObjectFetch 0) cyclic
     (t.fb 0).fetched.map (fun x => (x.1, x.2.frame.id)) = some (0, 0x77) ∧
     (let u := after (.windowOpen 0) t
      (u.fb 0).win = some 0 ∧ (u.fb 0).tx.map (fun x => x.what) = some (.object 4) ∧
      (after (.windowClose 0 false false) u).g (fbPage 0) FB_CNT_MISS_TXMISS = 1)) ∧
    (objStat 0 4 (after (.txObjectFetch 0) (cyclic.ww (objAddr 0 4 + 12) 0x8000))) = 0xC000 ∧
    (let s := cyclic.setFb 0 { cyclic.fb 0 with win := some 0 }
     let t := after (.windowOpen 0) s
     (t.fb 0).ex.map (fun v => (v.obj, v.open_, v.close)) = some (3, 50000, 100000) ∧
     (after (.windowClose 0 false false) t).g (fbPage 0) FB_CNT_MISS_RXMISS = 1 ∧
     ((after (.windowClose 0 true false) t).fb 0).late.map (·.obj) = [3]) := by decide +kernel

/-- The object's frame is on the bus: an error leaves it to a further attempt, and it is sent in its window. -/
theorem test_object_frame :
    (let t := after (.windowOpen 0) (after (.txObjectFetch 0) cyclic)
     (t.fb 0).tx.map (·.what) = some (.object 4) ∧ (t.fb 0).ex.map (fun e => (e.obj, e.transmit, e.inside 10050)) = some (4, true, true) ∧
     ((after (.txFrameEnd 0 10050 (.error 1) none) t).fb 0).tx = (t.fb 0).tx ∧
     (let u := after (.txFrameEnd 0 10050 .sent none) t
      (u.fb 0).tx = none ∧ (objStat 0 4 u).getLsbD 23 = true ∧ u.g (fbPage 0) FB_CNT_TX_COUNT = 1 ∧
      u.rw (objAddr 0 4 + 0x10) = 10056)) := by decide +kernel

/-- Ring A of queue 20 holds a frame with identifier 0x55 and two bytes. -/
def ringed : State :=
  let s := openRings 20 bus
  ((s.ww 0x10010000 0x55).wb 0x10010004 2).wh 0x10010010 0xBBAA

theorem test_ring_frame : (headA 20 ringed).isSome = true ∧
    (let t := after (.arbitratingTransmit 0) ringed
     (t.fb 0).tx.map (fun x => (x.frame.id, x.frame.data)) = some (0x55, [0xAA, 0xBB]) ∧
     (let u := after (.txFrameEnd 0 60 .sent (some 200)) t
      (u.fb 0).tx = none ∧ (ringA u 20).cons = 1 ∧ u.g (fbPage 0) FB_CNT_TX_COUNT = 1) ∧
     (after (.txFrameEnd 0 60 (.error 1) none) t).g (fbPage 0) FB_ERR_TEC = 8) := by decide +kernel

theorem test_references : isMaster 0 cyclic = true ∧ nextNominal 0 cyclic = 100000 ∧ (cyclic.fb 0).req = [] ∧
    (let t := after (.referenceSend 0 100010) cyclic
     (t.fb 0).cycle = some 0 ∧ (t.fb 0).refAt = some 100000 ∧ (t.fb 0).tx.map (fun x => x.what) = some .reference ∧
     (let u := after (.txFrameEnd 0 100010 .sent none) t
      (u.fb 0).cycle = some 100016 ∧ (u.fb 0).nominal = 100000 ∧ (u.fb 0).refAt = none)) ∧
    refUnderWay 0 cyclic = false ∧
    (let t := after (.referenceAbandon 0) cyclic
     (t.fb 0).cycle = some 100000 ∧ t.bit (fbPage 0) FB_IRQ_RAW_REFMISS = true) ∧
    (let s := cyclic.put (fbPage 0) FB_CTRL_ROLE 1
     isFollower 0 s = true ∧ ((after (.acceptanceTimeout 0) (s.put (fbPage 0) FB_CYCLE_REFLIM 1)).fb 0).cycle = none ∧
     ((after (.acceptanceTimeout 0) (s.put (fbPage 0) FB_CYCLE_REFLIM 3)).fb 0).cycle = some 100000 ∧
     (let u := after (.referenceReceive 0 [0, 0, 0, 0, 0, 0, 0, 0] 7000) (s.setFb 0 { s.fb 0 with cycle := none })
      u.g (fbPage 0) FB_STAT_TSTATE = 2 ∧ (u.fb 0).cycle.isSome = true)) := by decide +kernel

theorem test_bus_off :
    (after (.recover fw 0) (bus.put (fbPage 0) FB_STAT_ERRSTATE 2)).g (fbPage 0) FB_STAT_ERRSTATE = 3 ∧
    (after (.busoffRecoveryDone 0) (bus.put (fbPage 0) FB_STAT_ERRSTATE 3)).g (fbPage 0) FB_STAT_ERRSTATE = 0 := by decide +kernel

theorem test_floor_bus_configuration :
    (after (.fbCtrlWrite fw 1 0x11) (openLock (fbPage 1) bus)).g (fbPage 1) FB_STAT_TSTATE = 4 ∧
    fbMode 0 (after (.fbCtrlWrite fw 0 0) (openLock (fbPage 0) bus)) = 0 ∧
    (bankFault 0 1 cyclic = none ∧ ((after (.bankRequest fw 0 1) cyclic).fb 0).req = [(1, 0)]) ∧
    (let s := cyclic.ww (cellAddr 2048) 0x800501F4
     bankFault 0 1 s = some (3, 2048) ∧ (after (.bankRequest fw 0 1) s).reg pFBT 0x048 = 0x30800) ∧
    (after (.mdataAccess fw (some 0xFFFFFFFF)) (bus.setReg pFBT 0x040 2048)).rw (cellAddr 2048) = 0xC0FFFFFF ∧
    cellInUse 0 cyclic = true ∧ (after (.mdataAccess fw (some 1)) cyclic).bit pFBT FBT_IRQ_RAW_WRACT = true ∧
    (after (.mdataAccess fw none) cyclic).answer = 0x80040064 ∧
    redundant (after (.redundantWrite fw true) (openLock pFBT (booted State.reset))) = true ∧
    (after (.redundantWrite fw true) (openLock pFBT bus)).bit pFBT FBT_IRQ_RAW_CFGERR = true := by decide +kernel

/-- The loop delay of a frame with bit rate switching; a reference that a master hears; a ring frame that fails goes again; an
object that follows the frame on the bus. -/
theorem test_frames_on_the_bus :
    (measureLoop 0 { canFrame 0x123 [9] with fdf := true, brs := true } (some 200) (bus.put (fbPage 0) FB_TDC_TDCEN 1)).g
      (fbPage 0) FB_TDC_TDCV = 127 ∧
    (let s := cyclic.put (fbPage 0) FB_ERR_REC 5
     isReference 0 (canFrame 0 (List.replicate 8 0)) s = true ∧
     (after (.frameReceive 0 (canFrame 0 (List.replicate 8 0)) 50) s).g (fbPage 0) FB_ERR_REC = 4) ∧
    (let t := after (.txFrameEnd 0 60 .lostArbitration none) (after (.arbitratingTransmit 0) ringed)
     (t.fb 0).tx = none ∧ (t.fb 0).held.map (·.id) = some 0x55 ∧
     ((after (.arbitratingTransmit 0) t).fb 0).tx.map (·.frame.id) = some 0x55) ∧
    (let s := cyclic.setFb 0 { cyclic.fb 0 with tx := some ⟨.ring, canFrame 5 []⟩ }
     let t := after (.windowOpen 0) (after (.txObjectFetch 0) s)
     (t.fb 0).tx.map (·.frame.id) = some 5 ∧ (t.fb 0).next.map (·.frame.id) = some 0x77) := by decide +kernel

/-! ## Stations (R193 to R199) -/

/-- Station 1: one input frame of 8 bytes in object 3, one output frame of 8 bytes in object 4; areas in point space. -/
def station : State :=
  let s := ((cyclic.put pRIO RIO_CTRL_EN 1).put pRIO RIO_SIDX_STN 1).setReg (stnPage 1) 0x044 0x80920408
  let s := ((s.setReg (stnPage 1) 0x048 3).setReg (stnPage 1) 0x04C 4).setReg (stnPage 1) 0x050 0x10040000
  let s := s.setReg (stnPage 1) 0x054 0x10041000
  s.setStn 1 { s.stn 1 with served := true, settled := [true] }

theorem test_station_inputs : stationChan 1 station = some 0 ∧ stnServed 1 station = true ∧ infr 1 station = 1 ∧
    (let s := ((station.ww (objAddr 0 3 + 12) 8).wb (objAddr 0 3 + 0x40) 1).wb (objAddr 0 3 + 0x42) 6
     (judge 0 1 s).1 = true ∧
     (let t := after (.inputDecision 1) s
      (t.stn 1).write = some (true, statusRecord 1 t) ∧ (statusRecord 1 t).length = 16 ∧ inPoints (sibase 1 t) = true ∧ t.bit (stnPage 1) RIO_SSTAT_VALID = true ∧
      (let u := after (.stationImageWrite 1) t
       u.rb 0x10040010 = (t.stn 1).image.getD 0 0 ∧ u.rb 0x10040000 = (statusRecord 1 t).getD 0 0 ∧ (u.stn 1).write = none))) ∧
    (let t := after (.inputDecision 1) station
     (judge 0 1 station).1 = false ∧ (t.stn 1).misses = 1 ∧ t.bit (stnPage 1) RIO_SSTAT_STALE = true) := by decide +kernel

theorem test_station_outputs : (oobjs 1 station).head? = some 4 ∧
    (after (.outputSetBuild 1) station).rb (objAddr 0 4 + 0x40) = 1 ∧ ((after (.outputSetBuild 1) station).stn 1).oseq = 1 := by
  decide +kernel

theorem test_station_enable : stnSelected station = some 1 ∧
    stnEnabled 1 (after (.stationEnable fw 0) station) = false ∧
    (let s := station.setReg (stnPage 1) 0x044 0
     stnEnabled 1 (after (.stationEnable fw 0x80920408) s) = true) := by decide +kernel

/-- Both halves run at counts 0, and the link is UP. -/
def worn6 : State := linked (booted State.reset)

/-! ## Field side (R207 to R225, R367) -/

/-- Channel 3 drives a current in force. -/
def driving : State :=
  let s := worn6.setReg (aioPage 3) 0x0A0 4
  s.setAin 3 { s.ain 3 with cfg := 4, target := some 0x3F800000 }

theorem test_protection : isOutput (driving.ain 3).mode = true ∧ (driving.ain 3).prot = false ∧
    (let t := after (.protectedStateEntry 3) driving
     (t.ain 3).prot = true ∧ (t.ain 3).target = none ∧ t.bit (aioPage 3) (af AIOC_STS_MISWIRE 3) = true ∧
     (let u := after (.miswireRearm fw 3) t
      u.bit (aioPage 3) (af AIOC_STS_MISWIRE 3) = false ∧ (u.ain 3).rearm = true)) := by decide +kernel

/-- AO_MA reserves 25 mA: over a cap of 20 it is refused. -/
theorem test_channel_configuration : reservation 4 4 worn6 = 25 ∧
    (after (.aioCfgWrite fw 4 4) worn6).reg (aioPage 4) 0x0C0 = 4 ∧
    (let t := after (.aioCfgWrite fw 4 4) (worn6.put pPMU PMU_FIELD_CAP_CAP 20)
     t.reg (aioPage 4) 0x0C0 = 0 ∧ t.bit (aioPage 4) (af AIOC_STS_REFUSED 4) = true ∧ t.bit pAIO AIO_IRQ_RAW_BUDGET = true) := by
  decide +kernel

theorem test_record_bases :
    (after (.recordBaseWrite fw .dioIn 0x10040018) worn6).reg pDIO 0x040 = 0x10040010 ∧
    (after (.recordBaseWrite fw .meter 0x1005FFF0) worn6).reg pMTR 0x040 = 0 ∧
    (after (.recordBaseWrite fw .aioIn 0x1005FE00) worn6).reg (recordBase .aioIn).1 (recordBase .aioIn).2 = 0x1005FE00 ∧
    (after (.recordBaseWrite fw .aioOut 0x10040000) worn6).reg (recordBase .aioOut).1 (recordBase .aioOut).2 = 0x10040000 ∧
    (after (.recordBaseWrite fw .dioOut 0x10040000) worn6).reg pDIO 0x044 = 0x10040000 ∧
    (after (.imgenWrite fw .mtr true) worn6).bit pMTR AIO_CTRL_IMGEN = false ∧
    (after (.imgenWrite fw .mtr true) (worn6.setReg pMTR 0x040 0x10040000)).bit pMTR AIO_CTRL_IMGEN = true ∧
    (after (.imgenWrite fw .aio false) worn6).bit pAIO AIO_CTRL_IMGEN = false := by decide +kernel

/-- DO5 is on; its current rises, the output turns off, and tries again. -/
def conducts : State := (worn6.put pAIO AIO_FIELD_VOLT 24000).setDio { worn6.field.dio with want := 0x20 }

theorem test_output_limit : (conducting conducts.field.dio (conducts.g pAIO AIO_FIELD_VOLT)).getLsbD 5 = true ∧
    (let t := after (.outputCurrentLimit 5) conducts
     t.field.dio.lim = 0x20 ∧ t.reg pDIO 0x054 = 0x20 ∧ t.bit pDIO DIO_IRQ_RAW_DOLIM = true ∧
     (let u := after (.limitTurnoff 5) t
      u.field.dio.trip = 0x20 ∧ u.reg pDIO 0x050 = 0 ∧ u.g pDIO DIO_DOTRIPS_COUNT = 1 ∧
      (after (.limitRetry 5) u).field.dio.trip = 0)) ∧
    (let s := worn6.setDio { worn6.field.dio with deb := 0x800000000000 }
     (after (.diLoRead fw) s).g pDIO DIO_DI_HI_STATE = 0x8000) := by decide +kernel

theorem test_hold :
    (let s := { worn6.put pOHM OHM_STAT_ENGAGED 1 with field := { worn6.field with holdEnd := 900 } }
     (after .holdExpiry s).field.holdOver = true ∧ (after .holdExpiry s).replica = 900 ∧
     (after (.release fw) s).bit pOHM OHM_CTRL_RELEASE = true ∧ (after (.release fw) s).bit pOHM OHM_STAT_ENGAGED = true) := by
  decide +kernel

/-! ## HART (R229 to R241) -/

/-- Channel 2 is AI_MA with HART, in the role of a primary master, with a request that waits. -/
def loop (role : Nat) : State :=
  let s := (worn6.put pHRT (hf HRT_CFG_ROLE 2) role).put pHRT HRT_CTRL_EN 1
  let s := s.setAin 2 { s.ain 2 with cfg := if role = 3 then 4 else 0x11 }
  s.setModem 2 { s.modem 2 with
    active := some ⟨if role = 3 then .answer else .master, 7, 5, [0x02, 0x01, 0x00, 0x00]⟩, stxEnd := some 0 }

theorem test_hart_sends : hartMaster 2 (loop 1) = true ∧ suppressed 2 (loop 1) = false ∧ hartActive 2 (loop 1) = true ∧
    (let t := after (.hartTxStart 2) (loop 1)
     (t.modem 2).line = [0x02, 0x81, 0x00, 0x00, 0x83] ∧ checkByte (t.modem 2).line = 0 ∧ (t.modem 2).phase = .sending t.replica ∧
     (let u := after (.hartTxEnd 2) t
      (u.modem 2).phase = .response (t.replica + 9166667) (t.replica + 9166667 + 100000 * min 1000 (max 1 (t.g pHRT HRT_TIMEOUT_RTO))) ∧
      (let w := after (.hartResponseDeadline 2) u
       w.g pHRT (hf HRT_STS_LASTST 2) = 1 ∧ w.bit pHRT HRT_IRQ_RAW_TIMEOUT = true ∧ (w.modem 2).phase = .waiting) ∧
      (let x : HartRx := { first := 0, stamp := 1, last := 2, preambles := 5, badParity := false, badGap := false,
                           bytes := [0x06, 0x81, 0x00, 0x02, 0x00, 0x00, 0x85] }
       rxClassified x = true ∧ rxStatus x = 0 ∧ (after (.hartFrameReceive 2 x) u).g pHRT (hf HRT_STS_LASTST 2) = 0 ∧
       ((after (.hartFrameReceive 2 x) u).modem 2).phase = .waiting))) := by decide +kernel

theorem test_hart_answers : hartRole 2 (loop 3) = 3 ∧ suppressed 2 (loop 3) = false ∧
    166667 < answerLimit ((loop 3).modem 2) (loop 3) ∧
    ((after (.hartAnswerStart 2) (loop 3)).modem 2).line = [0x02, 0x01, 0x00, 0x00, 0x03] ∧
    (let s := (loop 3).setModem 2 { (loop 3).modem 2 with stxEnd := none }
     (after (.hartAnswerStart 2) s).g pHRT (hf HRT_STS_LASTST 2) = 7) := by decide +kernel

theorem test_hart_channel :
    (let t := after (.carrierDetect 2 true) (loop 1)
     t.bit pHRT (hf HRT_STS_CARRIER 2) = true ∧ ((after (.carrierDetect 2 false) { t with replica := 77 }).modem 2).quietFrom = 77) ∧
    (let s := (((loop 1).put pHRT (hf HRT_CFG_MULTIDROP 2) 1).setModem 2 { (loop 1).modem 2 with active := none }).setReg pHRT 0x14C 8
     nextPoll 2 s = 3 ∧ hartMultidrop 2 s = true ∧ ((after (.hartPoll 2) s).modem 2).polled = 3 ∧
     (after (.hrtCfgWrite fw 2 0x0502) s).reg pHRT 0x140 = 0x0502) ∧
    (after (.hrtCfgWrite fw 2 0x0502) (loop 1)).bit pHRT HRT_IRQ_RAW_CFGERR = true := by decide +kernel

/-! ## Metering (R245 to R272) -/

/-- Feeder 0 measures phase 1; 1,600 samples have been taken. -/
def metering : State :=
  let s := (worn6.put pMTV MTV_STAT_RUN 1).setReg pMTV 0x0C0 0x80000001
  let s := s.setFeeder 0 { feederDefault 0 with running := true }
  { s with chr := { s.chr with corrSec := 900, corrMtb := 50 }, meter := { s.meter with inInterval := true, count := 1600 } }

/-- The same with channel `n` in a given state. -/
def withChan (n : Nat) (x : MeterChan) (s : State) : State := s.setMeter { s.meter with chans := [(n, x)] }

/-- One sampling instant of zeros. -/
def zeros (now : Nat) : MeterTick := { now := now, bits := List.replicate 32 [true, false] }

theorem test_sampling :
    (let s := withChan 3 { chanIdle 3 with sum := 4800 } metering
     let t := after (.dcSeedDone []) s
     seedDue s = true ∧ t.bit pMTV MTV_STAT_SEEDED = true ∧ feederOn 0 s = true ∧ (t.feeder 0).running = true ∧
     (t.meterChan 3).dc = 3) ∧
    (let s := metering.put pMTV MTV_STAT_SEEDED 1
     let s := withChan 0 { chanIdle 0 with clip := true } (s.setMeter { s.meter with block := 1600 })
     let t := after (.rmsBlockEnd []) s
     blockDue s = true ∧ t.bit pMTV (MTV_CH_CLIP.at 4 0) = true ∧ t.reg pMTR 0x080 = 0) ∧
    (let s := withChan 9 { chanIdle 9 with stuck := true } metering
     stuckDue 9 s = true ∧ (after (.stuckDetect 9 []) s).bit pMTV (MTV_CH_STUCK.at 4 9) = true) ∧
    (let s := (metering.put pMTV (MTV_CH_STUCK.at 4 9) 1).setMeter { metering.meter with count := 8000 }
     stuckOver 9 s = true ∧ (after (.stuckClear 9 []) s).bit pMTV (MTV_CH_STUCK.at 4 9) = false) := by decide +kernel

/-- R246: with DELAY 0 and GAIN 1 a sample leaves 2 samples later. -/
theorem test_chain :
    let c : MeterChan := { chanIdle 0 with past := [5, 6, 7] }
    let s := withChan 0 c metering
    (s.g pMTV (MTV_CH_DELAY.at 4 0), s.g pMTC (MTC_GAIN_GAIN.at 16 0)) = (0, 2 ^ 22) ∧
    (stepChan 0 1 9 [true] c s).past = [9 * 2 ^ 14, 5, 6, 7] ∧ (stepChan 0 1 9 [true] c s).out = [6] := by decide +kernel

/-- R244: 64 ones go through three integrators: 64 × 65 × 66 / 6; each of 64 zeros takes one off. -/
theorem test_sinc :
    let x : Sinc := ⟨0, 0, 0, 0, 0, 0⟩
    ((List.replicate 64 true).foldl Sinc.feed x).take.1 = 45760 ∧ ((List.replicate 64 false).foldl Sinc.feed x).take.1 = -45760 := by
  decide +kernel

/-- A crossing: the voltage has been below the threshold and goes from -100 to 300 codes, a quarter of a sample after -100. -/
theorem test_crossing :
    (crossStep 0 200 (300, -100) { noCross with armed := true }).2 = some (1024 * 200 - 768) ∧
    (crossStep 0 200 (300, -100) { noCross with armed := true, last := some (100, 0) }).2 = none ∧
    (crossStep 0 200 (300, -100) noCross).2 = none := by decide +kernel

/-- A sample of no signal after the start. -/
theorem test_sample :
    let s := metering.setMeter { metering.meter with count := 0 }
    let t := feedMeter [zeros 12500] s
    t.meter.count = 1 ∧ t.replica = 12500 ∧ (t.meterChan 5).values.map (·.2) = [1] ∧ (t.meterChan 5).run = 1 := by decide +kernel

/-- With scales of 1.0 a cycle of one sample with v1 = i1 = 10,000 in codes, which the free-running length ends. -/
def cycleDue : State :=
  let s := (metering.setReg pMTC 0x048 0x3F800000).setReg pMTC (0x048 + 16 * 24) 0x3F800000
  (s.put pMTV MTV_STAT_SEEDED 1).setFeeder 0 { feederDefault 0 with
    running := true, count := 1, c1 := ⟨0, 0, 10000 * 10000 * 2 ^ 28, 0⟩, due := some .timed }

theorem test_cycle_close : measures 0 cycleDue = true ∧ (cycleDue.feeder 0).due = some .timed ∧ demandRuns cycleDue = true ∧
    cycleDue.meter.openAt ≤ newestStamp cycleDue ∧
    (let t := after (.cycleClose 0 []) (cycleDue.setMeter { cycleDue.meter with openSec := 900 })
     (t.feeder 0).acc.getD 0 0 + (t.feeder 0).bill.getD 0 0 * lsbOf 0 metering = 3472222222222222 ∧
     (t.feeder 0).impE = 3472222222222222 ∧ (t.feeder 0).count = 0) := by decide +kernel

theorem test_demand_and_pulses :
    (let t := after .demandBoundary metering
     demandRuns metering = true ∧ dueBoundary metering = some (900, 50) ∧ t.meter.openSec = 900 ∧ t.meter.openAt = 50 ∧
     t.meter.partialNow = false ∧ t.bit pMTE MTE_IRQ_RAW_DEMAND = true ∧ (t.feeder 0).impE = 0 ∧ t.replica = 50) ∧
    (let s := (metering.put pPLS (lf PLS_CFG_EN 1) 1).put pPLS (lf PLS_QUEUE_LEVEL 1) 2
     let t := after (.pulseTimer 1) s
     (t.pulse 1).on = true ∧ t.g pPLS (lf PLS_QUEUE_LEVEL 1) = 1 ∧
     ((after (.pulseTimer 1) { t with replica := 99900001 }).pulse 1).on = false ∧
     (after (.pulseTimer 1) { t with replica := 99900001 }).replica = 100000000) ∧
    (after (.pulseCfgWrite fw 1 false 0xFFFFFFFF) (openLock pPLS metering)).reg pPLS 0x050 = 0x807F0077 ∧
    (after (.demandMaxClear fw 0) metering).reg pMTE 0x308 = 0 ∧ regAbsent pMTE 0x31C metering = false := by decide +kernel

theorem test_meter_saves :
    (let t := after (.meterSave fw) metering
     t.bit pMTE MTE_CTRL_SAVE = true ∧ t.bit pMTE MTE_STAT_SAVEBUSY = true ∧ t.meter.second = true) ∧
    (after .meterSaveTimer { metering with meter := { metering.meter with saveAt := 500 } }).replica = 500 ∧
    (let s := { metering with meter := { metering.meter with retryAt := some 600 } }
     (after .saveRetry s).meter.retryAt = none ∧ (after .saveRetry s).bit pMTE MTE_STAT_SAVEBUSY = true) := by decide +kernel

theorem test_metering_configuration :
    (let t := after (.meteringEnable fw true) (openLock pMTV worn6)
     t.bit pMTV MTV_STAT_RUN = true ∧ t.bit pMTV MTV_CTRL_EN = true) ∧
    (let s := openLock pMTV ((metering.put pMTV MTV_CTRL_EN 1).setFeeder 0 (feederDefault 0))
     (after (.meteringEnable fw false) s).bit pMTV MTV_STAT_RUN = false ∧
     (after (.feederCfgWrite fw 0 0x80000002) s).bit pMTV MTV_IRQ_RAW_CFGERR = true ∧
     (after (.feederCfgWrite fw 1 0x80000001) s).reg pMTV 0x0C4 = 0x80000001) ∧
    (after (.calibrationWrite fw 0 .gain 0xFFFFFFFF) (openLock pMTC metering)).reg pMTC 0x040 = 0xFFFFFF ∧
    (let s := openLock pMTE metering
     (after (.feederClear fw 0) s).bit pMTE MTE_CLR_GO = true ∧ (after (.lsbWrite fw 0 3) s).reg pMTE 0x040 = s.reg pMTE 0x040 ∧
     (after (.lsbWrite fw 1 3) s).reg pMTE 0x044 = 3) ∧
    (let s := metering.setFeeder 0 { metering.feeder 0 with bill := [0x1234500000006, 0, 0, 0, 0, 0] }
     (after (.accloRead fw 0 0) s).reg pMTE 0x104 &&& 0xFFFF = 0x2345) := by decide +kernel

theorem test_config_commit :
    (after (.configCommit fw) metering).bit pMTV MTV_CTRL_COMMIT = true ∧ (after (.configCommit fw) metering).flash.waiting.length = metering.flash.waiting.length + 4 := by
  decide +kernel

/-! ## Flash (R305 to R325) -/

/-- An operation at offset 0x100000 that waits, and energy for it. -/
def nvmOp : FlashOp := ⟨precRaw, .program 0x1C2000 [1, 2, 3, 4, 5, 6, 7, 8], .nvm⟩
def flashWaits : State :=
  { worn6 with flash := { worn6.flash with waiting := [nvmOp] }
               evr := { worn6.evr with queue := [] } }

theorem test_flash_operations : flashWaits.flash.running = none ∧ admitted nvmOp 2 flashWaits = false ∧
    (after .flashOpAdmit flashWaits).bit pNVM NVM_STAT_WAITENERGY = true ∧
    (let s := (flashWaits.put pPMU PMU_CEFF_VALUE 4000).put pPMU PMU_EHOLD_VHOLD 45000
     let t := after .flashOpAdmit s
     admitted nvmOp 2 s = true ∧ t.flash.running.map (·.energy) = some 2 ∧ t.flash.waiting = [] ∧
     (let u := after .flashOpDone t
      u.rb (flashBase + 0x1C2007) = 8 ∧ u.flash.running = none ∧ u.power.pend = 0)) ∧
    (let s := (worn6.ww (flashBase + 4096 * 450) 0)
     let s := { s with flash := { s.flash with running := some ⟨⟨precRaw, .erase 450, .nvm⟩, [.erase 450], 0⟩ } }
     (after .flashOpDone s).rw (flashBase + 4096 * 450) = 0xFFFFFFFF) := by decide +kernel

theorem test_flash_commands_end :
    (let s := { worn6 with flash := { worn6.flash with cmd := some ⟨0, some (3, 9), 0⟩ } }
     (after .nvmCommandDone s).g pNVM NVM_RES_STATUS = 3 ∧ (after .nvmCommandDone s).bit pNVM NVM_IRQ_RAW_REFUSED = true) ∧
    (after .indexBuilt worn6).bit pNVM NVM_STAT_READY = true := by decide +kernel

/-- Sector 5 of the layer is in use with GEN 2. -/
def layer : State :=
  let s := ((worn6.ww (flashBase + 0x5000) 0x00014C45).ww (flashBase + 0x5004) 2).put pNVM NVM_STAT_READY 1
  { s with flash := { s.flash with programmed := [(2560, true)] } }

theorem test_compaction : lowest (inUse layer) = some (5, 2) ∧ layer.flash.compact = none ∧
    (after (.compact fw) layer).flash.compact.map (·.1) = some 5 ∧ (after (.compact fw) layer).bit pNVM NVM_STAT_COMPACTING = true := by
  decide +kernel

theorem test_nvm_commands :
    (let t := after (.nvmRead fw 0x00080003) worn6
     t.bit pNVM NVM_STAT_BUSY = true ∧ t.reg pNVM 0x100 = 0xFFFFFFFF) ∧
    (after (.nvmWrite fw 0x00080003) worn6).bit pNVM NVM_STAT_BUSY = true ∧
    (let s := worn6.put pNVM NVM_RAWADDR_ADDR 0x1C2000
     rawTarget 0x1C2000 s = true ∧ erasedRange 0x1C2000 256 s = true ∧ (after (.rawProg fw 0x00080000) s).bit pNVM NVM_STAT_BUSY = true ∧
     (after (.rawErase fw 0x00080000) s).bit pNVM NVM_STAT_BUSY = true) := by decide +kernel

theorem test_counter_commands :
    (after (.counterIncrement fw 5) worn6).flash.waiting.length = worn6.flash.waiting.length + 1 ∧
    (after (.counterIncrement fw 4) worn6).bit pNCT NCT_IRQ_RAW_REFUSED = true ∧
    (let s := worn6.put pNCT NCT_ARG_VALUE 9
     ctrValue 2 s = 0 ∧ (after (.counterAdvance fw 2) s).bit pNCT NCT_STAT_BUSY = true ∧
     (after (.counterAdvance fw 3) s).bit pNCT NCT_IRQ_RAW_REFUSED = true ∧
     (after (.counterAdvance fw 6) worn6).bit pNCT NCT_IRQ_RAW_DONE = true) := by decide +kernel

/-- Both halves run at counts 0, and the link is UP. -/
def idle : State := linked (booted State.reset)

/-! ## Events and the recorder (R328 to R334, R405) -/

/-- Slot 3 of the ring holds a record with a good CRC, of domain 2. -/
def recorded : State :=
  let idle := idle.put pEVR EVR_STAT_READY 1
  let b := [1, 0, 0, 0] ++ List.replicate 11 0 ++ [2] ++ List.replicate 12 0
  let s := idle.wbytes (flashBase + slotOff 3) (b ++ wordBytes (crc32c b))
  { s with flash := { s.flash with programmed := [(granuleOf (slotOff 3), true)] } }

def reading (op slot : Nat) (s : State) : State := { s with evr := { s.evr with read := some (op, slot, none) } }

theorem test_recorder_ready : idle.bit pEVR EVR_STAT_READY = false ∧
    (after .writePointFound idle).bit pEVR EVR_STAT_READY = true ∧ (after .writePointFound idle).evr.wp = 0 := by decide +kernel

theorem test_recorder_reads : (searchSlots none [3] recorded).1 = .record 3 (recorded.bytes (flashBase + slotOff 3) 32) ∧
    (let t := after .evrAt (reading 2 3 recorded)
     t.g pEVR EVR_RSTAT_SLOT = 3 ∧ t.bit pEVR EVR_RSTAT_VALID = true ∧ t.reg pEVR 0x060 = 1 ∧ t.evr.read = none) ∧
    (let t := after .evrAt (reading 2 4 recorded)
     t.bit pEVR EVR_RSTAT_END = true ∧ t.bit pEVR EVR_IRQ_RAW_RDONE = true) ∧
    (after .evrNext (reading 1 2 { recorded with evr := { recorded.evr with wp := 4 } })).g pEVR EVR_RSTAT_SLOT = 3 ∧
    (after .evrFirst (reading 0 0 { recorded with evr := { recorded.evr with wp := 2 } })).g pEVR EVR_RSTAT_SLOT = 3 := by decide +kernel

/-- Before the write point is known a read and a clear wait (log entry 132). -/
theorem test_event_clear : wpKnown idle = false ∧ (after .evrFirst (reading 0 0 idle)).evr.read = some (0, 0, none) ∧
    (after (.eventClear fw) idle).bit pEVR EVR_CLR_GO = true ∧ (after (.eventClear fw) idle).g pEVR EVR_CLR_STATUS = 0 ∧
    (let s := idle.put pEVR EVR_STAT_READY 1
     clearFields (evrMsg s) s = false ∧ (after (.eventClear fw) s).g pEVR EVR_CLR_STATUS = 1 ∧
     (after (.eventClear fw) s).bit pEVR EVR_IRQ_RAW_REFUSED = true) ∧
    (let s := { idle with vault := { idle.vault with stage := .verify, queue := [.evauth] } }
     clearSigned s = false ∧ (after .verifierDone s).g pEVR EVR_CLR_STATUS = 2 ∧ (after .verifierDone s).vault.queue = []) := by
  decide +kernel

def oneEvent : Event :=
  { stamp := 5, source := 0x85, dom := 0, severity := 1, code := 3, data := [], rank := 1, ready := 0, recorded := false, mseq := 0 }

theorem test_event_numbers :
    (let s := { (idle.put pEVS EVS_STAT_SEQVALID 1).setReg pEVS 0x040 7 with ev := { idle.ev with waiting := [oneEvent] } }
     (ringB s 29).enabled = false ∧ (after .eventNumber s).reg pEVS 0x040 = 8 ∧ (after .eventNumber s).ev.waiting = []) ∧
    (let s := linked (idle.put pEVR EVR_STAT_READY 1)
     (after .sequencerStart s).bit pEVS EVS_STAT_SEQVALID = true ∧ (after .sequencerStart s).reg pEVS 0x040 = 1) ∧
    (let s := openRings 29 { (idle.put pEVS EVS_STAT_SEQVALID 1) with ev := { idle.ev with waiting := [oneEvent] } }
     RingRoom 29 s ∧ (ringB (after .eventNumber s) 29).prod = 1 ∧
     (after .eventNumber s).bytes 0x10020000 32 = q29Entry 0 oneEvent) := by decide +kernel

/-! ## Keys and crypto (R345 to R356) -/

theorem test_key_update : updateFields (keyMsg idle) idle ≠ 0 ∧
    (after (.keyUpdate fw) idle).g pKEY KEY_URES_STATUS = updateFields (keyMsg idle) idle ∧
    (after (.keyUpdate fw) idle).bit pKEY KEY_IRQ_RAW_UREFUSED = true := by decide +kernel

/-- Slot 2 takes a 256-bit key: type 2, uses 3, domain 1. -/
def importing : State := (idle.setReg pCRY 0x048 0x02030002).setReg pCRY 0x080 0x44332211

theorem test_working_slots : slotInUse 2 importing = false ∧ attrGood (importing.reg pCRY 0x048) = true ∧
    (let t := after (.wsImport fw 0x200) importing
     (t.wslot 2).valid = true ∧ (t.wslot 2).dom = 1 ∧ (t.wslot 2).material.take 4 = [0x11, 0x22, 0x33, 0x44] ∧
     (t.wslot 2).material.length = 32 ∧ (after (.wsClear fw 0x200) t).wslot 2 = emptySlot 2) ∧
    (let t := after (.wsLoadVault fw 0x205) importing
     sealReady .damask importing = false ∧ t.g pCRY CRY_WRES_STATUS = 8 ∧ t.bit pCRY CRY_IRQ_RAW_WERR = true) := by decide +kernel

/-- The two commands whose buffer lies in global SRAM. -/
theorem test_blob_commands :
    (let s := importing.setReg pCRY 0x044 0x10000000
     gsramRange 0x10000000 112 = true ∧ (after (.wsLoadBlob fw 0x200) s).g pCRY CRY_WRES_STATUS = 8 ∧
     (after (.wsGenerate fw 0x200) s).g pCRY CRY_WRES_STATUS = 8) := by decide +kernel

/-- An entry of Q30: operation, working slot, SRC 0x10001000 with its length, DST 0x10002000, and addresses that it does not use. -/
def cryEntry (op w : Nat) (len : Nat) : List Byte :=
  padTo 64 ([byte op, byte w, 1, 0] ++ leBytes 4 0x10001000 ++ leBytes 4 len ++ leBytes 4 0x10002000 ++ leBytes 4 64
    ++ leBytes 4 0x10003000 ++ List.replicate 20 0 ++ leBytes 4 0x10004000)

/-- The key of FIPS-197 appendix C.1 in working slot 2, its plaintext at SRC. -/
def aesState (op : Nat) : State :=
  let s := idle.wbytes 0x10001000 [0x00, 0x11, 0x22, 0x33, 0x44, 0x55, 0x66, 0x77, 0x88, 0x99, 0xAA, 0xBB, 0xCC, 0xDD, 0xEE, 0xFF]
  let s := s.setWslot 2 ⟨true, 3, 1, 0xF, 0, 1, (List.range 16).map byte⟩
  s.setCry { s.cry with staged := [cryEntry op 2 16] }

theorem test_job_stage :
    (let s := (openRings 30 (idle.put pCRY CRY_CTRL_EN 1)).wbytes 0x10010000 (cryEntry 5 2 16)
     headA 30 s = some (cryEntry 5 2 16) ∧ (after .cryJobStage s).cry.staged = [cryEntry 5 2 16] ∧
     (after .cryJobStage s).g pCRY CRY_STAT_STAGED = 1) := by decide +kernel

/-- Checks in order: no key, its uses, its domain. -/
theorem test_job_checks :
    let st (s : State) : Option Nat := ((after .aesEcbEncrypt s).cry.sym).map (·.status)
    st ((aesState 5).setWslot 2 (emptySlot 2)) = some 2 ∧
    st ((aesState 5).setWslot 2 ⟨true, 3, 1, 0, 0, 1, []⟩) = some 3 ∧
    st ((aesState 5).setWslot 2 ⟨true, 3, 7, 0xF, 0, 1, []⟩) = some 4 ∧
    st ((aesState 5).setCry { (aesState 5).cry with staged := [cryEntry 5 2 15] }) = some 1 ∧
    st ((aesState 5).setCry { (aesState 5).cry with staged := [(cryEntry 5 2 16).set 23 0] }) = some 6 := by decide +kernel

theorem test_job_complete :
    (let s := openRings 30 (idle.setCry { idle.cry with sym := some ⟨cryEntry 5 2 16, 0, 16⟩ })
     let t := after (.cryJobComplete false) s
     t.cry.sym = none ∧ t.bit pCRY CRY_IRQ_RAW_JOBDONE = true ∧ t.bytes 0x10020000 8 = [0, 0, 0, 5, 16, 0, 0, 0]) := by decide +kernel

/-! ## Serial ports (R275 to R282) -/

/-- SER1 runs a mode without parity; its queue holds an entry of three bytes. -/
def serial (mode : Nat) : State :=
  let s := ((openRings 25 idle).put (serPage 1) SER_CTRL_EN 1).put (serPage 1) SER_CFG_PARITY 0
  ((s.put (serPage 1) SER_CFG_MODE mode).wbytes 0x10010000 [1, 0, 3, 0, 0, 0, 0, 0, 0, 0, 0, 0, 9, 0, 0, 0, 0x11, 0x22, 0x33])

/-- The characters of a byte string, `step` counts apart, without parity and with one stop bit. -/
def onLine (t step : Nat) : List Byte → List SerChar
  | [] => []
  | b :: bs => ⟨t, ((List.range 8).map fun i => if b.getLsbD i then 0xFFFF else 0) ++ [0xFFFF]⟩ :: onLine (t + step) step bs

/-- Counts of a character of 10 bits. -/
def charCounts (mode : Nat) : Nat := halfBits 1 20 (serial mode)

/-- The 80ths of a count that the end of such a character lies behind a whole count. -/
def charPart : Nat := serDiv 1 (serial 1) * 20 % 80

/-- What SER1 has heard, and the first count at which it has been silent for t3.5. -/
def rxOf (s : State) : Nat × Nat := ((s.ser 1).rx.map fun x => (x.last, x.silentAt (t35 1 s))).getD (0, 0)

theorem test_serial_sends : serOn 1 (serial 1) = true ∧
    (let t := after (.serTransmitStart 1 []) (serial 1)
     t.bit (serPage 1) SER_STAT_TXBUSY = true ∧
     (t.ser 1).tx.map (fun y => (y.tag, y.expect, y.addr, y.line.take 3, y.line.length)) = some (9, true, 0x11, [0x11, 0x22, 0x33], 5) ∧
     ((hearChar 1 ⟨7, []⟩ t).ser 1) = t.ser 1 ∧
     (let u := after (.serTransmitEnd 1) t
      (u.ser 1).tx = none ∧ (u.ser 1).await.map (·.1) = some 9 ∧
      (let w := after (.responseTimeout 1 []) u
       w.bytes 0x10020000 2 = [0, 5] ∧ w.bit (serPage 1) SER_IRQ_RAW_TIMEOUT = true ∧ (w.ser 1).await = none))) := by decide +kernel

/-- Two characters: the second right behind the first goes on with the frame, one after t3.5 begins another. -/
theorem test_serial_hears :
    (let s := hearLine 1 (onLine 50 (charCounts 1) [1, 4]) (serial 1)
     (s.ser 1).rx = some ⟨[1, 4], 50, 50 + 2 * charCounts 1, charPart, false, false⟩ ∧ s.bit (serPage 1) SER_STAT_RXBUSY = true ∧
     (let u := hearLine 1 (onLine (rxOf s).2 0 [9]) s
      (u.ser 1).rx.map (fun x => (x.bytes, x.badGap)) = some ([9], false)) ∧
     (let u := hearLine 1 (onLine ((rxOf s).2 - 1) 0 [9]) s
      (u.ser 1).rx.map (fun x => (x.bytes, x.badGap)) = some ([1, 4, 9], true))) ∧
    majority 0x0180 = true ∧ majority 0xFE7F = false := by decide +kernel

/-- MODBUS: 0x01 0x04 0x02 0xFF 0xFF has the CRC 0x80B8. A slave with address 7 discards it. -/
theorem test_modbus_receives :
    (let s := (serial 1).setSer 1 { (serial 1).ser 1 with await := some (9, 1000) }
     let t := after (.modbusFrameEnd 1 (onLine 50 (charCounts 1) [0x01, 0x04, 0x02, 0xFF, 0xFF, 0xB8, 0x80])) s
     t.bytes 0x10020000 4 = [0, 0, 5, 0] ∧ t.bytes 0x1002000C 2 = [9, 0] ∧ (t.ser 1).await = none) ∧
    (let s := ((serial 1).put (serPage 1) SER_CFG_ROLE 1).put (serPage 1) SER_CFG_ADDR 7
     let t := after (.modbusFrameEnd 1 (onLine 50 (charCounts 1) [0x01, 0x04, 0x02, 0xFF, 0xFF, 0xB8, 0x80])) s
     serSlave 1 s = true ∧ (t.ser 1).rx = none ∧ t.mem = s.mem) := by decide +kernel

theorem test_serial_receives :
    (let s := (serial 2).setSer 1 { (serial 2).ser 1 with await := some (9, 1000000), addr := 0x11 }
     let t := after (.osdpPacketReceive 1 (onLine 50 (charCounts 2) [0xFF, 0x53, 0x91, 0x07, 0x00, 0x00, 0x40, 0xD5])) s
     osdpGood [0x53, 0x91, 0x07, 0x00, 0x00, 0x40, 0xD5] = true ∧ t.bytes 0x10020000 4 = [0, 0, 6, 0]) ∧
    (let t := after (.rawChunkClose 1 (onLine 50 0 [7])) (serial 3)
     t.bytes 0x10020000 4 = [1, 0, 1, 0] ∧ t.bit (serPage 1) SER_IRQ_RAW_RXFRAME = true) ∧
    (after (.broadcastTurn 1) ((serial 1).setSer 1 { (serial 1).ser 1 with turn := 800 })).mtb = 800 := by decide +kernel

theorem test_service_uart :
    (let s := idle.put pSVC SVC_CTRL_EN 1
     let t := after (.svcByteReceive 0x41) s
     t.comms.svcRx = [0x41] ∧ t.bit pSVC SVC_IRQ_RAW_RXDATA = true ∧ (after (.svcRxdRead fw) t).answer = 0x141 ∧
     (after (.svcRxdRead fw) s).answer = 0 ∧ (after (.svcTxdWrite fw 0x42) s).comms.svcTx = [0x42] ∧
     (after .svcByteSent (after (.svcTxdWrite fw 0x42) s)).bit pSVC SVC_IRQ_RAW_TXEMPTY = true ∧
     (after .svcByteSent (after (.svcTxdWrite fw 0x42) s)).mtb = svcByteTime s ∧ svcByteTime (s.put pSVC SVC_BAUD_DIV 4) = 1085) := by decide +kernel

/-! ## Ethernet (R283 to R288) -/

/-- Both ports are on and up, the switch runs, VLAN 5 of domain 3 has all three ports as members and is the PVID. -/
def switch : State :=
  let s := ((idle.put pETH ETH_CTRL_P1EN 1).put pETH ETH_STAT_LINK1 1).put pESW ESW_CTRL_EN 1
  let s := s.setReg pESW (vlanOff 3) 0x80007005
  openRings 22 (openRings 23 s)

def broadcast : EthRx :=
  { port := 0, bytes := List.replicate 6 0xFF ++ [2, 0, 0, 0, 0, 1] ++ [0x81, 0, 0, 5] ++ List.replicate 48 0, fcsGood := true, stamp := 7 }

theorem test_ethernet_receives : ethUp 0 switch = true ∧ switch.comms.egress = [] ∧ portFree 0 switch = 0 ∧ domainOf 5 switch = some 3 ∧
    (let t := after (.ethFrameReceive broadcast) switch
     t.comms.learned.map (fun y => (y.vid, y.port)) = [(5, 1)] ∧ t.bytes 0x10020000 4 = [60, 0, 1, 19]) ∧
    (after (.ethFrameReceive { broadcast with fcsGood := false }) switch).bit pETH ETH_IRQ_RAW_RXDROP = true := by decide +kernel

/-- Three frames for port 0 while it sends the first: the one with PCP 6 goes before the one with PCP 0 (R284). -/
theorem test_ethernet_priority :
    (let at_ (k : Nat) (pcp : Byte) : EthRx := { broadcast with bytes := broadcast.bytes.set 14 (pcp * 32), stamp := k }
     let s := after (.ethFrameReceive (at_ 9 6)) (after (.ethFrameReceive (at_ 8 0)) (after (.ethFrameReceive (at_ 7 0)) switch))
     s.comms.egress.map (·.pcp) = [0, 6] ∧
     ((after (.ethFrameReceive { broadcast with fcsGood := false, stamp := 7 + frameCounts 0 60 s }) s).comms.egress.map (·.pcp)) = [0]) := by
  decide +kernel

theorem test_ethernet_registers :
    (let t := after (.ethLinkChange 1 true true 1) (switch.put pETH ETH_CTRL_P2EN 1)
     ethUp 1 t = true ∧ t.bit pETH ETH_IRQ_RAW_LINKCHG2 = true) ∧
    (let s := switch.setComms { switch.comms with learned := [⟨5, [1, 2, 3, 4, 5, 6], 1, 0⟩] }
     (after .addressAgeing s).comms.learned = [] ∧ (after .addressAgeing s).mtb = 30000000000) ∧
    (let s := switch.setComms { switch.comms with stamps := [(2, 9, 0x100000007)] }
     (after (.txtsTagRead fw) s).answer = 0x80020009 ∧ (after (.txtsTagRead fw) s).reg pETH 0x048 = 1) ∧
    (after (.vlanWrite fw 4 0x80000006) switch).reg pESW (vlanOff 4) = 0x80000006 ∧
    (after (.vlanWrite fw 4 0x80000005) switch).bit pESW ESW_IRQ_RAW_CFGERR = true := by decide +kernel

/-! ## Charon, profiles, watchdogs, queues -/

theorem test_charon_counts : chrStill idle = false ∧ almArmed 0 idle = false ∧
    (let t := after (.charonSecond 900) (idle.setChr { idle.chr with count := 32766 })
     t.chr.count = 32768 ∧ t.chr.corrSec = 1 ∧ t.replica = 900) ∧
    (let s := idle.setChr { idle.chr with count := 9, load := some (77, false) }
     (after .timeLoad s).chr.count = 77 * 32768 ∧ (after .timeLoad s).bit pCHR CHR_STAT_VALID = true) ∧
    (let s := ((idle.setChr { idle.chr with count := 40 }).setReg pCHR 0x080 0x80000002).setReg pCHR 0x08C 0x7FFF0029
     almFires (almMask 0 s) (almCmp 0 s) 41 = true ∧ (after (.alarmFire 0 1) s).bit pCHR (almFlag 0) = true ∧
     almArmed 0 (after (.alarmFire 0 1) s) = false) := by decide +kernel

theorem test_charon_minute :
    (let s := (idle.setChr { idle.chr with opRun := true, opPre := 32767 }).put pCHR CHR_OPSEC_OPSEC 59
     (after .opsecMinute s).g pCHR CHR_OPSEC_OPSEC = 60 ∧ (after .opsecMinute s).chr.opPre = 0) := by decide +kernel

theorem test_charon_registers :
    (let s := idle.setChr { idle.chr with count := 2 ^ 47 + 3 * 32768 + 5, opPre := 6, corrMtb := 0x100000002, corrSec := 8 }
     (after (.secLoRead fw) s).answer = 3 ∧ (after (.secLoRead fw) s).g pCHR CHR_SEC_HI_SEC32 = 1 ∧
     (after (.secLoRead fw) s).g pCHR CHR_SUBSEC_SUBSEC = 5 ∧ (after (.corrLoRead fw) s).answer = 2 ∧
     (after (.corrLoRead fw) s).reg pCHR 0x050 = 1 ∧ (after (.opsecRead fw) s).g pCHR CHR_OPFRAC_FRAC = 12 ∧
     (after (.timeWrite fw 7) s).chr.load = some (7, false) ∧
     (after (.alarmWrite fw 1 0 0xFFFFFFFF) s).reg pCHR 0x090 = 0x80000306 ∧
     (after (.alarmWrite fw 1 1 9) (s.setReg pCHR 0x090 0x80000000)).bit pCHR CHR_IRQ_RAW_WERR = true ∧
     (after (.alarmWrite fw 1 0 0) (s.setReg pCHR 0x090 0x80000102)).reg pCHR 0x090 = 0x100) := by decide +kernel

theorem test_charon_sources :
    (after .crystalLoss32k idle).bit pCHR CHR_STAT_FALLBACK = true ∧
    (after .crystalReturn32k (idle.put pCHR CHR_STAT_FALLBACK 1)).bit pCHR CHR_STAT_FALLBACK = false ∧
    (after (.vbatCheck (some 2499)) idle).bit pCHR CHR_IRQ_RAW_VBATLOW = true ∧
    (after (.onvbatChange true) idle).bit pCHR CHR_STAT_ONVBAT = true ∧ (after .charonStop idle).chr.stopped = true := by decide +kernel

theorem test_profiles : Firmware fw pPRF idle ∧ activeProfile idle = 0 ∧ imageGood 1 idle = false ∧
    (after (.prfLoad fw 1) idle).bit pPRF PRF_IRQ_RAW_BADIMG = true ∧
    (after (.prfCmd fw 2) (idle.put pPRF PRF_STAT_PINEN 1)).bit pPRF PRF_IRQ_RAW_CMDREF = true ∧
    (after (.prfCmd fw 2) idle).bit pPRF PRF_IRQ_RAW_BADIMG = true ∧
    (after (.prfCmd fw 2) (idle.put pPRF PRF_STAT_VALID 4)).g pPRF PRF_STAT_ACTIVE = 2 ∧ (after (.retry fw) idle).power.retry = true := by
  decide +kernel

/-- Watchdog 0 runs; engine 5 is the East primary. -/
def watched : State := (idle.setReg pFAB 0x040 0x00A08085).setWdt 0 ⟨true, 700⟩

theorem test_watchdogs : holdsRole 5 0 watched = true ∧
    (let t := after (.wdtKick ⟨5, true, 0⟩ 0 0x4B43) watched
     t.wdt 0 = ⟨true, wdtTimeout 0 watched⟩ ∧ t.bit pWDT WDT_IRQ_RAW_BADKICK = false) ∧
    (after (.wdtKick fw 0 0x4B43) watched).bit pWDT WDT_IRQ_RAW_BADKICK = true ∧
    (after (.watchdogExpiry 0) watched).g pWDT (stageFld 0) = 1 ∧
    (after (.watchdogExpiry 0) watched).wdt 0 = ⟨true, 700 + wdtTimeout 0 watched⟩ ∧
    (after .damaskCrystalLoss watched).power.noClock = true ∧ ((after .damaskCrystalLoss watched).eng 7).mode = .halted := by
  decide +kernel

theorem test_meter_crystal :
    (after (.meterCrystalLoss []) idle).meter.xtalLost = true ∧
    (let s := { idle with meter := { idle.meter with xtalLost := true } }
     (after .meterCrystalReturn s).meter.xtalLost = false ∧ (after .meterCrystalReturn s).replica = 100000) := by decide +kernel

theorem test_queues :
    (after (.softwareInterrupt fw true 0x8001) idle).ev.sw = 0x8001 ∧
    (after (.queueConfigWrite fw 4 0 0x10000018) idle).reg pQMG 0x380 = 0x10000010 ∧
    (after (.queueConfigWrite fw 4 0 0x10000018) (openRings 20 idle)).bit pQMG QMG_IRQ_RAW_CFGERR = true ∧
    (ringA (after (.ringProduce fw 4 77) idle) 20).prod = 77 := by decide +kernel

/-- Q31 holds an entry of zeros: FORMAT. -/
theorem test_block_transfer :
    (let s := openRings 31 idle
     headA 31 s = some (List.replicate 32 0) ∧ q31Entry (List.replicate 32 0) = none ∧
     (after (.blockTransfer none) s).bytes 0x10020000 3 = [0, 0, 1] ∧ (after (.blockTransfer none) s).q31 = none) := by decide +kernel

/-! ## Instance space (R71) -/

/-- Region 3 belongs to task 2 and domain 3. -/
def instanceState : State :=
  let s := inJob (scanning (eng5.setReg pIMG 0x804 (0x04C2 * 65536)))
  s.setEng 5 { s.eng 5 with g := (s.eng 5).g.set 3 0x20003000 }

theorem test_instance_store : ReadyMem x5 [1, 3] [0x20003008] instanceState ∧ Granted 5 true 4 0x20003008 instanceState ∧
    inInstance 0x20003008 = true ∧
    (let t := after (.sw x5 1 3 .zero 8) instanceState
     instWordAt 5 0x20003008 t = 0xFFFFFFF9 ∧ t.rw (baseAddr 0x20003008 t) = 0 ∧ (out5 (.lw x5 4 3 .zero 8) t).1 = 0xFFFFFFF9) := by
  decide +kernel

/-! ## A known answer of AES (FIPS-197, appendix C.1) -/

theorem test_aes_ecb :
    (after .aesEcbEncrypt (aesState 5)).bytes 0x10002000 16
      = [0x69, 0xC4, 0xE0, 0xD8, 0x6A, 0x7B, 0x04, 0x30, 0xD8, 0xCD, 0xB7, 0x80, 0x70, 0xB4, 0xC5, 0x5A] := by decide +kernel

/-! ## Well-formedness: one term that each check refuses -/

def longPacket : Packet := ⟨0, List.replicate 17 0, 0⟩

theorem test_refused_addresses :
    (Instr.registerWrite fw 0x40000002 0 0).wf = false ∧ (Instr.registerWrite fw 0x40024000 0 0).wf = false ∧
    (Instr.readClear fw 0x50015000).wf = false ∧ (Instr.registerWrite ⟨0, true, 1⟩ 0x40000000 0 0).wf = false ∧
    (Instr.lockTimeout 36).wf = false ∧ (Instr.irqForce fw 85 0).wf = false ∧ (Instr.registerWrite fw 0x40023FFC 0 0).wf = true ∧
    (Instr.lockWrite fw 84 0).wf = true := by decide

theorem test_refused_packets_and_frames :
    (Instr.rdReq longPacket).wf = false ∧ (Instr.blockTransfer (some (.damask, longPacket))).wf = false ∧
    (Instr.frameReceive 0 ⟨0, false, false, false, false, false, 9, List.replicate 9 0⟩ 0).wf = false ∧
    (Instr.frameReceive 0 ⟨0, false, true, false, false, true, 0, []⟩ 0).wf = false ∧
    (Instr.frameReceive 0 ⟨0, false, true, false, false, false, 9, List.replicate 9 0⟩ (2 ^ 64)).wf = false ∧
    (Instr.referenceReceive 0 (List.replicate 9 0) 0).wf = false ∧ (Instr.referenceSend 0 (2 ^ 64)).wf = false ∧
    (Instr.txFrameEnd 0 (2 ^ 64) .sent none).wf = false ∧ (Instr.frameError 0 0 true (2 ^ 64)).wf = false := by decide

theorem test_refused_receptions :
    (Instr.hartFrameReceive 0 ⟨3, 2, 4, 5, false, false, []⟩).wf = false ∧
    (Instr.hartFrameReceive 0 ⟨1, 5, 4, 5, false, false, []⟩).wf = false ∧
    (Instr.hartFrameReceive 0 ⟨1, 2, 2 ^ 64, 5, false, false, []⟩).wf = false ∧
    (Instr.rawChunkClose 0 [⟨2 ^ 64, []⟩]).wf = false ∧ (Instr.osdpPacketReceive 0 [⟨0, List.replicate 12 0⟩]).wf = false ∧
    (Instr.ethFrameReceive ⟨0, List.replicate 13 0, true, 0⟩).wf = false ∧
    (Instr.ethFrameReceive ⟨0, List.replicate 14 0, true, 2 ^ 64⟩).wf = false ∧
    (Instr.dlHello ⟨.svc, List.replicate 19 0, List.replicate 19 0, false⟩).wf = false ∧
    (Instr.dlHello ⟨.svc, List.replicate 20 0, [], false⟩).wf = false ∧
    (Instr.dlHello ⟨.eth, List.replicate 20 0, [0], false⟩).wf = false ∧ (Instr.ethTransmit (2 ^ 64) 0).wf = false := by decide

theorem test_refused_samples :
    (Instr.fieldTick ⟨0, [], 0, 0, 0, none, 0, [], noStraps⟩).wf = false ∧
    (Instr.fieldTick ⟨0, List.replicate 32 ⟨0, 0, 0, 0, false, false⟩, 0, 0, 0, none, 0, [(0x40000, true)], noStraps⟩).wf = false := by
  decide

theorem test_refused_ticks :
    let bits := List.replicate 32 (List.replicate 512 false)
    (Instr.cycleClose 0 [⟨2 ^ 64, bits⟩]).wf = false ∧
    (Instr.meterCrystalLoss [⟨0, bits.drop 1⟩]).wf = false ∧
    (Instr.stuckDetect 0 [⟨0, List.replicate 32 []⟩]).wf = false ∧
    (Instr.stuckClear 0 [⟨0, bits⟩]).wf = true := by decide +kernel

theorem test_refused_operands :
    (Instr.snapshotEntry .east (some ⟨4096, true⟩)).wf = false ∧ (Instr.publishEntry .east (some ⟨4096, true⟩)).wf = false ∧
    (Instr.vbatCheck (some 3601)).wf = false ∧ (Instr.bootAttempt .east (.nor 0)).wf = false ∧
    (Instr.bootAttempt .east (.check 10)).wf = false ∧ (Instr.bootAttempt .east (.once 10)).wf = false ∧
    (Instr.charonSecond (2 ^ 64)).wf = false ∧ (Instr.alarmFire 0 (2 ^ 64)).wf = false := by decide

/-! ## Messages that are admitted: the records of slots 0 and 3 stand as they were written at manufacture (R343) -/

/-- A clear message for this module: NC4 stands at 0. -/
def clearMsg (s : State) : State :=
  (((s.setReg pEVR 0x200 0x31435645).setReg pEVR 0x204 (hwType s)).setReg pEVR 0x210 1).put pEVR EVR_STAT_READY 1

theorem test_event_clear_admitted :
    let s := clearMsg idle
    Firmware fw pEVR s ∧ s.bit pEVR EVR_STAT_CLEARING = false ∧ wpKnown s = true ∧ clearFields (evrMsg s) s = true ∧ s.vault.queue = [] ∧
    s.vault.stage = .new ∧ useRefusal 3 useEvauth s = 0 ∧ (after (.eventClear fw) s).evr.clear = .verify := by decide +kernel

/-- An update of slot 5 to a key of 16 bytes, generation 1. -/
def updateMsg (s : State) : State :=
  (((((s.setReg pKEY 0x800 0x3150554B).setReg pKEY 0x804 (hwType s)).setReg pKEY 0x810 1).setReg pKEY 0x814 0x00010105).setReg
    pKEY 0x818 0x00100001)

theorem test_key_update_admitted :
    let s := updateMsg idle
    Firmware fw pKEY s ∧ s.bit pKEY KEY_STAT_BUSY = false ∧ s.vault.queue = [] ∧ s.vault.stage = .new ∧
    updateFields (keyMsg s) s = 0 ∧ useRefusal 0 useKeyauth s = 0 := by decide +kernel

/-! ## Frames out, block transfers, a profile image -/

/-- An entry of Q23 for a frame of 60 bytes to a group address, of domain `d`. -/
def q23Entry (d : Byte) : List Byte :=
  leBytes 2 60 ++ [0, d] ++ List.replicate 28 0 ++ List.replicate 6 0xFF ++ List.replicate 54 0

theorem test_ethernet_sends :
    (let s := switch.wbytes 0x10010000 (q23Entry 3)
     (headA 23 s).map q23Good = some true ∧
     (after (.ethTransmit 8 9) s).comms.wire.map (fun y => (y.1, y.2.length)) = [(1, 64)]) ∧
    (let s := (switch.setReg pESW (vlanOff 3) 0x80003005).wbytes 0x10010000 (q23Entry 3)
     (after (.ethTransmit 8 9) s).comms.wire.map (fun y => (y.1, y.2.length)) = [(1, 64)]) ∧
    (let s := (switch.setReg pESW (vlanOff 4) 0).wbytes 0x10010000 (q23Entry 4)
     vlanValid (s.reg pESW (vlanOff 4)) = false ∧ (after (.ethTransmit 8 9) s).bit pESW ESW_IRQ_RAW_VIDERR = true ∧
     (after (.ethTransmit 8 9) s).comms.wire = []) := by decide +kernel

/-- Sixteen bytes from buffer 1 of Muslin to global SRAM. -/
def blockEntry : List Byte := [1, 1, 0, 0] ++ leBytes 4 0x10003000 ++ leBytes 2 8 ++ leBytes 2 16 ++ List.replicate 4 0

theorem test_block_transfer_starts :
    (let s := (openRings 31 up).wbytes 0x10010000 (padTo 32 blockEntry)
     (headA 31 s).map (fun b => (q31Entry b).isSome) = some true ∧ ((after (.blockTransfer none) s).q31).isSome = true) ∧
    bulkHeld .muslin 0x07 (after (.blockTransfer (some (.muslin, opens 0x07))) up) = some [1, 2] ∧
    (let s := { up with q31 := q31Entry (padTo 32 blockEntry) }
     (after (.blockTransfer (some (.damask, whole 0x07))) s).q31 = none) := by decide +kernel

/-- An image of profile 1 without overrides in global SRAM at 0x10010000, its CRC still missing. -/
def profileBody : State :=
  (idle.put pPRF PRF_BASE_BASE 0x400).wbytes 0x10010000 (ascii "PRF1" ++ [1, 0, 0, 0] ++ leBytes 4 448)

/-- Its CRC. -/
def profileCrc : Word := crc32c (profileBody.bytes 0x10010000 60 ++ profileBody.bytes (0x10010000 + 64) (448 - 64))

theorem bytes_ww_outside (s : State) (a b n : Nat) (w : Word) (h : b + n ≤ a ∨ a + 4 ≤ b) :
    (s.ww a w).bytes b n = s.bytes b n := by
  induction n generalizing b with
  | zero => rfl
  | succ n ih => rw [State.bytes, State.bytes, ih (b + 1) (by omega), rb_ww_outside s a b w (by omega)]

theorem prfImage_ww (n : Nat) (s : State) (a : Nat) (w : Word) : prfImage n (s.ww a w) = prfImage n s := rfl

theorem image_good (w : Word) (hw : w = profileCrc) : imageGood 1 (profileBody.ww (0x10010000 + 60) w) = true := by
  have ha : prfImage 1 profileBody = 0x10010000 := by decide +kernel
  have ht : (allTasks.all fun t => profilePeriod 1 t (profileBody.ww (0x10010000 + 60) w) ≤ 14400000) = true := by
    have : (allTasks.all fun t => profilePeriod 1 t profileBody ≤ 14400000) = true := by decide +kernel
    rw [List.all_eq_true] at this ⊢
    intro t ht
    have := this t ht
    rwa [profilePeriod, prfImage_ww, ha, rw_ww_ne _ _ (.inr (by omega)), ← ha, ← profilePeriod]
  have hc : (profileBody.ww (0x10010000 + 60) w).rw (0x10010000 + 60) =
      crc32c ((profileBody.ww (0x10010000 + 60) w).bytes 0x10010000 60 ++
        (profileBody.ww (0x10010000 + 60) w).bytes (0x10010000 + 64) (448 - 64)) := by
    rw [rw_ww_same, bytes_ww_outside _ _ _ _ _ (by omega), bytes_ww_outside _ _ _ _ _ (by omega), hw, profileCrc]
  have hl : (profileBody.rw (0x10010000 + 8)).toNat = 448 := by decide +kernel
  have hn : profileBody.rh (0x10010000 + 6) = 0 := by decide +kernel
  have hm : (profileBody.bytes 0x10010000 4 == ascii "PRF1") = true := by decide +kernel
  have hv : ((profileBody.rb (0x10010000 + 4)).toNat == 1) = true := by decide +kernel
  have hr : gsramRange 0x10010000 448 = true := by decide +kernel
  have hh : (profileBody.ww (0x10010000 + 60) w).rh (0x10010000 + 6) = profileBody.rh (0x10010000 + 6) := by
    rw [State.rh, State.rh, rb_ww_outside _ _ _ _ (.inl (by omega)), rb_ww_outside _ _ _ _ (.inl (by omega))]
  unfold imageGood
  simp only [prfImage_ww, ha, hh, hn, rw_ww_ne profileBody w (show 0x10010000 + 8 + 4 ≤ 0x10010000 + 60 ∨ _ from .inl (by omega)),
    hl, bytes_ww_outside profileBody (0x10010000 + 60) 0x10010000 4 w (.inl (by omega)), hm,
    rb_ww_outside profileBody (0x10010000 + 60) (0x10010000 + 4) w (.inl (by omega)), hv, ht]
  rw [hc]
  simp [hr]

theorem test_profile_image : imageGood 1 (profileBody.ww (0x10010000 + 60) profileCrc) = true := image_good _ rfl

end Sys2Proof.Tests
end

section
/-! The reset state of a new module (O22), and a counterexample to the reads of pages of another owner (O27). -/

namespace Sys2Proof.Machine

open Reg

/-- The power-on sequence of a new module, taken step by step, ends in the reset state. -/
theorem powerOnResetState :
    moduleStart (setPins ⟨false, false, false⟩ (setCause causePor (moduleBase (charonStart (flashDone State.reset))))) =
      State.reset := by
  decide +kernel

/-- Settles O22: the command is that sequence with the queue and the fuses kept, which the reset state has already. -/
theorem powerOnResetOfANewModule : Obligations.PowerOnResetOfANewModule := by
  unfold Obligations.PowerOnResetOfANewModule
  show Host.Outcome.next _ = _
  exact congrArg (fun t => Host.Outcome.next (kept State.reset t)) powerOnResetState

/-- A read that no die serves, and that no arbiter refuses, leaves the state. -/
theorem readCmd_of_unserved (r : Requester) (p off : Nat) {s : State} (hl : linkError p off s = false)
    (hs : pageServed p off s = false) : readCmd r p off s = s := by
  simp only [readCmd, hl, hs, Bool.false_eq_true, if_false]

/-- Muslin runs, Damask has no clock, and the last answer of a reader was 1. -/
def unclockedDamask : State :=
  { State.reset with answer := 1, power := { State.reset.power with noClock := true } }

/-- The page MSYS of `unclockedDamask` runs, but a task's read of its first register stays without an answer. -/
theorem readClear_unclockedDamask :
    exec (.readClear ⟨0, false, 3⟩ 0x50000000) unclockedDamask = .next (kept unclockedDamask unclockedDamask) :=
  congrArg (fun t => Host.Outcome.next (kept unclockedDamask t))
    (readCmd_of_unserved ⟨0, false, 3⟩ pMSYS 0 (by decide +kernel) (by decide +kernel))

/-- Refutes O27: a task's read of a Muslin page of another owner gives zero only where the read is served. With Muslin
running and Damask without a clock the page's die runs, but no arbiter answers, and the last answer stays. -/
theorem not_locksAndOwnersProtect : ¬ Obligations.LocksAndOwnersProtect := by
  unfold Obligations.LocksAndOwnersProtect
  rintro ⟨-, -, -, hOwner⟩
  obtain ⟨-, t, ht, -, hAnswer⟩ := hOwner ⟨0, false, 3⟩ 0x50000000 pMSYS 0 0 0 unclockedDamask rfl rfl
    (by decide +kernel) (by decide +kernel)
  rw [readClear_unclockedDamask] at ht
  obtain rfl := Host.Outcome.next.inj ht
  exact absurd hAnswer (by decide)

end Sys2Proof.Machine
end

section
/-! What most operations leave alone: the registers that steer power and boot, the scheduler, the engines, and the
numbers of the packets accepted. One lemma per operation, and each follows the operation's own text. -/

namespace Sys2Proof.Machine

open Reg

/-- The register fields that steer power and boot: the power manager's, the holds of the releases, the halves' states and the
cause, whether the time base is loaded, the exclusion of each half's first lane, and the supervisor roles. -/
def watchedFields : List (Nat × Fld) :=
  [(pPMU, PMU_STAT_SUPGOOD), (pPMU, PMU_STAT_PLAN), (pPMU, PMU_STAT_DOFF), (pPMU, PMU_STAT_RESTDONE),
   (pPMU, PMU_IRQ_RAW_SUPFAIL), (pPMU, PMU_IRQ_RAW_SUPGOOD), (pSCH, SCH_CTRL_HOLDE), (pSCH, SCH_CTRL_HOLDW),
   (pBOOT, BOOT_STAT_ESTATE), (pBOOT, BOOT_STAT_WSTATE), (pBOOT, BOOT_STAT_CAUSE), (pMTB, MTB_STAT_LOADED),
   (pENG, ⟨0x008, 0, 1⟩), (pENG + 4, ⟨0x008, 0, 1⟩), (pFAB, ⟨0x040, 0, 32⟩)]

/-- A write of field `f` of page `p` leaves field `g` of page `q` alone. -/
def fieldsApart (p : Nat) (f : Fld) (q : Nat) (g : Fld) : Bool :=
  regKey p f.off != regKey q g.off ||
    (g.off == f.off && p == q && decide (f.lo + f.wid ≤ 32) && decide (g.lo + g.wid ≤ 32) &&
      (decide (g.lo + g.wid ≤ f.lo) || decide (f.lo + f.wid ≤ g.lo)))

/-- No watched field lies where a write of field `f` of page `p` goes. -/
def unwatched (p : Nat) (f : Fld) : Bool :=
  Nat.ble 68 p || watchedFields.all fun w => fieldsApart p f w.1 w.2

/-- No watched field lies in the register at `off` of page `p`. -/
def unwatchedReg (p off : Nat) : Bool :=
  Nat.ble 68 p || watchedFields.all fun w => regKey p off != regKey w.1 w.2.off

theorem g_put_fieldsApart (s : State) {p : Nat} {f : Fld} (v : Nat) {q : Nat} {g : Fld} (h : fieldsApart p f q g = true) :
    (s.put p f v).g q g = s.g q g := by
  simp only [fieldsApart, Bool.or_eq_true, Bool.and_eq_true, bne_iff_ne, beq_iff_eq, decide_eq_true_eq] at h
  rcases h with hk | ⟨⟨⟨⟨ho, rfl⟩, hf⟩, hg⟩, ha⟩
  · exact g_put_ne s v hk.symm
  · exact g_put_apart s v ho hf hg ha

/-- A page from 68 on lies above every watched register. -/
theorem regKey_ne_watched {p : Nat} (off : Nat) (hp : 68 ≤ p) {w : Nat × Fld} (hw : w ∈ watchedFields) :
    regKey w.1 w.2.off ≠ regKey p off := by
  have hlt : regKey w.1 w.2.off < 1024 * 68 := (by decide : ∀ w ∈ watchedFields, regKey w.1 w.2.off < 1024 * 68) w hw
  simp only [regKey] at hlt ⊢
  omega

/-- What the power plan and the boot logic are steered by. -/
structure Ctl where
  failed : Bool
  leaving : Bool
  reset : Option Nat
  opRun : Bool
  fields : List Nat

def State.ctl (s : State) : Ctl :=
  { failed := s.power.failed, leaving := s.power.leaving, reset := s.power.reset, opRun := s.chr.opRun
    fields := watchedFields.map fun w => s.g w.1 w.2 }

theorem ctl_of_fields {s t : State} (h : ∀ w ∈ watchedFields, t.g w.1 w.2 = s.g w.1 w.2)
    (hp : t.power = s.power) (hc : t.chr = s.chr) : t.ctl = s.ctl := by
  simp only [State.ctl, hp, hc, List.map_congr_left h]

theorem ctl_put (s : State) (p : Nat) (f : Fld) (v : Nat) (h : unwatched p f = true) : (s.put p f v).ctl = s.ctl := by
  refine ctl_of_fields (fun w hw => ?_) rfl rfl
  simp only [unwatched, Bool.or_eq_true, Nat.ble_eq, List.all_eq_true] at h
  rcases h with hp | ha
  · exact g_put_ne s v (regKey_ne_watched _ hp hw)
  · exact g_put_fieldsApart s v (ha w hw)

theorem ctl_setReg (s : State) (p off : Nat) (x : Word) (h : unwatchedReg p off = true) : (s.setReg p off x).ctl = s.ctl := by
  refine ctl_of_fields (fun w hw => ?_) rfl rfl
  simp only [unwatchedReg, Bool.or_eq_true, Nat.ble_eq, List.all_eq_true, bne_iff_ne] at h
  simp only [State.g]
  rw [reg_setReg_ne]
  rcases h with hp | ha
  · exact regKey_ne_watched _ hp hw
  · exact (ha w hw).symm

/-- What quiet operations leave alone. -/
def State.calm (s : State) : Ctl × Nat × BitVec 7 × BitVec 7 × Sched × Tbl Eng :=
  (s.ctl, s.mtb, s.damask.rxSeq, s.muslin.rxSeq, s.sched, s.engs)

theorem calm_put (s : State) (p : Nat) (f : Fld) (v : Nat) (h : unwatched p f = true) : (s.put p f v).calm = s.calm := by
  simp only [State.calm, ctl_put s p f v h, put_mtb, put_damask, put_muslin, put_sched, put_engs]
theorem calm_setReg (s : State) (p off : Nat) (x : Word) (h : unwatchedReg p off = true) : (s.setReg p off x).calm = s.calm := by
  simp only [State.calm, ctl_setReg s p off x h, setReg_mtb, setReg_damask, setReg_muslin, setReg_sched, setReg_engs]


/-- Nothing of what quiet operations leave alone differs in `s` from what it was in `a`. -/
structure Quiet (a s : State) : Prop where
  same : s.calm = a.calm

namespace Quiet
variable {a s t : State}

theorem refl : Quiet a a := ⟨Eq.refl _⟩

theorem trans (h : Quiet a s) (h' : Quiet s t) : Quiet a t := ⟨h'.same.trans h.same⟩

theorem ite {c : Prop} [Decidable c] (h : Quiet a s) (h' : Quiet a t) : Quiet a (if c then s else t) := by
  split <;> assumption

theorem ifThen {c : Prop} [Decidable c] (h : Quiet a s) (ht : Quiet s t) : Quiet a (if c then t else s) :=
  ite (h.trans ht) h

theorem ifElse {c : Prop} [Decidable c] (h : Quiet a s) (ht : Quiet s t) : Quiet a (if c then s else t) :=
  ite h (h.trans ht)

theorem put {p : Nat} {f : Fld} {v : Nat} (h : Quiet a s) (hf : unwatched p f = true) : Quiet a (s.put p f v) :=
  ⟨(calm_put s p f v hf).trans h.same⟩

theorem putBit {p : Nat} {f : Fld} {v : Bool} (h : Quiet a s) (hf : unwatched p f = true) : Quiet a (s.putBit p f v) :=
  h.put hf

theorem bump {p : Nat} {f : Fld} {n : Nat} (h : Quiet a s) (hf : unwatched p f = true) : Quiet a (s.bump p f n) :=
  h.put hf

theorem incr {p : Nat} {f : Fld} (h : Quiet a s) (hf : unwatched p f = true) : Quiet a (s.incr p f) := h.put hf

theorem setReg {p off : Nat} {x : Word} (h : Quiet a s) (hf : unwatchedReg p off = true) : Quiet a (s.setReg p off x) :=
  ⟨(calm_setReg s p off x hf).trans h.same⟩

theorem update {pending fused replica mem points lockAt txns ev icache mtbHi cmp grants fabric drawn freed boot fb0 fb1
    stations field hart flash meter evr vault cry comms wdts q31 inputs rep pins answer} (h : Quiet a s) :
    Quiet a { s with
      pending := pending, fused := fused, replica := replica, mem := mem, points := points, lockAt := lockAt, txns := txns,
      ev := ev, icache := icache, mtbHi := mtbHi, cmp := cmp, grants := grants, fabric := fabric, drawn := drawn,
      freed := freed, boot := boot, fb0 := fb0, fb1 := fb1, stations := stations, field := field, hart := hart,
      flash := flash, meter := meter, evr := evr, vault := vault, cry := cry, comms := comms, wdts := wdts, q31 := q31,
      inputs := inputs, rep := rep, pins := pins, answer := answer } :=
  ⟨h.same⟩

theorem forAll {f : α → State → State} (l : List α) (h : Quiet a s) (hf : ∀ x s, Quiet s (f x s)) :
    Quiet a (forAll l f s) := by
  induction l generalizing s with
  | nil => exact h
  | cons x l ih => exact ih (h.trans (hf x s))

/-! ### The link -/

theorem setLink {d : Die} {l : LinkDie} (h : Quiet a s) (hl : l.rxSeq = (s.link d).rxSeq) : Quiet a (s.setLink d l) := by
  refine h.trans ⟨?_⟩
  cases d <;> simp only [State.link] at hl <;> simp only [State.calm, State.ctl, State.setLink, hl] <;> rfl

theorem unwatched_creditFld (d : Die) (n : Nat) : unwatched (ddlPage d) (creditFld n) = true := by
  unfold creditFld
  split <;> cases d <;> rfl

theorem transmit {d : Die} {p : Packet} (h : Quiet a s) : Quiet a (transmit d p s) :=
  ifElse (setLink h rfl) (put refl (unwatched_creditFld d _))

theorem pumpGo {d : Die} {ps : List Packet} {blocked : List Nat} {held : List Packet} (h : Quiet a s) :
    Quiet a (pumpGo d ps blocked held s) := by
  induction ps generalizing blocked held s with
  | nil => exact h.setLink rfl
  | cons p ps ih => exact ite (ih (transmit h)) (ih h)

theorem syncEvq (h : Quiet a s) : Quiet a (syncEvq s) := h.put rfl

theorem pump {d : Die} (h : Quiet a s) : Quiet a (pump d s) :=
  ite (syncEvq (pumpGo h)) (pumpGo h)

theorem sendPacket {d : Die} {p : Packet} (h : Quiet a s) : Quiet a (sendPacket d p s) :=
  ifThen h (pump (setLink refl rfl))

theorem sendBulk {d : Die} {xid : Nat} {ws : List Word} (h : Quiet a s) : Quiet a (sendBulk d xid ws s) :=
  h.forAll _ fun _ _ => sendPacket refl

theorem sendSample {kind : Nat} {gap : Bool} {w1 w2 : Word} {bs : List Byte} (h : Quiet a s) :
    Quiet a (sendSample kind gap w1 w2 bs s) := h.forAll _ fun _ _ => sendPacket refl

/-! ### Events and faults -/

theorem recAccept {r : List Byte} (h : Quiet a s) : Quiet a (recAccept r s) :=
  ite (put h.update rfl) (bump h.update rfl)

theorem recordLocal {page : Nat} {dom : Dom} {sev : BitVec 3} {code : BitVec 16} {data : List Byte} (h : Quiet a s) :
    Quiet a (recordLocal page dom sev code data s) := incr (recAccept h) rfl

theorem muslinEventOnce {page : Nat} {dom : Dom} {sev : BitVec 3} {code : BitVec 16} {data : List Byte} (h : Quiet a s) :
    Quiet a (muslinEventOnce page dom sev code data s) :=
  ite (sendPacket h) (ite (put (update (recordLocal h)) rfl) (bump (update (recordLocal h)) rfl))

theorem tellDiscarded {s' : State} (h : Quiet a s) : Quiet a (tellDiscarded s' s) :=
  ifThen h (muslinEventOnce (put refl rfl))

theorem muslinEvent {page : Nat} {dom : Dom} {sev : BitVec 3} {code : BitVec 16} {data : List Byte} (h : Quiet a s) :
    Quiet a (muslinEvent page dom sev code data s) := tellDiscarded (muslinEventOnce h)

theorem syncLevels (h : Quiet a s) : Quiet a (syncLevels s) := ifThen h (sendPacket (update refl))

theorem damaskEvent {rank : Nat} {source : Byte} {dom : Dom} {sev : BitVec 3} {code : BitVec 16} {data : List Byte}
    (h : Quiet a s) : Quiet a (damaskEvent rank source dom sev code data s) := ⟨h.same⟩

theorem pageEvent {p : Nat} {dom : Dom} {code : BitVec 16} {data : List Byte} (h : Quiet a s) :
    Quiet a (pageEvent p dom code data s) := ite (muslinEvent h) (damaskEvent h)

theorem raiseWith {p : Nat} {f : Fld} {always : Bool} {dom : Dom} {data : List Byte} (h : Quiet a s)
    (hf : unwatched p f = true) : Quiet a (raiseWith p f always dom data s) :=
  ifThen (ifThen (put h hf) (pageEvent refl)) (syncLevels refl)

theorem raise {p : Nat} {f : Fld} (h : Quiet a s) (hf : unwatched p f = true) : Quiet a (raise p f s) := raiseWith h hf

theorem raiseLog {p : Nat} {f : Fld} {data : List Byte} (h : Quiet a s) (hf : unwatched p f = true) :
    Quiet a (raiseLog p f data s) := raiseWith h hf

theorem raiseFault {c : Nat} {masked : Bool} {eng : Nat} {addr : Word} (h : Quiet a s) :
    Quiet a (raiseFault c masked eng addr s) := by
  refine damaskEvent (bump (setReg (setReg (setReg h rfl) rfl) rfl) ?_)
  cases masked <;> rfl

theorem muslinFault {p c : Nat} {masked : Bool} {addr : Word} (h : Quiet a s) : Quiet a (muslinFault p c masked addr s) :=
  ite (raiseFault h) (muslinEvent h)

/-! ### The flash queue -/

theorem setFlash {x : Flash} (h : Quiet a s) : Quiet a (s.setFlash x) := ⟨h.same⟩

theorem askFlash {prec : Nat} {w : FlashWork} {u : FlashUser} (h : Quiet a s) : Quiet a (askFlash prec w u s) := ⟨h.same⟩

theorem dropOps {p : FlashUser → Bool} (h : Quiet a s) : Quiet a (dropOps p s) :=
  putBit (putBit (setFlash (setFlash h)) rfl) rfl

theorem eccReport {gs : List Nat} (h : Quiet a s) : Quiet a (eccReport gs s) := by
  refine h.forAll gs fun g s => ?_
  split
  · exact refl
  all_goals exact muslinFault (raise (put (put (bump refl rfl) rfl) rfl) rfl)

theorem eccIn {off n : Nat} (h : Quiet a s) : Quiet a (eccIn off n s) := eccReport h

/-! ### Metering -/

theorem setFeeder {k : FeederNo} {x : Feeder} (h : Quiet a s) : Quiet a (s.setFeeder k x) := ⟨h.same⟩
theorem setMeter {x : Meter} (h : Quiet a s) : Quiet a (s.setMeter x) := ⟨h.same⟩
theorem setPulse {k : Fin 8} {x : Pulse} (h : Quiet a s) : Quiet a (s.setPulse k x) := ⟨h.same⟩

theorem losePulse {n : Fin 8} (h : Quiet a s) : Quiet a (losePulse n s) := by
  unfold Machine.losePulse
  exact raiseWith (put (bump h rfl) rfl) rfl

theorem addPulses {k : FeederNo} {acc n : Nat} (h : Quiet a s) : Quiet a (addPulses k acc n s) :=
  h.forAll _ fun _ _ => ifThen refl (forAll _ (put (setPulse refl) rfl) fun _ _ => losePulse refl)

theorem book {k : FeederNo} {acc e : Nat} (h : Quiet a s) : Quiet a (book k acc e s) :=
  addPulses (ifElse (setReg (setFeeder h) rfl) (raiseWith refl rfl))

theorem writeDemand {k : FeederNo} {imp exp ticks sec : Nat} {counts : Bool} (h : Quiet a s) :
    Quiet a (writeDemand k imp exp ticks sec counts s) :=
  ifThen (ifThen (put (put h rfl) rfl) (put (put refl rfl) rfl)) (put (put refl rfl) rfl)

theorem closeInterval {ticks sec t : Nat} {nextPartial : Bool} (h : Quiet a s) :
    Quiet a (closeInterval ticks sec t nextPartial s) :=
  raise (setMeter (h.forAll _ fun _ _ => setFeeder (putBit (incr (writeDemand refl) rfl) rfl))) rfl

theorem resumeDemand (h : Quiet a s) : Quiet a (resumeDemand s) :=
  ite (setMeter (setMeter h)) (ifElse (setMeter h) (closeInterval refl))

theorem bookDemand {k : FeederNo} {stamp imp exp : Nat} (h : Quiet a s) : Quiet a (bookDemand k stamp imp exp s) := by
  unfold Machine.bookDemand
  refine ite (setFeeder h) ?_
  split
  · exact ite (writeDemand (setFeeder h)) (setFeeder h)
  · exact setFeeder h

theorem bookCycle {k : FeederNo} {n stamp : Nat} {p q : Int} (h : Quiet a s) : Quiet a (bookCycle k n stamp p q s) :=
  book (book (ite (bookDemand h) (bookDemand h)))

theorem setMissed {k n : Nat} (h : Quiet a s) : Quiet a (setMissed k n s) := ⟨h.same⟩

theorem deliver {kind key : Nat} {w1 : Word} {bs : List Byte} (h : Quiet a s) : Quiet a (deliver kind key w1 bs s) :=
  ite (sendSample (setMissed h)) (setMissed h)

theorem windowEnd {k : FeederNo} {stamp : Nat} {crossing : Option Nat} (h : Quiet a s) :
    Quiet a (windowEnd k stamp crossing s) := by
  unfold Machine.windowEnd
  refine ifThen (raiseWith (ifThen (ifThen (setFeeder (forAll _ ?_ fun _ _ => forAll _ refl fun _ _ => setReg refl rfl))
    (raiseWith refl rfl)) (raiseWith refl rfl)) rfl) (deliver (ifElse refl (raiseWith refl rfl)))
  exact setReg (setReg (setReg (setReg (setReg (setReg (incr (setReg h.update rfl) rfl) rfl) rfl) rfl) rfl) rfl) rfl

theorem closeCycle {k : FeederNo} {stamp : Nat} {c : Closing} (h : Quiet a s) : Quiet a (closeCycle k stamp c s) :=
  ifThen (setFeeder (bookCycle h)) (windowEnd refl)

theorem settleStop (h : Quiet a s) : Quiet a (settleStop s) := ifThen h (put (put (setMeter refl) rfl) rfl)

theorem seedMeter (h : Quiet a s) : Quiet a (seedMeter s) :=
  forAll _ (put (setMeter (h.forAll _ fun _ _ => setMeter refl)) rfl) fun _ _ => ifThen refl (setFeeder refl)

theorem closeDue {k : FeederNo} (h : Quiet a s) : Quiet a (closeDue k s) := by
  unfold Machine.closeDue
  split
  · exact ifThen h (settleStop (closeCycle refl))
  · exact h

theorem endBlock (h : Quiet a s) : Quiet a (endBlock s) :=
  setMeter (h.forAll _ fun _ _ => setMeter (ifThen (putBit (put refl rfl) rfl) (raiseWith refl rfl)))

theorem settleMeter (h : Quiet a s) : Quiet a (settleMeter s) :=
  forAll _ (ifThen (forAll _ (ifThen h (seedMeter refl)) fun _ _ => closeDue refl) (endBlock refl)) fun _ _ =>
    ite (muslinFault (raiseWith (put refl rfl) rfl)) (ifThen refl (put refl rfl))

theorem absorbSample {k : FeederNo} (h : Quiet a s) : Quiet a (absorbSample k s) := ite h (setFeeder h)

theorem detectCycle {k : FeederNo} (h : Quiet a s) : Quiet a (detectCycle k s) := ite h (setFeeder h)

theorem startSampling (h : Quiet a s) : Quiet a (startSampling s) :=
  ite h (resumeDemand (put (put (setMeter h) rfl) rfl))

theorem stopSampling (h : Quiet a s) : Quiet a (stopSampling s) :=
  put (put (setMeter (forAll _ (settleMeter h) fun _ _ => setFeeder (ifThen refl (closeCycle refl)))) rfl) rfl

theorem withdrawSave (h : Quiet a s) : Quiet a (withdrawSave s) := setMeter (setFlash (dropOps h))

theorem askSave {kind : SaveKind} (h : Quiet a s) : Quiet a (askSave kind s) :=
  put (forAll _ (setMeter (ifThen h (withdrawSave refl))) fun _ _ => askFlash refl) rfl

theorem planOrder (h : Quiet a s) : Quiet a (planOrder s) := ⟨h.same⟩

/-! ### The output hold and the HART modems -/

theorem ohmEngage (h : Quiet a s) : Quiet a (ohmEngage s) :=
  ite h (raise (put (put (put h.update rfl) rfl) rfl) rfl)

theorem setModem {n : ChanNo} {x : Hart} (h : Quiet a s) : Quiet a (s.setModem n x) := ⟨h.same⟩

theorem syncHart {n : ChanNo} (h : Quiet a s) : Quiet a (syncHart n s) := by
  unfold Machine.syncHart
  exact put (putBit (putBit (putBit (putBit (putBit (putBit (ifThen h (setModem refl)) rfl) rfl) rfl) rfl) rfl) rfl) rfl

theorem hartLose (h : Quiet a s) : Quiet a (hartLose s) := bump h.update rfl

theorem hartSend {n : ChanNo} {status : Nat} {entry : List Byte} (h : Quiet a s) : Quiet a (hartSend n status entry s) :=
  ite (sendBulk (put h rfl)) (hartLose (put h rfl))

theorem hartNext {n : ChanNo} (h : Quiet a s) : Quiet a (hartNext n s) := syncHart (setModem h)

theorem hartEnd {n : ChanNo} {status : Nat} {stamp stampEnd : Word} {frame : List Byte} (h : Quiet a s) :
    Quiet a (hartEnd n status stamp stampEnd frame s) := by
  unfold Machine.hartEnd
  split
  · exact h
  · exact ite (bump (put (hartNext h) rfl) rfl) (hartSend (hartNext h))

theorem hartSent {n : ChanNo} {r : HartReq} {e : Nat} (h : Quiet a s) : Quiet a (hartSent n r e s) :=
  ite (hartEnd (bump h rfl)) (setModem (bump h rfl))

theorem hartStop {n : ChanNo} (h : Quiet a s) : Quiet a (hartStop n s) := by
  unfold Machine.hartStop
  refine syncHart ?_
  split
  · exact ite h (ite (hartSent h) (ite (raise (hartEnd (ifThen h (bump refl rfl))) rfl) (hartEnd h)))
  · exact h

theorem hartLinkDown_muslin (h : Quiet a s) : Quiet a (hartLinkDown .muslin s) := by
  unfold Machine.hartLinkDown
  refine h.forAll _ fun n s => ?_
  dsimp only
  split
  · exact ifElse (ifThen refl (update refl)) (setModem refl)
  · exact ite (hartNext (ifElse (ifThen refl (update refl)) (setModem refl)))
      (setModem (ifElse (ifThen refl (update refl)) (setModem refl)))

/-! ### The key vault -/

theorem sendSealed {d : Die} {kind slot : Nat} {plain : List Byte} (h : Quiet a s) :
    Quiet a (sendSealed d kind slot plain s) := ifThen h (forAll _ (setLink refl rfl) fun _ _ => sendPacket refl)

theorem setVault {x : Vault} (h : Quiet a s) : Quiet a (s.setVault x) := ⟨h.same⟩

theorem drawBytes {n : Nat} (h : Quiet a s) : Quiet a (drawBytes n s).2 := ⟨h.same⟩

theorem tagFail {i : Nat} (h : Quiet a s) : Quiet a (tagFail i s) := muslinFault (raiseLog h rfl)

theorem useFlags {i code : Nat} (h : Quiet a s) : Quiet a (useFlags i code s) :=
  ite (raise h rfl) (ifThen h (tagFail refl))

theorem syncBusy (h : Quiet a s) : Quiet a (syncBusy s) := putBit h rfl

theorem consumeUse {i : Nat} (h : Quiet a s) : Quiet a (consumeUse i s) := askFlash (setVault h)

theorem answerStatus {wslot st : Nat} (h : Quiet a s) : Quiet a (answerStatus wslot st s) := sendSealed h

theorem vaultPop (h : Quiet a s) : Quiet a (vaultPop s) := syncBusy (setVault h)

theorem updateRefused {st : Nat} (h : Quiet a s) : Quiet a (updateRefused st s) :=
  raise (vaultPop (put (put (put h rfl) rfl) rfl)) rfl

theorem clearRefused {st : Nat} (h : Quiet a s) : Quiet a (clearRefused st s) :=
  raise (update (put (put (put h rfl) rfl) rfl)) rfl

theorem setBootKey {b : Half} {k : BootKey} (h : Quiet a s) : Quiet a (setBootKey b k s) := by
  cases b <;> exact ⟨h.same⟩

theorem vaultServe (h : Quiet a s) : Quiet a (vaultServe s) := by
  unfold Machine.vaultServe
  refine ite h ?_
  split
  case h_1 => exact h
  case h_2 => exact ite (consumeUse (eccIn h)) (vaultPop (answerStatus (useFlags (eccIn h))))
  case h_3 => exact ite (consumeUse (eccIn h)) (vaultPop (ifThen (useFlags (eccIn h)) (setBootKey refl)))
  case h_4 =>
    split
    · exact vaultPop (sendSealed h)
    · exact vaultPop (answerStatus h)
  case h_5 => exact vaultPop (sendSealed (drawBytes (drawBytes h)))
  case h_6 =>
    exact ite (updateRefused (ifThen (eccIn h) (useFlags refl)))
      (ite (updateRefused (useFlags (eccIn h))) (consumeUse (eccIn h)))
  case h_7 => exact ite (consumeUse (eccIn h)) (clearRefused (vaultPop (useFlags (eccIn h))))

theorem vaultRunN {n : Nat} (h : Quiet a s) : Quiet a (vaultRunN n s) := by
  induction n generalizing s with
  | zero => exact h
  | succ n ih => exact ite (ih (vaultServe h)) h

theorem vaultRun (h : Quiet a s) : Quiet a (vaultRun s) := vaultRunN h

theorem loseBootKeys (h : Quiet a s) : Quiet a (loseBootKeys s) := by
  unfold Machine.loseBootKeys
  exact setBootKey (setBootKey h)

theorem vaultLinkDown (h : Quiet a s) : Quiet a (vaultLinkDown s) := by
  unfold Machine.vaultLinkDown
  refine vaultRun (syncBusy (ifThen ?_ (dropOps refl)))
  split
  · exact ite (setVault (loseBootKeys h)) (ite (updateRefused (setVault (loseBootKeys h))) (setVault (loseBootKeys h)))
  · exact loseBootKeys h

/-! ### What a die loses with the link -/

theorem missDeliveries {waiting : List Packet} (h : Quiet a s) : Quiet a (missDeliveries waiting s) :=
  h.forAll _ fun _ _ => setMissed refl

theorem bufferEvent {e : Event} (h : Quiet a s) : Quiet a (bufferEvent e s) := by
  unfold Machine.bufferEvent
  exact ite (syncEvq (update (ifElse h (recordLocal refl)))) (bump (update (ifElse h (recordLocal refl))) rfl)

theorem keepEvents {flight : List Packet} (h : Quiet a s) : Quiet a (keepEvents flight s) :=
  tellDiscarded (forAll _ h.update fun _ _ => bufferEvent refl)

theorem setArea {x : Option RetainWrite} (h : Quiet a s) : Quiet a (setArea x s) := ⟨h.same⟩

theorem retainSkip (h : Quiet a s) : Quiet a (retainSkip s) := raiseLog (setArea h) rfl

theorem retainLost (h : Quiet a s) : Quiet a (retainLost s) := by
  unfold Machine.retainLost
  split
  · exact ite h (retainSkip (dropOps h))
  · exact h

/-! ### Field buses and serial ports -/

theorem setFb {c : FbNo} {x : FbChan} (h : Quiet a s) : Quiet a (s.setFb c x) := ite h.update h.update

theorem stopBus (h : Quiet a s) : Quiet a (stopBus s) := h.forAll _ fun _ _ => setFb refl

theorem setComms {x : Comms} (h : Quiet a s) : Quiet a (s.setComms x) := ⟨h.same⟩

theorem setSer {n : SerNo} {x : SerPort} (h : Quiet a s) : Quiet a (s.setSer n x) := ⟨h.same⟩

theorem unwatched_txBusy : ∀ n : SerNo, unwatched (serPage n) SER_STAT_TXBUSY = true := by decide

theorem unwatched_rxBusy : ∀ n : SerNo, unwatched (serPage n) SER_STAT_RXBUSY = true := by decide

theorem setRx {n : SerNo} {x : Option SerRx} (h : Quiet a s) : Quiet a (s.setRx n x) :=
  putBit (setSer h) (unwatched_rxBusy n)

theorem stopSer {n : SerNo} (h : Quiet a s) : Quiet a (stopSer n s) :=
  setRx (putBit (setSer h) (unwatched_txBusy n))

theorem stopSvc (h : Quiet a s) : Quiet a (stopSvc s) := put (put (setComms h) rfl) rfl

theorem stopComms (h : Quiet a s) : Quiet a (stopComms s) := stopSvc (h.forAll _ fun _ _ => stopSer refl)

/-! ### The retain areas -/

theorem retainBegin (h : Quiet a s) : Quiet a (retainBegin s) := ite (setArea h) (retainSkip h)

theorem syncRetainStat (h : Quiet a s) : Quiet a (syncRetainStat s) := putBit (putBit h rfl) rfl

theorem retainSettle (h : Quiet a s) : Quiet a (retainSettle s) :=
  syncRetainStat (forAll _ (dropOps h) fun _ _ => askFlash refl)

/-! ### What a quiet operation keeps -/

theorem ctl (h : Quiet a s) : s.ctl = a.ctl := congrArg (·.1) h.same

theorem mtb (h : Quiet a s) : s.mtb = a.mtb := congrArg (·.2.1) h.same

theorem sched (h : Quiet a s) : s.sched = a.sched := congrArg (·.2.2.2.2.1) h.same

theorem engs (h : Quiet a s) : s.engs = a.engs := congrArg (·.2.2.2.2.2) h.same

theorem rxSeq (h : Quiet a s) (d : Die) : (s.link d).rxSeq = (a.link d).rxSeq := by
  cases d
  · exact congrArg (·.2.2.1) h.same
  · exact congrArg (·.2.2.2.1) h.same

end Quiet

end Sys2Proof.Machine
end

section
/-! The control view through the end of scans and of the link, and the watched fields where they are written. -/

namespace Sys2Proof.Machine

open Reg

/-! ## What the control view holds -/

theorem g_of_ctl {a s : State} (h : s.ctl = a.ctl) {p : Nat} {f : Fld} (hw : (p, f) ∈ watchedFields) :
    s.g p f = a.g p f := by
  have hf : watchedFields.map (fun w => s.g w.1 w.2) = watchedFields.map (fun w => a.g w.1 w.2) :=
    congrArg Ctl.fields h
  exact List.map_inj_left.1 hf (p, f) hw

theorem bit_of_ctl {a s : State} (h : s.ctl = a.ctl) {p : Nat} {f : Fld} (hw : (p, f) ∈ watchedFields) :
    s.bit p f = a.bit p f := by
  simp only [State.bit, g_of_ctl h hw]

theorem failed_of_ctl {a s : State} (h : s.ctl = a.ctl) : s.power.failed = a.power.failed := congrArg Ctl.failed h
theorem leaving_of_ctl {a s : State} (h : s.ctl = a.ctl) : s.power.leaving = a.power.leaving := congrArg Ctl.leaving h
theorem reset_of_ctl {a s : State} (h : s.ctl = a.ctl) : s.power.reset = a.power.reset := congrArg Ctl.reset h
theorem opRun_of_ctl {a s : State} (h : s.ctl = a.ctl) : s.chr.opRun = a.chr.opRun := congrArg Ctl.opRun h

theorem ctl_forAll {f : α → State → State} (hf : ∀ x s, (f x s).ctl = s.ctl) (l : List α) (s : State) :
    (forAll l f s).ctl = s.ctl := by
  induction l generalizing s with
  | nil => rfl
  | cons x l ih => exact (ih (f x s)).trans (hf x s)

/-! ## The end of scans -/

/-- From `a` to `s` the control view and the time base stay, and no scan begins. -/
structure Steady (a s : State) : Prop where
  ctl : s.ctl = a.ctl
  mtb : s.mtb = a.mtb
  scan : ∀ n, (a.task n).scan = none → (s.task n).scan = none

theorem Quiet.steady {a s : State} (h : Quiet a s) : Steady a s :=
  ⟨h.ctl, h.mtb, fun n hn => by rw [State.task, h.sched]; exact hn⟩

namespace Steady
variable {a s t : State}

theorem refl : Steady a a := Quiet.refl.steady

theorem trans (h : Steady a s) (h' : Steady s t) : Steady a t :=
  ⟨h'.ctl.trans h.ctl, h'.mtb.trans h.mtb, fun n hn => h'.scan n (h.scan n hn)⟩

theorem andQuiet (h : Steady a s) (h' : Quiet s t) : Steady a t := h.trans h'.steady

theorem put {p : Nat} {f : Fld} {v : Nat} (h : Steady a s) (hf : unwatched p f = true) : Steady a (s.put p f v) :=
  h.andQuiet (Quiet.put .refl hf)

theorem putBit {p : Nat} {f : Fld} {v : Bool} (h : Steady a s) (hf : unwatched p f = true) : Steady a (s.putBit p f v) :=
  h.put hf

theorem bump {p : Nat} {f : Fld} {n : Nat} (h : Steady a s) (hf : unwatched p f = true) : Steady a (s.bump p f n) :=
  h.put hf

theorem raise {p : Nat} {f : Fld} (h : Steady a s) (hf : unwatched p f = true) : Steady a (raise p f s) :=
  h.andQuiet (Quiet.raise .refl hf)

theorem ite {c : Prop} [Decidable c] (h : Steady a s) (h' : Steady a t) : Steady a (if c then s else t) := by
  split <;> assumption

theorem ifThen {c : Prop} [Decidable c] (h : Steady a s) (ht : Steady s t) : Steady a (if c then t else s) :=
  ite (h.trans ht) h

theorem forAll {f : α → State → State} (l : List α) (h : Steady a s) (hf : ∀ x s, Steady s (f x s)) :
    Steady a (forAll l f s) := by
  induction l generalizing s with
  | nil => exact h
  | cons x l ih => exact ih (h.trans (hf x s))

theorem setEng {e : EngNo} {x : Eng} (h : Steady a s) : Steady a (s.setEng e x) := ⟨h.ctl, h.mtb, h.scan⟩

theorem setLink {d : Die} {l : LinkDie} (h : Steady a s) : Steady a (s.setLink d l) := by
  cases d <;> exact ⟨h.ctl, h.mtb, h.scan⟩

/-- A change of the scheduler that keeps its tasks. -/
theorem setSched {x : Sched} (h : Steady a s) (hx : x.tasks = s.sched.tasks) : Steady a { s with sched := x } :=
  ⟨h.ctl, h.mtb, fun n hn => by simpa only [State.task, hx] using h.scan n hn⟩

/-- A change of a task that begins no scan. -/
theorem setTask {n : TaskNo} {x : Task} (h : Steady a s) (hx : (s.task n).scan = none → x.scan = none) :
    Steady a (s.setTask n x) := by
  refine ⟨h.ctl, h.mtb, fun m hm => ?_⟩
  by_cases hmn : m = n
  · subst hmn
    rw [task_setTask_same]
    exact hx (h.scan m hm)
  · rw [task_setTask_ne _ _ hmn]
    exact h.scan m hm

theorem setDeque {k : Nat} {q : List (TaskNo × Nat)} (h : Steady a s) : Steady a (s.setDeque k q) := h.setSched rfl

theorem dropQueued {n : TaskNo} (h : Steady a s) : Steady a (dropQueued n s) := h.forAll _ fun _ _ => setDeque refl

theorem setCopyQ {b : Half} {q : List CopyPhase} (h : Steady a s) : Steady a (s.setCopyQ b q) := by
  cases b <;> exact h.setSched rfl

theorem dropSnapshot {n : TaskNo} (h : Steady a s) : Steady a (dropSnapshot n s) := h.forAll _ fun _ _ => setCopyQ refl

theorem setLineTag {l : Nat} {x : Option LineTag} (h : Steady a s) : Steady a (setLineTag l x s) := h.setSched rfl

theorem retireTaskLines {n : TaskNo} (h : Steady a s) : Steady a (retireTaskLines n s) :=
  ite h (put (setSched (h.forAll _ fun _ _ => setLineTag refl) rfl) rfl)

theorem unwatched_tskPage (n : TaskNo) (f : Fld) : unwatched (tskPage n) f = true := by
  have h : Nat.ble 68 (tskPage n) = true := by
    rw [Nat.ble_eq]
    simp only [tskPage, pTask]
    omega
  simp only [unwatched, h, Bool.true_or]

theorem unwatchedReg_taskBits : ∀ n : TaskNo, ∀ off ∈ [offActive, offWest, offMigPend],
    unwatchedReg pSCH (off + 4 * (n.val / 32)) = true := by decide

theorem putTaskBit {off : Nat} {n : TaskNo} {b : Bool} (h : Steady a s) (ho : off ∈ [offActive, offWest, offMigPend]) :
    Steady a (s.putTaskBit off n b) := h.andQuiet (Quiet.setReg .refl (unwatchedReg_taskBits n off ho))

theorem setScanning {n : TaskNo} {b : Bool} (h : Steady a s) : Steady a (setScanning n b s) :=
  put (putBit (putTaskBit h (by simp)) (unwatched_tskPage n _)) rfl

theorem setWest {n : TaskNo} {b : Bool} (h : Steady a s) : Steady a (setWest n b s) :=
  putBit (putTaskBit h (by simp)) (unwatched_tskPage n _)

theorem setMigPend {n : TaskNo} {b : Bool} (h : Steady a s) : Steady a (setMigPend n b s) :=
  putBit (putTaskBit h (by simp)) rfl

theorem finishMigration {n : TaskNo} (h : Steady a s) : Steady a (finishMigration n s) :=
  ifThen h (raise (setMigPend (setWest refl)) rfl)

theorem dropRelease {n : TaskNo} (h : Steady a s) : Steady a (dropRelease n s) :=
  bump (setTask h id) (unwatched_tskPage n _)

theorem loseHeld {n : TaskNo} (h : Steady a s) : Steady a (loseHeld n s) :=
  ifThen h (dropRelease (setTask refl id))

/-- The jobs of the task that still run are dead from here on. -/
theorem endJobs {n : TaskNo} (h : Steady a s) : Steady a (Machine.forAll allEngines (fun e s =>
    let x := s.eng e
    if runsLive n x then
      match x.job with
      | some j => s.setEng e { x with job := some { j with dead := true, viol := ⟨0, 0, 0⟩ } }
      | none => s
    else s) s) := by
  refine h.forAll _ fun e s => ifThen refl ?_
  split
  · exact setEng refl
  · exact refl

/-- `killScan` passes a state in which the task's scan has ended. -/
theorem killScan_passes (n : TaskNo) (s : State) :
    ∃ u, Steady s u ∧ (u.task n).scan = none ∧ Steady u (killScan n s) := by
  unfold Machine.killScan
  split
  case h_1 hn => exact ⟨s, refl, hn, refl⟩
  case h_2 =>
    refine ⟨_, setTask (retireTaskLines (endJobs (dropSnapshot (dropQueued refl)))) fun _ => rfl, ?_,
      finishMigration (bump (setScanning refl) (unwatched_tskPage n _))⟩
    rw [task_setTask_same]

theorem killScan {n : TaskNo} (h : Steady a s) : Steady a (killScan n s) := by
  obtain ⟨u, hu, -, ht⟩ := killScan_passes n s
  exact h.trans (hu.trans ht)

/-- Ended scans stay ended, and `killScan` ends one more. -/
theorem scan_forAll_killScan (l : List TaskNo) (s : State) {n : TaskNo} (hn : n ∈ l) :
    ((Machine.forAll l Machine.killScan s).task n).scan = none := by
  induction l generalizing s with
  | nil => exact absurd hn List.not_mem_nil
  | cons m l ih =>
    rcases List.mem_cons.1 hn with rfl | hl
    · obtain ⟨u, -, hu, ht⟩ := killScan_passes n s
      exact (forAll l ht fun _ _ => killScan refl).scan n hu
    · exact ih _ hl

end Steady

/-! ## Watched fields that are written -/

theorem bit_put_one {s : State} {p : Nat} {f : Fld} (h : f.lo < 32) (hw : f.wid = 1) : (s.put p f 1).bit p f = true := by
  rw [State.bit, g_put_same s p f 1 (by omega), hw]
  rfl

theorem bit_put_zero {s : State} {p : Nat} {f : Fld} (h : f.lo + f.wid ≤ 32) : (s.put p f 0).bit p f = false := by
  rw [State.bit, g_put_same s p f 0 h, Nat.zero_mod]
  rfl

theorem bit_put_fieldsApart {s : State} {p : Nat} {f : Fld} {v : Nat} {q : Nat} {g : Fld} (h : fieldsApart p f q g = true) :
    (s.put p f v).bit q g = s.bit q g := by
  simp only [State.bit, g_put_fieldsApart s v h]

/-- A flag raised is set; what follows its setting is quiet. -/
theorem quiet_raise (p : Nat) (f : Fld) (s : State) : Quiet (s.put p f 1) (raise p f s) :=
  Quiet.ifThen (Quiet.ifThen .refl (Quiet.pageEvent .refl)) (Quiet.syncLevels .refl)

/-! ## Damask off -/

/-- Damask is off: both halves, their engines and tasks. -/
structure Offline (t : State) : Prop where
  doff : t.bit pPMU PMU_STAT_DOFF = true
  east : halfState .east t = hsOff
  west : halfState .west t = hsOff
  idle : ∀ e, (t.eng e).mode = .idle
  tasks : t.sched.tasks = []

namespace Offline

theorem quiet {s t : State} (h : Offline s) (hq : Quiet s t) : Offline t where
  doff := (bit_of_ctl hq.ctl (by decide)).trans h.doff
  east := (g_of_ctl hq.ctl (by decide)).trans h.east
  west := (g_of_ctl hq.ctl (by decide)).trans h.west
  idle e := by rw [State.eng, hq.engs]; exact h.idle e
  tasks := by rw [hq.sched, h.tasks]

theorem put {s : State} {p : Nat} {f : Fld} {v : Nat} (h : Offline s) (hd : fieldsApart p f pPMU PMU_STAT_DOFF = true)
    (he : fieldsApart p f pBOOT BOOT_STAT_ESTATE = true) (hw : fieldsApart p f pBOOT BOOT_STAT_WSTATE = true) :
    Offline (s.put p f v) where
  doff := (bit_put_fieldsApart hd).trans h.doff
  east := (g_put_fieldsApart s v he).trans h.east
  west := (g_put_fieldsApart s v hw).trans h.west
  idle := h.idle
  tasks := h.tasks

theorem idle_of_stopped : ∀ e : EngNo, (tget engDefault [(0, engStopped), (32, engStopped)] e.val).mode = .idle := by decide

theorem damaskOff (s : State) : Offline (damaskOff s) where
  doff := (bit_put_fieldsApart (by decide)).trans (bit_put_one (by decide) rfl)
  east := ((g_put_fieldsApart _ _ (by decide)).trans ((g_put_fieldsApart _ _ (by decide)).trans
    (g_put_fieldsApart _ _ (by decide)))).trans (g_put_same _ _ _ _ (by decide))
  west := ((g_put_fieldsApart _ _ (by decide)).trans (g_put_fieldsApart _ _ (by decide))).trans
    (g_put_same _ _ _ _ (by decide))
  idle := idle_of_stopped
  tasks := rfl

end Offline

theorem norTear_power (s : State) : (norTear s).power = s.power := by
  unfold norTear
  split
  · split
    · exact wbytes_power ..
    · rfl
  · rfl

theorem damaskOff_reset (s : State) : (damaskOff s).power.reset = s.power.reset :=
by
  simp only [damaskOff, keepCause, damaskClear, put_power, setReg_power, resetPages_power, clearMem_power, norTear_power]

/-- What a die does outside the power-fail plan alone is left out in it. -/
theorem Quiet.inPlan {a s t : State} {c : Bool} (h : Quiet a s) (hp : planRuns a = true) :
    Quiet a (if (c && !planRuns s) = true then t else s) := by
  have hs : planRuns s = true := (bit_of_ctl h.ctl (by decide)).trans hp
  rw [hs, Bool.not_true, Bool.and_false, if_neg Bool.false_ne_true]
  exact h

theorem Quiet.branch {a s t u : State} {c : Prop} [Decidable c] (h : Quiet a s) (ht : Quiet s t) (hu : Quiet s u) :
    Quiet a (if c then t else u) := ite (h.trans ht) (h.trans hu)

/-- Muslin loses the link in the power-fail plan: Damask is not put off here. -/
theorem Quiet.muslinLosesLink {flight waiting : List Packet} {s : State} (hp : planRuns s = true) :
    Quiet s (muslinLosesLink flight waiting s) := by
  unfold Machine.muslinLosesLink
  refine inPlan (branch ?_ (retainLost refl) (muslinFault refl)) hp
  exact put (ifThen (hartLinkDown_muslin (vaultLinkDown (missDeliveries (keepEvents (update (ohmEngage (put refl rfl)))))))
    (forAll _ refl fun _ _ => hartStop refl)) rfl

namespace Steady

theorem leaveUp_muslin {a s : State} (h : Steady a s) (hp : planRuns a = true) : Steady a (leaveUp .muslin s) := by
  unfold leaveUp
  have hl (l : LinkDie) : Steady a (((((s.put pDDLM DDL_STAT_STATE stDown).setLink .muslin l).put pDDLM
      DDL_STAT_SESSION 0).setReg pDDLM 0x044 0).incr pDDLM DDL_DOWNCNT_COUNT) :=
    (setLink (put h rfl)).andQuiet (Quiet.incr (Quiet.setReg (Quiet.put .refl rfl) rfl) rfl)
  exact raise ((hl _).andQuiet (Quiet.muslinLosesLink ((bit_of_ctl (hl _).ctl (by decide)).trans hp))) rfl

theorem toDown_muslin {a s : State} (h : Steady a s) (hp : planRuns a = true) : Steady a (toDown .muslin s) := by
  unfold toDown
  exact setLink (ite (leaveUp_muslin h hp) (setLink (put h rfl)))

end Steady

end Sys2Proof.Machine
end

section
/-! The supply fails and returns (O23). -/

namespace Sys2Proof.Machine

open Reg

/-! ## The supply (O23) -/

theorem Quiet.kept {a s t : State} (h : Quiet a t) : Quiet a (kept s t) := h.update

/-- The plan's end puts Damask off, whatever the link was. -/
theorem offline_damaskCut {s : State} (hp : planRuns s = true) (hd : s.bit pPMU PMU_STAT_DOFF = false) :
    Offline (damaskCut s) ∧ (damaskCut s).power.reset = s.power.reset := by
  have h : Steady s (if s.linkUp .muslin then toDown .muslin s else s) :=
    Steady.ifThen .refl (Steady.toDown_muslin .refl hp)
  unfold damaskCut
  dsimp only
  rw [bit_of_ctl h.ctl (by decide), hd, if_neg Bool.false_ne_true]
  exact ⟨Offline.damaskOff _, (damaskOff_reset _).trans (reset_of_ctl h.ctl)⟩

/-- The retain write that the plan's end cuts off is given up. -/
def areaGivenUp (s : State) : State :=
  if s.power.area.isSome then retainSkip (dropOps (fun u => u == .retain) s) else s

theorem Quiet.areaGivenUp {a s : State} (h : Quiet a s) : Quiet a (areaGivenUp s) :=
  ifThen h (retainSkip (dropOps refl))

theorem completes_powerFailPlanEnd (low : Bool) (x : Straps) {s : State} (hp : planRuns s = true)
    (hr : s.flash.running = none) (hn : s.power.reset = none) (hd : s.bit pPMU PMU_STAT_DOFF = false) :
    Completes (.powerFailPlanEnd low x) s fun t => Offline t ∧ t.bit pPMU PMU_STAT_PLAN = false := by
  have hl : Quiet s (retainLost s) := Quiet.retainLost .refl
  obtain ⟨hoff, hreset⟩ := offline_damaskCut ((bit_of_ctl hl.ctl (by decide)).trans hp)
    ((bit_of_ctl hl.ctl (by decide)).trans hd)
  have hq : Quiet (damaskCut (retainLost s)) (areaGivenUp (damaskCut (retainLost s))) := Quiet.areaGivenUp .refl
  have hend : ((areaGivenUp (damaskCut (retainLost s))).put pPMU PMU_STAT_PLAN 0).power.reset = none :=
    (reset_of_ctl hq.ctl).trans (hreset.trans ((reset_of_ctl hl.ctl).trans hn))
  have hexec : exec (.powerFailPlanEnd low x) s =
      ok s ((areaGivenUp (damaskCut (retainLost s))).put pPMU PMU_STAT_PLAN 0) := by
    show execPowerFailPlanEnd low x s = _
    unfold execPowerFailPlanEnd
    rw [hp, hr, if_neg (by decide)]
    dsimp only
    rw [← areaGivenUp, hend]
  exact completes_ok hexec ⟨((hoff.quiet hq).put rfl rfl rfl).quiet (Quiet.kept .refl), bit_put_zero (by decide)⟩

/-- Damask is on its way into OFF: no scan is live, and no task is released. -/
structure Leaving (t : State) : Prop where
  leaving : t.power.leaving = true
  scan : ∀ n, (t.task n).scan = none
  holdE : t.bit pSCH SCH_CTRL_HOLDE = true
  holdW : t.bit pSCH SCH_CTRL_HOLDW = true

theorem Leaving.quiet {s t : State} (h : Leaving s) (hq : Quiet s t) : Leaving t where
  leaving := (leaving_of_ctl hq.ctl).trans h.leaving
  scan n := hq.steady.scan n (h.scan n)
  holdE := (bit_of_ctl hq.ctl (by decide)).trans h.holdE
  holdW := (bit_of_ctl hq.ctl (by decide)).trans h.holdW

/-- The supply has failed, and the power-fail plan runs. -/
structure Failing (t : State) : Prop where
  failed : t.power.failed = true
  supgood : t.bit pPMU PMU_STAT_SUPGOOD = false
  plan : t.bit pPMU PMU_STAT_PLAN = true
  supfail : t.bit pPMU PMU_IRQ_RAW_SUPFAIL = true
  opRun : t.chr.opRun = false

theorem Failing.of_ctl {s t : State} (h : Failing s) (hc : t.ctl = s.ctl) : Failing t where
  failed := (failed_of_ctl hc).trans h.failed
  supgood := (bit_of_ctl hc (by decide)).trans h.supgood
  plan := (bit_of_ctl hc (by decide)).trans h.plan
  supfail := (bit_of_ctl hc (by decide)).trans h.supfail
  opRun := (opRun_of_ctl hc).trans h.opRun

/-- Damask goes OFF from here on: its releases are held. -/
def goingOff (s : State) : State :=
  let s := (s.put pSCH SCH_CTRL_HOLDE 1).put pSCH SCH_CTRL_HOLDW 1
  { s with power := { s.power with leaving := true, leaveAt := s.mtb, cutAt := s.replica + 15000000 } }

theorem bit_goingOff (s : State) (q : Nat) (g : Fld) :
    (goingOff s).bit q g = ((s.put pSCH SCH_CTRL_HOLDE 1).put pSCH SCH_CTRL_HOLDW 1).bit q g := rfl

theorem bit_goingOff_apart {s : State} {q : Nat} {g : Fld} (he : fieldsApart pSCH SCH_CTRL_HOLDE q g = true)
    (hw : fieldsApart pSCH SCH_CTRL_HOLDW q g = true) : (goingOff s).bit q g = s.bit q g := by
  rw [bit_goingOff, bit_put_fieldsApart hw, bit_put_fieldsApart he]

theorem Leaving.goingOff {s : State} (h : ∀ n, (s.task n).scan = none) : Leaving (goingOff s) where
  leaving := rfl
  scan := h
  holdE := by rw [bit_goingOff, bit_put_fieldsApart (by decide), bit_put_one (by decide) rfl]
  holdW := by rw [bit_goingOff, bit_put_one (by decide) rfl]

theorem Failing.goingOff {s : State} (h : Failing s) : Failing (goingOff s) where
  failed := h.failed
  supgood := (bit_goingOff_apart (by decide) (by decide)).trans h.supgood
  plan := (bit_goingOff_apart (by decide) (by decide)).trans h.plan
  supfail := (bit_goingOff_apart (by decide) (by decide)).trans h.supfail
  opRun := h.opRun

/-- Every scan is dead, and Damask goes OFF. -/
def scansStopped (s : State) : State := goingOff (forAll allTasks killScan s)

theorem leaving_scansStopped (s : State) : Leaving (scansStopped s) :=
  Leaving.goingOff fun n => Steady.scan_forAll_killScan allTasks s (List.mem_finRange n)

theorem Failing.scansStopped {s : State} (h : Failing s) : Failing (scansStopped s) :=
  (h.of_ctl (Steady.forAll allTasks .refl fun _ _ => Steady.killScan .refl).ctl).goingOff

theorem quiet_damaskStop (s : State) : Quiet (scansStopped s) (damaskStop s) := Quiet.stopComms (Quiet.stopBus .refl)

theorem quiet_damaskLeave (s : State) : Quiet (scansStopped s) (damaskLeave s) :=
  Quiet.sendBulk (Quiet.retainBegin (quiet_damaskStop s))

theorem ctl_untilReplica (n : Nat) (s : State) : (s.untilReplica n).ctl = s.ctl := by
  unfold State.untilReplica
  split <;> rfl

/-- A metering sample changes no more than the replica and what is quiet. -/
theorem quiet_meterSample (x : MeterTick) (s : State) : Quiet (s.untilReplica x.now) (meterSample x s) := by
  unfold meterSample
  generalize s.untilReplica x.now = u
  exact Quiet.ite (Quiet.settleMeter .refl) (Quiet.forAll _ (Quiet.setMeter (Quiet.forAll _ (Quiet.settleMeter .refl)
    fun _ _ => Quiet.absorbSample .refl)) fun _ _ => Quiet.detectCycle .refl)

theorem ctl_feedMeter (xs : List MeterTick) (s : State) : (feedMeter xs s).ctl = s.ctl :=
  ctl_forAll (fun x s => (quiet_meterSample x s).ctl.trans (ctl_untilReplica x.now s)) xs s

/-- The supply's flags at once: failed, no supply-good, the plan. -/
def supplyDown (s : State) : State :=
  let s := (s.put pPMU PMU_STAT_SUPGOOD 0).put pPMU PMU_STAT_PLAN 1
  { s with power := { s.power with failed := true } }

theorem bit_supplyDown (s : State) (q : Nat) (g : Fld) :
    (supplyDown s).bit q g = ((s.put pPMU PMU_STAT_SUPGOOD 0).put pPMU PMU_STAT_PLAN 1).bit q g := rfl

/-- The raising of SUPFAIL, and the end of the operating count. -/
def planAlarm (s : State) : State :=
  let s := raise pPMU PMU_IRQ_RAW_SUPFAIL (supplyDown s)
  s.setChr { s.chr with opRun := false }

theorem setChr_power (s : State) (x : Charon) : (s.setChr x).power = s.power := rfl
theorem bit_setChr (s : State) (x : Charon) (p : Nat) (f : Fld) : (s.setChr x).bit p f = s.bit p f := rfl

/-- A watched field after the alarm is as in the state in which SUPFAIL is set. -/
theorem bit_planAlarm (s : State) {p : Nat} {f : Fld} (hw : (p, f) ∈ watchedFields) :
    (planAlarm s).bit p f = ((supplyDown s).put pPMU PMU_IRQ_RAW_SUPFAIL 1).bit p f := by
  rw [planAlarm, bit_setChr, bit_of_ctl (quiet_raise _ _ _).ctl hw]

theorem failing_planAlarm (s : State) : Failing (planAlarm s) where
  failed := by rw [planAlarm, setChr_power, failed_of_ctl (quiet_raise _ _ _).ctl, put_power]; rfl
  supgood := by rw [bit_planAlarm s (by decide), bit_put_fieldsApart (by decide), bit_supplyDown,
    bit_put_fieldsApart (by decide), bit_put_zero (by decide)]
  plan := by rw [bit_planAlarm s (by decide), bit_put_fieldsApart (by decide), bit_supplyDown, bit_put_one (by decide) rfl]
  supfail := by rw [bit_planAlarm s (by decide), bit_put_one (by decide) rfl]
  opRun := rfl

theorem leaving_planAlarm (s : State) : (planAlarm s).power.leaving = s.power.leaving := by
  rw [planAlarm, setChr_power, leaving_of_ctl (quiet_raise _ _ _).ctl, put_power]
  rfl

theorem doff_planAlarm (s : State) : (planAlarm s).bit pPMU PMU_STAT_DOFF = s.bit pPMU PMU_STAT_DOFF := by
  rw [bit_planAlarm s (by decide), bit_put_fieldsApart (by decide), bit_supplyDown, bit_put_fieldsApart (by decide),
    bit_put_fieldsApart (by decide)]

/-- What the plan saves and reports first. -/
def planBegun (xs : List MeterTick) (s : State) : State :=
  muslinFault pPMU 11 true 0 (planOrder (askSave .final (stopSampling (feedMeter xs s))))

theorem ctl_planBegun (xs : List MeterTick) (s : State) : (planBegun xs s).ctl = s.ctl :=
  (Quiet.muslinFault (Quiet.planOrder (Quiet.askSave (Quiet.stopSampling .refl)))).ctl.trans (ctl_feedMeter xs s)

/-- Damask goes OFF when it is powered and not on its way already. -/
def planDamask (s : State) : State :=
  if s.power.leaving || s.bit pPMU PMU_STAT_DOFF then s
  else if s.linkUp .damask && s.linkUp .muslin then damaskLeave s
  else retainSkip (damaskStop s)

theorem planDamask_on {s : State} (h : (s.power.leaving || s.bit pPMU PMU_STAT_DOFF) = false) :
    Quiet (scansStopped s) (planDamask s) := by
  unfold planDamask
  rw [h, if_neg Bool.false_ne_true]
  exact Quiet.ite (quiet_damaskLeave s) (Quiet.retainSkip (quiet_damaskStop s))

theorem Failing.planDamask {s : State} (h : Failing s) : Failing (planDamask s) := by
  by_cases hd : (s.power.leaving || s.bit pPMU PMU_STAT_DOFF) = true
  · rw [Machine.planDamask, if_pos hd]
    exact h
  · exact h.scansStopped.of_ctl (planDamask_on (Bool.eq_false_iff.2 hd)).ctl

theorem completes_supplyFailure (xs : List MeterTick) {s : State} (hh : s.power.held = false) (hf : s.power.failed = false) :
    Completes (.supplyFailure xs) s fun t => Failing t ∧
      (s.power.leaving = false → s.bit pPMU PMU_STAT_DOFF = false → Leaving t) := by
  have hc := ctl_planBegun xs (planAlarm s)
  have hl : (planBegun xs (planAlarm s)).power.leaving = s.power.leaving :=
    (leaving_of_ctl hc).trans (leaving_planAlarm s)
  have hd : (planBegun xs (planAlarm s)).bit pPMU PMU_STAT_DOFF = s.bit pPMU PMU_STAT_DOFF :=
    (bit_of_ctl hc (by decide)).trans (doff_planAlarm s)
  have hexec : exec (.supplyFailure xs) s = ok s (planDamask (planBegun xs (planAlarm s))) := by
    show execSupplyFailure xs s = _
    unfold execSupplyFailure
    rw [hh, hf, if_neg (by decide)]
    rfl
  refine completes_ok hexec ⟨?_, fun h1 h2 => ?_⟩
  · exact ((failing_planAlarm s).of_ctl hc).planDamask.of_ctl (Quiet.kept .refl).ctl
  · rw [h1] at hl
    rw [h2] at hd
    exact (leaving_scansStopped _).quiet (Quiet.kept (planDamask_on (by rw [hl, hd]; rfl)))

/-- Where the supply comes back, its flag is raised and supply-good set. -/
structure SupplyBack (t : State) : Prop where
  failed : t.power.failed = false
  supgood : t.bit pPMU PMU_STAT_SUPGOOD = true
  flag : t.bit pPMU PMU_IRQ_RAW_SUPGOOD = true

theorem SupplyBack.of_ctl {s t : State} (h : SupplyBack s) (hc : t.ctl = s.ctl) : SupplyBack t where
  failed := (failed_of_ctl hc).trans h.failed
  supgood := (bit_of_ctl hc (by decide)).trans h.supgood
  flag := (bit_of_ctl hc (by decide)).trans h.flag

theorem supplyBack_raise {s : State} (h : s.power.failed = false) :
    SupplyBack (raise pPMU PMU_IRQ_RAW_SUPGOOD (s.put pPMU PMU_STAT_SUPGOOD 1)) := by
  have hb : SupplyBack ((s.put pPMU PMU_STAT_SUPGOOD 1).put pPMU PMU_IRQ_RAW_SUPGOOD 1) :=
    ⟨h, (bit_put_fieldsApart (by decide)).trans (bit_put_one (by decide) rfl), bit_put_one (by decide) rfl⟩
  exact hb.of_ctl (quiet_raise _ _ _).ctl

theorem doff_chrSupplyGood (s : State) : (chrSupplyGood s).bit pPMU PMU_STAT_DOFF = s.bit pPMU PMU_STAT_DOFF :=
  @bit_put_fieldsApart (askCount 1 (.counter false) s) _ _ _ _ _ (by decide)

/-- The module with the supply back, before its meter starts. -/
def supplyReturned (s : State) : State :=
  let s := chrSupplyGood { s with power := { s.power with failed := false } }
  raise pPMU PMU_IRQ_RAW_SUPGOOD (s.put pPMU PMU_STAT_SUPGOOD 1)

theorem supplyBack_supplyReturned (s : State) : SupplyBack (supplyReturned s) := supplyBack_raise rfl

theorem doff_supplyReturned (s : State) : (supplyReturned s).bit pPMU PMU_STAT_DOFF = s.bit pPMU PMU_STAT_DOFF := by
  rw [supplyReturned, bit_of_ctl (quiet_raise _ _ _).ctl (by decide), bit_put_fieldsApart (by decide),
    bit_put_fieldsApart (by decide), doff_chrSupplyGood]
  rfl

theorem wakeDamask_on {s : State} (h : s.bit pPMU PMU_STAT_DOFF = false) : wakeDamask s = s := by
  rw [wakeDamask, h, Bool.false_and, if_neg Bool.false_ne_true]

theorem completes_supplyGood {s : State} (hh : s.power.held = false) (hp : planRuns s = false)
    (hg : s.bit pPMU PMU_STAT_SUPGOOD = false) (hd : s.bit pPMU PMU_STAT_DOFF = false) :
    Completes .supplyGood s SupplyBack := by
  have hq (u : State) : Quiet u (retainSettle (if u.bit pMTV MTV_CTRL_EN && !u.bit pMTV MTV_STAT_RUN && !u.meter.xtalLost then
      startSampling u else u)) := Quiet.retainSettle (Quiet.ifThen .refl (Quiet.startSampling .refl))
  refine completes_ok ?_ ((supplyBack_supplyReturned s).of_ctl (Quiet.kept (hq (supplyReturned s))).ctl)
  show execSupplyGood s = _
  unfold execSupplyGood
  rw [hp, hh, hg, if_neg (by decide)]
  exact congrArg (ok s) (wakeDamask_on ((bit_of_ctl (hq (supplyReturned s)).ctl (by decide)).trans
    ((doff_supplyReturned s).trans hd)))

/-- A module reset asked for in the plan is kept for its end. -/
theorem completes_moduleReset_plan (low : Bool) (x : Straps) {s : State} (hh : s.power.held = false)
    (hp : planRuns s = true) : Completes (.moduleReset low x) s fun t =>
      t = { s with pins := x, power := { s.power with reset := some causePin } } := by
  have hh' : (setPins x s).power.held = false := hh
  have hp' : planRuns (setPins x s) = true := hp
  have hexec : exec (.moduleReset low x) s = ok s { s with pins := x, power := { s.power with reset := some causePin } } := by
    show ok s (moduleReset causePin low (setPins x s)) = _
    rw [moduleReset, hh', if_neg Bool.false_ne_true, hp', if_pos rfl]
    rfl
  exact completes_ok hexec rfl

/-- Settles O23: the module reset waits in the plan (`completes_moduleReset_plan`), whose end puts Damask off
(`completes_powerFailPlanEnd`); the supply fails with the plan's flags (`completes_supplyFailure`) and comes back
(`completes_supplyGood`). -/
theorem supplyFailsAndReturns : Obligations.SupplyFailsAndReturns := by
  refine ⟨fun x low s hh hp => ⟨completes_moduleReset_plan low x hh hp, fun hr hn hd => ?_⟩,
    fun xs s hh => ⟨fun hf => ?_, fun hp hg hd => ?_⟩⟩
  · obtain ⟨t, ht, off, plan⟩ := completes_powerFailPlanEnd low x hp hr hn hd
    exact ⟨t, ht, off.doff, plan, off.east, off.west, off.idle⟩
  · obtain ⟨t, ht, fails, leaves⟩ := completes_supplyFailure xs hh hf
    exact ⟨t, ht, fails.failed, fails.supgood, fails.plan, fails.supfail, fails.opRun, fun hl hd =>
      have h := leaves hl hd
      ⟨h.leaving, h.scan, h.holdE, h.holdW⟩⟩
  · obtain ⟨t, ht, back⟩ := completes_supplyGood hh hp hg hd
    exact ⟨t, ht, back.failed, back.supgood, back.flag⟩

end Sys2Proof.Machine
end

section
/-! Writes of firmware, and with them Damask off and the retain restore (O24). -/

namespace Sys2Proof.Machine

open Reg

/-! ## Writes of firmware -/

/-- Firmware's write of a page that it reaches is that write as it stands at the page. -/
theorem writeCmd_firmware {r : Requester} {p : Nat} {s : State} (h : Firmware r p s) (off : Nat) (v : Word) :
    writeCmd r p off v s = regWrite r p off v s := by
  obtain ⟨hsup, hreach⟩ := h
  have herr : linkError p off s = false := by
    cases hm : isMuslinPage p
    · simp [linkError, hm]
    · have hl : s.linkUp .damask = true := by simp_all [pageReached]
      simp [linkError, hl]
  have hserved : pageServed p off s = true := by rw [pageServed, hreach, Bool.true_or]
  rw [writeCmd, herr, if_neg Bool.false_ne_true, hserved, if_pos rfl]
  simp [pageStore, pageRefuses, hsup]

/-- The state in which a block of page `p` sees a write: an open lock is used up by it. -/
def lockUsed (p : Nat) (r : Requester) (s : State) : State := if lockOpenFor p r s then closeLock p s else s

/-- A write at CTRL or above is the block's own, with the lock of the page used up. -/
theorem regWrite_block {r : Requester} {p off : Nat} {s : State} (v : Word) (ho : off = 0x008 ∨ 0x040 ≤ off)
    (ha : ∀ u, regAbsent p off u = false) :
    regWrite r p off v s =
      if isMuslinPage p then syncLevels (muslinWrite p off ⟨r, v, lockOpenFor p r s⟩ (lockUsed p r s))
      else damaskWrite p off ⟨r, v, lockOpenFor p r s⟩ (lockUsed p r s) := by
  have hc (a : Access) (u : State) : commonWrite p off a u = none := by
    unfold commonWrite
    repeat rw [if_neg (by omega)]
  have hl : lockStep p off r v s 0 = (⟨r, v, lockOpenFor p r s⟩, lockUsed p r s) := by
    have hv : v &&& ~~~((0 : Word) &&& flagBits p off) = v := by
      show v &&& ~~~(0#32 &&& flagBits p off) = v
      rw [BitVec.zero_and, BitVec.not_zero, BitVec.and_allOnes]
    simp only [lockStep, lockUsed, ho, decide_true, Bool.true_and, hv]
  simp only [regWrite, tieEvents, true_or, if_true, hl, hc, ha, Bool.false_and, Bool.false_eq_true, if_false]

theorem Quiet.lockUsed {a s : State} {p : Nat} {r : Requester} (h : Quiet a s) (hp : unwatched p LOCK_OPEN = true) :
    Quiet a (lockUsed p r s) := ite (put h hp) h

/-- Firmware's write of a field of PMU_CTRL is the power manager's. -/
theorem fieldCmd_pmuCtrl {r : Requester} {s : State} (h : Firmware r pPMU s) (f : Fld) (v : Nat) (hf : f.off = 0x008) :
    fieldCmd r pPMU f v s = syncLevels (pmuWrite 0x008 ⟨r, f.ins (s.reg pPMU 0x008) v, lockOpenFor pPMU r s⟩
      (lockUsed pPMU r s)) := by
  have ha (u : State) : regAbsent pPMU 0x008 u = false := Bool.and_eq_false_iff.2 (.inr (by decide))
  rw [fieldCmd, writeCmd_firmware h, hf, regWrite_block _ (.inl rfl) ha]
  rfl

/-! ## Damask off and the retain restore (O24) -/

theorem bytes_of_mem {s t : State} (h : t.mem = s.mem) (a n : Nat) : t.bytes a n = s.bytes a n := by
  induction n generalizing a with
  | zero => rfl
  | succ n ih => simp only [State.bytes, State.rb, h, ih]

theorem flWord_of_mem {s t : State} (h : t.mem = s.mem) (off : Nat) : flWord off t = flWord off s := by
  simp only [flWord, State.rw, State.rb, h]

theorem areaRegions_of_mem {s t : State} (h : t.mem = s.mem) (k : Nat) : areaRegions k t = areaRegions k s := by
  simp only [areaRegions, flByte, State.rb, h]

/-- Which retain areas are valid stands in the flash alone. -/
theorem areaValid_of_flash {s t : State} (hm : t.mem = s.mem) (hf : t.flash = s.flash) (k : Nat) :
    areaValid k t = areaValid k s := by
  unfold areaValid areaLength readable granuleError flBytes
  rw [areaRegions_of_mem hm, bytes_of_mem hm, bytes_of_mem hm, flWord_of_mem hm, flWord_of_mem hm, hf]

theorem newestArea_of_flash {s t : State} (hm : t.mem = s.mem) (hf : t.flash = s.flash) : newestArea t = newestArea s := by
  unfold newestArea areaGen
  rw [areaValid_of_flash hm hf, areaValid_of_flash hm hf, flWord_of_mem hm, flWord_of_mem hm]

/-- The power manager's registers aside, the state is as before; of these, those that steer power and boot are too. -/
structure PmuOnly (a s : State) : Prop where
  quiet : Quiet a s
  link : ∀ d, s.linkUp d = a.linkUp d
  mem : s.mem = a.mem
  flash : s.flash = a.flash

namespace PmuOnly
variable {a s : State}

theorem refl : PmuOnly a a := ⟨.refl, fun _ => Eq.refl _, Eq.refl _, Eq.refl _⟩

theorem setReg {off : Nat} {w : Word} (h : PmuOnly a s) (ho : off < 4096) (hu : unwatchedReg pPMU off = true) :
    PmuOnly a (s.setReg pPMU off w) where
  quiet := h.quiet.setReg hu
  link d := by
    have hr : (s.setReg pPMU off w).g (ddlPage d) DDL_STAT_STATE = s.g (ddlPage d) DDL_STAT_STATE := by
      rw [State.g, reg_setReg_page s w (by cases d <;> decide) ho (by decide)]
      rfl
    rw [← h.link d]
    simp only [State.linkUp, State.linkState, hr, setReg_power]
  mem := h.mem
  flash := h.flash

theorem put {f : Fld} {v : Nat} (h : PmuOnly a s) (ho : f.off < 4096) (hu : unwatchedReg pPMU f.off = true) :
    PmuOnly a (s.put pPMU f v) := h.setReg ho hu

/-- The state in which the power manager sees the bits of a write of CTRL. -/
theorem ctrlWritten (x : Access) (r : Requester) (s : State) : PmuOnly s (plainWrite pPMU 0x008 x (lockUsed pPMU r s)) := by
  have hl : PmuOnly s (lockUsed pPMU r s) := by
    unfold lockUsed
    split
    · exact put refl (by decide) (by decide)
    · exact refl
  unfold plainWrite
  split
  · exact setReg hl (by decide) (by decide)
  · exact hl

end PmuOnly

theorem pmuDoff_down {s : State} (hd : s.bit pPMU PMU_STAT_DOFF = false) (hl : s.power.leaving = false)
    (hm : s.linkUp .muslin = false) : Offline (pmuDoff s) := by
  have hm' : (s.put pPMU PMU_CTRL_DOFF 1).linkUp .muslin = false :=
    ((PmuOnly.put .refl (by decide) (by decide)).link .muslin).trans hm
  rw [pmuDoff, hd, hl, Bool.false_or, if_neg Bool.false_ne_true]
  dsimp only
  rw [hm', Bool.and_false, if_neg Bool.false_ne_true]
  exact Offline.damaskOff _

theorem pmuDoff_up {s : State} (hd : s.bit pPMU PMU_STAT_DOFF = false) (hl : s.power.leaving = false)
    (hm : s.linkUp .muslin = true) (hk : s.linkUp .damask = true) : Leaving (pmuDoff s) := by
  have hu (d : Die) : (s.put pPMU PMU_CTRL_DOFF 1).linkUp d = s.linkUp d := (PmuOnly.put .refl (by decide) (by decide)).link d
  rw [pmuDoff, hd, hl, Bool.false_or, if_neg Bool.false_ne_true]
  dsimp only
  rw [hu, hu, hm, hk, Bool.and_true, if_pos rfl]
  exact (leaving_scansStopped _).quiet (quiet_damaskLeave _)

/-- A bit of the word that a field command writes, beside its field, is the register's. -/
theorem fieldWord_apart {f g : Fld} {r : Requester} {u : Bool} {s : State} {p v : Nat} (ho : g.off = f.off)
    (hf : f.lo + f.wid ≤ 32) (hg : g.lo + g.wid ≤ 32) (ha : g.lo + g.wid ≤ f.lo ∨ f.lo + f.wid ≤ g.lo) :
    Access.b ⟨r, f.ins (s.reg p f.off) v, u⟩ g = s.bit p g := by
  rw [Access.b, Fld.get_ins_apart f g _ _ hf hg ha, State.bit, State.g, ho]

theorem fieldWord_same {f : Fld} {r : Requester} {u : Bool} {w : Word} (hf : f.lo + f.wid ≤ 32) (hw : f.wid = 1) :
    Access.b ⟨r, f.ins w 1, u⟩ f = true := by
  rw [Access.b, Fld.get_ins f w 1 hf, hw]
  rfl

/-- Firmware asks for Damask off: CTRL with DOFF set and RESTORE clear. -/
theorem exec_doff {r : Requester} {s : State} (h : Firmware r pPMU s) (hr : s.bit pPMU PMU_CTRL_RESTORE = false) :
    ∃ x : Access, exec (.doff r) s = ok s (syncLevels (pmuDoff (plainWrite pPMU 0x008 x (lockUsed pPMU r s)))) := by
  refine ⟨⟨r, PMU_CTRL_DOFF.ins (s.reg pPMU 0x008) 1 &&& 0x3, lockOpenFor pPMU r s⟩, ?_⟩
  have hb := @fieldWord_apart PMU_CTRL_DOFF PMU_CTRL_RESTORE r (lockOpenFor pPMU r s) s pPMU 1 rfl (by decide) (by decide)
    (.inl (by decide))
  rw [show PMU_CTRL_DOFF.off = 0x008 from rfl, hr] at hb
  show ok s (fieldCmd r pPMU PMU_CTRL_DOFF 1 s) = _
  rw [fieldCmd_pmuCtrl h _ _ rfl, pmuWrite, if_pos rfl]
  dsimp only
  rw [fieldWord_same (by decide) rfl, if_pos rfl, hb, if_neg Bool.false_ne_true]

/-- Firmware asks for the restore: CTRL with RESTORE set and DOFF clear. -/
theorem exec_restore {r : Requester} {s : State} (h : Firmware r pPMU s) (hd : s.bit pPMU PMU_CTRL_DOFF = false) :
    ∃ x : Access, exec (.restore r) s = ok s (syncLevels (pmuRestore (plainWrite pPMU 0x008 x (lockUsed pPMU r s)))) := by
  refine ⟨⟨r, PMU_CTRL_RESTORE.ins (s.reg pPMU 0x008) 1 &&& 0x3, lockOpenFor pPMU r s⟩, ?_⟩
  have hb := @fieldWord_apart PMU_CTRL_RESTORE PMU_CTRL_DOFF r (lockOpenFor pPMU r s) s pPMU 1 rfl (by decide) (by decide)
    (.inr (by decide))
  rw [show PMU_CTRL_RESTORE.off = 0x008 from rfl, hd] at hb
  show ok s (fieldCmd r pPMU PMU_CTRL_RESTORE 1 s) = _
  rw [fieldCmd_pmuCtrl h _ _ rfl, pmuWrite, if_pos rfl]
  dsimp only
  rw [fieldWord_same (by decide) rfl, if_pos rfl, hb, if_neg Bool.false_ne_true]

theorem linkUp_damask_of_reached {p : Nat} {s : State} (hm : isMuslinPage p = true) (h : pageReached p s = true) :
    s.linkUp .damask = true := by
  simp_all [pageReached]

theorem completes_doff_down {r : Requester} {s : State} (h : Firmware r pPMU s) (hl : s.power.leaving = false)
    (hd : s.bit pPMU PMU_STAT_DOFF = false) (hr : s.bit pPMU PMU_CTRL_RESTORE = false) (hm : s.linkUp .muslin = false) :
    Completes (.doff r) s Offline := by
  obtain ⟨x, hx⟩ := exec_doff h hr
  have hw := PmuOnly.ctrlWritten x r s
  have ht := pmuDoff_down ((bit_of_ctl hw.quiet.ctl (by decide)).trans hd) ((leaving_of_ctl hw.quiet.ctl).trans hl)
    ((hw.link .muslin).trans hm)
  exact completes_ok hx (ht.quiet (Quiet.kept (Quiet.syncLevels .refl)))

theorem completes_doff_up {r : Requester} {s : State} (h : Firmware r pPMU s) (hl : s.power.leaving = false)
    (hd : s.bit pPMU PMU_STAT_DOFF = false) (hr : s.bit pPMU PMU_CTRL_RESTORE = false) (hm : s.linkUp .muslin = true) :
    Completes (.doff r) s Leaving := by
  obtain ⟨x, hx⟩ := exec_doff h hr
  have hw := PmuOnly.ctrlWritten x r s
  have ht := pmuDoff_up ((bit_of_ctl hw.quiet.ctl (by decide)).trans hd) ((leaving_of_ctl hw.quiet.ctl).trans hl)
    ((hw.link .muslin).trans hm) ((hw.link .damask).trans (linkUp_damask_of_reached rfl h.2))
  exact completes_ok hx (ht.quiet (Quiet.kept (Quiet.syncLevels .refl)))

/-- A restore without a valid area is done at once. -/
theorem pmuRestore_none {s : State} (h : newestArea s = none) :
    Quiet ((s.put pPMU PMU_STAT_RESTDONE 0).put pPMU PMU_STAT_RESTDONE 1) (pmuRestore s) := by
  have hn : newestArea (s.put pPMU PMU_STAT_RESTDONE 0) = none := (newestArea_of_flash (put_mem ..) (put_flash ..)).trans h
  rw [pmuRestore]
  dsimp only
  rw [hn]
  exact Quiet.retainSettle .refl

theorem completes_restore {r : Requester} {s : State} (h : Firmware r pPMU s) (hd : s.bit pPMU PMU_CTRL_DOFF = false)
    (hn : newestArea s = none) : Completes (.restore r) s fun t => t.bit pPMU PMU_STAT_RESTDONE = true := by
  obtain ⟨x, hx⟩ := exec_restore h hd
  have hw := PmuOnly.ctrlWritten x r s
  have hq := pmuRestore_none ((newestArea_of_flash hw.mem hw.flash).trans hn)
  exact completes_ok hx ((bit_of_ctl (Quiet.kept (Quiet.syncLevels hq)).ctl (by decide)).trans (bit_put_one (by decide) rfl))

end Sys2Proof.Machine
end

section
/-! A restart of Damask (O24). -/

namespace Sys2Proof.Machine

open Reg

/-! ## A Damask restart (O24) -/

theorem norTear_regs (s : State) : (norTear s).regs = s.regs := by
  unfold norTear
  split
  · split
    · exact wbytes_regs ..
    · rfl
  · rfl

theorem norTear_replica (s : State) : (norTear s).replica = s.replica := by
  unfold norTear
  split
  · split
    · exact wbytes_replica ..
    · rfl
  · rfl

theorem damaskClear_regs (s : State) : (damaskClear s).regs =
    tclear (fun k => 128 ≤ k / 1024 && k / 1024 < 512) (tclear (fun k => 0 ≤ k / 1024 && k / 1024 < 64) s.regs) := by
  simp only [damaskClear, clearMem_regs, State.resetPages, norTear_regs]

/-- With Damask cleared, both halves stand in ROM. -/
theorem halfState_damaskClear (h : Half) (s : State) : halfState h (damaskClear s) = hsRom := by
  have hr : (damaskClear s).reg pBOOT 0x00C = regDefault (regKey pBOOT 0x00C) := by
    rw [State.reg, damaskClear_regs, tget_tclear, if_neg (by decide), tget_tclear, if_pos (by decide)]
  cases h
  · exact (congrArg BOOT_STAT_ESTATE.get hr).trans (by decide)
  · exact (congrArg BOOT_STAT_WSTATE.get hr).trans (by decide)

/-- Both halves start in ROM at count `n`, with the releases held. -/
structure Restarted (n : Nat) (t : State) : Prop where
  mtb : t.mtb = n
  replica : t.replica = n
  cause : t.g pBOOT BOOT_STAT_CAUSE = 2
  loaded : t.bit pMTB MTB_STAT_LOADED = false
  eastRom : t.boot.east = romStart false n
  westRom : t.boot.west = romStart false n
  holdE : t.bit pSCH SCH_CTRL_HOLDE = true
  holdW : t.bit pSCH SCH_CTRL_HOLDW = true
  east : halfState .east t = hsRom
  west : halfState .west t = hsRom

theorem Restarted.quiet {n : Nat} {s t : State} (h : Restarted n s) (hq : Quiet s t) (hr : t.replica = s.replica)
    (hb : t.boot = s.boot) : Restarted n t where
  mtb := hq.mtb.trans h.mtb
  replica := hr.trans h.replica
  cause := (g_of_ctl hq.ctl (by decide)).trans h.cause
  loaded := (bit_of_ctl hq.ctl (by decide)).trans h.loaded
  eastRom := by rw [hb, h.eastRom]
  westRom := by rw [hb, h.westRom]
  holdE := (bit_of_ctl hq.ctl (by decide)).trans h.holdE
  holdW := (bit_of_ctl hq.ctl (by decide)).trans h.holdW
  east := (g_of_ctl hq.ctl (by decide)).trans h.east
  west := (g_of_ctl hq.ctl (by decide)).trans h.west

/-- An operation for each element that writes registers alone. -/
theorem forAll_regs {f : α → State → State} (hf : ∀ x s, f x s = { s with regs := (f x s).regs }) (l : List α)
    (s : State) : forAll l f s = { s with regs := (forAll l f s).regs } := by
  induction l generalizing s with
  | nil => rfl
  | cons x l ih =>
    show forAll l f (f x s) = { s with regs := (forAll l f (f x s)).regs }
    rw [ih (f x s), hf x s]

theorem syncSupv_regs (s : State) : syncSupv s = { s with regs := (syncSupv s).regs } :=
  forAll_regs (fun _ _ => rfl) _ s

theorem unwatched_supvRole : ∀ e : EngNo, unwatched (engPage e) ⟨0x00C, 16 + laneOf e, 1⟩ = true := by decide

theorem Quiet.syncSupv {a s : State} (h : Quiet a s) : Quiet a (syncSupv s) :=
  h.forAll _ fun e _ => put refl (unwatched_supvRole e)

theorem Quiet.syncProt {a s : State} (h : Quiet a s) : Quiet a (syncProt s) := putBit (putBit h rfl) rfl

/-- The cleared Damask counts on from the replica, with cause 2 and the time base not loaded. -/
def restartFrom (s : State) : State :=
  let s := { s with
    mtb := s.replica, sched := { s.sched with btick := s.replica / 25000, cutoff := s.replica }
    damask := { s.damask with since := s.replica } }
  let s := (s.put pPMU PMU_STAT_DOFF 0).put pPMU PMU_CTRL_DOFF 0
  (s.put pBOOT BOOT_STAT_CAUSE 2).put pMTB MTB_STAT_LOADED 0

theorem g_restartFrom (s : State) (p : Nat) (f : Fld) : (restartFrom s).g p f =
    ((((s.put pPMU PMU_STAT_DOFF 0).put pPMU PMU_CTRL_DOFF 0).put pBOOT BOOT_STAT_CAUSE 2).put pMTB MTB_STAT_LOADED 0).g p f :=
  rfl

/-- Both halves in ROM from now on, their releases held. -/
def romsStarted (s : State) : State :=
  let s := { s with boot := { s.boot with east := romStart false s.mtb, west := romStart false s.mtb } }
  (s.put pSCH SCH_CTRL_HOLDE 1).put pSCH SCH_CTRL_HOLDW 1

theorem g_romsStarted (s : State) (p : Nat) (f : Fld) :
    (romsStarted s).g p f = ((s.put pSCH SCH_CTRL_HOLDE 1).put pSCH SCH_CTRL_HOLDW 1).g p f := rfl

theorem damaskStart_eq (s : State) :
    damaskStart s = syncPinen (syncProt (syncSupv (romsStarted (restartFrom (keepCause damaskClear s))))) := rfl

theorem damaskClear_replica (s : State) : (damaskClear s).replica = s.replica := by
  simp only [damaskClear, clearMem_replica, resetPages_replica, norTear_replica]

theorem keepCause_replica (s : State) : (keepCause damaskClear s).replica = s.replica := by
  simp only [keepCause, setReg_replica, damaskClear_replica]

theorem halfState_keepCause (h : Half) (s : State) : halfState h (keepCause damaskClear s) = hsRom := by
  rw [← halfState_damaskClear h s, halfState, State.g, keepCause, reg_setReg_ne _ _ (by cases h <;> decide)]
  rfl

theorem halfState_restartFrom (h : Half) (s : State) : halfState h (restartFrom s) = halfState h s := by
  unfold halfState
  rw [g_restartFrom, g_put_fieldsApart _ _ (by cases h <;> decide), g_put_fieldsApart _ _ (by cases h <;> decide),
    g_put_fieldsApart _ _ (by cases h <;> decide), g_put_fieldsApart _ _ (by cases h <;> decide)]

theorem halfState_romsStarted (h : Half) (s : State) : halfState h (romsStarted s) = halfState h s := by
  unfold halfState
  rw [g_romsStarted, g_put_fieldsApart _ _ (by cases h <;> decide), g_put_fieldsApart _ _ (by cases h <;> decide)]

theorem restarted_romsStarted {s : State} (he : halfState .east s = hsRom) (hw : halfState .west s = hsRom) :
    Restarted s.replica (romsStarted (restartFrom s)) where
  mtb := rfl
  replica := rfl
  cause := by
    rw [g_romsStarted, g_put_fieldsApart _ _ (by decide), g_put_fieldsApart _ _ (by decide), g_restartFrom,
      g_put_fieldsApart _ _ (by decide), g_put_same _ _ _ _ (by decide)]
    rfl
  loaded := by
    rw [State.bit, g_romsStarted, g_put_fieldsApart _ _ (by decide), g_put_fieldsApart _ _ (by decide), g_restartFrom,
      g_put_same _ _ _ _ (by decide)]
    rfl
  eastRom := rfl
  westRom := rfl
  holdE := by
    rw [State.bit, g_romsStarted, g_put_fieldsApart _ _ (by decide), g_put_same _ _ _ _ (by decide)]
    rfl
  holdW := by
    rw [State.bit, g_romsStarted, g_put_same _ _ _ _ (by decide)]
    rfl
  east := (halfState_romsStarted .east _).trans ((halfState_restartFrom .east s).trans he)
  west := (halfState_romsStarted .west _).trans ((halfState_restartFrom .west s).trans hw)

theorem damaskStart_replica (s : State) : (syncPinen (syncProt (syncSupv s))).replica = s.replica := by
  rw [syncSupv_regs]
  simp only [syncPinen, syncProt, putBit_replica]

theorem damaskStart_boot (s : State) : (syncPinen (syncProt (syncSupv s))).boot = s.boot := by
  rw [syncSupv_regs]
  simp only [syncPinen, syncProt, putBit_boot]

theorem restarted_damaskStart (s : State) : Restarted s.replica (damaskStart s) := by
  have h := restarted_romsStarted (halfState_keepCause .east s) (halfState_keepCause .west s)
  rw [keepCause_replica] at h
  rw [damaskStart_eq]
  exact h.quiet (Quiet.putBit (Quiet.syncProt (Quiet.syncSupv .refl)) rfl) (damaskStart_replica _) (damaskStart_boot _)

/-- Firmware with the lock of BOOT open restarts Damask. -/
theorem completes_damaskRestart {r : Requester} {s : State} (h : FirmwareUnlocked r pBOOT s) :
    Completes (.damaskRestart r) s (Restarted s.replica) := by
  obtain ⟨hf, hl⟩ := h
  have ha (u : State) : regAbsent pBOOT 0x008 u = false := Bool.and_eq_false_iff.2 (.inr (by decide))
  have hexec : exec (.damaskRestart r) s = ok s (damaskStart (closeLock pBOOT s)) := by
    show ok s (fieldCmd r pBOOT BOOT_CTRL_DRESTART 1 s) = _
    rw [fieldCmd, writeCmd_firmware hf, show BOOT_CTRL_DRESTART.off = 0x008 from rfl, regWrite_block _ (.inl rfl) ha,
      if_neg (by decide), lockUsed, hl, if_pos rfl]
    show ok s (bootWrite 0x008 _ _) = _
    rw [bootWrite, if_pos rfl, fieldWord_same (by decide) rfl, Bool.and_true, if_pos rfl]
  have hr : (closeLock pBOOT s).replica = s.replica := put_replica ..
  have ht := restarted_damaskStart (closeLock pBOOT s)
  rw [hr] at ht
  exact completes_ok hexec (ht.quiet (Quiet.kept .refl) (kept_replica ..) (kept_boot ..))

end Sys2Proof.Machine
end

section
/-! A half boot (O24). -/

namespace Sys2Proof.Machine

open Reg

/-! ## A half boot (O24): what ends -/

namespace Steady
variable {a s : State}

theorem stopHalf {h : Half} (hs : Steady a s) : Steady a (stopHalf h s) := by
  unfold Machine.stopHalf
  refine forAll _ ?_ fun _ _ => ifThen refl (setEng refl)
  exact ⟨hs.ctl, hs.mtb, hs.scan⟩

theorem withholdTxns {h : Half} (hs : Steady a s) : Steady a (withholdTxns h s) := ⟨hs.ctl, hs.mtb, hs.scan⟩

end Steady

/-- Every watched field stands on a page of no engine, or is the exclusion of lane 0. -/
theorem watched_engines : ∀ w ∈ watchedFields,
    (w.1 < 16 ∨ 24 ≤ w.1) ∧ w.2.off < 4096 ∨ w.2 = ⟨0x008, 0, 1⟩ := by decide

/-- What a half boot makes of the page of one cluster. -/
def engPageCleared (k : Nat) (s : State) : State :=
  let excl := s.reg k 0x008 &&& 0xFF
  let hung := s.reg k 0x00C &&& 0xFF
  let cnt := s.reg k 0x040
  let s := s.resetPages k (k + 1)
  ((s.setReg k 0x008 excl).setReg k 0x00C ((s.reg k 0x00C &&& 0xFFFFFF00) ||| hung)).setReg k 0x040 cnt

theorem resetEngPages_eq (h : Half) (s : State) : resetEngPages h s = engPageCleared (halfPage h + 3) (engPageCleared
    (halfPage h + 2) (engPageCleared (halfPage h + 1) (engPageCleared (halfPage h + 0) s))) := by
  unfold resetEngPages
  rfl

/-- A register of another page is as before. -/
theorem reg_engPageCleared_ne {k p off : Nat} (s : State) (hp : p ≠ k) (ho : off < 4096) :
    (engPageCleared k s).reg p off = s.reg p off := by
  have hk : ¬ ((k ≤ regKey p off / 1024 && regKey p off / 1024 < k + 1) = true) := by
    have hpage : regKey p off / 1024 = p := by
      simp only [regKey]
      omega
    rw [hpage, Bool.and_eq_true, decide_eq_true_eq, decide_eq_true_eq]
    omega
  unfold engPageCleared
  dsimp only
  rw [reg_setReg_page _ _ hp (by decide) ho, reg_setReg_page _ _ hp (by decide) ho, reg_setReg_page _ _ hp (by decide) ho,
    State.reg, State.resetPages, tget_tclear, if_neg hk]
  rfl

/-- The excluded lanes stay excluded. -/
theorem reg_engPageCleared_excl (k : Nat) (s : State) : (engPageCleared k s).reg k 0x008 = s.reg k 0x008 &&& 0xFF := by
  unfold engPageCleared
  dsimp only
  rw [reg_setReg_ne _ _ (by simp only [regKey]; omega), reg_setReg_ne _ _ (by simp only [regKey]; omega), reg_setReg_same]

/-- A cleared cluster page keeps every watched field. -/
theorem ctl_engPageCleared {k : Nat} (h1 : 16 ≤ k) (h2 : k < 24) (s : State) : (engPageCleared k s).ctl = s.ctl := by
  refine ctl_of_fields (fun w hw => ?_) rfl rfl
  obtain ⟨hp, ho⟩ | hx := watched_engines w hw
  · exact congrArg w.2.get (reg_engPageCleared_ne s (by omega) ho)
  · rw [hx]
    by_cases hk : w.1 = k
    · rw [hk, State.g, State.g, reg_engPageCleared_excl]
      have hb (w : Word) : Fld.get ⟨0x008, 0, 1⟩ (w &&& 0xFF) = Fld.get ⟨0x008, 0, 1⟩ w := by
        simp [Fld.get, BitVec.extractLsb'_and]
      exact hb _
    · exact congrArg (Fld.get ⟨0x008, 0, 1⟩) (reg_engPageCleared_ne s hk (by decide))

theorem Steady.resetEngPages {a s : State} {h : Half} (hs : Steady a s) : Steady a (resetEngPages h s) := by
  have hp : 16 ≤ halfPage h ∧ halfPage h ≤ 20 := by cases h <;> decide
  have hc (i : Nat) (hi : i < 4) (u : State) : Steady u (engPageCleared (halfPage h + i) u) :=
    ⟨ctl_engPageCleared (by omega) (by omega) u, Eq.refl _, fun _ hn => hn⟩
  rw [resetEngPages_eq]
  exact (((hs.trans (hc 0 (by decide) _)).trans (hc 1 (by decide) _)).trans (hc 2 (by decide) _)).trans (hc 3 (by decide) _)

/-- The half with its scans dead, its held releases lost, and its engines and their pages at rest. -/
def halfCleared (h : Half) (s : State) : State :=
  let s := forAll allTasks (fun t s => if halfScan h t s then killScan t s else s) s
  let s := forAll allTasks (fun t s => if taskHalf t s == h then loseHeld t s else s) s
  resetEngPages h (stopHalf h (withholdTxns h s))

theorem steady_halfCleared (h : Half) (s : State) : Steady s (halfCleared h s) := by
  unfold halfCleared
  exact Steady.resetEngPages (Steady.stopHalf (Steady.withholdTxns (Steady.forAll _ (Steady.forAll _ .refl
    fun _ _ => Steady.ifThen .refl (Steady.killScan .refl)) fun _ _ => Steady.ifThen .refl (Steady.loseHeld .refl))))

theorem engs_engPageCleared (k : Nat) (s : State) : (engPageCleared k s).engs = s.engs := rfl

theorem engs_resetEngPages (h : Half) (s : State) : (resetEngPages h s).engs = s.engs := by
  rw [resetEngPages_eq, engs_engPageCleared, engs_engPageCleared, engs_engPageCleared, engs_engPageCleared]

/-- What each step keeps, the whole of the steps keeps. -/
theorem forAll_keeps (P : State → Prop) {f : α → State → State} (hf : ∀ x s, P s → P (f x s)) (l : List α) {s : State}
    (h : P s) : P (forAll l f s) := by
  induction l generalizing s with
  | nil => exact h
  | cons x l ih => exact ih (hf x s h)

/-- What the step of an element brings about, and each step keeps, holds at the end. -/
theorem forAll_reaches (P : State → Prop) {f : α → State → State} (hf : ∀ x s, P s → P (f x s)) {l : List α} {x : α}
    (hx : x ∈ l) (hs : ∀ s, P (f x s)) (s : State) : P (forAll l f s) := by
  induction l generalizing s with
  | nil => exact absurd hx List.not_mem_nil
  | cons y l ih =>
    rcases List.mem_cons.1 hx with rfl | hl
    · exact forAll_keeps P hf l (hs s)
    · exact ih hl _

/-- The engines of a stopped half. -/
theorem eng_stopHalf {e : EngNo} {h : Half} (he : halfOf e = h) (s : State) : (stopHalf h s).eng e = engStopped := by
  unfold stopHalf
  refine forAll_reaches (fun u => u.eng e = engStopped) (fun x u hu => ?_) (List.mem_finRange e) (fun u => ?_) _
  · split
    · by_cases hxe : e = x
      · rw [hxe, eng_setEng_same]
      · rw [eng_setEng_ne _ _ hxe, hu]
    · exact hu
  · rw [he, if_pos (beq_self_eq_true h), eng_setEng_same]

theorem eng_halfCleared {e : EngNo} {h : Half} (he : halfOf e = h) (s : State) : (halfCleared h s).eng e = engStopped := by
  rw [halfCleared, State.eng, engs_resetEngPages]
  exact eng_stopHalf he _

/-- The lane of a half that starts its ROM: the first one, or the next when that is excluded. -/
theorem romEngine_eq (h : Half) (s : State) :
    romEngine h s = firstEngine h + if s.bit (halfPage h) ⟨0x008, 0, 1⟩ then 1 else 0 := by
  have hb (w : Word) : w.getLsbD 0 = (Fld.get ⟨0x008, 0, 1⟩ w != 0) := by
    rw [Bool.eq_iff_iff]
    simp [Fld.get, BitVec.getLsbD, Nat.testBit_zero]
  rw [romEngine, hb]
  rfl

theorem romEngine_of_ctl {s t : State} (hc : t.ctl = s.ctl) (h : Half) : romEngine h t = romEngine h s := by
  rw [romEngine_eq, romEngine_eq, bit_of_ctl hc (by cases h <;> decide)]

theorem romEngine_lt (h : Half) (s : State) : romEngine h s < 64 := by
  unfold romEngine
  cases h <;> simp only [firstEngine] <;> split <;> decide


/-! ## A half boot (O24): what starts -/

/-- The supervisor roles stand in one register. -/
theorem supv_of_ctl {s t : State} (h : t.ctl = s.ctl) : t.reg pFAB 0x040 = s.reg pFAB 0x040 := by
  have hg : t.g pFAB ⟨0x040, 0, 32⟩ = s.g pFAB ⟨0x040, 0, 32⟩ := g_of_ctl h (by decide)
  have hw (w : Word) : Fld.get ⟨0x040, 0, 32⟩ w = w.toNat := by simp [Fld.get]
  rw [State.g, State.g, hw, hw] at hg
  exact BitVec.eq_of_toNat_eq hg

theorem isSupervisor_of_reg {s t : State} (h : t.reg pFAB 0x040 = s.reg pFAB 0x040) (e : EngNo) :
    isSupervisor e t = isSupervisor e s := by
  simp only [isSupervisor, h]

theorem regs_setMode (e : EngNo) (m : EngMode) (s : State) : (setMode e m s).regs = s.regs := by
  unfold setMode
  dsimp only
  split <;> rfl

theorem Steady.setMode {a s : State} {e : EngNo} {m : EngMode} (h : Steady a s) : Steady a (setMode e m s) :=
  setEng (ifThen h (setSched refl rfl))

theorem eng_setMode_ne {e f : EngNo} (m : EngMode) (s : State) (h : f ≠ e) : (setMode e m s).eng f = s.eng f := by
  unfold setMode
  dsimp only
  rw [eng_setEng_ne _ _ h]
  split <;> rfl

/-- The engine in its new mode. -/
theorem eng_setMode_same (e : EngNo) (m : EngMode) (s : State) :
    ((setMode e m s).eng e).mode = m ∧ ((setMode e m s).eng e).pc = (s.eng e).pc := by
  unfold setMode
  dsimp only
  rw [eng_setEng_same]
  exact ⟨Eq.refl _, Eq.refl _⟩

theorem regs_settleRole (e : EngNo) (s : State) : (settleRole e s).regs = s.regs := by
  unfold settleRole
  dsimp only
  split
  · exact regs_setMode ..
  · split
    · exact regs_setMode ..
    · rfl

theorem Steady.settleRole {a s : State} {e : EngNo} (h : Steady a s) : Steady a (settleRole e s) :=
  ite (setMode (setEng h)) (ifThen h (setMode (setEng refl)))

/-- A stopped engine without a role stays as it is. -/
theorem eng_settleRole_stopped {e f : EngNo} {s : State} (hr : isSupervisor f s = false) (hs : s.eng f = engStopped) :
    (settleRole e s).eng f = engStopped := by
  by_cases hfe : f = e
  · subst hfe
    unfold settleRole
    dsimp only
    rw [hr, hs]
    exact hs
  · unfold settleRole
    dsimp only
    split
    · rw [eng_setMode_ne _ _ hfe, eng_setEng_ne _ _ hfe, hs]
    · split
      · rw [eng_setMode_ne _ _ hfe, eng_setEng_ne _ _ hfe, hs]
      · exact hs

theorem unwatched_stage (r : Nat) : unwatched pWDT (stageFld r) = true := by
  have h : ∀ w ∈ watchedFields, (regKey pWDT 0x00C != regKey w.1 w.2.off) = true := by decide
  refine Bool.or_eq_true_iff.2 (.inr (List.all_eq_true.2 fun w hw => Bool.or_eq_true_iff.2 (.inl (h w hw))))

theorem Quiet.wdtSync {a s : State} (h : Quiet a s) : Quiet a (wdtSync s) :=
  h.forAll _ fun _ _ => ite (put (update refl) (unwatched_stage _)) (ite (put (update refl) (unwatched_stage _)) refl)

/-- The roles as SUPV gives them from now on, before the watchdogs follow. -/
def rolesSettled (w : Word) (s : State) : State :=
  forAll allEngines settleRole (syncSupv (s.setReg pFAB 0x040 (w ||| 0x00800080)))

theorem quiet_setSupv (w : Word) (s : State) : Quiet (rolesSettled w s) (setSupv w s) := Quiet.wdtSync .refl

theorem steady_setSupv (w : Word) (s : State) : Steady (s.setReg pFAB 0x040 (w ||| 0x00800080)) (setSupv w s) :=
  (Steady.forAll _ (Quiet.syncSupv .refl).steady fun _ _ => Steady.settleRole .refl).andQuiet (quiet_setSupv w s)

theorem reg_setSupv (w : Word) (s : State) : (setSupv w s).reg pFAB 0x040 = w ||| 0x00800080 := by
  rw [supv_of_ctl (steady_setSupv w s).ctl, reg_setReg_same]

theorem reg_of_regs {s t : State} (h : t.regs = s.regs) (p off : Nat) : t.reg p off = s.reg p off := by
  rw [State.reg, State.reg, h]

/-- The engines that settle in their roles write no register, and a stopped one without a role does nothing. -/
theorem eng_forAll_settleRole {s : State} {e : EngNo} (hs : s.eng e = engStopped) (hr : isSupervisor e s = false)
    (l : List EngNo) : (forAll l settleRole s).eng e = engStopped := by
  refine (forAll_keeps (fun u => isSupervisor e u = false ∧ u.eng e = engStopped) (fun x u hu => ?_) l ⟨hr, hs⟩).2
  obtain ⟨hru, hsu⟩ := hu
  exact ⟨by rw [isSupervisor_of_reg (reg_of_regs (regs_settleRole x u) _ _), hru], eng_settleRole_stopped hru hsu⟩

theorem eng_setSupv_stopped {w : Word} {s : State} {e : EngNo} (hs : s.eng e = engStopped)
    (hr : isSupervisor e (setSupv w s) = false) : (setSupv w s).eng e = engStopped := by
  have hsync : Quiet (s.setReg pFAB 0x040 (w ||| 0x00800080)) (syncSupv (s.setReg pFAB 0x040 (w ||| 0x00800080))) :=
    Quiet.syncSupv .refl
  have hreg : (setSupv w s).reg pFAB 0x040 = (syncSupv (s.setReg pFAB 0x040 (w ||| 0x00800080))).reg pFAB 0x040 := by
    rw [reg_setSupv, supv_of_ctl hsync.ctl, reg_setReg_same]
  rw [isSupervisor_of_reg hreg] at hr
  rw [State.eng, (quiet_setSupv w s).engs]
  refine eng_forAll_settleRole ?_ hr allEngines
  rw [State.eng, hsync.engs]
  exact hs

/-- The engine of a half that runs its ROM. -/
def romLane (h : Half) (s : State) : EngNo := ⟨romEngine h s % 64, Nat.mod_lt _ (by decide)⟩

/-- SUPV with the ROM's engine as the half's primary supervisor, and no secondary. -/
def romSupv (h : Half) (s : State) : Word :=
  (s.reg pFAB 0x040 &&& ~~~word (0xFFFF * 2 ^ (16 * h.ix))) ||| word ((0x80 + romEngine h s) * 2 ^ (16 * h.ix))

/-- The ROM begins on its engine. -/
def romRuns (h : Half) (s : State) : State :=
  setMode (romLane h s) .run ((setSupv (romSupv h s) s).setEng (romLane h s) { engRom with mode := .idle })

/-- What a half boot writes at its end: no watchdog, the releases held, ROM with its slot. -/
def romHeld (h : Half) (slot : Nat) (s : State) : State :=
  let s := (wdtHalfBoot h s).put pSCH (holdFld h) 1
  setHalfState h hsRom (s.setRom h { romStart true s.mtb with slot := some slot })

theorem halfBoot_eq (h : Half) (slot : Nat) (s : State) : halfBoot h slot s = romHeld h slot (romRuns h (halfCleared h s)) := by
  unfold halfBoot
  rfl

/-- SUPV names the ROM's engine as the primary supervisor. -/
theorem supv_names (h : Half) (x : Word) {r : Nat} (hr : r = firstEngine h ∨ r = firstEngine h + 1) :
    (BitVec.extractLsb' 0 6 (BitVec.extractLsb' (8 * (2 * h.ix)) 8 (((x &&& ~~~word (0xFFFF * 2 ^ (16 * h.ix))) |||
      word ((0x80 + r) * 2 ^ (16 * h.ix))) ||| 0x00800080))).toNat = r := by
  have hm : BitVec.extractLsb' (8 * (2 * h.ix)) 8 (~~~word (0xFFFF * 2 ^ (16 * h.ix))) = 0#8 := by cases h <;> decide
  simp only [BitVec.extractLsb'_or, BitVec.extractLsb'_and, hm, BitVec.and_zero]
  cases h <;> rcases hr with rfl | rfl <;> decide

theorem romEngine_cases (h : Half) (s : State) : romEngine h s = firstEngine h ∨ romEngine h s = firstEngine h + 1 := by
  unfold romEngine
  split
  · exact .inr (Eq.refl _)
  · exact .inl (Eq.refl _)

theorem val_romLane (h : Half) (s : State) : (romLane h s).val = romEngine h s := Nat.mod_eq_of_lt (romEngine_lt h s)

theorem steady_romRuns (h : Half) (s : State) :
    Steady (s.setReg pFAB 0x040 (romSupv h s ||| 0x00800080)) (romRuns h s) :=
  Steady.setMode (Steady.setEng (steady_setSupv _ s))

theorem supv_romRuns (h : Half) (s : State) : (romRuns h s).reg pFAB 0x040 = romSupv h s ||| 0x00800080 := by
  rw [supv_of_ctl (steady_romRuns h s).ctl, reg_setReg_same]

/-- A watched field other than SUPV. -/
theorem g_romRuns (h : Half) (s : State) {p : Nat} {f : Fld} (hw : (p, f) ∈ watchedFields) (hp : p ≠ pFAB)
    (ho : f.off < 4096) : (romRuns h s).g p f = s.g p f := by
  rw [g_of_ctl (steady_romRuns h s).ctl hw, State.g, reg_setReg_page _ _ hp (by decide) ho]
  rfl

theorem eng_romLane (h : Half) (s : State) :
    ((romRuns h s).eng (romLane h s)).mode = .run ∧ ((romRuns h s).eng (romLane h s)).pc = 0 := by
  obtain ⟨hm, hpc⟩ := eng_setMode_same (romLane h s) .run
    ((setSupv (romSupv h s) s).setEng (romLane h s) { engRom with mode := .idle })
  rw [eng_setEng_same] at hpc
  exact ⟨hm, hpc⟩

theorem eng_romRuns_stopped {h : Half} {s : State} {e : EngNo} (he : e ≠ romLane h s) (hs : s.eng e = engStopped)
    (hr : isSupervisor e (romRuns h s) = false) : (romRuns h s).eng e = engStopped := by
  rw [isSupervisor_of_reg ((supv_romRuns h s).trans (reg_setSupv (romSupv h s) s).symm)] at hr
  rw [romRuns, eng_setMode_ne _ _ he, eng_setEng_ne _ _ he]
  exact eng_setSupv_stopped hs hr

theorem Quiet.wdtHalfBoot {a s : State} {h : Half} (hs : Quiet a s) : Quiet a (wdtHalfBoot h s) := by
  refine put (wdtSync (put (put hs ?_) ?_)) ?_ <;> cases h <;> decide

/-- What is written of the half's state at the end of a half boot. -/
structure RomHeld (h : Half) (slot : Nat) (s t : State) : Prop where
  half : halfState h t = hsRom
  rom : t.rom h = { romStart true s.mtb with slot := some slot }
  hold : t.bit pSCH (holdFld h) = true
  other : halfState h.other t = halfState h.other s
  supv : t.reg pFAB 0x040 = s.reg pFAB 0x040
  engs : t.engs = s.engs

theorem g_setRom (s : State) (h : Half) (x : Rom) (p : Nat) (f : Fld) : (s.setRom h x).g p f = s.g p f := by
  cases h <;> rfl

theorem reg_setRom (s : State) (h : Half) (x : Rom) (p off : Nat) : (s.setRom h x).reg p off = s.reg p off := by
  cases h <;> rfl

theorem rom_setRom (s : State) (h : Half) (x : Rom) : (s.setRom h x).rom h = x := by cases h <;> rfl

theorem rom_setHalfState (s : State) (h g : Half) (v : Nat) : (setHalfState h v s).rom g = s.rom g := by cases g <;> rfl

theorem engs_setRom (s : State) (h : Half) (x : Rom) : (s.setRom h x).engs = s.engs := by cases h <;> rfl

theorem romHeld_holds (h : Half) (slot : Nat) (s : State) : RomHeld h slot s (romHeld h slot s) := by
  have hw : Quiet s (wdtHalfBoot h s) := Quiet.wdtHalfBoot .refl
  have hq (u : State) : Quiet (u.put pBOOT (halfStateFld h) hsRom) (setHalfState h hsRom u) := Quiet.syncProt .refl
  unfold romHeld
  dsimp only
  exact {
    half := by
      rw [halfState, g_of_ctl (hq _).ctl (by cases h <;> decide), g_put_same _ _ _ _ (by cases h <;> decide)]
      cases h <;> rfl
    rom := by rw [rom_setHalfState, rom_setRom, put_mtb, hw.mtb]
    hold := by
      rw [State.bit, g_of_ctl (hq _).ctl (by cases h <;> decide), g_put_fieldsApart _ _ (by cases h <;> decide), g_setRom]
      exact bit_put_one (by cases h <;> decide) (by cases h <;> rfl)
    other := by
      rw [halfState, g_of_ctl (hq _).ctl (by cases h <;> decide), g_put_fieldsApart _ _ (by cases h <;> decide), g_setRom,
        g_put_fieldsApart _ _ (by cases h <;> decide), g_of_ctl hw.ctl (by cases h <;> decide)]
      rfl
    supv := by
      rw [supv_of_ctl (hq _).ctl, reg_put_ne _ _ (by cases h <;> decide), reg_setRom, reg_put_ne _ _ (by cases h <;> decide),
        supv_of_ctl hw.ctl]
    engs := by rw [(hq _).engs, put_engs, engs_setRom, put_engs, hw.engs] }

/-- What a half boot leaves: the half in ROM on its first lane that is not excluded, its other engines stopped. -/
structure HalfBooted (h : Half) (slot : Nat) (s t : State) : Prop where
  half : halfState h t = hsRom
  rom : t.rom h = { romStart true s.mtb with slot := some slot }
  hold : t.bit pSCH (holdFld h) = true
  other : halfState h.other t = halfState h.other s
  lane : (primaryOf h t).val = romEngine h s
  pc : (t.eng (primaryOf h t)).pc = 0
  runs : (t.eng (primaryOf h t)).mode = .run
  stopped : ∀ e, halfOf e = h → e ≠ primaryOf h t → isSupervisor e t = false → t.eng e = engStopped

theorem halfBooted_halfBoot (h : Half) (slot : Nat) (s : State) : HalfBooted h slot s (halfBoot h slot s) := by
  rw [halfBoot_eq]
  have hc := steady_halfCleared h s
  have hr := steady_romRuns h (halfCleared h s)
  have hh := romHeld_holds h slot (romRuns h (halfCleared h s))
  have hsupv := hh.supv.trans (supv_romRuns h (halfCleared h s))
  have hp : primaryOf h (romHeld h slot (romRuns h (halfCleared h s))) = romLane h (halfCleared h s) := by
    refine Fin.ext ?_
    rw [val_romLane]
    show (BitVec.extractLsb' 0 6 (BitVec.extractLsb' (8 * (2 * h.ix)) 8 (State.reg _ pFAB 0x040))).toNat = _
    rw [hsupv]
    exact supv_names h _ (romEngine_cases h _)
  have heng (e : EngNo) : (romHeld h slot (romRuns h (halfCleared h s))).eng e = (romRuns h (halfCleared h s)).eng e := by
    rw [State.eng, hh.engs]
    rfl
  exact {
    half := hh.half
    rom := by rw [hh.rom, hr.mtb, setReg_mtb, hc.mtb]
    hold := hh.hold
    other := by
      rw [hh.other, halfState, g_romRuns h _ (by cases h <;> decide) (by decide) (by cases h <;> decide),
        g_of_ctl hc.ctl (by cases h <;> decide)]
      rfl
    lane := by rw [hp, val_romLane, romEngine_of_ctl hc.ctl]
    pc := by rw [hp, heng, (eng_romLane h _).2]
    runs := by rw [hp, heng, (eng_romLane h _).1]
    stopped := fun e he hne hs => by
      rw [hp] at hne
      rw [heng]
      exact eng_romRuns_stopped hne (eng_halfCleared he s) ((isSupervisor_of_reg hh.supv e).symm.trans hs) }

/-! ## A half boot by firmware (O24) -/

/-- The word of HBOOT that starts a half boot. -/
def hbootWord (h : Half) (slot : Fin 2) : Word :=
  BOOT_HBOOT_GO.ins (BOOT_HBOOT_HALF.ins (BOOT_HBOOT_SLOT.ins 0 slot.val) h.ix) 1


/-- The row of HBOOT. -/
def hbootRow : RegRow := ⟨0x040, 4, 1, 0, 0, 0, 0x80000000, 0, 0, 0, 0x101, 0⟩

/-- HALF and SLOT of HBOOT, of a word written by a supervisor with GO clear. -/
theorem get_hbootWritten (h : Half) (slot : Fin 2) (r : Requester) (u : Bool) (old : Word) (hr : r.sup = true) :
    BOOT_HBOOT_HALF.get (hbootRow.written ⟨r, hbootWord h slot &&& 0x7FFFFFFF, u⟩ old) = h.ix ∧
      BOOT_HBOOT_SLOT.get (hbootRow.written ⟨r, hbootWord h slot &&& 0x7FFFFFFF, u⟩ old) = slot.val := by
  have hhalf : BitVec.extractLsb' 8 1 (~~~(0x101 : Word)) = 0#1 := by decide
  have hslot : BitVec.extractLsb' 0 1 (~~~(0x101 : Word)) = 0#1 := by decide
  have htake : hbootRow.rw ||| (if r.sup then hbootRow.rws else 0) ||| (if u then hbootRow.rwl else 0) = (0x101 : Word) := by
    rw [hr, if_pos (Eq.refl _)]
    cases u <;> decide
  unfold RegRow.written
  dsimp only
  rw [htake]
  simp only [Fld.get, BOOT_HBOOT_HALF, BOOT_HBOOT_SLOT, BitVec.extractLsb'_or, BitVec.extractLsb'_and, hhalf, hslot,
    BitVec.and_zero]
  revert slot
  cases h <;> decide

theorem rowOf_hboot : rowOf pBOOT 0x040 = some hbootRow := by decide

theorem halfAt_ix (h : Half) : halfAt h.ix = h := by cases h <;> rfl

/-- The register of HBOOT with the half and slot of the word. -/
def hbootHeld (h : Half) (slot : Fin 2) (r : Requester) (s : State) : State :=
  (lockUsed pBOOT r s).setReg pBOOT 0x040 (hbootRow.written ⟨r, hbootWord h slot &&& 0x7FFFFFFF, lockOpenFor pBOOT r s⟩
    ((lockUsed pBOOT r s).reg pBOOT 0x040))

theorem quiet_hbootHeld (h : Half) (slot : Fin 2) (r : Requester) (s : State) : Quiet s (hbootHeld h slot r s) :=
  Quiet.setReg (Quiet.lockUsed .refl rfl) rfl

/-- Firmware of the running partner starts a half boot. -/
theorem exec_halfBoot {r : Requester} {h : Half} (slot : Fin 2) {s : State} (hf : Firmware r pBOOT s)
    (hr : halfOf r.eng = h.other) (hp : halfRuns h.other s = true) :
    exec (.halfBoot r h slot) s = ok s (halfBoot h slot.val (hbootHeld h slot r s)) := by
  have ha (u : State) : regAbsent pBOOT 0x040 u = false := Bool.and_eq_false_iff.2 (.inr (by decide))
  have hgo (u : Bool) : Access.b ⟨r, hbootWord h slot, u⟩ BOOT_HBOOT_GO = true := by
    show (BOOT_HBOOT_GO.get (hbootWord h slot) != 0) = true
    revert slot
    cases h <;> decide
  have hrun : halfRuns h.other (lockUsed pBOOT r s) = true := by
    rw [← hp, halfRuns, halfState, g_of_ctl (Quiet.lockUsed .refl rfl).ctl (by cases h <;> decide)]
    rfl
  obtain ⟨hhalf, hslot⟩ := get_hbootWritten h slot r (lockOpenFor pBOOT r s) ((lockUsed pBOOT r s).reg pBOOT 0x040) hf.1
  have hwritten : plainWrite pBOOT 0x040 ⟨r, hbootWord h slot &&& 0x7FFFFFFF, lockOpenFor pBOOT r s⟩ (lockUsed pBOOT r s) =
      hbootHeld h slot r s := by
    rw [plainWrite, rowOf_hboot]
    rfl
  have hg1 : (hbootHeld h slot r s).g pBOOT BOOT_HBOOT_HALF = h.ix := by
    rw [State.g, hbootHeld]
    exact (congrArg _ (reg_setReg_same ..)).trans hhalf
  have hg2 : (hbootHeld h slot r s).g pBOOT BOOT_HBOOT_SLOT = slot.val := by
    rw [State.g, hbootHeld]
    exact (congrArg _ (reg_setReg_same ..)).trans hslot
  show ok s (writeCmd r pBOOT 0x040 (hbootWord h slot) s) = _
  rw [writeCmd_firmware hf, regWrite_block _ (.inr (by decide)) ha, if_neg (by decide)]
  show ok s (hbootWrite ⟨r, hbootWord h slot, lockOpenFor pBOOT r s⟩ (lockUsed pBOOT r s)) = _
  rw [hbootWrite, hgo, if_neg (by decide)]
  dsimp only
  rw [hwritten, hg1, hg2, halfAt_ix, hrun, hr, beq_self_eq_true, if_pos (by decide)]

theorem completes_halfBoot {r : Requester} {h : Half} (slot : Fin 2) {s : State} (hf : Firmware r pBOOT s)
    (hr : halfOf r.eng = h.other) (hp : halfRuns h.other s = true) :
    Completes (.halfBoot r h slot) s (HalfBooted h slot.val s) := by
  have hq := quiet_hbootHeld h slot r s
  have hb := halfBooted_halfBoot h slot.val (hbootHeld h slot r s)
  exact completes_ok (exec_halfBoot slot hf hr hp) {
    half := hb.half
    rom := hq.mtb ▸ hb.rom
    hold := hb.hold
    other := hb.other.trans (g_of_ctl hq.ctl (by cases h <;> decide))
    lane := hb.lane.trans (romEngine_of_ctl hq.ctl h)
    pc := hb.pc
    runs := hb.runs
    stopped := hb.stopped }

/-- Settles O24: the half boot (`completes_halfBoot`), the Damask restart (`completes_damaskRestart`), Damask off with the
link down and UP (`completes_doff_down`, `completes_doff_up`), and the restore without an area (`completes_restore`). -/
theorem halvesAndDamaskRestart : Obligations.HalvesAndDamaskRestart := by
  refine ⟨fun r h slot s hf hr hp => ?_, fun r s hf => ?_,
    fun r s hf hl hd hre hdo => ⟨fun hm => ?_, fun hm => ?_, fun hn => ?_⟩⟩
  · obtain ⟨t, ht, hb⟩ := completes_halfBoot slot hf hr hp
    exact ⟨t, ht, hb.half, hb.rom, hb.hold, hb.other, hb.lane, hb.pc, hb.runs, fun e he hne hs => by
      rw [hb.stopped e he hne hs]
      exact ⟨Eq.refl _, Eq.refl _⟩⟩
  · obtain ⟨t, ht, hb⟩ := completes_damaskRestart hf
    exact ⟨t, ht, hb.mtb, hb.replica, hb.cause, hb.loaded, hb.eastRom, hb.westRom, hb.holdE, hb.holdW, hb.east, hb.west⟩
  · obtain ⟨t, ht, off⟩ := completes_doff_down hf hl hd hre hm
    exact ⟨t, ht, off.doff, off.east, off.west, off.tasks⟩
  · obtain ⟨t, ht, h⟩ := completes_doff_up hf hl hd hre hm
    exact ⟨t, ht, h.leaving, h.scan, h.holdE, h.holdW⟩
  · exact completes_restore hf hdo hn

end Sys2Proof.Machine
end

section
/-! Bulk transfers are gathered (O34). -/

namespace Sys2Proof.Machine

open Reg

/-! ## A bulk transfer that breaks off -/

/-- The numbers of the packets accepted are as before. -/
structure SameRx (a s : State) : Prop where
  damask : s.damask.rxSeq = a.damask.rxSeq
  muslin : s.muslin.rxSeq = a.muslin.rxSeq

theorem Quiet.sameRx {a s : State} (h : Quiet a s) : SameRx a s := ⟨h.rxSeq .damask, h.rxSeq .muslin⟩

namespace SameRx
variable {a s t : State}

theorem refl : SameRx a a := ⟨Eq.refl _, Eq.refl _⟩

theorem trans (h : SameRx a s) (h' : SameRx s t) : SameRx a t := ⟨h'.damask.trans h.damask, h'.muslin.trans h.muslin⟩

theorem rx (h : SameRx a s) (d : Die) : (s.link d).rxSeq = (a.link d).rxSeq := by
  cases d
  · exact h.damask
  · exact h.muslin

theorem setReg {p off : Nat} {w : Word} (h : SameRx a s) : SameRx a (s.setReg p off w) :=
  ⟨h.damask, h.muslin⟩

theorem put {p : Nat} {f : Fld} {v : Nat} (h : SameRx a s) : SameRx a (s.put p f v) := h.setReg

theorem forAll {f : α → State → State} (l : List α) (h : SameRx a s) (hf : ∀ x s, SameRx s (f x s)) :
    SameRx a (forAll l f s) := by
  induction l generalizing s with
  | nil => exact h
  | cons x l ih => exact ih (h.trans (hf x s))

theorem ite {c : Prop} [Decidable c] (h : SameRx a s) (h' : SameRx a t) : SameRx a (if c then s else t) := by
  split <;> assumption

theorem setCry {x : Cry} (h : SameRx a s) : SameRx a (s.setCry x) := ⟨h.damask, h.muslin⟩

theorem wbytes {n : Nat} {bs : List Byte} (h : SameRx a s) : SameRx a (s.wbytes n bs) := by
  rw [wbytes_eq]
  exact ⟨h.damask, h.muslin⟩

theorem raise_crypto {st : Nat} (h : SameRx a s) :
    SameRx a (raise pCRY (if st = 0 then CRY_IRQ_RAW_WDONE else CRY_IRQ_RAW_WERR) s) := by
  split
  · exact h.trans (Quiet.raise .refl rfl).sameRx
  · exact h.trans (Quiet.raise .refl rfl).sameRx

theorem wcmdEnd {st : Nat} (h : SameRx a s) : SameRx a (wcmdEnd st s) := by
  unfold Machine.wcmdEnd
  split
  · exact h
  · exact raise_crypto (put (ite (forAll _ (put (put (put (setCry h)))) fun _ _ => setReg refl) (put (put (put (setCry h))))))

theorem cryBroken (h : SameRx a s) : SameRx a (cryBroken s) := by
  unfold Machine.cryBroken
  split
  · exact ite (wcmdEnd h) h
  · exact h

theorem vaultBroken (h : SameRx a s) : SameRx a (vaultBroken s) := by
  unfold Machine.vaultBroken
  split
  · exact ite (h.trans (Quiet.vaultRun (Quiet.syncBusy (Quiet.updateRefused .refl))).sameRx) h
  · exact h

/-- An entry in a ring of queue manager `q`, or a full or disabled ring. -/
theorem pushB_getD {q : Nat} {e : List Byte} {u : State} (h : SameRx a s) (hu : SameRx a u) : SameRx a ((pushB q e s).getD u) := by
  unfold pushB
  dsimp only
  split
  · exact put (wbytes h)
  · exact hu

theorem hartWriteResult {e : List Byte} (h : SameRx a s) : SameRx a (hartWriteResult e s) := by
  have he : Machine.hartWriteResult e s = (pushB 28 e s).getD (raise pHRT HRT_IRQ_RAW_RESLOST (s.bump pHRT HRT_LOSTCNT_LOST)) := by
    unfold Machine.hartWriteResult
    cases pushB 28 e s <;> rfl
  rw [he]
  exact pushB_getD h ((put h).trans (Quiet.raise .refl rfl).sameRx)

theorem hartPumpGo {k : Nat} (h : SameRx a s) : SameRx a (hartPumpGo k s) := by
  induction k generalizing s with
  | zero => exact h
  | succ k ih =>
    unfold Machine.hartPumpGo
    split
    · exact h
    · refine ite (ih (trans (put ?_) (Quiet.sendBulk .refl).sameRx)) h
      exact ⟨h.damask, h.muslin⟩

theorem hartBroken {b : List Byte} (h : SameRx a s) : SameRx a (hartBroken b s) := by
  unfold Machine.hartBroken
  dsimp only
  split
  · exact hartPumpGo (hartWriteResult ⟨h.damask, h.muslin⟩)
  · exact h

theorem toRecorder {n : Numbered} (h : SameRx a s) : SameRx a (toRecorder n s) :=
  ite (h.trans (Quiet.sendBulk .refl).sameRx)
    (ite (put ⟨h.damask, h.muslin⟩) (put ⟨h.damask, h.muslin⟩))

theorem q31Abort (h : SameRx a s) : SameRx a (q31Abort s) := by
  have hn : SameRx a { s with q31 := none } := ⟨h.damask, h.muslin⟩
  unfold Machine.q31Abort
  split
  · exact pushB_getD hn hn
  · exact h

theorem bulkAborted {d : Die} {x : Nat} {ws : List Word} (h : SameRx a s) : SameRx a (bulkAborted d x ws s) := by
  unfold Machine.bulkAborted
  split
  · exact ite (h.trans (Quiet.sendBulk .refl).sameRx) h
  · exact put h
  · exact toRecorder h
  · exact hartBroken h
  · exact h.trans (Quiet.hartLose .refl).sameRx
  · exact q31Abort h
  · cases d
    · exact vaultBroken h
    · exact cryBroken h
  · exact h

end SameRx

/-! ## An in-order packet arrives -/

/-- Only the two ends of the link differ, and die `d` holds the transfers and the number it held. -/
structure LinkOnly (d : Die) (a s : State) : Prop where
  rest : s = { a with damask := s.damask, muslin := s.muslin }
  held : (s.link d).bulkIn = (a.link d).bulkIn
  rx : (s.link d).rxSeq = (a.link d).rxSeq

namespace LinkOnly
variable {d : Die} {a s : State}

theorem refl : LinkOnly d a a := ⟨Eq.refl _, Eq.refl _, Eq.refl _⟩

theorem setLink_rest {d' : Die} {l : LinkDie} (h : s = { a with damask := s.damask, muslin := s.muslin }) :
    s.setLink d' l = { a with damask := (s.setLink d' l).damask, muslin := (s.setLink d' l).muslin } := by
  rw [h]
  cases d' <;> rfl

theorem setLink {l : LinkDie} (h : LinkOnly d a s) (hb : l.bulkIn = (s.link d).bulkIn) (hr : l.rxSeq = (s.link d).rxSeq) :
    LinkOnly d a (s.setLink d l) where
  rest := setLink_rest h.rest
  held := by rw [link_setLink_same, hb, h.held]
  rx := by rw [link_setLink_same, hr, h.rx]

theorem setLink_other {l : LinkDie} (h : LinkOnly d a s) : LinkOnly d a (s.setLink d.other l) where
  rest := setLink_rest h.rest
  held := by rw [link_setLink_ne _ _ (by cases d <;> decide), h.held]
  rx := by rw [link_setLink_ne _ _ (by cases d <;> decide), h.rx]

theorem sendCtrl {n : Nat} {q : BitVec 7} {ws : List Word} (h : LinkOnly d a s) : LinkOnly d a (sendCtrl d n q ws s) :=
  setLink h (Eq.refl _) (Eq.refl _)

theorem sendAck (h : LinkOnly d a s) : LinkOnly d a (sendAck d s) :=
  sendCtrl (setLink h (Eq.refl _) (Eq.refl _))

theorem returnCredit {p : Packet} (h : LinkOnly d a s) : LinkOnly d a (returnCredit d p s) := by
  unfold Machine.returnCredit
  split
  · exact h
  · exact sendCtrl h

theorem ackIf {c : Prop} [Decidable c] (h : LinkOnly d a s) : LinkOnly d a (if c then Machine.sendAck d s else s) := by
  split
  · exact sendAck h
  · exact h

theorem takeLane (h : LinkOnly d a s) : LinkOnly d a (takeLane d s) := setLink_other h

theorem linkUp (h : LinkOnly d a s) (d' : Die) : s.linkUp d' = a.linkUp d' := by
  rw [h.rest]
  rfl

theorem now (h : LinkOnly d a s) (d' : Die) : s.now d' = a.now d' := by
  rw [h.rest]
  cases d' <;> rfl

end LinkOnly

/-- What a die does with the packet that it expects: its number is passed on, and the rest is acknowledgement and credit. -/
structure Accepts (d : Die) (a s : State) : Prop where
  rest : s = { a with damask := s.damask, muslin := s.muslin }
  held : (s.link d).bulkIn = (a.link d).bulkIn
  rx : (s.link d).rxSeq = (a.link d).rxSeq + 1

theorem Accepts.link {d : Die} {a u t : State} (h : Accepts d a u) (ht : LinkOnly d u t) : Accepts d a t where
  rest := by rw [ht.rest, h.rest]
  held := ht.held.trans h.held
  rx := ht.rx.trans h.rx

theorem accepts_acceptPacket {d : Die} {a s : State} (h : LinkOnly d a s) (p : Packet) : Accepts d a (acceptPacket d p s) := by
  have hu (l : LinkDie) (hb : l.bulkIn = (s.link d).bulkIn) (hr : l.rxSeq = (s.link d).rxSeq + 1) :
      Accepts d a (s.setLink d l) :=
    { rest := LinkOnly.setLink_rest h.rest
      held := by rw [link_setLink_same, hb, h.held]
      rx := by rw [link_setLink_same, hr, h.rx] }
  unfold acceptPacket
  dsimp only
  refine Accepts.link (hu _ ?_ ?_) (LinkOnly.ackIf (LinkOnly.returnCredit .refl)) <;> rfl

/-- An in-order sequenced packet reaches its action in the state in which it has been accepted. -/
theorem receive_inOrder {d : Die} {p : Packet} {n : Nat} {s : State} (h : InOrder d p n s) (hn : n < 8) (fits : Packet → Bool)
    (hf : fits p = true) (act : State → State) : ∃ u, Accepts d s u ∧ receive d p fits act s = act u := by
  obtain ⟨⟨hcrc, hform, htype, hup, hlive⟩, hseq⟩ := h
  have ht : LinkOnly d s (takeLane d s) := LinkOnly.takeLane .refl
  have hlink : (takeLane d s).link d = s.link d := link_setLink_ne _ _ (by cases d <;> decide)
  have hv : LinkOnly d s ((takeLane d s).setLink d { (takeLane d s).link d with lastValid := (takeLane d s).now d }) :=
    ht.setLink (Eq.refl _) (Eq.refl _)
  refine ⟨_, accepts_acceptPacket hv p, ?_⟩
  have hsq : p.sequenced = true := by simp [Packet.sequenced, htype, hn]
  unfold receive
  rw [hcrc, hf, if_neg (by decide)]
  dsimp only
  rw [ht.linkUp, hup, if_neg (by decide), hlink, ht.now, if_neg (by omega), if_neg (by decide), hform, if_neg (by decide), hsq,
    if_pos (Eq.refl _)]
  unfold sequence
  dsimp only
  rw [link_setLink_same, hseq]
  simp

/-! ## Bulk transfers are gathered (O34) -/

/-- A transfer put behind the others that are open is the one found under its number. -/
theorem find_bulk (l : List (Nat × List Word)) (x : Nat) (ws : List Word) :
    ((l.filter fun y => y.1 != x) ++ [(x, ws)]).find? (fun y => y.1 == x) = some (x, ws) := by
  have hn : (l.filter fun y => y.1 != x).find? (fun y => y.1 == x) = none := by
    rw [List.find?_eq_none]
    intro y hy
    simpa using (List.mem_filter.1 hy).2
  rw [List.find?_append, hn]
  simp

/-- A first packet of a transfer, of which more is to come: its words are held, and an open one of its number is broken
off before. -/
structure BulkOpened (d : Die) (p : Packet) (s t : State) : Prop where
  held : bulkHeld d p.xid t = some (p.data.drop 1)
  rx : (t.link d).rxSeq = (s.link d).rxSeq
  quiet : bulkHeld d p.xid s = none → ∃ l, t = s.setLink d l

theorem bulkHeld_setLink {d : Die} {x : Nat} {s : State} {l : LinkDie} {ws : List Word} {old : List (Nat × List Word)}
    (h : l.bulkIn = (old.filter fun y => y.1 != x) ++ [(x, ws)]) : bulkHeld d x (s.setLink d l) = some ws := by
  rw [bulkHeld, link_setLink_same, h, find_bulk]
  rfl

theorem setLink_setLink (s : State) (d : Die) (l l' : LinkDie) : (s.setLink d l).setLink d l' = s.setLink d l' := by
  cases d <;> rfl

/-- The words of a first packet, put behind the transfers that stay. -/
theorem bulkOpened_setLink {d : Die} {p : Packet} {s u : State} (hu : SameRx s u)
    (hq : bulkHeld d p.xid s = none → ∃ l, u = s.setLink d l) :
    BulkOpened d p s (u.setLink d { u.link d with
      bulkIn := ((s.link d).bulkIn.filter fun y => y.1 != p.xid) ++ [(p.xid, p.data.drop 1)] }) where
  held := bulkHeld_setLink (Eq.refl _)
  rx := by rw [link_setLink_same, ← hu.rx d]
  quiet hn := by
    obtain ⟨l, rfl⟩ := hq hn
    exact ⟨_, setLink_setLink ..⟩

theorem bulkPart_opens {d : Die} {p : Packet} {s : State} (hk : xidKnown d p.xid = true) (hf : p.first = true)
    (hl : p.last = false) (ho : p.offset = 0) (done : List Word → State → State) : BulkOpened d p s (bulkPart d p done s) := by
  unfold bulkPart
  rw [hk, if_neg (by decide)]
  dsimp only
  rw [hf, if_pos (Eq.refl _)]
  dsimp only
  rw [ho, if_neg (by decide), hl, if_neg (by decide), Bool.true_and, List.nil_append]
  have hdrop (l : LinkDie) (h : l.rxSeq = (s.link d).rxSeq) : SameRx s (s.setLink d l) := (Quiet.setLink .refl h).sameRx
  refine bulkOpened_setLink (SameRx.ite (SameRx.bulkAborted (hdrop _ (Eq.refl _))) (hdrop _ (Eq.refl _))) fun hn => ?_
  rw [bulkHeld, Option.map_eq_none_iff] at hn
  rw [hn, if_neg (by decide)]
  exact ⟨_, Eq.refl _⟩

/-- An opening packet of a transfer that die `d` receives: it is held; where none was open, nothing else changes. -/
theorem receiveBulk_opens {d : Die} {xid : Nat} {p : Packet} {s : State} (h : OpensBulk d xid p s) (hk : xidKnown d xid = true)
    (done : List Word → State → State) : ∃ t, receiveBulk d xid p done s = t ∧ bulkHeld d xid t = some (p.data.drop 1) ∧
      (t.link d).rxSeq = (s.link d).rxSeq + 1 ∧
      (bulkHeld d xid s = none → t = { s with damask := t.damask, muslin := t.muslin }) := by
  obtain ⟨hin, rfl, hf, hl, ho⟩ := h
  obtain ⟨u, hu, hr⟩ := receive_inOrder hin (by decide) (isBulk d p.xid)
    (by simp [isBulk, hin.1.2.2.1]) (bulkPart d p done)
  have ht : BulkOpened d p u (bulkPart d p done u) := bulkPart_opens hk hf hl ho done
  refine ⟨_, hr, ht.held, ht.rx.trans hu.rx, fun hn => ?_⟩
  have hnu : bulkHeld d p.xid u = none := by rw [bulkHeld, hu.held]; exact hn
  obtain ⟨l, hl⟩ := ht.quiet hnu
  rw [hl]
  exact LinkOnly.setLink_rest hu.rest

/-- A command that is such a packet's arrival. -/
theorem completes_opensBulk {c : Instr} {d : Die} {xid : Nat} {p : Packet} {s : State} {done : List Word → State → State}
    (hc : exec c s = ok s (receiveBulk d xid p done s)) (hk : xidKnown d xid = true) (h : OpensBulk d xid p s) :
    Completes c s fun t => bulkHeld d xid t = some (p.data.drop 1) ∧ (t.link d).rxSeq = (s.link d).rxSeq + 1 ∧
      (bulkHeld d xid s = none → (xid = 0x02 → s.power.leaving = false) → t.regs = s.regs ∧ t.mem = s.mem) := by
  obtain ⟨t, ht, hheld, hrx, hq⟩ := receiveBulk_opens h hk done
  rw [ht] at hc
  refine completes_ok hc ⟨?_, ?_, fun hn _ => ?_⟩
  · rw [bulkHeld, kept_link]; exact hheld
  · rw [kept_link]; exact hrx
  · rw [kept_regs, kept_mem, hq hn]
    exact ⟨Eq.refl _, Eq.refl _⟩

/-! ## Whole bulk transfers (O34) -/

/-- A packet that is its whole transfer acts at once, when none was open or an open one breaks off without effect. -/
theorem bulkPart_whole {d : Die} {p : Packet} {s : State} (hk : xidKnown d p.xid = true) (hf : p.first = true)
    (hl : p.last = true) (ho : p.offset = 0) (hq : bulkHeld d p.xid s = none ∨ ∀ ws u, bulkAborted d p.xid ws u = u)
    (done : List Word → State → State) : ∃ l, bulkPart d p done s = done (p.data.drop 1) (s.setLink d l) := by
  refine ⟨{ s.link d with bulkIn := (s.link d).bulkIn.filter fun x => x.1 != p.xid }, ?_⟩
  unfold bulkPart
  rw [hk, if_neg (by decide)]
  dsimp only
  rw [hf, if_pos (Eq.refl _)]
  dsimp only
  rw [ho, if_neg (by decide), hl, if_pos (Eq.refl _), Bool.true_and, List.nil_append]
  rcases hq with hn | ha
  · rw [bulkHeld, Option.map_eq_none_iff] at hn
    rw [hn, if_neg (by decide)]
  · rw [ha, ite_self]

theorem receiveBulk_whole {d : Die} {xid : Nat} {p : Packet} {ws : List Word} {s : State} (h : WholeBulk d xid p ws s)
    (hk : xidKnown d xid = true) (hq : bulkHeld d xid s = none ∨ ∀ ws u, bulkAborted d xid ws u = u)
    (done : List Word → State → State) :
    ∃ u, u = { s with damask := u.damask, muslin := u.muslin } ∧ receiveBulk d xid p done s = done ws u := by
  obtain ⟨hin, rfl, hf, hl, ho, rfl⟩ := h
  obtain ⟨u, hu, hr⟩ := receive_inOrder hin (by decide) (isBulk d p.xid)
    (by simp [isBulk, hin.1.2.2.1]) (bulkPart d p done)
  have hqu : bulkHeld d p.xid u = none ∨ ∀ ws u, bulkAborted d p.xid ws u = u := by rwa [bulkHeld, hu.held]
  obtain ⟨l, hl⟩ := bulkPart_whole hk hf hl ho hqu done
  exact ⟨u.setLink d l, LinkOnly.setLink_rest hu.rest, hr.trans hl⟩

/-- An output image that is whole before its boundary waits for it. -/
theorem completes_outputImage {p : Packet} {ws : List Word} {s : State} (h : WholeBulk .muslin 0x01 p ws s) :
    Completes (.outputImageTransfer p) s fun t =>
      t.field.xfer = (if 100000 * (s.field.tick + 1) ≤ s.replica + 2100 ∧ s.replica < 100000 * (s.field.tick + 1) then
        some (wordsBytes ws) else s.field.xfer) ∧ t.regs = s.regs ∧ t.mem = s.mem := by
  obtain ⟨u, hu, hr⟩ := receiveBulk_whole h rfl (.inr fun _ _ => Eq.refl _) fun ws s => takeOutputs (wordsBytes ws) s
  refine completes_ok (congrArg (ok s) hr) ?_
  have hout : outputInTime u = outputInTime s := by rw [hu]; rfl
  have hin : outputInTime s = decide (100000 * (s.field.tick + 1) ≤ s.replica + 2100 ∧ s.replica < 100000 * (s.field.tick + 1)) :=
    Eq.refl _
  rw [kept_field, kept_regs, kept_mem, takeOutputs, hout, hin]
  split
  case isTrue ht =>
    rw [if_pos (of_decide_eq_true ht), hu]
    exact ⟨Eq.refl _, Eq.refl _, Eq.refl _⟩
  case isFalse hf =>
    rw [if_neg fun h => hf (decide_eq_true h), hu]
    exact ⟨Eq.refl _, Eq.refl _, Eq.refl _⟩

theorem length_leBytes (n x : Nat) : (leBytes n x).length = n := by
  induction n generalizing x with
  | zero => rfl
  | succ n ih => rw [leBytes, List.length_cons, ih]

theorem length_padTo (n : Nat) (bs : List Byte) : (padTo n bs).length = n := by
  rw [padTo, List.length_append, List.length_take, List.length_replicate]
  omega

/-- A record is 32 bytes, and begins with its number. -/
theorem recordBytes_shape (s : State) (seq : Word) (source dsl : Byte) (code : BitVec 16) (data : List Byte) :
    (recordBytes s seq source dsl code data).length = 32 ∧ (recordBytes s seq source dsl code data).take 4 = wordBytes seq := by
  constructor
  · simp only [recordBytes, List.length_append, length_leBytes, length_padTo, wordBytes, List.length_cons, List.length_nil]
  · simp only [recordBytes, List.append_assoc]
    exact List.take_left' (Eq.refl 4)

/-- A recorder with room takes one record. -/
theorem recAccept_room {s : State} (h : s.evr.queue.length < 64) (b : List Byte) :
    (recAccept b s).evr = { s.evr with queue := s.evr.queue ++ [b] } ∧ (recAccept b s).mem = s.mem := by
  rw [recAccept, if_pos h]
  exact ⟨Eq.refl _, Eq.refl _⟩

theorem acceptNumbered_room {ws : List Word} {s : State} (h : s.evr.queue.length < 64) :
    ∃ b, acceptNumbered ws s = recAccept b s ∧ b.length = 32 ∧ b.take 4 = wordBytes (ws.getD 0 0) := by
  refine ⟨recordBytes s (numberedOf ws).seq (numberedOf ws).ev.source
    (dslByte (numberedOf ws).ev.dom (numberedOf ws).ev.severity false) (numberedOf ws).ev.code (numberedOf ws).ev.data, ?_,
    recordBytes_shape ..⟩
  unfold acceptNumbered
  dsimp only
  rw [(recAccept_room h _).1, if_neg (Nat.lt_irrefl _)]

theorem completes_eventRecord {p : Packet} {ws : List Word} {s : State} (h : WholeBulk .muslin 0x04 p ws s)
    (hn : bulkHeld .muslin 0x04 s = none) (hq : s.evr.queue.length < 64) :
    Completes (.eventRecordTransfer p) s fun t => ∃ b, t.evr.queue = s.evr.queue ++ [b] ∧ b.length = 32 ∧
      b.take 4 = wordBytes (ws.getD 0 0) ∧ t.mem = s.mem := by
  obtain ⟨u, hu, hr⟩ := receiveBulk_whole h rfl (.inl hn) acceptNumbered
  have he : u.evr = s.evr := by rw [hu]
  have hm : u.mem = s.mem := by rw [hu]
  rw [← he] at hq
  obtain ⟨b, hb, hlen, htake⟩ := @acceptNumbered_room ws u hq
  refine completes_ok (congrArg (ok s) hr) ⟨b, ?_, hlen, htake, ?_⟩
  · rw [kept_evr, hb, (recAccept_room hq b).1, he]
  · rw [kept_mem, hb, (recAccept_room hq b).2, hm]

/-- The result of a block transfer leaves its request ended. -/
theorem q31_q31Result (tag status : Nat) (s : State) : (q31Result tag status s).q31 = s.q31 := by
  unfold q31Result pushB
  dsimp only
  split
  · show (State.put _ _ _ _).q31 = _
    rw [put_q31, wbytes_q31]
  · rfl

theorem q31_q31Done {ws : List Word} {s : State} {x : BlockXfer} (h : s.q31 = some x) : (q31Done ws s).q31 = none := by
  rw [q31Done, h]
  dsimp only
  rw [q31_q31Result]
  split
  · exact wbytes_q31 ..
  · rfl

theorem completes_blockResult {p : Packet} {ws : List Word} {s : State} {x : BlockXfer} (h : WholeBulk .damask 0x07 p ws s)
    (hn : bulkHeld .damask 0x07 s = none) (hx : s.q31 = some x) :
    Completes (.blockTransfer (some (.damask, p))) s fun t => t.q31 = none := by
  obtain ⟨u, hu, hr⟩ := receiveBulk_whole h rfl (.inl hn) q31Done
  have hxu : u.q31 = some x := by rw [hu]; exact hx
  exact completes_ok (congrArg (ok s) hr) ((kept_q31 ..).trans (q31_q31Done hxu))

theorem link_askRetain (off : Nat) (bs : List Byte) (s : State) (d : Die) : (askRetain off bs s).link d = s.link d := by
  unfold askRetain
  split
  · rfl
  · cases d <;> rfl

/-- The programming of retain data leaves both ends of the link. -/
theorem link_retainStore (ws : List Word) (whole : Bool) (s : State) (d : Die) : (retainStore ws whole s).link d = s.link d := by
  have hset (x : Option RetainWrite) (u : State) : (setArea x u).link d = u.link d := by cases d <;> rfl
  unfold retainStore
  split
  · rfl
  · split
    · rfl
    · dsimp only
      rw [hset]
      split <;> simp only [link_askRetain]

/-- An opening packet of retain data is held; it is programmed as it arrives only while Damask is going OFF. -/
theorem completes_opensRetain {p : Packet} {s : State} (h : OpensBulk .muslin 0x02 p s) :
    Completes (.retainTransfer p) s fun t => bulkHeld .muslin 0x02 t = some (p.data.drop 1) ∧
      (t.link .muslin).rxSeq = (s.link .muslin).rxSeq + 1 ∧
      (bulkHeld .muslin 0x02 s = none → (0x02 = 0x02 → s.power.leaving = false) → t.regs = s.regs ∧ t.mem = s.mem) := by
  obtain ⟨t, ht, hheld, hrx, hq⟩ := receiveBulk_opens h rfl fun ws s =>
    let s := retainStore ws true s
    if s.power.leaving then damaskCut s else s
  have hc : exec (.retainTransfer p) s = ok s (if t.power.leaving && bulkWords .muslin 0x02 t != bulkWords .muslin 0x02 s then
      retainStore (bulkWords .muslin 0x02 t) false t else t) := by
    rw [← ht]
    rfl
  have hlink : (if t.power.leaving && bulkWords .muslin 0x02 t != bulkWords .muslin 0x02 s then
      retainStore (bulkWords .muslin 0x02 t) false t else t).link .muslin = t.link .muslin := by
    split
    · exact link_retainStore ..
    · rfl
  refine completes_ok hc ⟨?_, ?_, fun hn hleave => ?_⟩
  · rw [bulkHeld, kept_link, hlink]; exact hheld
  · rw [kept_link, hlink]; exact hrx
  · have hl : t.power.leaving = false := by rw [hq hn]; exact hleave (Eq.refl _)
    rw [hl, Bool.false_and, if_neg Bool.false_ne_true, kept_regs, kept_mem, hq hn]
    exact ⟨Eq.refl _, Eq.refl _⟩

/-- Settles O34: each opening packet is held (`completes_opensBulk`, `completes_opensRetain`), and the whole transfers act
(`completes_outputImage`, `completes_eventRecord`, `completes_blockResult`). -/
theorem bulkTransfersAreGathered : Obligations.BulkTransfersAreGathered := by
  intro p s
  exact ⟨completes_opensBulk rfl rfl, completes_opensRetain, completes_opensBulk rfl rfl, completes_opensBulk rfl rfl,
    completes_opensBulk rfl rfl, completes_opensBulk rfl rfl, completes_opensBulk rfl rfl, completes_opensBulk rfl rfl,
    completes_opensBulk rfl rfl, completes_opensBulk rfl rfl, fun ws => completes_outputImage, fun ws => completes_eventRecord,
    fun ws x h hn hx _ => completes_blockResult h hn hx⟩

end Sys2Proof.Machine
end

section
/-! A counterexample to the writes of the fabric's registers: a bit of FAB_OBSSEL that no field holds (O28). -/

namespace Sys2Proof.Machine

open Reg

/-- The reset state, but with a bit of FAB_OBSSEL set that belongs to no field. -/
def strayObssel : State := State.reset.setReg pFAB 0x044 0x400

/-- Firmware's write of zero to FAB_OBSSEL leaves the stray bit. -/
theorem writeCmd_strayObssel :
    (kept strayObssel (writeCmd ⟨0, true, 0⟩ pFAB 0x044 0 strayObssel)).reg pFAB 0x044 = 0x400 := by
  decide +kernel

/-- Refutes O28: a write of FAB_OBSSEL changes the bits of its fields alone. From a state with another bit of the register
set it does not end with the masked value. -/
theorem not_timeBaseAndFabricRegistersAct : ¬ Obligations.TimeBaseAndFabricRegistersAct := by
  unfold Obligations.TimeBaseAndFabricRegistersAct
  rintro ⟨-, hFab⟩
  obtain ⟨-, hFirmware, -⟩ := hFab ⟨0, true, 0⟩ 0 false 0 strayObssel
  obtain ⟨⟨t, ht, hObssel, -⟩, -⟩ := hFirmware ⟨rfl, by decide +kernel⟩
  obtain rfl := Host.Outcome.next.inj ht
  exact absurd (writeCmd_strayObssel.symm.trans hObssel) (by decide)

end Sys2Proof.Machine
end

section
/-! What the work of the scheduler, of the field side and of a link that goes down leaves alone (O31, O36): the state of the
link and who may change it, the two counts, the base tick, and the tasks that an operation does not name. One lemma per
operation, and each follows the operation's own text. -/

namespace Sys2Proof.Machine

open Reg

/-! ## What is held -/

/-- The register fields that hold: those of DDL_CTRL and DDL_STAT that tell and steer the link's state on both dies, the base
tick's flag, the scheduler's EN and holds, and the profile registers that a release reads. -/
def heldFields : List (Nat × Fld) :=
  [(pDDL, DDL_CTRL_EN), (pDDL, DDL_CTRL_LOOPBACK), (pDDL, DDL_STAT_STATE), (pDDL, DDL_STAT_PAIRED),
   (pDDL, DDL_STAT_PAIRFLT), (pDDL, DDL_STAT_SESSION), (pDDLM, DDL_CTRL_EN), (pDDLM, DDL_CTRL_LOOPBACK),
   (pDDLM, DDL_STAT_STATE), (pDDLM, DDL_STAT_PAIRED), (pDDLM, DDL_STAT_PAIRFLT), (pDDLM, DDL_STAT_SESSION),
   (pMTB, MTB_IRQ_RAW_BTICK), (pSCH, SCH_STAT_EN), (pSCH, SCH_CTRL_HOLDE), (pSCH, SCH_CTRL_HOLDW),
   (pPRF, PRF_STAT_VALID), (pPRF, PRF_STAT_ACTIVE), (pPRF, PRF_BASE_BASE), (pPRF, PRF_STAT_PINEN)]

/-- The registers of SCH that hold one bit of each task. -/
def taskWords : List Nat :=
  [offEnabled, offEnabled + 4, offActive, offActive + 4, offWest, offWest + 4, offMigPend, offMigPend + 4]

/-- Neither a held field nor a bit of a task lies where a write of field `f` of page `p` goes. -/
def unheld (p : Nat) (f : Fld) : Bool :=
  Nat.ble 68 p || ((heldFields.all fun w => fieldsApart p f w.1 w.2) &&
    taskWords.all fun off => regKey p f.off != regKey pSCH off)

/-- Neither a held field nor a bit of a task lies in the register at `off` of page `p`. -/
def unheldReg (p off : Nat) : Bool :=
  Nat.ble 68 p || ((heldFields.all fun w => regKey p off != regKey w.1 w.2.off) &&
    taskWords.all fun o => regKey p off != regKey pSCH o)

/-- A page from 68 on lies above every held register. -/
theorem regKey_ne_held {p : Nat} (off : Nat) (hp : 68 ≤ p) {w : Nat × Fld} (hw : w ∈ heldFields) :
    regKey w.1 w.2.off ≠ regKey p off := by
  have hlt : regKey w.1 w.2.off < 1024 * 68 := (by decide : ∀ w ∈ heldFields, regKey w.1 w.2.off < 1024 * 68) w hw
  simp only [regKey] at hlt ⊢
  omega

theorem regKey_ne_taskWord {p : Nat} (off : Nat) (hp : 68 ≤ p) {o : Nat} (ho : o ∈ taskWords) :
    regKey pSCH o ≠ regKey p off := by
  have hlt : regKey pSCH o < 1024 * 68 := (by decide : ∀ o ∈ taskWords, regKey pSCH o < 1024 * 68) o ho
  simp only [regKey] at hlt ⊢
  omega

theorem g_put_unheld {p : Nat} {f : Fld} (h : unheld p f = true) (s : State) (v : Nat) {w : Nat × Fld}
    (hw : w ∈ heldFields) : (s.put p f v).g w.1 w.2 = s.g w.1 w.2 := by
  simp only [unheld, Bool.or_eq_true, Bool.and_eq_true, Nat.ble_eq, List.all_eq_true] at h
  rcases h with hp | ⟨ha, -⟩
  · exact g_put_ne s v (regKey_ne_held _ hp hw)
  · exact g_put_fieldsApart s v (ha w hw)

theorem taskWord_put_unheld {p : Nat} {f : Fld} (h : unheld p f = true) (s : State) (v : Nat) {o : Nat}
    (ho : o ∈ taskWords) : (s.put p f v).reg pSCH o = s.reg pSCH o := by
  simp only [unheld, Bool.or_eq_true, Bool.and_eq_true, Nat.ble_eq, List.all_eq_true, bne_iff_ne] at h
  rcases h with hp | ⟨-, ha⟩
  · exact reg_put_ne s v (regKey_ne_taskWord _ hp ho)
  · exact reg_put_ne s v (ha o ho).symm

theorem g_setReg_unheld {p off : Nat} (h : unheldReg p off = true) (s : State) (x : Word) {w : Nat × Fld}
    (hw : w ∈ heldFields) : (s.setReg p off x).g w.1 w.2 = s.g w.1 w.2 := by
  simp only [unheldReg, Bool.or_eq_true, Bool.and_eq_true, Nat.ble_eq, List.all_eq_true, bne_iff_ne] at h
  simp only [State.g]
  rw [reg_setReg_ne]
  rcases h with hp | ⟨ha, -⟩
  · exact regKey_ne_held _ hp hw
  · exact (ha w hw).symm

theorem taskWord_setReg_unheld {p off : Nat} (h : unheldReg p off = true) (s : State) (x : Word) {o : Nat}
    (ho : o ∈ taskWords) : (s.setReg p off x).reg pSCH o = s.reg pSCH o := by
  simp only [unheldReg, Bool.or_eq_true, Bool.and_eq_true, Nat.ble_eq, List.all_eq_true, bne_iff_ne] at h
  rcases h with hp | ⟨-, ha⟩
  · exact reg_setReg_ne s x (regKey_ne_taskWord _ hp ho)
  · exact reg_setReg_ne s x (ha o ho).symm

/-- The bits of a task in the words of the scheduler. -/
def State.taskBits (s : State) (t : TaskNo) : List Bool :=
  [s.taskBit offEnabled t, s.taskBit offActive t, s.taskBit offWest t, s.taskBit offMigPend t]

theorem taskWord_mem (t : TaskNo) {off : Nat} (ho : off ∈ [offEnabled, offActive, offWest, offMigPend]) :
    off + 4 * (t.val / 32) ∈ taskWords := by
  revert t off
  decide

theorem taskBits_of_words {s t : State} (h : ∀ o ∈ taskWords, t.reg pSCH o = s.reg pSCH o) (n : TaskNo) :
    t.taskBits n = s.taskBits n := by
  simp only [State.taskBits, State.taskBit, h _ (taskWord_mem n (show offEnabled ∈ _ by decide)),
    h _ (taskWord_mem n (show offActive ∈ _ by decide)), h _ (taskWord_mem n (show offWest ∈ _ by decide)),
    h _ (taskWord_mem n (show offMigPend ∈ _ by decide))]

/-- What is held, but for the tasks of `T`. The end of a link that is UP may change, and so may the tasks of `T`. -/
structure Held where
  fields : List Nat
  mtb : Nat
  replica : Nat
  fieldTick : Nat
  power : Bool × Bool
  ticks : Nat × Nat × Nat
  defer : Option (Nat × Nat)
  link : Die → Option LinkDie
  tasks : TaskNo → Option (Task × List Bool)

def State.heldView (T : TaskNo → Bool) (s : State) : Held :=
  { fields := heldFields.map fun w => s.g w.1 w.2
    mtb := s.mtb
    replica := s.replica
    fieldTick := s.field.tick
    power := (s.power.held, s.power.noClock)
    ticks := (s.sched.btick, s.sched.acceptedAt, s.sched.prevProfile)
    defer := s.sched.defer
    link := fun d => if s.linkUp d then none else some (s.link d)
    tasks := fun t => if T t then none else some (s.task t, s.taskBits t) }

theorem linkUp_of_fields {s t : State} (h : ∀ w ∈ heldFields, t.g w.1 w.2 = s.g w.1 w.2)
    (hp : t.power.noClock = s.power.noClock) (d : Die) : t.linkUp d = s.linkUp d := by
  have hs : t.linkState d = s.linkState d := by
    cases d
    · exact h (pDDL, DDL_STAT_STATE) (by decide)
    · exact h (pDDLM, DDL_STAT_STATE) (by decide)
  simp only [State.linkUp, hs, hp]

/-- A change of registers that keeps the held fields and the tasks' words. -/
theorem heldView_of_regs {T : TaskNo → Bool} {s t : State} (ht : t = { s with regs := t.regs })
    (hf : ∀ w ∈ heldFields, t.g w.1 w.2 = s.g w.1 w.2) (hw : ∀ o ∈ taskWords, t.reg pSCH o = s.reg pSCH o) :
    t.heldView T = s.heldView T := by
  have hp : t.power = s.power := by rw [ht]
  have hl : t.linkUp = s.linkUp := funext fun d => linkUp_of_fields hf (by rw [hp]) d
  have hb : t.taskBits = s.taskBits := funext fun n => taskBits_of_words hw n
  simp only [State.heldView, List.map_congr_left hf, hl, hb]
  rw [ht]
  rfl

theorem heldView_put (T : TaskNo → Bool) (s : State) {p : Nat} {f : Fld} (v : Nat) (h : unheld p f = true) :
    (s.put p f v).heldView T = s.heldView T :=
  heldView_of_regs rfl (fun _ hw => g_put_unheld h s v hw) fun _ ho => taskWord_put_unheld h s v ho

theorem heldView_setReg (T : TaskNo → Bool) (s : State) {p off : Nat} (x : Word) (h : unheldReg p off = true) :
    (s.setReg p off x).heldView T = s.heldView T :=
  heldView_of_regs rfl (fun _ hw => g_setReg_unheld h s x hw) fun _ ho => taskWord_setReg_unheld h s x ho

/-- From `a` to `s` nothing that is held has changed, but for the tasks of `T`. -/
structure Still (T : TaskNo → Bool) (a s : State) : Prop where
  same : s.heldView T = a.heldView T

namespace Still
variable {T : TaskNo → Bool} {a s t : State}

theorem refl : Still T a a := ⟨Eq.refl _⟩

theorem trans (h : Still T a s) (h' : Still T s t) : Still T a t := ⟨h'.same.trans h.same⟩

theorem ite {c : Prop} [Decidable c] (h : Still T a s) (h' : Still T a t) : Still T a (if c then s else t) := by
  split <;> assumption

theorem ifThen {c : Prop} [Decidable c] (h : Still T a s) (ht : Still T s t) : Still T a (if c then t else s) :=
  ite (h.trans ht) h

theorem ifElse {c : Prop} [Decidable c] (h : Still T a s) (ht : Still T s t) : Still T a (if c then s else t) :=
  ite h (h.trans ht)

theorem put {p : Nat} {f : Fld} {v : Nat} (h : Still T a s) (hf : unheld p f = true) : Still T a (s.put p f v) :=
  ⟨(heldView_put T s v hf).trans h.same⟩

theorem putBit {p : Nat} {f : Fld} {v : Bool} (h : Still T a s) (hf : unheld p f = true) : Still T a (s.putBit p f v) :=
  h.put hf

theorem bump {p : Nat} {f : Fld} {n : Nat} (h : Still T a s) (hf : unheld p f = true) : Still T a (s.bump p f n) :=
  h.put hf

theorem incr {p : Nat} {f : Fld} (h : Still T a s) (hf : unheld p f = true) : Still T a (s.incr p f) := h.put hf

theorem setReg {p off : Nat} {x : Word} (h : Still T a s) (hf : unheldReg p off = true) : Still T a (s.setReg p off x) :=
  ⟨(heldView_setReg T s x hf).trans h.same⟩

theorem update {pending fused mem points lockAt txns ev engs icache mtbHi cmp grants fabric drawn freed boot fb0 fb1 stations
    hart flash meter chr evr vault cry comms wdts q31 inputs rep pins answer} (h : Still T a s) :
    Still T a { s with
      pending := pending, fused := fused, mem := mem, points := points, lockAt := lockAt, txns := txns, ev := ev,
      engs := engs, icache := icache, mtbHi := mtbHi, cmp := cmp, grants := grants, fabric := fabric, drawn := drawn,
      freed := freed, boot := boot, fb0 := fb0, fb1 := fb1, stations := stations, hart := hart, flash := flash,
      meter := meter, chr := chr, evr := evr, vault := vault, cry := cry, comms := comms, wdts := wdts, q31 := q31,
      inputs := inputs, rep := rep, pins := pins, answer := answer } :=
  ⟨h.same⟩

theorem forAllMem {f : α → State → State} (l : List α) (h : Still T a s) (hf : ∀ x ∈ l, ∀ s, Still T s (f x s)) :
    Still T a (forAll l f s) := by
  induction l generalizing s with
  | nil => exact h
  | cons x l ih => exact ih (h.trans (hf x List.mem_cons_self s)) fun y hy => hf y (List.mem_cons_of_mem x hy)

theorem forAll {f : α → State → State} (l : List α) (h : Still T a s) (hf : ∀ x s, Still T s (f x s)) :
    Still T a (forAll l f s) := forAllMem l h fun x _ => hf x

theorem wbytes {n : Nat} {bs : List Byte} (h : Still T a s) : Still T a (s.wbytes n bs) := by
  rw [wbytes_eq]
  exact h.update

/-! ### What a still operation keeps -/

theorem g (h : Still T a s) {p : Nat} {f : Fld} (hw : (p, f) ∈ heldFields) : s.g p f = a.g p f := by
  have hf : heldFields.map (fun w => s.g w.1 w.2) = heldFields.map (fun w => a.g w.1 w.2) := congrArg Held.fields h.same
  exact List.map_inj_left.1 hf (p, f) hw

theorem bit (h : Still T a s) {p : Nat} {f : Fld} (hw : (p, f) ∈ heldFields) : s.bit p f = a.bit p f := by
  simp only [State.bit, h.g hw]

theorem mtb (h : Still T a s) : s.mtb = a.mtb := congrArg Held.mtb h.same
theorem replica (h : Still T a s) : s.replica = a.replica := congrArg Held.replica h.same
theorem fieldTick (h : Still T a s) : s.field.tick = a.field.tick := congrArg Held.fieldTick h.same
theorem power (h : Still T a s) : s.power.held = a.power.held := congrArg (fun v => v.power.1) h.same
theorem noClock (h : Still T a s) : s.power.noClock = a.power.noClock := congrArg (fun v => v.power.2) h.same
theorem btick (h : Still T a s) : s.sched.btick = a.sched.btick := congrArg (fun v => v.ticks.1) h.same
theorem acceptedAt (h : Still T a s) : s.sched.acceptedAt = a.sched.acceptedAt := congrArg (fun v => v.ticks.2.1) h.same
theorem prevProfile (h : Still T a s) : s.sched.prevProfile = a.sched.prevProfile := congrArg (fun v => v.ticks.2.2) h.same
theorem defer (h : Still T a s) : s.sched.defer = a.sched.defer := congrArg Held.defer h.same

theorem linkUp (h : Still T a s) (d : Die) : s.linkUp d = a.linkUp d :=
  linkUp_of_fields (fun _ hw => h.g hw) h.noClock d

/-- The end of a link that is not UP is as it was. -/
theorem link (h : Still T a s) {d : Die} (hd : a.linkUp d = false) : s.link d = a.link d := by
  have hv : (if s.linkUp d then none else some (s.link d)) = (if a.linkUp d then none else some (a.link d)) :=
    congrFun (congrArg Held.link h.same) d
  rw [h.linkUp, hd, if_neg Bool.false_ne_true, if_neg Bool.false_ne_true] at hv
  exact Option.some.inj hv

theorem taskAnd (h : Still T a s) {n : TaskNo} (hn : T n = false) :
    (s.task n, s.taskBits n) = (a.task n, a.taskBits n) := by
  have hv : (if T n then none else some (s.task n, s.taskBits n)) = (if T n then none else some (a.task n, a.taskBits n)) :=
    congrFun (congrArg Held.tasks h.same) n
  rw [hn, if_neg Bool.false_ne_true, if_neg Bool.false_ne_true] at hv
  exact Option.some.inj hv

theorem task (h : Still T a s) {n : TaskNo} (hn : T n = false) : s.task n = a.task n := congrArg Prod.fst (h.taskAnd hn)

theorem taskBits (h : Still T a s) {n : TaskNo} (hn : T n = false) : s.taskBits n = a.taskBits n :=
  congrArg Prod.snd (h.taskAnd hn)

end Still

end Sys2Proof.Machine
end

section
/-! What is held, through the link, events and faults. -/

namespace Sys2Proof.Machine

open Reg

namespace Still
variable {T : TaskNo → Bool} {a s t : State}

/-! ### The link -/

theorem linkUp_setLink (s : State) (d : Die) (l : LinkDie) : (s.setLink d l).linkUp = s.linkUp := by
  cases d <;> rfl

/-- The end of a link that is UP may change. -/
theorem setLink {d : Die} {l : LinkDie} (h : Still T a s) (hd : s.linkUp d = true) : Still T a (s.setLink d l) := by
  have hl : (fun d' => if s.linkUp d' then none else some ((s.setLink d l).link d')) =
      fun d' => if s.linkUp d' then none else some (s.link d') := by
    funext d'
    by_cases he : d' = d
    · rw [he, hd, if_pos rfl, if_pos rfl]
    · rw [link_setLink_ne _ _ he]
  refine h.trans ⟨?_⟩
  unfold State.heldView
  rw [linkUp_setLink, hl]
  cases d <;> rfl

theorem unheld_creditFld (d : Die) (n : Nat) : unheld (ddlPage d) (creditFld n) = true := by
  unfold creditFld
  split <;> cases d <;> rfl

theorem transmit {d : Die} {p : Packet} (h : Still T a s) (hd : s.linkUp d = true) : Still T a (transmit d p s) :=
  ifElse (setLink h hd) (put refl (unheld_creditFld d _))

theorem pumpGo {d : Die} {ps : List Packet} {blocked : List Nat} {kept : List Packet} (h : Still T a s)
    (hd : s.linkUp d = true) : Still T a (pumpGo d ps blocked kept s) := by
  induction ps generalizing blocked kept s with
  | nil => exact h.setLink hd
  | cons p ps ih =>
    have ht : Still T s (Machine.transmit d p s) := transmit refl hd
    exact ite (ih (h.trans ht) ((ht.linkUp d).trans hd)) (ih h hd)

theorem syncEvq (h : Still T a s) : Still T a (syncEvq s) := h.put rfl

theorem pump {d : Die} (h : Still T a s) (hd : s.linkUp d = true) : Still T a (pump d s) :=
  ite (syncEvq (pumpGo h hd)) (pumpGo h hd)

/-- A packet handed to a link that is not UP is not taken. -/
theorem sendPacket {d : Die} {p : Packet} (h : Still T a s) : Still T a (sendPacket d p s) := by
  unfold Machine.sendPacket
  split
  case isTrue hd =>
    have hl : Still T s (s.setLink d { s.link d with waiting := enqueued (s.link d).waiting p }) := setLink refl hd
    exact (h.trans hl).pump ((hl.linkUp d).trans hd)
  case isFalse => exact h

theorem sendBulk {d : Die} {xid : Nat} {ws : List Word} (h : Still T a s) : Still T a (sendBulk d xid ws s) :=
  h.forAll _ fun _ _ => sendPacket refl

theorem sendSample {kind : Nat} {gap : Bool} {w1 w2 : Word} {bs : List Byte} (h : Still T a s) :
    Still T a (sendSample kind gap w1 w2 bs s) := h.forAll _ fun _ _ => sendPacket refl

/-! ### Events and faults -/

theorem recAccept {r : List Byte} (h : Still T a s) : Still T a (recAccept r s) :=
  ite (put h.update rfl) (bump h.update rfl)

theorem recordLocal {page : Nat} {dom : Dom} {sev : BitVec 3} {code : BitVec 16} {data : List Byte} (h : Still T a s) :
    Still T a (recordLocal page dom sev code data s) := incr (recAccept h) rfl

theorem muslinEventOnce {page : Nat} {dom : Dom} {sev : BitVec 3} {code : BitVec 16} {data : List Byte} (h : Still T a s) :
    Still T a (muslinEventOnce page dom sev code data s) :=
  ite (sendPacket h) (ite (put (update (recordLocal h)) rfl) (bump (update (recordLocal h)) rfl))

theorem tellDiscarded {s' : State} (h : Still T a s) : Still T a (tellDiscarded s' s) :=
  ifThen h (muslinEventOnce (put refl rfl))

theorem muslinEvent {page : Nat} {dom : Dom} {sev : BitVec 3} {code : BitVec 16} {data : List Byte} (h : Still T a s) :
    Still T a (muslinEvent page dom sev code data s) := tellDiscarded (muslinEventOnce h)

theorem syncLevels (h : Still T a s) : Still T a (syncLevels s) := ifThen h (sendPacket (update refl))

theorem damaskEvent {rank : Nat} {source : Byte} {dom : Dom} {sev : BitVec 3} {code : BitVec 16} {data : List Byte}
    (h : Still T a s) : Still T a (damaskEvent rank source dom sev code data s) := ⟨h.same⟩

theorem pageEvent {p : Nat} {dom : Dom} {code : BitVec 16} {data : List Byte} (h : Still T a s) :
    Still T a (pageEvent p dom code data s) := ite (muslinEvent h) (damaskEvent h)

theorem raiseWith {p : Nat} {f : Fld} {always : Bool} {dom : Dom} {data : List Byte} (h : Still T a s)
    (hf : unheld p f = true) : Still T a (raiseWith p f always dom data s) :=
  ifThen (ifThen (put h hf) (pageEvent refl)) (syncLevels refl)

theorem raise {p : Nat} {f : Fld} (h : Still T a s) (hf : unheld p f = true) : Still T a (raise p f s) := raiseWith h hf

theorem raiseLog {p : Nat} {f : Fld} {data : List Byte} (h : Still T a s) (hf : unheld p f = true) :
    Still T a (raiseLog p f data s) := raiseWith h hf

/-- A flag raised is set; what follows its setting is still. -/
theorem raise_put (p : Nat) (f : Fld) (s : State) : Still T (s.put p f 1) (Machine.raise p f s) :=
  ifThen (ifThen refl (pageEvent refl)) (syncLevels refl)

theorem raiseFaultWith {c : Nat} {masked : Bool} {eng : Nat} {addr : Word} {data : List Byte} (h : Still T a s) :
    Still T a (raiseFaultWith c masked eng addr data s) := by
  refine damaskEvent (bump (setReg (setReg (setReg h rfl) rfl) rfl) ?_)
  cases masked <;> rfl

theorem raiseFault {c : Nat} {masked : Bool} {eng : Nat} {addr : Word} (h : Still T a s) :
    Still T a (raiseFault c masked eng addr s) := raiseFaultWith h

theorem muslinFault {p c : Nat} {masked : Bool} {addr : Word} (h : Still T a s) : Still T a (muslinFault p c masked addr s) :=
  ite (raiseFault h) (muslinEvent h)

/-! ### The rings and the recorder -/

/-- An entry in a ring of queue manager `q`, or a full or disabled ring. -/
theorem pushB_getD {q : Nat} {e : List Byte} {u : State} (h : Still T a s) (hu : Still T a u)
    (hq : unheld pQMG (qf QMG_BIDX_PROD q) = true) : Still T a ((pushB q e s).getD u) := by
  unfold pushB
  dsimp only
  split
  · exact put (wbytes h) hq
  · exact hu

theorem q31Abort (h : Still T a s) : Still T a (q31Abort s) := by
  unfold Machine.q31Abort
  split
  · exact pushB_getD h.update h.update rfl
  · exact h

theorem toRecorder {n : Numbered} (h : Still T a s) : Still T a (toRecorder n s) :=
  ite (sendBulk h) (ite (put h.update rfl) (bump h.update rfl))

theorem evsLinkDown {flight : List Packet} (h : Still T a s) : Still T a (evsLinkDown flight s) :=
  put (bump h.update rfl) rfl

theorem evsLinkUp (h : Still T a s) : Still T a (evsLinkUp s) := by
  unfold Machine.evsLinkUp
  exact ifElse (forAll _ (put h.update rfl) fun _ _ => toRecorder refl) (raiseLog refl.update rfl)

/-! ### HART requests and the crypto block on Damask -/

theorem hartWriteResult {e : List Byte} (h : Still T a s) : Still T a (hartWriteResult e s) := by
  have he : Machine.hartWriteResult e s =
      (pushB 28 e s).getD (Machine.raise pHRT HRT_IRQ_RAW_RESLOST (s.bump pHRT HRT_LOSTCNT_LOST)) := by
    unfold Machine.hartWriteResult
    cases pushB 28 e s <;> rfl
  rw [he]
  exact pushB_getD h (raise (bump h rfl) rfl) rfl

theorem hartPumpGo {k : Nat} (h : Still T a s) : Still T a (hartPumpGo k s) := by
  induction k generalizing s with
  | zero => exact h
  | succ k ih =>
    unfold Machine.hartPumpGo
    split
    · exact h
    · exact ite (ih (sendBulk (put h.update rfl))) h

theorem hartLinkUp (h : Still T a s) : Still T a (hartLinkUp s) := hartPumpGo (ifThen h (raise refl.update rfl))

theorem hartLinkDown_damask (h : Still T a s) : Still T a (hartLinkDown .damask s) :=
  forAll _ h.update fun _ _ => hartWriteResult refl

theorem setCry {x : Cry} (h : Still T a s) : Still T a (s.setCry x) := ⟨h.same⟩

theorem raise_crypto {st : Nat} (h : Still T a s) :
    Still T a (Machine.raise pCRY (if st = 0 then CRY_IRQ_RAW_WDONE else CRY_IRQ_RAW_WERR) s) := by
  split
  · exact raise h rfl
  · exact raise h rfl

theorem zeroKeys (h : Still T a s) :
    Still T a (Machine.forAll (List.range 8) (fun i s => s.setReg pCRY (0x080 + 4 * i) 0) s) :=
  forAllMem _ h fun i hi _ => setReg refl
    ((by decide : ∀ i ∈ List.range 8, unheldReg pCRY (0x080 + 4 * i) = true) i hi)

theorem wcmdEnd {st : Nat} (h : Still T a s) : Still T a (wcmdEnd st s) := by
  unfold Machine.wcmdEnd
  split
  · exact h
  · exact raise_crypto (put (ifThen (put (put (put (setCry h) rfl) rfl) rfl) (zeroKeys refl)) rfl)

theorem cryLinkDown (h : Still T a s) : Still T a (cryLinkDown s) := by
  unfold Machine.cryLinkDown cryBroken
  split
  · exact ifThen (setCry h) (wcmdEnd refl)
  · exact setCry h

end Still

end Sys2Proof.Machine
end

section
/-! What is held, through the scheduler: an operation on a task leaves the other tasks and the base tick alone. -/

namespace Sys2Proof.Machine

open Reg

/-! ## The bits of the tasks -/

theorem getLsbD_word_pow {i j : Nat} (hj : j < 32) : (word (2 ^ i)).getLsbD j = decide (i = j) := by
  rw [word, BitVec.getLsbD_ofNat, Nat.testBit_two_pow]
  simp only [hj, decide_true, Bool.true_and]

theorem getLsbD_setBit_ne (w : Word) {i j : Nat} (b : Bool) (hij : i ≠ j) (hj : j < 32) :
    (setBit w i b).getLsbD j = w.getLsbD j := by
  cases b
  · rw [setBit, if_neg Bool.false_ne_true, BitVec.getLsbD_and, BitVec.getLsbD_not, getLsbD_word_pow hj]
    simp only [hj, hij, decide_true, decide_false, Bool.not_false, Bool.and_true]
  · rw [setBit, if_pos rfl, BitVec.getLsbD_or, getLsbD_word_pow hj]
    simp only [hij, decide_false, Bool.or_false]

/-- The offsets of the words that hold a bit of each task. -/
def taskOffs : List Nat := [offEnabled, offActive, offWest, offMigPend]

theorem regKey_taskWord {off off' m n : Nat} (ho : off ∈ taskOffs) (ho' : off' ∈ taskOffs) (hm : m < 64) (hn : n < 64) :
    regKey pSCH (off + 4 * (m / 32)) = regKey pSCH (off' + 4 * (n / 32)) ↔ off = off' ∧ m / 32 = n / 32 := by
  simp only [taskOffs, offEnabled, offActive, offWest, offMigPend, List.mem_cons, List.not_mem_nil, or_false] at ho ho'
  simp only [regKey]
  omega

theorem taskBit_putTaskBit_ne (s : State) {off off' : Nat} {m n : TaskNo} (b : Bool) (ho : off ∈ taskOffs)
    (ho' : off' ∈ taskOffs) (h : m ≠ n) : (s.putTaskBit off m b).taskBit off' n = s.taskBit off' n := by
  have hv : m.val ≠ n.val := fun he => h (Fin.ext he)
  unfold State.taskBit State.putTaskBit
  rw [reg_setReg]
  split
  case isTrue hk =>
    obtain ⟨rfl, hw⟩ := (regKey_taskWord ho' ho n.isLt m.isLt).1 hk
    rw [getLsbD_setBit_ne _ _ (by omega) (by omega), hw]
  case isFalse => rfl

theorem heldFields_apart_taskWords :
    ∀ w ∈ heldFields, ∀ off ∈ taskWords, regKey w.1 w.2.off ≠ regKey pSCH off := by decide

namespace Still
variable {T : TaskNo → Bool} {a s t : State}

/-! ### The state of the tasks -/

theorem putTaskBit {off : Nat} {n : TaskNo} {b : Bool} (h : Still T a s) (ho : off ∈ taskOffs) (hn : T n = true) :
    Still T a (s.putTaskBit off n b) := by
  have hf (w : Nat × Fld) (hw : w ∈ heldFields) : (s.putTaskBit off n b).g w.1 w.2 = s.g w.1 w.2 := by
    simp only [State.g, State.putTaskBit]
    rw [reg_setReg_ne _ _ (heldFields_apart_taskWords w hw _ (taskWord_mem n ho))]
  have hl : (s.putTaskBit off n b).linkUp = s.linkUp := funext fun d => linkUp_of_fields hf rfl d
  have ht : (fun m => if T m then none else some ((s.putTaskBit off n b).task m, (s.putTaskBit off n b).taskBits m)) =
      fun m => if T m then none else some (s.task m, s.taskBits m) := by
    funext m
    by_cases hm : T m = true
    · rw [if_pos hm, if_pos hm]
    · have hne : n ≠ m := fun he => hm (he ▸ hn)
      have hb {o : Nat} (hmem : o ∈ taskOffs) : (s.putTaskBit off n b).taskBit o m = s.taskBit o m :=
        taskBit_putTaskBit_ne s b ho hmem hne
      simp only [State.taskBits, hb (show offEnabled ∈ taskOffs by decide), hb (show offActive ∈ taskOffs by decide),
        hb (show offWest ∈ taskOffs by decide), hb (show offMigPend ∈ taskOffs by decide)]
      rfl
  refine h.trans ⟨?_⟩
  unfold State.heldView
  rw [List.map_congr_left hf, hl, ht]
  rfl

theorem setTask {n : TaskNo} {x : Task} (h : Still T a s) (hn : T n = true) : Still T a (s.setTask n x) := by
  have ht : (fun m => if T m then none else some ((s.setTask n x).task m, s.taskBits m)) =
      fun m => if T m then none else some (s.task m, s.taskBits m) := by
    funext m
    by_cases hm : T m = true
    · rw [if_pos hm, if_pos hm]
    · have hne : m ≠ n := fun he => hm (he ▸ hn)
      rw [task_setTask_ne _ _ hne]
  refine h.trans ⟨?_⟩
  show { s.heldView T with tasks := fun m => if T m then none else some ((s.setTask n x).task m, s.taskBits m) } = _
  rw [ht]
  rfl

theorem setEng {e : EngNo} {x : Eng} (h : Still T a s) : Still T a (s.setEng e x) := h.update

theorem setDeque {k : Nat} {q : List (TaskNo × Nat)} (h : Still T a s) : Still T a (s.setDeque k q) := ⟨h.same⟩

theorem setCopyQ {b : Half} {q : List CopyPhase} (h : Still T a s) : Still T a (s.setCopyQ b q) := by
  cases b <;> exact ⟨h.same⟩

theorem setLineTag {l : Nat} {x : Option LineTag} (h : Still T a s) : Still T a (setLineTag l x s) := ⟨h.same⟩

theorem setScan {n : TaskNo} {x : Option Scan} (h : Still T a s) (hn : T n = true) : Still T a (setScan n x s) :=
  setTask h hn

theorem unheld_tskPage (n : TaskNo) (f : Fld) : unheld (tskPage n) f = true := by
  have h : Nat.ble 68 (tskPage n) = true := by
    rw [Nat.ble_eq]
    simp only [tskPage, pTask]
    omega
  simp only [unheld, h, Bool.true_or]

theorem setEnabled {n : TaskNo} {b : Bool} (h : Still T a s) (hn : T n = true) : Still T a (setEnabled n b s) :=
  put (putBit (putTaskBit h (by decide) hn) (unheld_tskPage n _)) rfl

theorem setScanning {n : TaskNo} {b : Bool} (h : Still T a s) (hn : T n = true) : Still T a (setScanning n b s) :=
  put (putBit (putTaskBit h (by decide) hn) (unheld_tskPage n _)) rfl

theorem setWest {n : TaskNo} {b : Bool} (h : Still T a s) (hn : T n = true) : Still T a (setWest n b s) :=
  putBit (putTaskBit h (by decide) hn) (unheld_tskPage n _)

theorem setMigPend {n : TaskNo} {b : Bool} (h : Still T a s) (hn : T n = true) : Still T a (setMigPend n b s) :=
  putBit (putTaskBit h (by decide) hn) rfl

/-! ### Scans and releases -/

theorem dropQueued {n : TaskNo} (h : Still T a s) : Still T a (dropQueued n s) := h.forAll _ fun _ _ => setDeque refl

theorem dropSnapshot {n : TaskNo} (h : Still T a s) : Still T a (dropSnapshot n s) := h.forAll _ fun _ _ => setCopyQ refl

theorem retireTaskLines {n : TaskNo} (h : Still T a s) : Still T a (retireTaskLines n s) :=
  ifElse h (put ⟨(forAll _ refl fun _ _ => setLineTag refl).same⟩ rfl)

theorem finishMigration {n : TaskNo} (h : Still T a s) (hn : T n = true) : Still T a (finishMigration n s) :=
  ifThen h (raise (setMigPend (setWest refl hn) hn) rfl)

theorem endJobs {n : TaskNo} (h : Still T a s) : Still T a (Machine.forAll allEngines (fun e s =>
    let x := s.eng e
    if runsLive n x then
      match x.job with
      | some j => s.setEng e { x with job := some { j with dead := true, viol := ⟨0, 0, 0⟩ } }
      | none => s
    else s) s) := by
  refine h.forAll _ fun e s => ifThen refl ?_
  split
  · exact setEng refl
  · exact refl

theorem killScan {n : TaskNo} (h : Still T a s) (hn : T n = true) : Still T a (killScan n s) := by
  unfold Machine.killScan
  split
  · exact h
  · exact finishMigration (bump (setScanning (setTask (retireTaskLines (endJobs (dropSnapshot (dropQueued h)))) hn) hn)
      (unheld_tskPage n _)) hn

theorem dropRelease {n : TaskNo} (h : Still T a s) (hn : T n = true) : Still T a (dropRelease n s) :=
  bump (setTask h hn) (unheld_tskPage n _)

theorem loseHeld {n : TaskNo} (h : Still T a s) (hn : T n = true) : Still T a (loseHeld n s) :=
  ifThen h (dropRelease (setTask refl hn) hn)

theorem holdRelease {n : TaskNo} {b : Nat} (h : Still T a s) (hn : T n = true) : Still T a (holdRelease n b s) :=
  raise (bump (setTask h hn) rfl) rfl

theorem copyDue {b : Half} {c : CopyPhase} (h : Still T a s) : Still T a (copyDue b c s) := setCopyQ h

theorem startRelease {n : TaskNo} {b p : Nat} (h : Still T a s) (hn : T n = true) : Still T a (startRelease n b p s) := by
  unfold Machine.startRelease
  split
  · exact h
  · exact copyDue (setScanning (setScan (putBit (putBit h (unheld_tskPage n _)) (unheld_tskPage n _)) hn) hn)

theorem determineRelease {n : TaskNo} {b : Nat} (h : Still T a s) (hn : T n = true) : Still T a (determineRelease n b s) :=
  ite (dropRelease (setTask h hn) hn) (ite (holdRelease (setTask h hn) hn) (startRelease (setTask h hn) hn))

theorem overrun {n : TaskNo} {b : Nat} (h : Still T a s) (hn : T n = true) : Still T a (overrun n b s) := by
  unfold Machine.overrun
  split
  · exact ite h (ite (determineRelease (killScan (raise h rfl) hn) hn) (dropRelease (setTask (setScan (raise h rfl) hn) hn) hn))
  · exact h

theorem unheld_flipSel {k : Nat} (hk : k ∈ allRegions) :
    unheld pIMG ⟨0x800 + 4 * (k / 2), 16 * (k % 2) + 15, 1⟩ = true := by
  have hlt : k / 2 < 512 := by
    have := List.mem_range.1 hk
    omega
  have hkey : regKey pIMG (0x800 + 4 * (k / 2)) = 5632 + k / 2 := by simp only [regKey, pIMG]; omega
  have hf : ∀ w ∈ heldFields, regKey w.1 w.2.off < 5632 ∨ 6144 ≤ regKey w.1 w.2.off := by decide
  have hw : ∀ off ∈ taskWords, regKey pSCH off < 5632 := by decide
  simp only [unheld, Bool.or_eq_true, Bool.and_eq_true, List.all_eq_true, fieldsApart, bne_iff_ne, hkey]
  refine .inr ⟨fun w h => .inl fun he => ?_, fun off h he => ?_⟩
  · have := hf w h
    omega
  · have := hw off h
    omega

theorem flipSel {k : Nat} (h : Still T a s) (hk : k ∈ allRegions) : Still T a (flipSel k s) := put h (unheld_flipSel hk)

theorem commitImages {n : TaskNo} (h : Still T a s) : Still T a (commitImages n s) := by
  unfold Machine.commitImages
  refine retireTaskLines (incr (forAllMem _ h fun k hk _ => flipSel refl ?_) rfl)
  unfold regionsOfTask at hk
  exact (List.mem_filter.1 hk).1

theorem commitScan {n : TaskNo} (h : Still T a s) (hn : T n = true) : Still T a (commitScan n s) := by
  have hp (f : Fld) : unheld (tskPage n) f = true := unheld_tskPage n f
  unfold Machine.commitScan
  split
  · exact finishMigration (ifElse (setScanning (setTask (put (put (ifThen (ifThen (put (put (incr (commitImages h) (hp _)) (hp _))
      (hp _)) (put refl (hp _))) (put refl (hp _))) (hp _)) (hp _)) hn) hn) (copyDue refl)) hn
  · exact h

theorem failScan {n : TaskNo} {reason kind job : Nat} {flag : Fld} {eng : Nat} {addr : Word} {data : List Byte}
    (h : Still T a s) (hf : unheld pSCH flag = true) (hn : T n = true) :
    Still T a (failScan n reason kind job flag eng addr data s) :=
  killScan (raiseFaultWith (bump (raise (setReg h rfl) hf) rfl)) hn

theorem checkStall {n : TaskNo} (h : Still T a s) (hn : T n = true) : Still T a (checkStall n s) := by
  unfold Machine.checkStall
  split
  · exact ifThen h (failScan refl rfl hn)
  · exact h

theorem endExecute {n : TaskNo} (h : Still T a s) (hn : T n = true) : Still T a (endExecute n s) := by
  have hd : Still T a (match deadlineTick n s with
      | some b => if 25000 * b ≤ s.mtb then Machine.overrun n b s else s
      | none => s) := by
    split
    · exact ifThen h (overrun refl hn)
    · exact h
  unfold Machine.endExecute
  dsimp only
  split
  · exact ifThen hd (commitScan refl hn)
  · exact hd

theorem queueJob {n : TaskNo} {e : TaskEntry} {j : Nat} (h : Still T a s) : Still T a (queueJob n e j s) := setDeque h

theorem completeJob {n : TaskNo} {j : Nat} (h : Still T a s) (hn : T n = true) : Still T a (completeJob n j s) := by
  unfold Machine.completeJob
  split
  · exact checkStall (endExecute (forAll _ (setScan h hn) fun _ _ => ifThen refl.update (queueJob refl)) hn) hn
  · exact h

/-! ### Engines and their transactions -/

theorem setMode {e : EngNo} {m : EngMode} (h : Still T a s) : Still T a (setMode e m s) :=
  setEng (ifThen h ⟨Eq.refl _⟩)

theorem unheld_engPage {f : Fld} (ho : f.off < 4096) (e : EngNo) : unheld (engPage e) f = true := by
  have hlo : 16384 ≤ regKey (engPage e) f.off ∧ regKey (engPage e) f.off < 24576 := by
    simp only [engPage, clusterOf, regKey, pENG]
    omega
  have hf : ∀ w ∈ heldFields, regKey w.1 w.2.off < 16384 ∨ 24576 ≤ regKey w.1 w.2.off := by decide
  have hw : ∀ off ∈ taskWords, regKey pSCH off < 16384 := by decide
  simp only [unheld, Bool.or_eq_true, Bool.and_eq_true, List.all_eq_true, fieldsApart, bne_iff_ne]
  refine .inr ⟨fun w h => .inl fun he => ?_, fun off h he => ?_⟩
  · have := hf w h
    omega
  · have := hw off h
    omega

theorem leaveJob {e : EngNo} (h : Still T a s) : Still T a (leaveJob e s) := by
  have hj : Still T a (setInJob e false ((orphanTxns e s).setEng e { (orphanTxns e s).eng e with
      job := none, jobid := 0, remErr := ((orphanTxns e s).eng e).supErr, supErr := none, record := none })) :=
    put (setEng h.update) (unheld_engPage (show 0x00C < 4096 by decide) e)
  exact ite (setMode (setEng hj)) (setMode hj)

theorem releaseViolation {rank : Nat} {d : Dom} {n : TaskNo} {job : Nat} {addr : Word} {count kind : Nat} (h : Still T a s) :
    Still T a (releaseViolation rank d n job addr count kind s) :=
  bump (setReg (setReg (put (damaskEvent h) rfl) rfl) rfl) rfl

theorem finishYield {e : EngNo} (h : Still (fun _ => true) a s) : Still (fun _ => true) a (finishYield e s) := by
  unfold Machine.finishYield
  split
  · exact h
  · exact ite (leaveJob h) (completeJob (leaveJob (ifElse h (releaseViolation refl))) rfl)

theorem settleYield {e : EngNo} (h : Still (fun _ => true) a s) : Still (fun _ => true) a (settleYield e s) :=
  ifThen h (finishYield refl)

theorem fabError {r : Requester} {kind : Nat} {addr : Word} (h : Still T a s) : Still T a (fabError r kind addr s) :=
  ifElse h (raise (setReg (setReg refl rfl) rfl) rfl)

theorem deliverTxn {x : Txn} {v : Word} {err : Bool} (h : Still T a s) : Still T a (deliverTxn x v err s) := by
  have hl (k : LoadKind) (r : Reg) : Still T s (loadInto x.eng r (loadDatum k x.addr.toNat v) s) := ifElse refl (setEng refl)
  unfold Machine.deliverTxn
  refine ifThen ?_ (setEng refl)
  split <;> split
  · exact setEng (h.trans (hl _ _))
  · exact setEng h
  · exact h.trans (hl _ _)
  · exact h

theorem syncOutstanding (h : Still T a s) : Still T a (syncOutstanding s) := put h rfl

theorem completeTxn {tag : Nat} {v : Word} {err : Bool} (h : Still (fun _ => true) a s) :
    Still (fun _ => true) a (completeTxn tag v err s) := by
  unfold Machine.completeTxn
  split
  · exact h
  · exact ite (syncOutstanding h.update)
      (settleYield (ifElse (ifThen (syncOutstanding h.update) (fabError refl)) (deliverTxn refl)))

theorem retireTxns (h : Still (fun _ => true) a s) : Still (fun _ => true) a (retireTxns s) :=
  h.forAll _ fun _ _ => completeTxn refl

/-- What die Damask does when its link goes down. -/
theorem damaskLosesLink {flight : List Packet} (h : Still (fun _ => true) a s) :
    Still (fun _ => true) a (damaskLosesLink flight s) :=
  cryLinkDown (hartLinkDown_damask (q31Abort (update (evsLinkDown (retireTxns (raiseFault h))))))

end Still

end Sys2Proof.Machine
end

section
/-! What is held, through the flash queue, the modems and the key vault, and so through what Muslin does without the link. -/

namespace Sys2Proof.Machine

open Reg

theorem linkUp_of_sealReady {d : Die} {s : State} (h : sealReady d s = true) : s.linkUp d = true := by
  simp only [sealReady, Bool.and_eq_true] at h
  obtain ⟨⟨hup, -⟩, -⟩ := h
  exact hup

namespace Still
variable {T : TaskNo → Bool} {a s t : State}

/-! ### The flash queue -/

theorem setFlash {x : Flash} (h : Still T a s) : Still T a (s.setFlash x) := h.update

theorem askFlash {prec : Nat} {w : FlashWork} {u : FlashUser} (h : Still T a s) : Still T a (askFlash prec w u s) := h.update

theorem syncWaits (h : Still T a s) : Still T a (syncWaits s) := putBit (putBit (setFlash h) rfl) rfl

theorem dropOps {p : FlashUser → Bool} (h : Still T a s) : Still T a (dropOps p s) := syncWaits (setFlash h)

theorem eccReport {gs : List Nat} (h : Still T a s) : Still T a (eccReport gs s) := by
  refine h.forAll gs fun g s => ?_
  split
  · exact refl
  all_goals exact muslinFault (raise (put (put (bump refl rfl) rfl) rfl) rfl)

theorem eccIn {off n : Nat} (h : Still T a s) : Still T a (eccIn off n s) := eccReport h

/-! ### The output hold and the HART modems -/

theorem setMissed {k n : Nat} (h : Still T a s) : Still T a (setMissed k n s) := ⟨h.same⟩

theorem deliver {kind key : Nat} {w1 : Word} {bs : List Byte} (h : Still T a s) : Still T a (deliver kind key w1 bs s) :=
  ite (sendSample (setMissed h)) (setMissed h)

theorem ohmEngage (h : Still T a s) : Still T a (ohmEngage s) := by
  have hf : Still T s { s with field := { s.field with
      holdEnd := s.replica + min 60000 (max 100 (s.g pOHM OHM_HOLD_MS)) * 100000, holdOver := false } } := ⟨Eq.refl _⟩
  exact ifElse h (raise (put (put (put hf rfl) rfl) rfl) rfl)

theorem setModem {n : ChanNo} {x : Hart} (h : Still T a s) : Still T a (s.setModem n x) := ⟨h.same⟩

theorem syncHart {n : ChanNo} (h : Still T a s) : Still T a (syncHart n s) := by
  unfold Machine.syncHart
  exact put (putBit (putBit (putBit (putBit (putBit (putBit (ifThen h (setModem refl)) rfl) rfl) rfl) rfl) rfl) rfl) rfl

theorem hartLose (h : Still T a s) : Still T a (hartLose s) := bump h.update rfl

theorem hartSend {n : ChanNo} {status : Nat} {entry : List Byte} (h : Still T a s) : Still T a (hartSend n status entry s) :=
  ite (sendBulk (put h rfl)) (hartLose (put h rfl))

theorem hartNext {n : ChanNo} (h : Still T a s) : Still T a (hartNext n s) := syncHart (setModem h)

theorem hartEnd {n : ChanNo} {status : Nat} {stamp stampEnd : Word} {frame : List Byte} (h : Still T a s) :
    Still T a (hartEnd n status stamp stampEnd frame s) := by
  unfold Machine.hartEnd
  split
  · exact h
  · exact ite (bump (put (hartNext h) rfl) rfl) (hartSend (hartNext h))

theorem hartSent {n : ChanNo} {r : HartReq} {e : Nat} (h : Still T a s) : Still T a (hartSent n r e s) :=
  ite (hartEnd (bump h rfl)) (setModem (bump h rfl))

theorem hartStop {n : ChanNo} (h : Still T a s) : Still T a (hartStop n s) := by
  unfold Machine.hartStop
  refine syncHart ?_
  split
  · exact ite h (ite (hartSent h) (ite (raise (hartEnd (ifThen h (bump refl rfl))) rfl) (hartEnd h)))
  · exact h

theorem hartLinkDown_muslin (h : Still T a s) : Still T a (hartLinkDown .muslin s) := by
  unfold Machine.hartLinkDown
  refine h.forAll _ fun n s => ?_
  dsimp only
  split
  · exact ifElse (ifThen refl (update refl)) (setModem refl)
  · exact ite (hartNext (ifElse (ifThen refl (update refl)) (setModem refl)))
      (setModem (ifElse (ifThen refl (update refl)) (setModem refl)))

/-! ### The key vault -/

theorem sendSealed {d : Die} {kind slot : Nat} {plain : List Byte} (h : Still T a s) :
    Still T a (sendSealed d kind slot plain s) := by
  unfold Machine.sendSealed
  split
  case isTrue hr => exact forAll _ (setLink h (linkUp_of_sealReady hr)) fun _ _ => sendPacket refl
  case isFalse => exact h

theorem setVault {x : Vault} (h : Still T a s) : Still T a (s.setVault x) := h.update

theorem drawBytes {n : Nat} (h : Still T a s) : Still T a (drawBytes n s).2 := h.update

theorem tagFail {i : Nat} (h : Still T a s) : Still T a (tagFail i s) := muslinFault (raiseLog h rfl)

theorem useFlags {i code : Nat} (h : Still T a s) : Still T a (useFlags i code s) :=
  ite (raise h rfl) (ifThen h (tagFail refl))

theorem syncBusy (h : Still T a s) : Still T a (syncBusy s) := putBit h rfl

theorem consumeUse {i : Nat} (h : Still T a s) : Still T a (consumeUse i s) := askFlash (setVault h)

theorem answerStatus {wslot st : Nat} (h : Still T a s) : Still T a (answerStatus wslot st s) := sendSealed h

theorem vaultPop (h : Still T a s) : Still T a (vaultPop s) := syncBusy (setVault h)

theorem updateRefused {st : Nat} (h : Still T a s) : Still T a (updateRefused st s) :=
  raise (vaultPop (put (put (put h rfl) rfl) rfl)) rfl

theorem clearRefused {st : Nat} (h : Still T a s) : Still T a (clearRefused st s) :=
  raise (update (put (put (put h rfl) rfl) rfl)) rfl

theorem setBootKey {b : Half} {k : BootKey} (h : Still T a s) : Still T a (setBootKey b k s) := by
  cases b <;> exact h.update

theorem vaultServe (h : Still T a s) : Still T a (vaultServe s) := by
  unfold Machine.vaultServe
  refine ite h ?_
  split
  case h_1 => exact h
  case h_2 => exact ite (consumeUse (eccIn h)) (vaultPop (answerStatus (useFlags (eccIn h))))
  case h_3 => exact ite (consumeUse (eccIn h)) (vaultPop (ifThen (useFlags (eccIn h)) (setBootKey refl)))
  case h_4 =>
    split
    · exact vaultPop (sendSealed h)
    · exact vaultPop (answerStatus h)
  case h_5 => exact vaultPop (sendSealed (drawBytes (drawBytes h)))
  case h_6 =>
    exact ite (updateRefused (ifThen (eccIn h) (useFlags refl)))
      (ite (updateRefused (useFlags (eccIn h))) (consumeUse (eccIn h)))
  case h_7 => exact ite (consumeUse (eccIn h)) (clearRefused (vaultPop (useFlags (eccIn h))))

theorem vaultRun (h : Still T a s) : Still T a (vaultRun s) := by
  have hn (n : Nat) : ∀ s, Still T a s → Still T a (vaultRunN n s) := by
    induction n with
    | zero => exact fun _ h => h
    | succ n ih => exact fun s h => ite (ih _ (vaultServe h)) h
  exact hn _ s h

theorem loseBootKeys (h : Still T a s) : Still T a (loseBootKeys s) := by
  unfold Machine.loseBootKeys
  exact setBootKey (setBootKey h)

theorem vaultLinkDown (h : Still T a s) : Still T a (vaultLinkDown s) := by
  unfold Machine.vaultLinkDown
  refine vaultRun (syncBusy (ifThen ?_ (dropOps refl)))
  split
  · exact ite (setVault (loseBootKeys h)) (ite (updateRefused (setVault (loseBootKeys h))) (setVault (loseBootKeys h)))
  · exact loseBootKeys h

/-! ### What Muslin does without the link -/

theorem missDeliveries {waiting : List Packet} (h : Still T a s) : Still T a (missDeliveries waiting s) :=
  h.forAll _ fun _ _ => setMissed refl

theorem bufferEvent {e : Event} (h : Still T a s) : Still T a (bufferEvent e s) := by
  unfold Machine.bufferEvent
  exact ite (syncEvq (update (ifElse h (recordLocal refl)))) (bump (update (ifElse h (recordLocal refl))) rfl)

theorem keepEvents {flight : List Packet} (h : Still T a s) : Still T a (keepEvents flight s) :=
  tellDiscarded (forAll _ h.update fun _ _ => bufferEvent refl)

theorem setArea {x : Option RetainWrite} (h : Still T a s) : Still T a (setArea x s) := ⟨h.same⟩

theorem retainSkip (h : Still T a s) : Still T a (retainSkip s) := raiseLog (setArea h) rfl

theorem retainLost (h : Still T a s) : Still T a (retainLost s) := by
  unfold Machine.retainLost
  split
  · exact ifElse h (retainSkip (dropOps refl))
  · exact h

end Still

end Sys2Proof.Machine
end

section
/-! The end of the link of one die, and how it goes down. -/

namespace Sys2Proof.Machine

open Reg

/-! ## What stays of one die -/

/-- The fields of DDL_CTRL and DDL_STAT that tell and steer the link's state. -/
def ddlFields : List Fld :=
  [DDL_CTRL_EN, DDL_CTRL_LOOPBACK, DDL_STAT_STATE, DDL_STAT_PAIRED, DDL_STAT_PAIRFLT, DDL_STAT_SESSION]

theorem heldFields_ddl (d : Die) : ∀ f ∈ ddlFields, (ddlPage d, f) ∈ heldFields := by cases d <;> decide

/-- From `a` to `s` the link fields of die `d` stay, and so does an end that is not UP. -/
structure DieStill (d : Die) (a s : State) : Prop where
  fields : ∀ f ∈ ddlFields, s.g (ddlPage d) f = a.g (ddlPage d) f
  held : s.power.held = a.power.held
  up : s.linkUp d = a.linkUp d
  link : a.linkUp d = false → s.link d = a.link d

theorem Still.die {T : TaskNo → Bool} {a s : State} (h : Still T a s) (d : Die) : DieStill d a s :=
  ⟨fun f hf => h.g (heldFields_ddl d f hf), h.power, h.linkUp d, h.link⟩

namespace DieStill
variable {d : Die} {a s t : State}

theorem refl : DieStill d a a := ⟨fun _ _ => Eq.refl _, Eq.refl _, Eq.refl _, fun _ => Eq.refl _⟩

theorem trans (h : DieStill d a s) (h' : DieStill d s t) : DieStill d a t where
  fields f hf := (h'.fields f hf).trans (h.fields f hf)
  held := h'.held.trans h.held
  up := h'.up.trans h.up
  link hd := (h'.link (h.up.trans hd)).trans (h.link hd)

theorem linkState (h : DieStill d a s) : s.linkState d = a.linkState d := h.fields _ (by decide)

theorem bit (h : DieStill d a s) {f : Fld} (hf : f ∈ ddlFields) : s.bit (ddlPage d) f = a.bit (ddlPage d) f := by
  simp only [State.bit, h.fields f hf]

/-- A change that leaves the link fields, the ends and the power alone. -/
theorem of_fields (hf : ∀ f ∈ ddlFields, s.g (ddlPage d) f = a.g (ddlPage d) f) (hp : s.power = a.power)
    (hl : s.link d = a.link d) : DieStill d a s where
  fields := hf
  held := by rw [hp]
  up := by simp only [State.linkUp, show s.linkState d = a.linkState d from hf _ (by decide), hp]
  link _ := hl

theorem put {p : Nat} {f : Fld} {v : Nat} (h : DieStill d a s)
    (hf : (ddlFields.all fun g => fieldsApart p f (ddlPage d) g) = true) : DieStill d a (s.put p f v) :=
  h.trans (of_fields (fun g hg => g_put_fieldsApart s v (List.all_eq_true.1 hf g hg)) (Eq.refl _) (by cases d <;> rfl))

theorem setReg {p off : Nat} {x : Word} (h : DieStill d a s)
    (hf : (ddlFields.all fun g => regKey (ddlPage d) g.off != regKey p off) = true) : DieStill d a (s.setReg p off x) :=
  h.trans (of_fields (fun g hg => by
    simp only [State.g]
    rw [reg_setReg_ne _ _ (bne_iff_ne.1 (List.all_eq_true.1 hf g hg))]) (Eq.refl _) (by cases d <;> rfl))

theorem setLink_ne {d' : Die} {l : LinkDie} (h : DieStill d a s) (hd : d ≠ d') : DieStill d a (s.setLink d' l) := by
  refine h.trans (of_fields (fun g _ => ?_) ?_ (link_setLink_ne _ _ hd))
  · cases d' <;> rfl
  · cases d' <;> rfl

theorem ifThen {c : Prop} [Decidable c] (h : DieStill d a s) (ht : DieStill d s t) : DieStill d a (if c then t else s) := by
  split
  · exact h.trans ht
  · exact h

end DieStill

/-! ## Damask off -/

/-- A torn NOR write leaves everything but the bytes of memory and the count of free values. -/
theorem norTear_eq (s : State) : norTear s = { s with mem := (norTear s).mem, freed := (norTear s).freed } := by
  unfold norTear
  split
  · split
    · rw [wbytes_eq]
      rfl
    · rfl
  · rfl

theorem norTear_muslin (s : State) : (norTear s).muslin = s.muslin := by rw [norTear_eq]

theorem norTear_field (s : State) : (norTear s).field = s.field := by rw [norTear_eq]

theorem damaskOff_muslin (s : State) : (damaskOff s).muslin = s.muslin := by
  simp only [damaskOff, keepCause, damaskClear, put_muslin, setReg_muslin, resetPages_muslin, clearMem_muslin, norTear_muslin]

theorem damaskOff_held (s : State) : (damaskOff s).power.held = s.power.held := by
  simp only [damaskOff, keepCause, damaskClear, put_power, setReg_power, resetPages_power, clearMem_power, norTear_power]

theorem damaskOff_replica (s : State) : (damaskOff s).replica = s.replica := by
  simp only [damaskOff, put_replica, keepCause_replica]

theorem damaskOff_fieldTick (s : State) : (damaskOff s).field.tick = s.field.tick := by
  simp only [damaskOff, keepCause, damaskClear, put_field, setReg_field, resetPages_field, clearMem_field, norTear_field]

/-- Muslin's end of the link keeps its registers when Damask loses its power. -/
theorem reg_damaskOff (s : State) {off : Nat} (h : off < 4096) : (damaskOff s).reg pDDLM off = s.reg pDDLM off := by
  have hk : regKey pDDLM off / 1024 = pDDLM := by simp only [regKey, pDDLM]; omega
  have hne {p o : Nat} (hp : p ≠ pDDLM) (ho : o < 4096) : regKey pDDLM off ≠ regKey p o := by
    simp only [regKey, pDDLM] at hp ⊢
    omega
  have hclear (u : State) : (damaskClear u).reg pDDLM off = u.reg pDDLM off := by
    rw [State.reg, damaskClear_regs, tget_tclear, tget_tclear, hk, if_neg (by decide), if_neg (by decide), State.reg]
  rw [damaskOff, reg_put_ne _ _ (hne (by decide) (by decide)), reg_put_ne _ _ (hne (by decide) (by decide)),
    reg_put_ne _ _ (hne (by decide) (by decide)), reg_put_ne _ _ (hne (by decide) (by decide))]
  exact (reg_setReg_ne _ _ (hne (by decide) (by decide))).trans (hclear s)

theorem dieStill_damaskOff (s : State) : DieStill .muslin s (damaskOff s) where
  fields f hf := by
    simp only [State.g]
    rw [ddlPage, reg_damaskOff s ((by decide : ∀ f ∈ ddlFields, f.off < 4096) f hf)]
  held := damaskOff_held s
  up := by simp only [State.linkUp, State.linkState, State.g, ddlPage, reg_damaskOff s (show DDL_STAT_STATE.off < 4096 by decide),
    show (Die.muslin == Die.damask) = false from rfl, Bool.false_and]
  link _ := damaskOff_muslin s

/-! ## The link goes down -/

/-- What Muslin does when its link goes down leaves its end of the link. -/
theorem dieStill_muslinLosesLink (flight waiting : List Packet) (s : State) :
    DieStill .muslin s (muslinLosesLink flight waiting s) := by
  have hstop (u : State) : Still (fun _ => true) u (if u.meter.xtalLost then forAll allChans hartStop u else u) :=
    .ifThen .refl (.forAll _ .refl fun _ _ => .hartStop .refl)
  have hlost (u : State) :
      Still (fun _ => true) u (if u.power.leaving then retainLost u else muslinFault pDDLM 6 true 0 u) :=
    .ite (.retainLost .refl) (.muslinFault .refl)
  unfold muslinLosesLink
  dsimp only
  refine DieStill.ifThen (Still.die (T := fun _ => true) ?_ _) (dieStill_damaskOff _)
  exact ((((Still.refl.put rfl).ohmEngage.update.keepEvents.missDeliveries.vaultLinkDown.hartLinkDown_muslin).trans
    (hstop _)).put rfl).trans (hlost _)

/-- The end of die `d` at the moment at which its link has left UP. -/
def fallen (d : Die) (s : State) : State :=
  let l := s.link d
  let p := ddlPage d
  let s := (s.put p DDL_STAT_STATE stDown).setLink d { linkIdle with nonce := l.nonce }
  ((s.put p DDL_STAT_SESSION 0).setReg p 0x044 0).incr p DDL_DOWNCNT_COUNT

theorem dieStill_leaveUp (d : Die) (s : State) : DieStill d (fallen d s) (leaveUp d s) := by
  cases d
  · exact Still.die (T := fun _ => true) (.raise (.damaskLosesLink .refl) rfl) _
  · exact (dieStill_muslinLosesLink _ _ _).trans (Still.die (T := fun _ => true) (.raise .refl rfl) _)

/-- The end of a link that has gone down, with what firmware has set as it was. -/
structure Fell (d : Die) (s t : State) : Prop where
  state : t.linkState d = stDown
  enabled : t.bit (ddlPage d) DDL_CTRL_EN = s.bit (ddlPage d) DDL_CTRL_EN
  looped : t.bit (ddlPage d) DDL_CTRL_LOOPBACK = s.bit (ddlPage d) DDL_CTRL_LOOPBACK
  held : t.power.held = s.power.held
  unacked : (t.link d).unacked = []
  sessionKey : (t.link d).sessionKey = []

theorem Fell.up {d : Die} {s t : State} (h : Fell d s t) : t.linkUp d = false := by
  rw [State.linkUp, h.state]
  rfl

/-- What leaves the end of die `d` alone leaves a link that has gone down. -/
theorem Fell.die {d : Die} {s t u : State} (h : Fell d s t) (hu : DieStill d t u) : Fell d s u where
  state := hu.linkState.trans h.state
  enabled := (hu.bit (by decide)).trans h.enabled
  looped := (hu.bit (by decide)).trans h.looped
  held := hu.held.trans h.held
  unacked := by rw [hu.link h.up, h.unacked]
  sessionKey := by rw [hu.link h.up, h.sessionKey]

theorem g_setLink (s : State) (d : Die) (l : LinkDie) (p : Nat) (f : Fld) : (s.setLink d l).g p f = s.g p f := by
  cases d <;> rfl

theorem bit_setLink (s : State) (d : Die) (l : LinkDie) (p : Nat) (f : Fld) : (s.setLink d l).bit p f = s.bit p f := by
  cases d <;> rfl

theorem power_setLink (s : State) (d : Die) (l : LinkDie) : (s.setLink d l).power = s.power := by cases d <;> rfl

/-- The state of the link is put to DOWN and its end to nothing held. -/
theorem fell_put {d : Die} (s : State) {l : LinkDie} (hu : l.unacked = []) (hk : l.sessionKey = []) :
    Fell d s ((s.put (ddlPage d) DDL_STAT_STATE stDown).setLink d l) where
  state := (g_setLink ..).trans (g_put_same _ _ _ _ (by decide))
  enabled := (bit_setLink ..).trans (bit_put_fieldsApart (by cases d <;> decide))
  looped := (bit_setLink ..).trans (bit_put_fieldsApart (by cases d <;> decide))
  held := by rw [power_setLink, put_power]
  unacked := by rw [link_setLink_same, hu]
  sessionKey := by rw [link_setLink_same, hk]

theorem fell_setLink {d : Die} {s t : State} {l : LinkDie} (h : Fell d s t) (hu : l.unacked = (t.link d).unacked)
    (hk : l.sessionKey = (t.link d).sessionKey) : Fell d s (t.setLink d l) where
  state := (g_setLink ..).trans h.state
  enabled := (bit_setLink ..).trans h.enabled
  looped := (bit_setLink ..).trans h.looped
  held := by rw [power_setLink, h.held]
  unacked := by rw [link_setLink_same, hu, h.unacked]
  sessionKey := by rw [link_setLink_same, hk, h.sessionKey]

theorem link_put (s : State) (d : Die) (p : Nat) (f : Fld) (v : Nat) : (s.put p f v).link d = s.link d := by cases d <;> rfl

/-- A field of another place of the end's registers may change. -/
theorem Fell.put {d : Die} {s t : State} {f : Fld} {v : Nat} (h : Fell d s t)
    (hf : ([DDL_CTRL_EN, DDL_CTRL_LOOPBACK, DDL_STAT_STATE].all fun g => fieldsApart (ddlPage d) f (ddlPage d) g) = true) :
    Fell d s (t.put (ddlPage d) f v) := by
  simp only [List.all_cons, List.all_nil, Bool.and_true, Bool.and_eq_true] at hf
  obtain ⟨hen, hloop, hstate⟩ := hf
  exact
    { state := (g_put_fieldsApart t v hstate).trans h.state
      enabled := (bit_put_fieldsApart hen).trans h.enabled
      looped := (bit_put_fieldsApart hloop).trans h.looped
      held := h.held
      unacked := by rw [link_put, h.unacked]
      sessionKey := by rw [link_put, h.sessionKey] }

theorem fell_fallen (d : Die) (s : State) :
    Fell d s (fallen d s) ∧ (fallen d s).bit (ddlPage d) DDL_STAT_SESSION = false := by
  have hput : Fell d s (((s.put (ddlPage d) DDL_STAT_STATE stDown).setLink d { linkIdle with nonce := (s.link d).nonce }).put
      (ddlPage d) DDL_STAT_SESSION 0) := (fell_put s rfl rfl).put (by cases d <;> decide)
  have hcredit : DieStill d _ ((((s.put (ddlPage d) DDL_STAT_STATE stDown).setLink d
      { linkIdle with nonce := (s.link d).nonce }).put (ddlPage d) DDL_STAT_SESSION 0).setReg (ddlPage d) 0x044 0) :=
    DieStill.refl.setReg (by cases d <;> decide)
  have hcount : DieStill d _ (fallen d s) := DieStill.put hcredit (by cases d <;> decide)
  exact ⟨hput.die hcount, (hcount.bit (by decide)).trans (bit_put_zero (by decide))⟩

theorem fell_leaveUp (d : Die) (s : State) :
    Fell d s (leaveUp d s) ∧ (leaveUp d s).bit (ddlPage d) DDL_STAT_SESSION = false := by
  obtain ⟨hfell, hsession⟩ := fell_fallen d s
  have hstill := dieStill_leaveUp d s
  exact ⟨hfell.die hstill, (hstill.bit (by decide)).trans hsession⟩

theorem fell_toDown (d : Die) (s : State) : Fell d s (toDown d s) := by
  refine fell_setLink (l := { (if s.linkUp d then leaveUp d s else _).link d with since := _ }) ?_ rfl rfl
  split
  · exact (fell_leaveUp d s).1
  · exact fell_put s rfl rfl

/-- A link that leaves UP has no session. -/
theorem session_toDown {d : Die} {s : State} (h : s.linkUp d = true) :
    (toDown d s).bit (ddlPage d) DDL_STAT_SESSION = false := by
  unfold toDown
  rw [if_pos h]
  exact (bit_setLink ..).trans (fell_leaveUp d s).2

/-- Damask's end going down leaves Muslin's. -/
theorem dieStill_toDown_damask (s : State) : DieStill .muslin s (toDown .damask s) := by
  have hne : Die.muslin ≠ Die.damask := by decide
  have hput (l : LinkDie) : DieStill .muslin s ((s.put pDDL DDL_STAT_STATE stDown).setLink .damask l) :=
    (DieStill.refl.put (by decide)).setLink_ne hne
  unfold toDown
  refine DieStill.setLink_ne ?_ hne
  split
  · have hfallen : DieStill .muslin s (fallen .damask s) :=
      DieStill.put (DieStill.setReg (DieStill.put (hput _) (by decide)) (by decide)) (by decide)
    exact hfallen.trans (Still.die (T := fun _ => true) (.raise (.damaskLosesLink .refl) rfl) _)
  · exact hput _

end Sys2Proof.Machine
end

section
/-! The states of the link (O31). -/

namespace Sys2Proof.Machine

open Reg

/-! ## Time and training -/

theorem linkState_untilNow (s : State) (d d' : Die) (n : Nat) : (untilNow d n s).linkState d' = s.linkState d' := by
  cases d
  · simp only [untilNow, State.untilMtb]; split <;> rfl
  · simp only [untilNow, State.untilReplica]; split <;> rfl

theorem mem_untilNow (s : State) (d : Die) (n : Nat) : (untilNow d n s).mem = s.mem := by
  cases d
  · simp only [untilNow, State.untilMtb]; split <;> rfl
  · simp only [untilNow, State.untilReplica]; split <;> rfl

theorem power_untilNow (s : State) (d : Die) (n : Nat) : (untilNow d n s).power = s.power := by
  cases d
  · simp only [untilNow, State.untilMtb]; split <;> rfl
  · simp only [untilNow, State.untilReplica]; split <;> rfl

theorem linkUp_untilNow (s : State) (d d' : Die) (n : Nat) : (untilNow d n s).linkUp d' = s.linkUp d' := by
  rw [State.linkUp, linkState_untilNow, power_untilNow, State.linkUp]

theorem linkUp_of_linkState {s : State} {d : Die} {n : Nat} (h : s.linkState d = n) (hn : n ≠ stUp) : s.linkUp d = false := by
  rw [State.linkUp, h, beq_eq_false_iff_ne.2 hn, Bool.false_and]

theorem linkState_setLink (s : State) (d d' : Die) (l : LinkDie) : (s.setLink d l).linkState d' = s.linkState d' :=
  g_setLink ..

theorem mem_setLink (s : State) (d : Die) (l : LinkDie) : (s.setLink d l).mem = s.mem := by cases d <;> rfl

theorem linkState_put_other (s : State) (d : Die) (f : Fld) (v : Nat) (hf : f.off < 4096) :
    (s.put (ddlPage d) f v).linkState d.other = s.linkState d.other := by
  refine g_put_ne s v ?_
  cases d <;> simp only [regKey, ddlPage, Die.other, pDDL, pDDLM, DDL_STAT_STATE] <;> omega

/-- A link that is not UP goes down without more. -/
theorem toDown_of_not_up {d : Die} {s : State} (h : s.linkUp d = false) :
    (toDown d s).linkState d.other = s.linkState d.other ∧ (toDown d s).mem = s.mem := by
  unfold toDown
  rw [h, if_neg Bool.false_ne_true]
  exact ⟨by rw [linkState_setLink, linkState_setLink, linkState_put_other _ _ _ _ (by decide)], by
    rw [mem_setLink, mem_setLink, put_mem]⟩

theorem linkState_toTrain (d : Die) (s : State) : (toTrain d s).linkState d = stTrain := by
  unfold toTrain
  rw [linkState_setLink]
  exact (g_put_fieldsApart _ _ (by cases d <;> decide)).trans (g_put_same _ _ _ _ (by decide))

theorem completes_trainTimeout {d : Die} {s : State} (h : s.linkState d = stTrain) :
    Completes (.trainTimeout d) s fun t =>
      t.linkState d = stDown ∧ t.linkState d.other = s.linkState d.other ∧ t.mem = s.mem := by
  have hexec : exec (.trainTimeout d) s = ok s (toDown d (untilNow d ((s.link d).since + 20000) s)) :=
    congrArg (ok s) (if_pos h)
  have hup : (untilNow d ((s.link d).since + 20000) s).linkUp d = false :=
    (linkUp_untilNow ..).trans (linkUp_of_linkState h (by decide))
  obtain ⟨hother, hmem⟩ := toDown_of_not_up hup
  exact completes_ok hexec ⟨(fell_toDown d _).state, hother.trans (linkState_untilNow ..), hmem.trans (mem_untilNow ..)⟩

theorem completes_linkDownTimeout {d : Die} {s : State} (h : s.linkUp d = true) :
    Completes (.linkDownTimeout d) s fun t => t.linkState d = stDown ∧ (t.link d).unacked = [] ∧
      (t.link d).sessionKey = [] ∧ t.bit (ddlPage d) DDL_STAT_SESSION = false := by
  have hexec : exec (.linkDownTimeout d) s = ok s (toDown d (untilNow d ((s.link d).lastValid + 10000) s)) :=
    congrArg (ok s) (if_pos h)
  have hfell := fell_toDown d (untilNow d ((s.link d).lastValid + 10000) s)
  refine completes_ok hexec ⟨hfell.state, ?_, ?_, session_toDown ((linkUp_untilNow ..).trans h)⟩
  · rw [kept_link, hfell.unacked]
  · rw [kept_link, hfell.sessionKey]

theorem completes_downWaitExpiry {d : Die} {s : State} (h : s.linkState d = stDown) (hm : mayTrain d s = true) :
    Completes (.downWaitExpiry d) s fun t =>
      t.linkState d = stTrain ∧ t.linkState d.other = s.linkState d.other ∧ t.mem = s.mem := by
  have hexec : exec (.downWaitExpiry d) s = ok s (toTrain d (untilNow d ((s.link d).since + 100000) s)) :=
    congrArg (ok s) (if_pos (by simp only [h, hm, decide_true, Bool.and_self]))
  refine completes_ok hexec ⟨linkState_toTrain d _, ?_, ?_⟩
  · show (toTrain d _).linkState d.other = _
    rw [toTrain, linkState_setLink, linkState_put_other _ _ _ _ (by decide), linkState_put_other _ _ _ _ (by decide),
      linkState_untilNow]
  · show (toTrain d _).mem = _
    rw [toTrain, mem_setLink, put_mem, put_mem, mem_untilNow]

theorem trainOver_of_early {d : Die} {s : State} (h : s.now d < (s.link d).since + 20000) : trainOver d s = s :=
  if_neg fun hc => absurd hc.2 (Nat.not_le.2 h)

theorem length_drawBytes (n : Nat) (s : State) : (drawBytes n s).1.length = n := by
  rw [drawBytes, List.length_map, List.length_range]

/-- Both dies have locked: the delay and the nonces stand, and pairing begins. -/
def trained (delay : BitVec 12) (s : State) : State :=
  let a := drawBytes 16 s
  let b := drawBytes 16 a.2
  let s := b.2.put pDDLM DDL_M_DELAY_DELAY delay.toNat
  let s := { s with damask := { s.damask with nonce := a.1 }, muslin := { s.muslin with nonce := b.1 } }
  (s.put pDDL DDL_STAT_STATE stPair).put pDDLM DDL_STAT_STATE stPair

theorem linkState_trained (delay : BitVec 12) (s : State) (d : Die) : (trained delay s).linkState d = stPair := by
  unfold trained
  cases d
  · exact (g_put_fieldsApart _ _ (by decide)).trans (g_put_same _ _ _ _ (by decide))
  · exact g_put_same _ _ _ _ (by decide)

theorem nonce_trained (delay : BitVec 12) (s : State) (d : Die) : ((trained delay s).link d).nonce.length = 16 := by
  unfold trained
  rw [link_put, link_put]
  cases d
  · exact length_drawBytes 16 s
  · exact length_drawBytes 16 _

theorem delay_trained (delay : BitVec 12) (s : State) : (trained delay s).g pDDLM DDL_M_DELAY_DELAY = delay.toNat := by
  unfold trained
  rw [g_put_fieldsApart _ _ (by decide), g_put_fieldsApart _ _ (by decide)]
  exact (g_put_same _ _ _ _ (by decide)).trans (Nat.mod_eq_of_lt delay.isLt)

theorem completes_trainingComplete {delay : BitVec 12} {s : State} (hd : s.linkState .damask = stTrain)
    (hm : s.linkState .muslin = stTrain) (hsd : s.mtb < s.damask.since + 20000) (hsm : s.replica < s.muslin.since + 20000) :
    Completes (.trainingComplete delay) s fun t => t.linkState .damask = stPair ∧ t.linkState .muslin = stPair ∧
      t.g pDDLM DDL_M_DELAY_DELAY = delay.toNat ∧ t.damask.nonce.length = 16 ∧ t.muslin.nonce.length = 16 := by
  have hover : trainOver .muslin (trainOver .damask s) = s := by
    rw [trainOver_of_early (d := .damask) hsd, trainOver_of_early (d := .muslin) hsm]
  have hexec : exec (.trainingComplete delay) s = ok s (trained delay s) := by
    show ok s (if (trainOver .muslin (trainOver .damask s)).linkState .damask = stTrain &&
      (trainOver .muslin (trainOver .damask s)).linkState .muslin = stTrain then
        trained delay (trainOver .muslin (trainOver .damask s)) else _) = _
    rw [hover, hd, hm, if_pos (by decide)]
  exact completes_ok hexec ⟨linkState_trained delay s .damask, linkState_trained delay s .muslin, delay_trained delay s,
    nonce_trained delay s .damask, nonce_trained delay s .muslin⟩

/-! ## Pairing and UP -/

theorem Still.muslinLinkUp {T : TaskNo → Bool} {a s : State} (h : Still T a s) : Still T a (muslinLinkUp s) := by
  unfold Machine.muslinLinkUp
  exact .syncLevels (.update (.forAll _ (.ifElse (.syncEvq h.update) (.sendPacket .refl)) fun _ _ => .sendPacket .refl))

/-- The fields that tell that the link of die `d` is UP, with or without its proof. -/
structure Risen (d : Die) (paired : Bool) (t : State) : Prop where
  state : t.linkState d = stUp
  proof : t.bit (ddlPage d) DDL_STAT_PAIRED = paired
  fault : t.bit (ddlPage d) DDL_STAT_PAIRFLT = !paired

theorem Risen.die {d : Die} {paired : Bool} {s t : State} (h : Risen d paired s) (ht : DieStill d s t) :
    Risen d paired t :=
  ⟨ht.linkState.trans h.state, (ht.bit (by decide)).trans h.proof, (ht.bit (by decide)).trans h.fault⟩

theorem bit_putBit_same {s : State} {p : Nat} {f : Fld} {b : Bool} (h : f.lo < 32) (hw : f.wid = 1) :
    (s.putBit p f b).bit p f = b := by
  cases b
  · exact bit_put_zero (by omega)
  · exact bit_put_one h hw

theorem bit_putBit_apart {s : State} {p : Nat} {f : Fld} {b : Bool} {q : Nat} {g : Fld} (h : fieldsApart p f q g = true) :
    (s.putBit p f b).bit q g = s.bit q g := bit_put_fieldsApart h

theorem bit_setReg_ne {s : State} {p off q : Nat} {w : Word} {g : Fld} (h : regKey q g.off ≠ regKey p off) :
    (s.setReg p off w).bit q g = s.bit q g := by
  rw [State.bit, State.g, reg_setReg_ne _ _ h, State.bit, State.g]

theorem risen_enterUp (d : Die) (paired : Bool) (s : State) : Risen d paired (enterUp d paired s) where
  state := g_put_same _ _ _ _ (by decide)
  proof := by
    unfold enterUp
    rw [bit_put_fieldsApart (by cases d <;> decide), bit_setReg_ne (by cases d <;> decide),
      bit_putBit_apart (by cases d <;> decide), bit_putBit_apart (by cases d <;> decide), bit_putBit_same (by decide) rfl]
  fault := by
    unfold enterUp
    rw [bit_put_fieldsApart (by cases d <;> decide), bit_setReg_ne (by cases d <;> decide),
      bit_putBit_apart (by cases d <;> decide), bit_putBit_same (by decide) rfl]

/-- Muslin's end entering UP leaves Damask's. -/
theorem dieStill_enterUp_muslin (paired : Bool) (s : State) : DieStill .damask s (enterUp .muslin paired s) := by
  unfold enterUp
  exact ((((DieStill.refl.setLink_ne (by decide)).put (by decide)).put (by decide)).put (by decide)).setReg (by decide) |>.put
    (by decide)

/-- What follows when both dies are UP: flags, what has waited, and the report of a proof that failed. -/
theorem still_linkRisen (paired : Bool) (s : State) :
    Still (fun _ => true) s (
      let s := raise pDDLM DDL_IRQ_RAW_LINKUP (raise pDDL DDL_IRQ_RAW_LINKUP s)
      let s := if paired then s else
        raiseFault 7 false 0 0 (raise pDDLM DDL_IRQ_RAW_PAIRFLT (raise pDDL DDL_IRQ_RAW_PAIRFLT s))
      hartLinkUp (evsLinkUp (muslinLinkUp { s with rep := { s.rep with at_ := s.replica } }))) := by
  have hraise : Still (fun _ => true) s (raise pDDLM DDL_IRQ_RAW_LINKUP (raise pDDL DDL_IRQ_RAW_LINKUP s)) :=
    .raise (.raise .refl rfl) rfl
  have hfault (u : State) : Still (fun _ => true) u (if paired then u else
      raiseFault 7 false 0 0 (raise pDDLM DDL_IRQ_RAW_PAIRFLT (raise pDDL DDL_IRQ_RAW_PAIRFLT u))) :=
    .ifElse .refl (.raiseFault (.raise (.raise .refl rfl) rfl))
  exact .hartLinkUp (.evsLinkUp (.muslinLinkUp (.update (hraise.trans (hfault _)))))

theorem completes_pairing {s : State} (hd : s.linkState .damask = stPair) (hm : s.linkState .muslin = stPair) :
    Completes .pairing s fun t => t.linkState .damask = stUp ∧ t.linkState .muslin = stUp ∧
      (t.bit pDDL DDL_STAT_PAIRED = true ↔ pairProof s.fused.pairDamask s = pairProof s.fused.pairMuslin s) ∧
      t.bit pDDL DDL_STAT_PAIRFLT = !t.bit pDDL DDL_STAT_PAIRED := by
  have hexec : ∃ paired u, paired = (pairProof s.fused.pairDamask s == pairProof s.fused.pairMuslin s) ∧
      Still (fun _ => true) (enterUp .muslin paired (enterUp .damask paired (loadMtb s))) u ∧ exec .pairing s = ok s u :=
    ⟨_, _, rfl, still_linkRisen _ _, congrArg (ok s) (if_pos (by simp only [hd, hm, decide_true, Bool.and_self]))⟩
  obtain ⟨paired, u, hpaired, hstill, hexec⟩ := hexec
  have hdamask : Risen .damask paired u :=
    ((risen_enterUp .damask paired _).die (dieStill_enterUp_muslin paired _)).die (hstill.die _)
  have hmuslin : Risen .muslin paired u := (risen_enterUp .muslin paired _).die (hstill.die _)
  have hproof : u.bit pDDL DDL_STAT_PAIRED = paired := hdamask.proof
  have hfault : u.bit pDDL DDL_STAT_PAIRFLT = !paired := hdamask.fault
  refine completes_ok hexec ⟨hdamask.state, hmuslin.state, ?_, ?_⟩
  · rw [kept_bit, hproof, hpaired, beq_iff_eq]
  · rw [kept_bit, kept_bit, hproof, hfault]

/-! ## DDL_CTRL (R43) -/

theorem get_bit (w : Word) (off i : Nat) : (Fld.get ⟨off, i, 1⟩ w != 0) = w.getLsbD i := by
  rw [Fld.get, BitVec.extractLsb'_toNat, BitVec.getLsbD, Nat.testBit, Nat.one_and_eq_mod_two, pow_one]

/-- The row of DDL_CTRL: EN and LOOPBACK under the lock, RETRAIN set by a 1. -/
def ddlRow : RegRow := ⟨0x008, 4, 1, 0x0, 0x0, 0x0, 0x2, 0x0, 0x0, 0x5, 0x0, 0x1⟩

theorem rowOf_ddlCtrl (d : Die) : rowOf (ddlPage d) 0x008 = some ddlRow := by cases d <;> decide

/-- The state in which a field of DDL_CTRL has been written, before it acts. -/
def ctrlWritten (r : Requester) (d : Die) (f : Fld) (v : Nat) (s : State) : State :=
  plainWrite (ddlPage d) 0x008 ⟨r, f.ins (s.reg (ddlPage d) 0x008) v, lockOpenFor (ddlPage d) r s⟩ (lockUsed (ddlPage d) r s)

theorem reg_ctrlWritten (r : Requester) (d : Die) (f : Fld) (v : Nat) (s : State) :
    (ctrlWritten r d f v s).reg (ddlPage d) 0x008 =
      ddlRow.written ⟨r, f.ins (s.reg (ddlPage d) 0x008) v, lockOpenFor (ddlPage d) r s⟩ (s.reg (ddlPage d) 0x008) := by
  have hl : (lockUsed (ddlPage d) r s).reg (ddlPage d) 0x008 = s.reg (ddlPage d) 0x008 := by
    unfold lockUsed
    split
    · exact reg_put_ne s 0 (by cases d <;> decide)
    · rfl
  rw [ctrlWritten, plainWrite, rowOf_ddlCtrl]
  exact (reg_setReg_same ..).trans (by rw [hl])

/-- EN and LOOPBACK take what is written while the lock is open for the writer. -/
theorem bit_ctrlWritten_locked (r : Requester) (d : Die) (f : Fld) (v : Nat) (s : State) {g : Fld}
    (hg : g = DDL_CTRL_EN ∨ g = DDL_CTRL_LOOPBACK) :
    (ctrlWritten r d f v s).bit (ddlPage d) g =
      if lockOpenFor (ddlPage d) r s then g.get (f.ins (s.reg (ddlPage d) 0x008) v) != 0 else s.bit (ddlPage d) g := by
  have hw (a : Access) (old : Word) : (g.get (ddlRow.written a old) != 0) =
      if a.unlocked then g.get a.val != 0 else g.get old != 0 := by
    rcases hg with rfl | rfl
    all_goals
      simp only [DDL_CTRL_EN, DDL_CTRL_LOOPBACK, get_bit]
      cases hu : a.unlocked <;> simp [RegRow.written, ddlRow, hu]
  have ho : g.off = 0x008 := by rcases hg with rfl | rfl <;> rfl
  simp only [State.bit, State.g, ho, reg_ctrlWritten, hw]

/-- RETRAIN is set by a 1. -/
theorem bit_ctrlWritten_retrain (r : Requester) (d : Die) (v : Nat) (s : State) (hv : v = 1) :
    (ctrlWritten r d DDL_CTRL_RETRAIN v s).bit (ddlPage d) DDL_CTRL_RETRAIN = true := by
  have hw (a : Access) (old : Word) (ha : (DDL_CTRL_RETRAIN.get a.val != 0) = true) :
      (DDL_CTRL_RETRAIN.get (ddlRow.written a old) != 0) = true := by
    simp only [DDL_CTRL_RETRAIN, get_bit] at ha ⊢
    cases hu : a.unlocked <;> simp [RegRow.written, ddlRow, hu, ha]
  simp only [State.bit, State.g, show DDL_CTRL_RETRAIN.off = 0x008 from rfl, reg_ctrlWritten]
  refine hw _ _ ?_
  rw [Fld.get_ins _ _ _ (by decide), hv]
  rfl

theorem regAbsent_ddl (d : Die) (off : Nat) (s : State) : regAbsent (ddlPage d) off s = false := by
  refine Bool.and_eq_false_iff.2 (.inr ?_)
  cases d <;> rfl

/-- A field of DDL_CTRL that firmware writes is written, and then it acts. -/
theorem fieldCmd_ddlCtrl {r : Requester} {d : Die} {s : State} (h : Firmware r (ddlPage d) s) {f : Fld} (hf : f.off = 0x008)
    (v : Nat) : DieStill d (ddlSettle d (ctrlWritten r d f v s)) (fieldCmd r (ddlPage d) f v s) := by
  rw [fieldCmd, hf, writeCmd_firmware h, regWrite_block _ (.inl rfl) (regAbsent_ddl d _)]
  cases d
  · exact DieStill.refl
  · exact Still.die (T := fun _ => true) (.syncLevels .refl) _

/-! ### What the bits of DDL_CTRL do -/

theorem bit_toTrain (d : Die) (s : State) {g : Fld} (hg : g = DDL_CTRL_EN ∨ g = DDL_CTRL_LOOPBACK) :
    (toTrain d s).bit (ddlPage d) g = s.bit (ddlPage d) g := by
  rw [toTrain, bit_setLink]
  rcases hg with rfl | rfl
  all_goals rw [bit_put_fieldsApart (by cases d <;> decide), bit_put_fieldsApart (by cases d <;> decide)]

theorem Fell.bit {d : Die} {s t : State} (h : Fell d s t) {g : Fld} (hg : g = DDL_CTRL_EN ∨ g = DDL_CTRL_LOOPBACK) :
    t.bit (ddlPage d) g = s.bit (ddlPage d) g := by
  rcases hg with rfl | rfl
  · exact h.enabled
  · exact h.looped

theorem bit_ddlSettle (d : Die) (s : State) {g : Fld} (hg : g = DDL_CTRL_EN ∨ g = DDL_CTRL_LOOPBACK) :
    (ddlSettle d s).bit (ddlPage d) g = s.bit (ddlPage d) g := by
  have hd := (fell_toDown d s).bit hg
  unfold ddlSettle
  dsimp only
  split
  · split
    · rfl
    · exact hd
  · split
    · exact (bit_toTrain d _ hg).trans hd
    · rfl

/-- A link that is not enabled, or that is looped, goes down. -/
theorem linkState_ddlSettle_down {d : Die} {s : State}
    (h : s.bit (ddlPage d) DDL_CTRL_EN = false ∨ s.bit (ddlPage d) DDL_CTRL_LOOPBACK = true) :
    (ddlSettle d s).linkState d = stDown := by
  have hc : (!s.bit (ddlPage d) DDL_CTRL_EN || s.bit (ddlPage d) DDL_CTRL_LOOPBACK) = true := by
    rcases h with h | h <;> rw [h]
    · rfl
    · rw [Bool.or_true]
  unfold ddlSettle
  dsimp only
  rw [hc, if_pos rfl]
  split
  case isTrue hs => exact hs
  case isFalse => exact (fell_toDown d s).state

/-- RETRAIN trains a link that is enabled and not looped. -/
theorem linkState_ddlSettle_train {d : Die} {s : State} (he : s.bit (ddlPage d) DDL_CTRL_EN = true)
    (hl : s.bit (ddlPage d) DDL_CTRL_LOOPBACK = false) (hr : s.bit (ddlPage d) DDL_CTRL_RETRAIN = true) :
    (ddlSettle d s).linkState d = stTrain := by
  unfold ddlSettle
  dsimp only
  rw [he, hl, hr, if_neg (by decide), if_pos rfl]
  exact linkState_toTrain d _

theorem get_ins_apart_ne (w : Word) (v : Nat) {off i j : Nat} (hi : i < 32) (hj : j < 32) (h : i ≠ j) :
    Fld.get ⟨off, j, 1⟩ (Fld.ins ⟨off, i, 1⟩ w v) = Fld.get ⟨off, j, 1⟩ w := by
  refine Fld.get_ins_apart _ _ _ _ ?_ ?_ ?_ <;> dsimp only <;> omega

theorem completes_retrain {r : Requester} {d : Die} {s : State} (h : Firmware r (ddlPage d) s)
    (he : s.bit (ddlPage d) DDL_CTRL_EN = true) (hl : s.bit (ddlPage d) DDL_CTRL_LOOPBACK = false) :
    Completes (.retrain r d) s fun t => t.linkState d = stTrain := by
  have hkeep {g : Fld} (hg : g = DDL_CTRL_EN ∨ g = DDL_CTRL_LOOPBACK) :
      (ctrlWritten r d DDL_CTRL_RETRAIN 1 s).bit (ddlPage d) g = s.bit (ddlPage d) g := by
    rw [bit_ctrlWritten_locked r d _ _ s hg]
    split
    · rcases hg with rfl | rfl
      all_goals exact congrArg (· != 0) (get_ins_apart_ne _ _ (by decide) (by decide) (by decide))
    · rfl
  refine completes_ok (t := fieldCmd r (ddlPage d) DDL_CTRL_RETRAIN 1 s) rfl
    ((fieldCmd_ddlCtrl h rfl 1).linkState.trans ?_)
  exact linkState_ddlSettle_train ((hkeep (.inl rfl)).trans he) ((hkeep (.inr rfl)).trans hl)
    (bit_ctrlWritten_retrain r d 1 s rfl)

/-- EN or LOOPBACK as written under an open lock. -/
theorem bit_fieldCmd_ddlCtrl {r : Requester} {d : Die} {s : State} (h : FirmwareUnlocked r (ddlPage d) s) {f : Fld}
    (hf : f = DDL_CTRL_EN ∨ f = DDL_CTRL_LOOPBACK) (on : Bool) :
    (ctrlWritten r d f on.toNat s).bit (ddlPage d) f = on ∧ (fieldCmd r (ddlPage d) f on.toNat s).bit (ddlPage d) f = on := by
  have hoff : f.off = 0x008 := by rcases hf with rfl | rfl <;> rfl
  have hmem : f ∈ ddlFields := by rcases hf with rfl | rfl <;> decide
  have hget (w : Word) : (f.get (f.ins w on.toNat) != 0) = on := by
    rcases hf with rfl | rfl
    all_goals
      rw [Fld.get_ins _ _ _ (by decide)]
      cases on <;> rfl
  have hw : (ctrlWritten r d f on.toNat s).bit (ddlPage d) f = on := by
    rw [bit_ctrlWritten_locked r d _ _ s hf, h.2, if_pos rfl, hget]
  exact ⟨hw, (((fieldCmd_ddlCtrl h.1 hoff _).bit hmem).trans (bit_ddlSettle d _ hf)).trans hw⟩

theorem completes_linkEn {r : Requester} {d : Die} {s : State} (h : FirmwareUnlocked r (ddlPage d) s) (on : Bool) :
    Completes (.linkEn r d on) s fun t =>
      t.bit (ddlPage d) DDL_CTRL_EN = on ∧ (on = false → t.linkState d = stDown) := by
  obtain ⟨hwritten, hdone⟩ := bit_fieldCmd_ddlCtrl h (.inl rfl) on
  refine completes_ok (t := fieldCmd r (ddlPage d) DDL_CTRL_EN on.toNat s) rfl ⟨hdone, fun hoff => ?_⟩
  exact (fieldCmd_ddlCtrl h.1 rfl _).linkState.trans (linkState_ddlSettle_down (.inl (hwritten.trans hoff)))

theorem completes_loopback {r : Requester} {d : Die} {s : State} (h : FirmwareUnlocked r (ddlPage d) s) (on : Bool) :
    Completes (.loopback r d on) s fun t =>
      t.bit (ddlPage d) DDL_CTRL_LOOPBACK = on ∧ (on = true → t.linkState d = stDown) := by
  obtain ⟨hwritten, hdone⟩ := bit_fieldCmd_ddlCtrl h (.inr rfl) on
  refine completes_ok (t := fieldCmd r (ddlPage d) DDL_CTRL_LOOPBACK on.toNat s) rfl ⟨hdone, fun hon => ?_⟩
  exact (fieldCmd_ddlCtrl h.1 rfl _).linkState.trans (linkState_ddlSettle_down (.inr (hwritten.trans hon)))

/-! ## Link reset (R37, R44) -/

/-- The link logic of both dies held in reset. -/
def linkCleared (s : State) : State :=
  (closeMuslinLocks (clearPool (toDown .muslin (if damaskOn s then toDown .damask s else s)))).pass 100

theorem Still.closeMuslinLocks {T : TaskNo → Bool} {a s : State} (h : Still T a s) : Still T a (closeMuslinLocks s) :=
  .forAllMem _ h fun n hn _ => .put .refl ((by decide : ∀ n ∈ List.range 21, unheld (64 + n) LOCK_OPEN = true) n hn)

theorem link_pass (s : State) (n : Nat) (d : Die) : (s.pass n).link d = s.link d := by cases d <;> rfl

theorem Fell.pass {d : Die} {s t : State} (h : Fell d s t) (n : Nat) : Fell d s (t.pass n) where
  state := h.state
  enabled := h.enabled
  looped := h.looped
  held := h.held
  unacked := by rw [link_pass, h.unacked]
  sessionKey := by rw [link_pass, h.sessionKey]

theorem fell_linkCleared (s : State) : Fell .muslin s (linkCleared s) := by
  have hdamask : DieStill .muslin s (if damaskOn s then toDown .damask s else s) :=
    .ifThen .refl (dieStill_toDown_damask s)
  have hfell := fell_toDown .muslin (if damaskOn s then toDown .damask s else s)
  have hlocks : Still (fun _ => true) _ (Machine.closeMuslinLocks
      (clearPool (toDown .muslin (if damaskOn s then toDown .damask s else s)))) :=
    .closeMuslinLocks (.syncOutstanding (.update .refl))
  have hcleared := hfell.die (hlocks.die _)
  have hall : Fell .muslin s _ :=
    { hcleared with
      enabled := hcleared.enabled.trans (hdamask.bit (by decide))
      looped := hcleared.looped.trans (hdamask.bit (by decide))
      held := hcleared.held.trans hdamask.held }
  exact hall.pass 100

/-- What has happened at the release of the reset: no transaction is left, and every lock of Muslin is closed. -/
structure Cleared (t : State) : Prop where
  txns : t.txns = []
  locks : ∀ n, n < 21 → t.bit (64 + n) LOCK_OPEN = false

theorem Cleared.setLink {t : State} {d : Die} {l : LinkDie} (h : Cleared t) : Cleared (t.setLink d l) where
  txns := by cases d <;> exact h.txns
  locks n hn := (bit_setLink ..).trans (h.locks n hn)

theorem Cleared.put {t : State} {d : Die} {f : Fld} {v : Nat} (h : Cleared t) (ho : f.off < 0x020) :
    Cleared (t.put (ddlPage d) f v) where
  txns := h.txns
  locks n hn := by
    refine Eq.trans (congrArg (· != 0) (g_put_ne t v ?_)) (h.locks n hn)
    simp only [regKey, LOCK_OPEN]
    omega

theorem Cleared.toTrain {t : State} {d : Die} (h : Cleared t) : Cleared (toTrain d t) :=
  setLink (put (put h (by decide)) (by decide))

theorem closed_closeLock {n : Nat} (m : Nat) {s : State} (h : s.bit (64 + n) LOCK_OPEN = false) :
    (closeLock (64 + m) s).bit (64 + n) LOCK_OPEN = false := by
  by_cases hm : n = m
  · rw [hm]
    exact bit_put_zero (by decide)
  · refine (congrArg (· != 0) (g_put_ne s 0 ?_)).trans h
    simp only [regKey]
    omega

theorem Cleared.pass {t : State} (h : Cleared t) (n : Nat) : Cleared (t.pass n) := ⟨h.txns, h.locks⟩

theorem cleared_closeMuslinLocks {s : State} (h : s.txns = []) : Cleared (closeMuslinLocks s) := by
  have hclose (n : Nat) (t : State) (ht : t.txns = []) : (closeLock (64 + n) t).txns = [] := (put_txns ..).trans ht
  unfold closeMuslinLocks
  exact
    { txns := forAll_keeps (fun t => t.txns = []) hclose _ h
      locks := fun n hn => forAll_reaches (fun t => t.bit (64 + n) LOCK_OPEN = false) (fun m _ ht => closed_closeLock m ht)
        (List.mem_range.2 hn) (fun _ => bit_put_zero (by decide)) _ }

theorem cleared_linkCleared (s : State) : Cleared (linkCleared s) := by
  unfold linkCleared
  exact (cleared_closeMuslinLocks rfl).pass 100

theorem dieStill_toTrain_damask (s : State) : DieStill .muslin s (toTrain .damask s) := by
  unfold toTrain
  exact ((DieStill.refl.put (by decide)).put (by decide)).setLink_ne (by decide)

/-- A die trains at the release of the reset when nothing holds it in DOWN. -/
def trainIf (d : Die) (s : State) : State := if mayTrain d s then toTrain d s else s

theorem Cleared.trainIf {d : Die} {s : State} (h : Cleared s) : Cleared (trainIf d s) := by
  unfold Machine.trainIf
  split
  · exact h.toTrain
  · exact h

theorem linkState_trainIf_muslin {s t : State} (h : Fell .muslin s t) (hh : s.power.held = false) :
    (trainIf .muslin t).linkState .muslin =
      if s.bit pDDLM DDL_CTRL_EN && !s.bit pDDLM DDL_CTRL_LOOPBACK then stTrain else stDown := by
  have hmay : mayTrain .muslin t = (s.bit pDDLM DDL_CTRL_EN && !s.bit pDDLM DDL_CTRL_LOOPBACK) := by
    rw [mayTrain, h.held, hh, h.enabled, h.looped]
    rfl
  rw [trainIf, hmay]
  split
  · exact linkState_toTrain .muslin t
  · exact h.state

theorem completes_linkReset {s : State} (hh : s.power.held = false) :
    Completes .linkReset s fun t => t.txns = [] ∧ t.linkUp .muslin = false ∧
      t.linkState .muslin = (if s.bit pDDLM DDL_CTRL_EN && !s.bit pDDLM DDL_CTRL_LOOPBACK then stTrain else stDown) ∧
      ∀ n, n < 21 → t.bit (64 + n) LOCK_OPEN = false := by
  have hexec : exec .linkReset s = ok s (trainIf .muslin (trainIf .damask (linkCleared s))) := by
    show ok s (if s.power.held then s else trainIf .muslin (trainIf .damask (linkCleared s))) = _
    rw [hh, if_neg Bool.false_ne_true]
  have hfell : Fell .muslin s (trainIf .damask (linkCleared s)) :=
    (fell_linkCleared s).die (.ifThen .refl (dieStill_toTrain_damask _))
  have hstate := linkState_trainIf_muslin hfell hh
  obtain ⟨htxns, hlocks⟩ := (cleared_linkCleared s).trainIf (d := .damask) |>.trainIf (d := .muslin)
  refine completes_ok hexec ⟨htxns, ?_, hstate, hlocks⟩
  refine linkUp_of_linkState (s := kept s _) hstate ?_
  split <;> decide

/-- Settles O31: a link that leaves UP falls (`fell_toDown`), and no operation that follows the fall touches the end of that
die (`dieStill_leaveUp`); what DDL_CTRL holds decides what comes then (`ddlSettle`). -/
theorem linkStatesFollowTheirEvents : Obligations.LinkStatesFollowTheirEvents := by
  intro d r on delay s
  exact ⟨completes_trainTimeout, completes_linkDownTimeout, completes_downWaitExpiry, completes_trainingComplete,
    completes_pairing, completes_retrain, fun h => ⟨completes_linkEn h on, completes_loopback h on⟩, completes_linkReset⟩

end Sys2Proof.Machine
end

section
/-! What a report leaves alone (O32, O33): a flag that is raised, a fault, or a change of the request levels may put an event
on Muslin's end of the link, behind what is there, and counts in the registers of the fault collector and the recorder. -/

namespace Sys2Proof.Machine

open Reg

/-- The registers that take part in a report: of FLT and EVR, and Muslin's credits and its count of events. -/
def reportRegs : List (Nat × Nat) :=
  [(pFLT, irqRawOff), (pFLT, 0x044), (pFLT, 0x048), (pFLT, FLT_CNT_MASKED.off), (pEVR, EVR_STAT_QLEVEL.off), (pEVR, irqRawOff),
   (pEVR, EVR_MSEQ_MSEQ.off), (pEVR, EVR_LOST_COUNT.off), (pDDLM, 0x044), (pDDLM, DDL_M_EVQ_LEVEL.off)]

/-- The register with key `k` takes part in a report. -/
def reported (k : Nat) : Bool := reportRegs.any fun x => k == regKey x.1 x.2

/-- The end of a link has sent more; what it has received and gathered stays. -/
structure Grows (l l' : LinkDie) : Prop where
  rxSeq : l'.rxSeq = l.rxSeq
  accepted : l'.accepted = l.accepted
  lastValid : l'.lastValid = l.lastValid
  bulkIn : l'.bulkIn = l.bulkIn
  sealIn : l'.sealIn = l.sealIn
  lanes : l.lanes <+: l'.lanes
  unacked : l.unacked <+: l'.unacked

theorem Grows.refl (l : LinkDie) : Grows l l := ⟨rfl, rfl, rfl, rfl, rfl, List.prefix_rfl, List.prefix_rfl⟩

theorem Grows.trans {l l' l'' : LinkDie} (h : Grows l l') (h' : Grows l' l'') : Grows l l'' where
  rxSeq := h'.rxSeq.trans h.rxSeq
  accepted := h'.accepted.trans h.accepted
  lastValid := h'.lastValid.trans h.lastValid
  bulkIn := h'.bulkIn.trans h.bulkIn
  sealIn := h'.sealIn.trans h.sealIn
  lanes := h.lanes.trans h'.lanes
  unacked := h.unacked.trans h'.unacked

/-- From `a` to `s` only reports have been made. -/
structure Reports (a s : State) : Prop where
  mem : s.mem = a.mem
  mtb : s.mtb = a.mtb
  replica : s.replica = a.replica
  damask : s.damask = a.damask
  muslin : Grows a.muslin s.muslin
  engs : s.engs = a.engs
  txns : s.txns = a.txns
  regs : ∀ k, reported k = false → tget regDefault s.regs k = tget regDefault a.regs k

namespace Reports
variable {a s t : State}

theorem refl : Reports a a := ⟨Eq.refl _, Eq.refl _, Eq.refl _, Eq.refl _, Grows.refl _, Eq.refl _, Eq.refl _, fun _ _ => Eq.refl _⟩

theorem trans (h : Reports a s) (h' : Reports s t) : Reports a t where
  mem := h'.mem.trans h.mem
  mtb := h'.mtb.trans h.mtb
  replica := h'.replica.trans h.replica
  damask := h'.damask.trans h.damask
  muslin := h.muslin.trans h'.muslin
  engs := h'.engs.trans h.engs
  txns := h'.txns.trans h.txns
  regs k hk := (h'.regs k hk).trans (h.regs k hk)

theorem reg (h : Reports a s) {p off : Nat} (hk : reported (regKey p off) = false) : s.reg p off = a.reg p off :=
  h.regs _ hk

theorem g (h : Reports a s) {p : Nat} {f : Fld} (hk : reported (regKey p f.off) = false) : s.g p f = a.g p f := by
  rw [State.g, h.reg hk, State.g]

theorem bit (h : Reports a s) {p : Nat} {f : Fld} (hk : reported (regKey p f.off) = false) : s.bit p f = a.bit p f := by
  rw [State.bit, h.g hk, State.bit]

theorem grows (h : Reports a s) (d : Die) : Grows (a.link d) (s.link d) := by
  cases d
  · show Grows a.damask s.damask
    rw [h.damask]
    exact Grows.refl _
  · exact h.muslin

theorem ite {c : Prop} [Decidable c] (h : Reports a s) (h' : Reports a t) : Reports a (if c then s else t) := by
  split <;> assumption

theorem ifThen {c : Prop} [Decidable c] (h : Reports a s) (ht : Reports s t) : Reports a (if c then t else s) :=
  ite (h.trans ht) h

theorem setReg {p off : Nat} {x : Word} (h : Reports a s) (hk : reported (regKey p off) = true) :
    Reports a (s.setReg p off x) :=
  { h with regs := fun k hk' => (tget_tset_ne _ _ _ fun he => by rw [he, hk] at hk'; cases hk').trans (h.regs k hk') }

theorem put {p : Nat} {f : Fld} {v : Nat} (h : Reports a s) (hk : reported (regKey p f.off) = true) :
    Reports a (s.put p f v) := h.setReg hk

theorem setEv {x : EvState} (h : Reports a s) : Reports a { s with ev := x } := { h with }

/-! ### The link -/

theorem setMuslin {l : LinkDie} (h : Reports a s) (hl : Grows s.muslin l) : Reports a (s.setLink .muslin l) :=
  { h with muslin := h.muslin.trans hl }

theorem reported_creditFld (n : Nat) : reported (regKey pDDLM (creditFld n).off) = true := by
  unfold creditFld
  split <;> rfl

theorem transmit {p : Packet} (h : Reports a s) : Reports a (transmit .muslin p s) := by
  have hl : Reports s (s.setLink .muslin { s.muslin with
      txSeq := s.muslin.txSeq + 1
      unacked := s.muslin.unacked ++ [⟨p.numbered s.muslin.txSeq, s.now .muslin, 0⟩]
      lanes := s.muslin.lanes ++ [p.numbered s.muslin.txSeq] }) :=
    setMuslin refl { Grows.refl s.muslin with lanes := List.prefix_append .., unacked := List.prefix_append .. }
  unfold Machine.transmit
  exact h.trans (ite hl (put hl (reported_creditFld _)))

theorem pumpGo {ps : List Packet} {blocked : List Nat} {held : List Packet} (h : Reports a s) :
    Reports a (pumpGo .muslin ps blocked held s) := by
  induction ps generalizing blocked held s with
  | nil => exact h.setMuslin { Grows.refl s.muslin with }
  | cons p ps ih => exact ite (ih (transmit h)) (ih h)

theorem syncEvq (h : Reports a s) : Reports a (syncEvq s) := h.put rfl

theorem pump (h : Reports a s) : Reports a (pump .muslin s) := ite (syncEvq (pumpGo h)) (pumpGo h)

theorem sendPacket {p : Packet} (h : Reports a s) : Reports a (sendPacket .muslin p s) :=
  ifThen h (pump (setMuslin refl { Grows.refl s.muslin with }))

/-! ### Events and faults -/

theorem recAccept {r : List Byte} (h : Reports a s) : Reports a (recAccept r s) :=
  ite (put { h with } rfl) (put { h with } rfl)

theorem recordLocal {page : Nat} {dom : Dom} {sev : BitVec 3} {code : BitVec 16} {data : List Byte} (h : Reports a s) :
    Reports a (recordLocal page dom sev code data s) := put (recAccept h) rfl

theorem muslinEventOnce {page : Nat} {dom : Dom} {sev : BitVec 3} {code : BitVec 16} {data : List Byte} (h : Reports a s) :
    Reports a (muslinEventOnce page dom sev code data s) :=
  ite (sendPacket h) (ite (put (setEv (recordLocal h)) rfl) (put (setEv (recordLocal h)) rfl))

theorem muslinEvent {page : Nat} {dom : Dom} {sev : BitVec 3} {code : BitVec 16} {data : List Byte} (h : Reports a s) :
    Reports a (muslinEvent page dom sev code data s) :=
  ifThen (muslinEventOnce h) (muslinEventOnce (put refl rfl))

theorem syncLevels (h : Reports a s) : Reports a (syncLevels s) := ifThen h (sendPacket (setEv refl))

theorem damaskEvent {rank : Nat} {source : Byte} {dom : Dom} {sev : BitVec 3} {code : BitVec 16} {data : List Byte}
    (h : Reports a s) : Reports a (damaskEvent rank source dom sev code data s) := { h with }

theorem pageEvent {p : Nat} {dom : Dom} {code : BitVec 16} {data : List Byte} (h : Reports a s) :
    Reports a (pageEvent p dom code data s) := ite (muslinEvent h) (damaskEvent h)

/-- A flag raised is set; what follows its setting is a report. -/
theorem raise_put (p : Nat) (f : Fld) (s : State) : Reports (s.put p f 1) (raise p f s) :=
  ifThen (ifThen refl (pageEvent refl)) (syncLevels refl)

theorem raiseFault {c : Nat} {masked : Bool} {eng : Nat} {addr : Word} (h : Reports a s) :
    Reports a (raiseFault c masked eng addr s) := by
  refine damaskEvent (put (setReg (setReg (setReg h rfl) rfl) rfl) ?_)
  cases masked <;> rfl

theorem muslinFault {p c : Nat} {masked : Bool} {addr : Word} (h : Reports a s) :
    Reports a (muslinFault p c masked addr s) := ite (raiseFault h) (muslinEvent h)

end Reports

end Sys2Proof.Machine
end

section
/-! Acknowledgement, replay, credits and heartbeats (O32). -/

namespace Sys2Proof.Machine

open Reg

/-! ## A link-control packet arrives -/

/-- The state in which a valid packet has reached die `d`. -/
def arrived (d : Die) (s : State) : State := (takeLane d s).setLink d { s.link d with lastValid := s.now d }

theorem link_takeLane (d : Die) (s : State) : (takeLane d s).link d = s.link d :=
  link_setLink_ne _ _ (by cases d <;> decide)

/-- Only the two ends of the link differ. -/
def OnlyLink (a s : State) : Prop := s = { a with damask := s.damask, muslin := s.muslin }

theorem OnlyLink.setLink {a s : State} (h : OnlyLink a s) (d : Die) (l : LinkDie) : OnlyLink a (s.setLink d l) :=
  LinkOnly.setLink_rest h

theorem OnlyLink.now {a s : State} (h : OnlyLink a s) (d : Die) : s.now d = a.now d := by
  rw [h]
  cases d <;> rfl

theorem OnlyLink.linkUp {a s : State} (h : OnlyLink a s) (d : Die) : s.linkUp d = a.linkUp d := by
  rw [h]
  rfl

theorem onlyLink_takeLane (d : Die) (s : State) : OnlyLink s (takeLane d s) :=
  OnlyLink.setLink (a := s) (s := s) (Eq.refl s) _ _

theorem onlyLink_arrived (d : Die) (s : State) : OnlyLink s (arrived d s) := (onlyLink_takeLane d s).setLink _ _

theorem link_arrived (d : Die) (s : State) : (arrived d s).link d = { s.link d with lastValid := s.now d } :=
  link_setLink_same ..

/-- A valid link-control packet acts on the state in which it has arrived. -/
theorem receive_control {d : Die} {p : Packet} {n : Nat} {s : State} (h : Arrives d p n s) (hn : 8 ≤ n)
    (act : State → State) : receive d p (isType n) act s = act (arrived d s) := by
  obtain ⟨hcrc, hform, htype, hup, hlive⟩ := h
  have ht := onlyLink_takeLane d s
  have hfits : isType n p = true := by rw [isType, htype, beq_self_eq_true]
  have hseq : p.sequenced = false := by
    rw [Packet.sequenced, htype]
    exact decide_eq_false (by omega)
  unfold receive
  rw [hcrc, hfits, if_neg (by decide)]
  dsimp only
  rw [ht.linkUp, hup, if_neg (by decide), link_takeLane, ht.now, if_neg (by omega), if_neg (by decide), hform,
    if_neg (by decide), hseq, if_neg Bool.false_ne_true]
  rfl

/-! ## Acknowledgement (R24) -/

/-- What stands before the first element with a property, and what from it on. -/
theorem dropWhile_until {α : Type} {q : α → Bool} {pre post : List α} {x : α} (hpre : ∀ y ∈ pre, q y = true) (hx : q x = false) :
    (pre ++ x :: post).dropWhile q = x :: post := by
  rw [List.dropWhile_append_of_pos hpre, List.dropWhile_cons_of_neg (by simp only [hx, Bool.false_eq_true, not_false_eq_true])]

theorem takeWhile_until {α : Type} {q : α → Bool} {pre post : List α} {x : α} (hpre : ∀ y ∈ pre, q y = true) (hx : q x = false) :
    (pre ++ x :: post).takeWhile q = pre := by
  rw [List.takeWhile_append_of_pos hpre, List.takeWhile_cons_of_neg (by simp only [hx, Bool.false_eq_true, not_false_eq_true]),
    List.append_nil]

section
variable {pre post : List Sent} {x : Sent} {n : BitVec 7}

theorem acknowledged_until (hx : x.pkt.seq = n) (hpre : ∀ y ∈ pre, y.pkt.seq ≠ n) :
    acknowledged n (pre ++ x :: post) = post := by
  have hany : (pre ++ x :: post).any (fun y => y.pkt.seq == n) = true :=
    List.any_eq_true.2 ⟨x, List.mem_append_right _ List.mem_cons_self, by rw [hx, beq_self_eq_true]⟩
  rw [acknowledged, if_pos hany, dropWhile_until (fun y hy => bne_iff_ne.2 (hpre y hy)) (by rw [hx, bne_self_eq_false])]
  rfl

end

/-- A link with nothing that waits sends nothing more. -/
theorem pump_idle {d : Die} {s : State} (h : (s.link d).waiting = []) :
    pump d s = s.setLink d { s.link d with waiting := [] } := by
  rw [pump, h, if_neg (by simp only [ne_eq, not_true_eq_false, and_false, not_false_eq_true])]
  rfl

theorem OnlyLink.regs {a s : State} (h : OnlyLink a s) : s.regs = a.regs := by rw [h]
theorem OnlyLink.mem {a s : State} (h : OnlyLink a s) : s.mem = a.mem := by rw [h]

theorem completes_ack {d : Die} {p : Packet} {s : State} {pre post : List Sent} {x : Sent}
    (hl : (s.link d).unacked = pre ++ x :: post) (hx : x.pkt.seq = p.seq) (hpre : ∀ y ∈ pre, y.pkt.seq ≠ p.seq)
    (h : Arrives d p tAck s) (hw : (s.link d).waiting = []) :
    Completes (.ack d p) s fun t => (t.link d).unacked = post ∧ t.regs = s.regs ∧ t.mem = s.mem := by
  have hexec : exec (.ack d p) s = ok s (((arrived d s).setLink d { s.link d with
      lastValid := s.now d, unacked := post }).setLink d { s.link d with lastValid := s.now d, unacked := post, waiting := [] }) := by
    show ok s (receive d p (isType tAck) _ s) = _
    rw [receive_control h (by decide), link_arrived, hl, acknowledged_until hx hpre,
      pump_idle (by rw [link_setLink_same]; exact hw), link_setLink_same]
  have honly := ((onlyLink_arrived d s).setLink d { s.link d with lastValid := s.now d, unacked := post }).setLink d
    { s.link d with lastValid := s.now d, unacked := post, waiting := [] }
  exact completes_ok hexec ⟨by rw [kept_link, link_setLink_same], honly.regs, honly.mem⟩

/-! ## Replay (R25, R26) -/

/-- The packets `again` have been sent once more, behind what was on the lanes, and are counted. -/
structure Replayed (d : Die) (keep again : List Sent) (s t : State) : Prop where
  lanes : (s.link d).lanes ++ again.map (·.pkt) <+: (t.link d).lanes
  unacked : (keep ++ again).map (·.pkt) <+: (t.link d).unacked.map (·.pkt)
  count : t.g (ddlPage d) DDL_ERRCNT_REPLAYCNT = min (s.g (ddlPage d) DDL_ERRCNT_REPLAYCNT + again.length) 65535
  mem : t.mem = s.mem

theorem g_bump_same (s : State) (p : Nat) (f : Fld) (n : Nat) (h : f.lo + f.wid ≤ 32) :
    (s.bump p f n).g p f = min (s.g p f + n) (2 ^ f.wid - 1) := by
  have hpos : 0 < 2 ^ f.wid := Nat.two_pow_pos _
  exact (g_put_same _ _ _ _ h).trans (Nat.mod_eq_of_lt (by omega))

theorem replayed_replayFrom {d : Die} {keep again : List Sent} {s : State} (hne : again ≠ [])
    (hlt : ∀ y ∈ again, y.replays < 16) : Replayed d keep again s (replayFrom d keep again s) := by
  have hmany : (again.any fun x => decide (16 ≤ x.replays)) = false :=
    List.any_eq_false.2 fun y hy => by simpa using hlt y hy
  unfold replayFrom
  rw [if_neg hne, hmany, if_neg Bool.false_ne_true]
  dsimp only
  generalize hu : s.setLink d { s.link d with
      unacked := keep ++ again.map fun x => { x with since := s.now d, replays := x.replays + 1 }
      lanes := (s.link d).lanes ++ again.map fun x => x.pkt } = u
  have hlink : u.link d = { s.link d with
      unacked := keep ++ again.map fun x => { x with since := s.now d, replays := x.replays + 1 }
      lanes := (s.link d).lanes ++ again.map fun x => x.pkt } := by rw [← hu, link_setLink_same]
  have hcount (p : Nat) (f : Fld) : u.g p f = s.g p f := by rw [← hu, g_setLink]
  have hmem : u.mem = s.mem := by rw [← hu, mem_setLink]
  have hrep := Reports.raise_put (ddlPage d) DDL_IRQ_RAW_REPLAY (u.bump (ddlPage d) DDL_ERRCNT_REPLAYCNT again.length)
  have hgrows := hrep.grows d
  rw [link_put, State.bump, link_put, hlink] at hgrows
  exact
    { lanes := hgrows.lanes
      unacked := by
        refine List.IsPrefix.trans ?_ (hgrows.unacked.map (·.pkt))
        simp only [List.map_append, List.map_map]
        exact List.prefix_rfl
      count := by
        rw [hrep.g (by cases d <;> rfl), g_put_fieldsApart _ _ (by cases d <;> decide), g_bump_same _ _ _ _ (by decide), hcount]
        rfl
      mem := hrep.mem.trans hmem }

theorem completes_nak {d : Die} {p : Packet} {s : State} {pre post : List Sent} {x : Sent}
    (hl : (s.link d).unacked = pre ++ x :: post) (hx : x.pkt.seq = p.seq) (hpre : ∀ y ∈ pre, y.pkt.seq ≠ p.seq)
    (h : Arrives d p tNak s) (hlt : ∀ y ∈ x :: post, y.replays < 16) :
    Completes (.nak d p) s (Replayed d pre (x :: post) s) := by
  have hexec : exec (.nak d p) s = ok s (replayFrom d pre (x :: post) (arrived d s)) := by
    have hsame : ∀ y ∈ pre, (y.pkt.seq != p.seq) = true := fun y hy => bne_iff_ne.2 (hpre y hy)
    have hstop : (x.pkt.seq != p.seq) = false := by rw [hx, bne_self_eq_false]
    show ok s (receive d p (isType tNak) _ s) = _
    rw [receive_control h (by decide)]
    dsimp only
    rw [link_arrived, hl, dropWhile_until hsame hstop, takeWhile_until hsame hstop]
  have hrep := replayed_replayFrom (d := d) (keep := pre) (s := arrived d s) (List.cons_ne_nil x post) hlt
  have honly := onlyLink_arrived d s
  refine completes_ok hexec ⟨?_, ?_, ?_, hrep.mem.trans honly.mem⟩
  · rw [kept_link]
    have := hrep.lanes
    rwa [link_arrived] at this
  · rw [kept_link]
    exact hrep.unacked
  · rw [kept_g, hrep.count, State.g, reg_of_regs honly.regs, State.g]

theorem link_untilNow (s : State) (d d' : Die) (n : Nat) : (untilNow d n s).link d' = s.link d' := by
  cases d
  · simp only [untilNow, State.untilMtb]; split
    · exact link_pass ..
    · rfl
  · simp only [untilNow, State.untilReplica]; split
    · exact link_pass ..
    · rfl

theorem regs_untilNow (s : State) (d : Die) (n : Nat) : (untilNow d n s).regs = s.regs := by
  cases d
  · simp only [untilNow, State.untilMtb]; split <;> rfl
  · simp only [untilNow, State.untilReplica]; split <;> rfl

/-- The replay timer resends everything that is held. -/
theorem exec_replayTimeout {d : Die} {s : State} (hup : s.linkUp d = true) (hne : (s.link d).unacked ≠ []) :
    ∃ n, exec (.replayTimeout d) s = ok s (replayFrom d [] (s.link d).unacked (untilNow d n s)) := by
  show ∃ n, execReplayTimeout d s = _
  unfold execReplayTimeout
  cases hl : (s.link d).unacked with
  | nil => exact absurd hl hne
  | cons x l => exact ⟨x.since + 400, congrArg (ok s) (if_pos hup)⟩

theorem completes_replayTimeout {d : Die} {s : State} (hup : s.linkUp d = true) (hne : (s.link d).unacked ≠ [])
    (hlt : ∀ y ∈ (s.link d).unacked, y.replays < 16) :
    Completes (.replayTimeout d) s (Replayed d [] (s.link d).unacked s) := by
  obtain ⟨n, hexec⟩ := exec_replayTimeout hup hne
  have hrep := replayed_replayFrom (d := d) (keep := []) (s := untilNow d n s) hne hlt
  refine completes_ok hexec ⟨?_, ?_, ?_, hrep.mem.trans (mem_untilNow ..)⟩
  · rw [kept_link]
    have := hrep.lanes
    rwa [link_untilNow] at this
  · rw [kept_link]
    exact hrep.unacked
  · rw [kept_g, hrep.count, State.g, reg_of_regs (regs_untilNow ..), State.g]

/-- The replay that would be the 17th takes the link down. -/
theorem completes_replayTimeout_last {d : Die} {s : State} (hup : s.linkUp d = true)
    (hmany : ∃ y ∈ (s.link d).unacked, 16 ≤ y.replays) :
    Completes (.replayTimeout d) s fun t => t.linkState d = stDown := by
  obtain ⟨y, hy, hreplays⟩ := hmany
  have hne : (s.link d).unacked ≠ [] := List.ne_nil_of_mem hy
  obtain ⟨n, hexec⟩ := exec_replayTimeout hup hne
  have hany : ((s.link d).unacked.any fun x => decide (16 ≤ x.replays)) = true :=
    List.any_eq_true.2 ⟨y, hy, decide_eq_true hreplays⟩
  have hdown : replayFrom d [] (s.link d).unacked (untilNow d n s) = toDown d (untilNow d n s) := by
    rw [replayFrom, if_neg hne, if_pos hany]
  exact completes_ok (hexec.trans (congrArg (ok s) hdown)) (fell_toDown d _).state

/-! ## Credits (R27) -/

theorem g_bump_apart (s : State) {p : Nat} {f : Fld} (n : Nat) {q : Nat} {g : Fld} (h : fieldsApart p f q g = true) :
    (s.bump p f n).g q g = s.g q g := g_put_fieldsApart s _ h

theorem creditFld_apart (d : Die) : ∀ i < 4, ∀ j < 4, i ≠ j →
    fieldsApart (ddlPage d) (creditFld i) (ddlPage d) (creditFld j) = true := by cases d <;> decide

theorem wid_creditFld (i : Nat) : (creditFld i).wid = 8 ∧ (creditFld i).lo + (creditFld i).wid ≤ 32 := by
  unfold creditFld
  split <;> decide

/-- Each class of a list takes its credits once. -/
theorem g_forAll_credits (d : Die) (n : Nat → Nat) {i : Nat} (hi : i < 4) (l : List Nat) (hl : l.Nodup)
    (hlt : ∀ j ∈ l, j < 4) (s : State) :
    (forAll l (fun j s => s.bump (ddlPage d) (creditFld j) (n j)) s).g (ddlPage d) (creditFld i) =
      if i ∈ l then min (s.g (ddlPage d) (creditFld i) + n i) 255 else s.g (ddlPage d) (creditFld i) := by
  induction l generalizing s with
  | nil => rfl
  | cons j l ih =>
    obtain ⟨hj, hnd⟩ := List.nodup_cons.1 hl
    refine (ih hnd (fun k hk => hlt k (List.mem_cons_of_mem j hk)) _).trans ?_
    by_cases hij : i = j
    · subst hij
      obtain ⟨hwid, hfit⟩ := wid_creditFld i
      rw [if_neg hj, if_pos List.mem_cons_self, g_bump_same _ _ _ _ hfit, hwid]
      rfl
    · have hmem : i ∈ j :: l ↔ i ∈ l := by simp only [List.mem_cons, hij, false_or]
      rw [g_bump_apart _ _ (creditFld_apart d j (hlt j List.mem_cons_self) i hi (Ne.symm hij)), if_congr hmem rfl rfl]

theorem link_addCredits (d d' : Die) (w : Word) (s : State) : (addCredits d w s).link d' = s.link d' :=
  forAll_keeps (fun t => t.link d' = s.link d') (fun _ t ht => (link_put t d' _ _ _).trans ht) _ rfl

theorem mem_addCredits (d : Die) (w : Word) (s : State) : (addCredits d w s).mem = s.mem :=
  forAll_keeps (fun t => t.mem = s.mem) (fun _ t ht => (put_mem t _ _ _).trans ht) _ rfl

theorem completes_credit {d : Die} {p : Packet} {s : State} (h : Arrives d p tCredit s) (hw : (s.link d).waiting = []) :
    Completes (.credit d p) s fun t => t.mem = s.mem ∧ ∀ i, i < 4 → t.g (ddlPage d) (creditFld i) =
      min (s.g (ddlPage d) (creditFld i) + ((p.word 0).extractLsb' (8 * i) 8).toNat) 255 := by
  have hidle : ((addCredits d (p.word 0) (arrived d s)).link d).waiting = [] := by rw [link_addCredits, link_arrived, hw]
  have hexec : exec (.credit d p) s = ok s (pump d (addCredits d (p.word 0) (arrived d s))) :=
    congrArg (ok s) (receive_control h (by decide) _)
  rw [pump_idle hidle] at hexec
  have honly := onlyLink_arrived d s
  refine completes_ok hexec ⟨?_, fun i hi => ?_⟩
  · rw [kept_mem, mem_setLink, mem_addCredits, honly.mem]
  · rw [kept_g, g_setLink]
    refine (g_forAll_credits d _ hi _ List.nodup_range (fun j hj => List.mem_range.1 hj) _).trans ?_
    rw [if_pos (List.mem_range.2 hi), State.g, reg_of_regs honly.regs, State.g]

/-! ## Heartbeats (R35, R38) -/

theorem completes_heartbeat_damask {p : Packet} {s : State} (h : Arrives .damask p tHeartbeat s) :
    Completes (.heartbeat .damask p) s fun t =>
      t.damask.lastValid = s.mtb ∧ t.regs = s.regs ∧ t.mtb = s.mtb ∧ t.mem = s.mem := by
  have hexec : exec (.heartbeat .damask p) s = ok s (arrived .damask s) :=
    congrArg (ok s) (receive_control h (by decide) _)
  have honly := onlyLink_arrived .damask s
  exact completes_ok hexec ⟨congrArg LinkDie.lastValid (link_arrived .damask s), honly.regs, honly.now .damask, honly.mem⟩

/-- The error of the replica against a heartbeat's stamp. -/
def replicaError (stamp : Nat) (s : State) : Int := Int.ofNat (stamp + s.g pDDLM DDL_M_DELAY_DELAY) - Int.ofNat s.replica

theorem movedBy_error (n m : Nat) : movedBy n (Int.ofNat m - Int.ofNat n) = m % 2 ^ 64 := by
  unfold movedBy
  simp only [Int.ofNat_eq_natCast]
  omega

/-- The error and MTBSYNC as a heartbeat shows them. -/
def errorShown (stamp : Nat) (s : State) : State :=
  let e := replicaError stamp s
  let s := s.setReg pDDLM 0x058 (BitVec.ofInt 32 e)
  let n := if e.natAbs ≤ 2 then min 8 (s.rep.synced + 1) else 0
  let s := { s with rep := { s.rep with synced := n } }
  s.putBit pDDLM DDL_STAT_MTBSYNC (n == 8)

theorem mtbsync_errorShown (stamp : Nat) (s : State) : (errorShown stamp s).bit pDDLM DDL_STAT_MTBSYNC =
    ((if (replicaError stamp s).natAbs ≤ 2 then min 8 (s.rep.synced + 1) else 0) == 8) := bit_putBit_same (by decide) rfl

/-- The replica moved at once by the error. -/
def stepped (e : Int) (s : State) : State :=
  let s := moveReplica e s
  { s with rep := { s.rep with at_ := s.replica, acc := 0 } }

theorem followMtb_eq (stamp : Nat) (s : State) : followMtb stamp s =
    if 100 < (replicaError stamp s).natAbs then
      raise pDDLM DDL_IRQ_RAW_MTBSTEP (stepped (replicaError stamp s) (errorShown stamp s))
    else slewReplica (replicaError stamp s) (errorShown stamp s) := rfl

/-- The replica steps by an error above 1 µs. -/
theorem followMtb_step {stamp : Nat} {s : State} (h : 100 < (replicaError stamp s).natAbs) :
    (followMtb stamp s).replica = (stamp + s.g pDDLM DDL_M_DELAY_DELAY) % 2 ^ 64 ∧ (followMtb stamp s).mtb = s.mtb ∧
      (followMtb stamp s).bit pDDLM DDL_IRQ_RAW_MTBSTEP = true ∧
      (followMtb stamp s).bit pDDLM DDL_STAT_MTBSYNC = false := by
  have hrep := Reports.raise_put pDDLM DDL_IRQ_RAW_MTBSTEP (stepped (replicaError stamp s) (errorShown stamp s))
  have hsync : (stepped (replicaError stamp s) (errorShown stamp s)).bit pDDLM DDL_STAT_MTBSYNC = false :=
    (mtbsync_errorShown stamp s).trans (by rw [if_neg (by omega)]; rfl)
  rw [followMtb_eq, if_pos h]
  exact ⟨hrep.replica.trans (movedBy_error _ _), hrep.mtb,
    (hrep.bit (by decide)).trans (bit_put_one (by decide) rfl),
    (hrep.bit (by decide)).trans ((bit_put_fieldsApart (by decide)).trans hsync)⟩

theorem movedBy_zero {n : Nat} (h : n < 2 ^ 64) : movedBy n 0 = n := by
  unfold movedBy
  simp only [Int.ofNat_eq_natCast]
  omega

/-- Without an error no part of it is taken. -/
theorem replica_slewReplica_zero {s : State} (h : s.replica < 2 ^ 64) : (slewReplica 0 s).replica = s.replica := by
  have hn : (Config.freeWord s.freed).toNat % (min ((s.rep.acc + (s.replica - s.rep.at_)) / 2000) 0 + 1) = 0 := by
    rw [Nat.min_zero, Nat.zero_add, Nat.mod_one]
  have hr : (slewReplica 0 s).replica = movedBy s.replica (Int.ofNat
      ((Config.freeWord s.freed).toNat % (min ((s.rep.acc + (s.replica - s.rep.at_)) / 2000) 0 + 1))) := rfl
  rw [hr, hn]
  exact movedBy_zero h

theorem slewReplica_regs (e : Int) (s : State) : (slewReplica e s).regs = s.regs := rfl

/-- A heartbeat that finds no error leaves the replica, and counts. -/
theorem followMtb_same {stamp : Nat} {s : State} (h : stamp + s.g pDDLM DDL_M_DELAY_DELAY = s.replica)
    (hlt : s.replica < 2 ^ 64) : (followMtb stamp s).replica = s.replica ∧
      (followMtb stamp s).bit pDDLM DDL_STAT_MTBSYNC = (min 8 (s.rep.synced + 1) == 8) := by
  have he : replicaError stamp s = 0 := by rw [replicaError, h, sub_self]
  have hsync := mtbsync_errorShown stamp s
  rw [he, if_pos (by decide)] at hsync
  rw [followMtb_eq, he, if_neg (by decide)]
  refine ⟨replica_slewReplica_zero hlt, ?_⟩
  rw [State.bit, State.g, reg_of_regs (slewReplica_regs ..)]
  exact hsync

/-- A heartbeat with Damask's count has reached Muslin. -/
theorem exec_heartbeat_muslin {p : Packet} {s : State} (h : Arrives .muslin p tHeartbeat s) (hl : p.len = 2) :
    exec (.heartbeat .muslin p) s = ok s (followMtb ((p.word 0).toNat + 2 ^ 32 * (p.word 1).toNat) (arrived .muslin s)) :=
  congrArg (ok s) ((receive_control h (by decide) _).trans (if_pos hl))

theorem completes_heartbeat_step {p : Packet} {s : State} (h : Arrives .muslin p tHeartbeat s) (hl : p.len = 2) {at_ : Nat}
    (ha : at_ = (p.word 0).toNat + 2 ^ 32 * (p.word 1).toNat + s.g pDDLM DDL_M_DELAY_DELAY)
    (hfar : s.replica + 100 < at_ ∨ at_ + 100 < s.replica) :
    Completes (.heartbeat .muslin p) s fun t => t.replica = at_ % 2 ^ 64 ∧ t.mtb = s.mtb ∧
      t.bit pDDLM DDL_IRQ_RAW_MTBSTEP = true ∧ t.bit pDDLM DDL_STAT_MTBSYNC = false := by
  have honly := onlyLink_arrived .muslin s
  have hdelay : (arrived .muslin s).g pDDLM DDL_M_DELAY_DELAY = s.g pDDLM DDL_M_DELAY_DELAY := by
    rw [State.g, reg_of_regs honly.regs, State.g]
  have hreplica : (arrived .muslin s).replica = s.replica := honly.now .muslin
  have herror : 100 < (replicaError ((p.word 0).toNat + 2 ^ 32 * (p.word 1).toNat) (arrived .muslin s)).natAbs := by
    rw [replicaError, hdelay, hreplica, ← ha]
    simp only [Int.ofNat_eq_natCast]
    omega
  obtain ⟨hr, hm, hflag, hsync⟩ := followMtb_step herror
  rw [hdelay, ← ha] at hr
  exact completes_ok (exec_heartbeat_muslin h hl) ⟨hr, hm.trans (honly.now .damask), hflag, hsync⟩

theorem completes_heartbeat_same {p : Packet} {s : State} (h : Arrives .muslin p tHeartbeat s) (hl : p.len = 2)
    (ha : (p.word 0).toNat + 2 ^ 32 * (p.word 1).toNat + s.g pDDLM DDL_M_DELAY_DELAY = s.replica) (hlt : s.replica < 2 ^ 64) :
    Completes (.heartbeat .muslin p) s fun t => t.replica = s.replica ∧
      (t.bit pDDLM DDL_STAT_MTBSYNC = true ↔ 7 ≤ s.rep.synced) := by
  have honly := onlyLink_arrived .muslin s
  have hreplica : (arrived .muslin s).replica = s.replica := honly.now .muslin
  have hstamp : (p.word 0).toNat + 2 ^ 32 * (p.word 1).toNat + (arrived .muslin s).g pDDLM DDL_M_DELAY_DELAY =
      (arrived .muslin s).replica := by rw [State.g, reg_of_regs honly.regs, hreplica, ← ha, State.g]
  obtain ⟨hr, hsync⟩ := followMtb_same hstamp (by rw [hreplica]; exact hlt)
  have hsynced : (arrived .muslin s).rep.synced = s.rep.synced := by rw [honly]
  refine completes_ok (exec_heartbeat_muslin h hl) ⟨hr.trans hreplica, ?_⟩
  rw [kept_bit, hsync, hsynced, beq_iff_eq]
  omega

theorem now_setLink (s : State) (d : Die) (l : LinkDie) (d' : Die) : (s.setLink d l).now d' = s.now d' := by
  cases d <;> cases d' <;> rfl

theorem link_sendCtrl (d : Die) (n : Nat) (q : BitVec 7) (ws : List Word) (s : State) :
    (sendCtrl d n q ws s).link d = { s.link d with lanes := (s.link d).lanes ++ [mkPacket n false 0 0 q ws] } :=
  link_setLink_same ..

theorem now_sendCtrl (d : Die) (n : Nat) (q : BitVec 7) (ws : List Word) (s : State) (d' : Die) :
    (sendCtrl d n q ws s).now d' = s.now d' := now_setLink ..

/-- The words of a heartbeat: Damask's carries its count. -/
def heartbeatWords (d : Die) (s : State) : List Word :=
  match d with
  | .damask => [word s.mtb, word (s.mtb / 2 ^ 32)]
  | .muslin => []

theorem exec_heartbeatSend {d : Die} {s : State} (h : s.linkUp d = true) :
    ∃ u, u.link d = s.link d ∧ exec (.heartbeatSend d) s = ok s (sendCtrl d tHeartbeat 0 (heartbeatWords d u)
      (u.setLink d { u.link d with hbAt := u.now d })) := by
  refine ⟨untilNow d ((s.link d).hbAt + 1000) s, link_untilNow .., ?_⟩
  show execHeartbeatSend d s = _
  cases d <;> exact congrArg (ok s) (if_pos h)

theorem completes_heartbeatSend {d : Die} {s : State} (h : s.linkUp d = true) :
    Completes (.heartbeatSend d) s fun t => (t.link d).hbAt = t.now d ∧ (t.link d).lanes = (s.link d).lanes ++
      [mkPacket tHeartbeat false 0 0 0 (heartbeatWords d t)] := by
  obtain ⟨u, hu, hexec⟩ := exec_heartbeatSend h
  refine completes_ok hexec ?_
  generalize ht : sendCtrl d tHeartbeat 0 (heartbeatWords d u) (u.setLink d { u.link d with hbAt := u.now d }) = t
  have hnow (d' : Die) : t.now d' = u.now d' := by rw [← ht, now_sendCtrl, now_setLink]
  have hwords : heartbeatWords d t = heartbeatWords d u := by
    cases d
    · have hm : t.mtb = u.mtb := hnow .damask
      simp only [heartbeatWords, hm]
    · rfl
  have hlink : t.link d = { s.link d with
      hbAt := u.now d, lanes := (s.link d).lanes ++ [mkPacket tHeartbeat false 0 0 0 (heartbeatWords d t)] } := by
    rw [hwords, ← ht, link_sendCtrl, link_setLink_same, hu]
  have hk : (kept s t).now d = t.now d := by cases d <;> rfl
  have hkw : heartbeatWords d (kept s t) = heartbeatWords d t := by cases d <;> rfl
  rw [kept_link, hlink, hk, hkw, hnow]
  exact ⟨rfl, rfl⟩

theorem completes_ackTimeout {d : Die} {s : State} (h : s.linkUp d = true) (ha : (s.link d).accepted ≠ 0) :
    Completes (.ackTimeout d) s fun t => (t.link d).accepted = 0 ∧
      (t.link d).lanes = (s.link d).lanes ++ [mkPacket tAck false 0 0 ((s.link d).rxSeq - 1) []] := by
  have hexec : exec (.ackTimeout d) s = ok s (sendAck d (untilNow d ((s.link d).acceptedAt + 100) s)) :=
    congrArg (ok s) (if_pos (by rw [h, Bool.true_and, bne_iff_ne]; exact ha))
  refine completes_ok hexec ?_
  rw [kept_link, sendAck, link_sendCtrl, link_setLink_same, lastSeq, link_untilNow]
  exact ⟨rfl, rfl⟩

/-! ## A corrupted packet (R20, R43) -/

/-- The state in which a corrupted packet has been counted and its flag set; the rest is reports. -/
def crcCounted (d : Die) (s : State) : State :=
  ((takeLane d s).bump (ddlPage d) DDL_ERRCNT_CRCCNT).put (ddlPage d) DDL_IRQ_RAW_CRCERR 1

theorem reports_corrupted (d : Die) (s : State) : Reports (crcCounted d s) (corrupted d (takeLane d s)) := by
  have hraise := Reports.raise_put (ddlPage d) DDL_IRQ_RAW_CRCERR ((takeLane d s).bump (ddlPage d) DDL_ERRCNT_CRCCNT)
  cases d
  · exact hraise.raiseFault
  · exact hraise.muslinFault

theorem exec_ack_corrupted {d : Die} {p : Packet} {s : State} (hup : s.linkUp d = true) (hcrc : p.crcGood = false)
    (hlive : s.now d < (s.link d).lastValid + 10000) : exec (.ack d p) s = ok s (corrupted d (takeLane d s)) := by
  have ht := onlyLink_takeLane d s
  show ok s (receive d p (isType tAck) _ s) = _
  unfold receive
  rw [hcrc, Bool.false_and, if_neg Bool.false_ne_true]
  dsimp only
  rw [ht.linkUp, hup, if_neg (by decide), link_takeLane, ht.now, if_neg (by omega), if_pos (by decide)]

/-- What a corrupted packet leaves of the die that it has reached. -/
structure CrcSeen (d : Die) (s t : State) : Prop where
  count : t.g (ddlPage d) DDL_ERRCNT_CRCCNT = min (s.g (ddlPage d) DDL_ERRCNT_CRCCNT + 1) 65535
  flag : t.bit (ddlPage d) DDL_IRQ_RAW_CRCERR = true
  mem : t.mem = s.mem
  state : t.linkState d = s.linkState d
  link : Grows (s.link d) (t.link d)
  damask : d = .damask → (t.link d).unacked = (s.link d).unacked ∧
    ∀ i, i < 4 → t.g (ddlPage d) (creditFld i) = s.g (ddlPage d) (creditFld i)

theorem crcSeen_corrupted (d : Die) (s : State) : CrcSeen d s (corrupted d (takeLane d s)) := by
  have hrep := reports_corrupted d s
  have honly := onlyLink_takeLane d s
  have hreg (p : Nat) (f : Fld) : (takeLane d s).g p f = s.g p f := by rw [State.g, reg_of_regs honly.regs, State.g]
  have hlink : (crcCounted d s).link d = s.link d := by rw [crcCounted, link_put, State.bump, link_put, link_takeLane]
  have hgrows := hrep.grows d
  rw [hlink] at hgrows
  exact
    { count := by
        rw [hrep.g (by cases d <;> rfl), crcCounted, g_put_fieldsApart _ _ (by cases d <;> decide),
          g_bump_same _ _ _ _ (by decide), hreg]
        rfl
      flag := (hrep.bit (by cases d <;> rfl)).trans (bit_put_one (by decide) rfl)
      mem := hrep.mem.trans honly.mem
      state := by
        rw [State.linkState, hrep.g (by cases d <;> rfl), crcCounted, g_put_fieldsApart _ _ (by cases d <;> decide),
          g_bump_apart _ _ (by cases d <;> decide), hreg, State.linkState]
      link := hgrows
      damask := by
        rintro rfl
        refine ⟨by rw [State.link, hrep.damask]; exact congrArg LinkDie.unacked hlink, fun i hi => ?_⟩
        have hfld : ∀ i < 4, reported (regKey (ddlPage .damask) (creditFld i).off) = false ∧
            fieldsApart (ddlPage .damask) DDL_IRQ_RAW_CRCERR (ddlPage .damask) (creditFld i) = true ∧
            fieldsApart (ddlPage .damask) DDL_ERRCNT_CRCCNT (ddlPage .damask) (creditFld i) = true := by decide
        obtain ⟨hquiet, hflag, hcount⟩ := hfld i hi
        rw [hrep.g hquiet, crcCounted, g_put_fieldsApart _ _ hflag, g_bump_apart _ _ hcount, hreg] }

theorem completes_corrupted {d : Die} {p : Packet} {s : State} (hup : s.linkUp d = true) (hcrc : p.crcGood = false)
    (hlive : s.now d < (s.link d).lastValid + 10000) : ∃ t, exec (.ack d p) s = .next t ∧ CrcSeen d s t := by
  refine completes_ok (exec_ack_corrupted hup hcrc hlive) ?_
  obtain ⟨hcount, hflag, hmem, hstate, hlink, hdamask⟩ := crcSeen_corrupted d s
  exact ⟨hcount, hflag, hmem, hstate, by rw [kept_link]; exact hlink, by rw [kept_link]; exact hdamask⟩

/-- Settles O32: a link-control packet acts on the state in which it has arrived (`receive_control`), and what a flag or a
fault adds to that is reports alone (`Reports`). -/
theorem linkControlPacketsAct : Obligations.LinkControlPacketsAct := by
  intro d p s
  dsimp only
  refine ⟨fun pre x post hl hx hpre => ⟨completes_ack hl hx hpre, fun h hlt => ?_⟩, completes_credit,
    completes_heartbeat_damask, fun h hl => ⟨completes_heartbeat_step h hl rfl, completes_heartbeat_same h hl⟩,
    fun hup => ⟨?_, completes_ackTimeout hup, fun hne hlt => ?_, completes_replayTimeout_last hup, fun hcrc hlive => ?_⟩⟩
  · obtain ⟨t, ht, hr⟩ := completes_nak hl hx hpre h hlt
    exact ⟨t, ht, hr.lanes, hr.unacked, hr.count, hr.mem⟩
  · obtain ⟨t, ht, hat, hlanes⟩ := completes_heartbeatSend hup
    refine ⟨t, ht, hat, ?_⟩
    cases d <;> exact hlanes
  · obtain ⟨t, ht, hr⟩ := completes_replayTimeout hup hne hlt
    exact ⟨t, ht, hr.lanes, hr.unacked, hr.count, hr.mem⟩
  · obtain ⟨t, ht, hseen⟩ := completes_corrupted hup hcrc hlive
    exact ⟨t, ht, hseen.count, hseen.flag, hseen.mem, hseen.state, hseen.link.rxSeq, hseen.link.accepted,
      hseen.link.lastValid, hseen.link.bulkIn, hseen.link.sealIn, hseen.link.unacked, hseen.damask⟩

end Sys2Proof.Machine
end

section
/-! What an accepted packet in sequence does (O33). -/

namespace Sys2Proof.Machine

open Reg

/-! ## The header of a packet (R21) -/

/-- The fields of a header as a number. -/
def headerSum (type : Nat) (sup : Bool) (dom : Dom) (tag : Nat) (seq : BitVec 7) (n : Nat) : Nat :=
  (if sup then 2 ^ 29 else 0) + dom.toNat * 2 ^ 25 + (tag % 128) * 2 ^ 18 + (n % 32) * 2 ^ 13 + seq.toNat * 2 ^ 6
    + vcOf type * 2 ^ 4 + type % 16

theorem vcOf_lt (type : Nat) : vcOf type < 4 := by
  unfold vcOf
  split
  · decide
  · split
    · decide
    · split <;> decide

section
variable (type : Nat) (sup : Bool) (dom : Dom) (tag : Nat) (seq : BitVec 7) (data : List Word)

theorem hdr_mkPacket : (mkPacket type sup dom tag seq data).hdr = word (headerSum type sup dom tag seq data.length) := rfl

theorem headerSum_bounds : ∃ x, (x = 0 ∨ x = 1) ∧ (sup = true ↔ x = 1) ∧ dom.toNat < 16 ∧ seq.toNat < 128 ∧ vcOf type < 4 ∧
    headerSum type sup dom tag seq data.length = x * 2 ^ 29 + dom.toNat * 2 ^ 25 + (tag % 128) * 2 ^ 18 +
      (data.length % 32) * 2 ^ 13 + seq.toNat * 2 ^ 6 + vcOf type * 2 ^ 4 + type % 16 := by
  refine ⟨if sup then 1 else 0, ?_, ?_, dom.isLt, seq.isLt, vcOf_lt type, ?_⟩
  all_goals cases sup <;> simp [headerSum]

theorem type_mkPacket : (mkPacket type sup dom tag seq data).type = type % 16 := by
  obtain ⟨x, hx, -, hd, hs, hv, hsum⟩ := headerSum_bounds type sup dom tag seq data
  rw [Packet.type, hdr_mkPacket, hsum, word, BitVec.extractLsb'_toNat, BitVec.toNat_ofNat, Nat.shiftRight_eq_div_pow]
  omega

theorem dom_mkPacket : (mkPacket type sup dom tag seq data).dom = dom := by
  obtain ⟨x, hx, -, hd, hs, hv, hsum⟩ := headerSum_bounds type sup dom tag seq data
  refine BitVec.eq_of_toNat_eq ?_
  rw [Packet.dom, hdr_mkPacket, hsum, word, BitVec.extractLsb'_toNat, BitVec.toNat_ofNat, Nat.shiftRight_eq_div_pow]
  omega

theorem tag_mkPacket : (mkPacket type sup dom tag seq data).tag = tag % 128 := by
  obtain ⟨x, hx, -, hd, hs, hv, hsum⟩ := headerSum_bounds type sup dom tag seq data
  rw [Packet.tag, hdr_mkPacket, hsum, word, BitVec.extractLsb'_toNat, BitVec.toNat_ofNat, Nat.shiftRight_eq_div_pow]
  omega

theorem sup_mkPacket : (mkPacket type sup dom tag seq data).sup = sup := by
  obtain ⟨x, hx, hsup, hd, hs, hv, hsum⟩ := headerSum_bounds type sup dom tag seq data
  rw [Packet.sup, hdr_mkPacket, hsum, word, BitVec.getLsbD_ofNat, Nat.testBit_eq_decide_div_mod_eq, Bool.eq_iff_iff, hsup]
  simp only [Nat.reduceLT, decide_true, Bool.true_and, decide_eq_true_eq]
  omega

/-- A packet keeps its fields when it is numbered. -/
theorem numbered_mkPacket (n : BitVec 7) (ht : type < 16) (hg : tag < 128) :
    (mkPacket type sup dom tag seq data).numbered n = mkPacket type sup dom tag n data := by
  rw [Packet.numbered, type_mkPacket, sup_mkPacket, dom_mkPacket, tag_mkPacket, Nat.mod_eq_of_lt ht, Nat.mod_eq_of_lt hg]
  rfl

end

/-! ## A packet in sequence is accepted (R23) -/

/-- What acceptance leaves of an end of the link: what waits, what is held for replay, and what is gathered. -/
structure Took (l l' : LinkDie) : Prop where
  rxSeq : l'.rxSeq = l.rxSeq + 1
  waiting : l'.waiting = l.waiting
  unacked : l'.unacked = l.unacked
  sealIn : l'.sealIn = l.sealIn
  sealRx : l'.sealRx = l.sealRx

/-- The state in which a packet in sequence has been accepted. -/
def accepted (d : Die) (p : Packet) (s : State) : State := acceptPacket d p (arrived d s)

theorem link_returnCredit (d : Die) (p : Packet) (s : State) :
    ∃ ps, (returnCredit d p s).link d = { s.link d with lanes := ps } := by
  unfold returnCredit
  split
  · exact ⟨_, rfl⟩
  · exact ⟨_, link_sendCtrl ..⟩

/-- An acknowledgement changes the count of accepted packets and the lanes. -/
theorem link_ackIf (d : Die) (c : Prop) [Decidable c] (s : State) :
    ∃ n ps, (if c then sendAck d s else s).link d = { s.link d with accepted := n, lanes := ps } := by
  split
  · rw [sendAck, link_sendCtrl, link_setLink_same]
    exact ⟨_, _, rfl⟩
  · exact ⟨_, _, rfl⟩

theorem took_acceptPacket (d : Die) (p : Packet) (s : State) : Took (s.link d) ((acceptPacket d p s).link d) := by
  unfold acceptPacket
  dsimp only
  obtain ⟨n, qs, hack⟩ := link_ackIf d (8 ≤ ((returnCredit d p (s.setLink d { s.link d with
    rxSeq := (s.link d).rxSeq + 1, nakSent := false, accepted := (s.link d).accepted + 1
    acceptedAt := if (s.link d).accepted = 0 then s.now d else (s.link d).acceptedAt })).link d).accepted)
    (returnCredit d p (s.setLink d { s.link d with
      rxSeq := (s.link d).rxSeq + 1, nakSent := false, accepted := (s.link d).accepted + 1
      acceptedAt := if (s.link d).accepted = 0 then s.now d else (s.link d).acceptedAt }))
  obtain ⟨ps, hcredit⟩ := link_returnCredit d p (s.setLink d { s.link d with
    rxSeq := (s.link d).rxSeq + 1, nakSent := false, accepted := (s.link d).accepted + 1
    acceptedAt := if (s.link d).accepted = 0 then s.now d else (s.link d).acceptedAt })
  rw [hack, hcredit, link_setLink_same]
  exact ⟨rfl, rfl, rfl, rfl, rfl⟩

theorem took_accepted (d : Die) (p : Packet) (s : State) : Took (s.link d) ((accepted d p s).link d) := by
  obtain ⟨hrx, hwaiting, hunacked, hsealIn, hsealRx⟩ := took_acceptPacket d p (arrived d s)
  rw [link_arrived] at hrx hwaiting hunacked hsealIn hsealRx
  exact ⟨hrx, hwaiting, hunacked, hsealIn, hsealRx⟩

theorem onlyLink_accepted (d : Die) (p : Packet) (s : State) : OnlyLink s (accepted d p s) := by
  have ha : LinkOnly d s (takeLane d s) := LinkOnly.takeLane .refl
  have hv : LinkOnly d s ((takeLane d s).setLink d { (takeLane d s).link d with lastValid := s.now d }) :=
    ha.setLink (Eq.refl _) (Eq.refl _)
  rw [link_takeLane] at hv
  exact (accepts_acceptPacket hv p).rest

/-- A packet in sequence acts on the state in which it has been accepted. -/
theorem receive_sequenced {d : Die} {p : Packet} {n : Nat} {s : State} (h : InOrder d p n s) (hn : n < 8)
    (act : State → State) : receive d p (isType n) act s = act (accepted d p s) := by
  obtain ⟨⟨hcrc, hform, htype, hup, hlive⟩, hseq⟩ := h
  have ht := onlyLink_takeLane d s
  have hfits : isType n p = true := by rw [isType, htype, beq_self_eq_true]
  have hsq : p.sequenced = true := by
    rw [Packet.sequenced, htype]
    exact decide_eq_true hn
  unfold receive
  rw [hcrc, hfits, if_neg (by decide)]
  dsimp only
  rw [ht.linkUp, hup, if_neg (by decide), link_takeLane, ht.now, if_neg (by omega), if_neg (by decide), hform,
    if_neg (by decide), hsq, if_pos (Eq.refl _), sequence]
  rw [link_setLink_same, hseq, BitVec.sub_self]
  rfl

/-! ## The answer to a request (R28, R57) -/

theorem link_transmit (d : Die) (p : Packet) (s : State) : (transmit d p s).link d = { s.link d with
    txSeq := (s.link d).txSeq + 1
    unacked := (s.link d).unacked ++ [⟨p.numbered (s.link d).txSeq, s.now d, 0⟩]
    lanes := (s.link d).lanes ++ [p.numbered (s.link d).txSeq] } := by
  unfold transmit
  dsimp only
  split
  · rw [link_setLink_same]
  · rw [link_put, link_setLink_same]

/-- A response behind packets that are none, with room for all of them in the replay buffer, is the last one sent. -/
theorem pumpGo_response {d : Die} {r : Packet} (hr : r.isResponse = true) (w : List Packet) (hw : ∀ q ∈ w, q.lane ≠ 4)
    (blocked : List Nat) (hb : 4 ∉ blocked) (held : List Packet) (s : State)
    (hroom : (s.link d).unacked.length + w.length < 32) :
    ∃ n, ((pumpGo d (w ++ [r]) blocked held s).link d).lanes.getLast? = some (r.numbered n) := by
  have hlane : r.lane = 4 := if_pos hr
  induction w generalizing blocked held s with
  | nil =>
    have hmay : (!blocked.contains r.lane && mayTransmit d r s) = true := by
      have hlt : (s.link d).unacked.length < 32 := by simpa using hroom
      simp [hlane, hb, mayTransmit, hr, hlt]
    refine ⟨(s.link d).txSeq, ?_⟩
    rw [List.nil_append, pumpGo, if_pos hmay, pumpGo, link_setLink_same, link_transmit]
    exact List.getLast?_concat ..
  | cons q w ih =>
    have hrest : ∀ q ∈ w, q.lane ≠ 4 := fun x hx => hw x (List.mem_cons_of_mem q hx)
    rw [List.length_cons] at hroom
    rw [List.cons_append, pumpGo]
    split
    · refine ih hrest blocked hb held _ ?_
      rw [link_transmit, List.length_append, List.length_singleton]
      omega
    · refine ih hrest _ ?_ _ s (by omega)
      rw [List.mem_cons, not_or]
      exact ⟨fun he => hw q List.mem_cons_self he.symm, hb⟩

/-- What is sent and what goes on waiting are together what waited. -/
theorem pumpGo_conserves (d : Die) (w : List Packet) (blocked : List Nat) (held : List Packet) (s : State) :
    ((pumpGo d w blocked held s).link d).unacked.length + ((pumpGo d w blocked held s).link d).waiting.length =
        (s.link d).unacked.length + held.length + w.length ∧
      ∀ q ∈ ((pumpGo d w blocked held s).link d).waiting, q ∈ held ∨ q ∈ w := by
  induction w generalizing blocked held s with
  | nil =>
    rw [pumpGo, link_setLink_same]
    exact ⟨by simp only [List.length_reverse, List.length_nil, Nat.add_zero],
      fun q hq => .inl (List.mem_reverse.1 hq)⟩
  | cons p w ih =>
    rw [pumpGo]
    split
    · obtain ⟨hlen, hmem⟩ := ih blocked held (transmit d p s)
      refine ⟨?_, fun q hq => (hmem q hq).imp_right (List.mem_cons_of_mem p)⟩
      rw [hlen, link_transmit, List.length_append, List.length_singleton, List.length_cons]
      omega
    · obtain ⟨hlen, hmem⟩ := ih (p.lane :: blocked) (p :: held) s
      refine ⟨?_, fun q hq => ?_⟩
      · rw [hlen, List.length_cons, List.length_cons]
        omega
      · rcases hmem q hq with hq | hq
        · exact (List.mem_cons.1 hq).elim (fun he => .inr (he ▸ List.mem_cons_self)) .inl
        · exact .inr (List.mem_cons_of_mem p hq)

theorem link_pump (d : Die) (s : State) : (pump d s).link d = (pumpGo d (s.link d).waiting [] [] s).link d := by
  unfold pump
  dsimp only
  split
  · exact link_put ..
  · rfl

theorem isResponse_of_type {p : Packet} (h : p.type = tRdRsp ∨ p.type = tWrRsp) : p.isResponse = true := by
  rcases h with h | h <;> rw [Packet.isResponse, h] <;> rfl

theorem lane_of_not_response {p : Packet} (h : p.isResponse = false) : p.lane ≠ 4 := by
  have hlt : p.vc < 4 := BitVec.isLt _
  rw [Packet.lane, h, if_neg Bool.false_ne_true]
  omega

/-- Muslin has room for an answer: what waits is none, and it fits into the replay buffer with the answer. -/
structure Roomy (s : State) : Prop where
  up : s.linkUp .muslin = true
  waiting : ∀ q ∈ s.muslin.waiting, q.isResponse = false
  room : s.muslin.unacked.length + s.muslin.waiting.length < 32

theorem sendPacket_up {d : Die} {p : Packet} {s : State} (h : s.linkUp d = true) :
    sendPacket d p s = pump d (s.setLink d { s.link d with waiting := enqueued (s.link d).waiting p }) := if_pos h

theorem enqueued_of_type {p : Packet} (h : p.type ≠ tBulk) (w : List Packet) : enqueued w p = w ++ [p] := by
  rw [enqueued, beq_eq_false_iff_ne.2 h, Bool.false_and, if_neg Bool.false_ne_true]

/-- An answer is the last packet on Muslin's lanes. -/
theorem answer_last {r : Packet} {s : State} (h : Roomy s) (hr : r.type = tRdRsp ∨ r.type = tWrRsp) :
    ∃ n, (sendPacket .muslin r s).muslin.lanes.getLast? = some (r.numbered n) := by
  have hbulk : r.type ≠ tBulk := by rcases hr with h | h <;> rw [h] <;> decide
  obtain ⟨hup, hwaiting, hroom⟩ := h
  obtain ⟨n, hn⟩ := pumpGo_response (d := .muslin) (isResponse_of_type hr) s.muslin.waiting
    (fun q hq => lane_of_not_response (hwaiting q hq)) [] List.not_mem_nil []
    (s.setLink .muslin { s.muslin with waiting := s.muslin.waiting ++ [r] }) hroom
  refine ⟨n, ?_⟩
  have hlink := link_pump .muslin (s.setLink .muslin { s.muslin with waiting := s.muslin.waiting ++ [r] })
  rw [sendPacket_up hup, enqueued_of_type hbulk]
  exact (congrArg (fun l => l.lanes.getLast?) hlink).trans hn

theorem isResponse_eventPacket (page : Nat) (e : Event) : (eventPacket page e).isResponse = false := by
  rw [Packet.isResponse, eventPacket, type_mkPacket]
  rfl

theorem type_eventPacket (page : Nat) (e : Event) : (eventPacket page e).type ≠ tBulk := by
  rw [eventPacket, type_mkPacket]
  decide

/-- A packet that is no response, sent when none waits, leaves room for an answer. -/
theorem roomy_sendPacket {p : Packet} {s : State} (hup : s.linkUp .muslin = true) (hw : s.muslin.waiting = [])
    (hroom : s.muslin.unacked.length < 30) (hp : p.isResponse = false) (hbulk : p.type ≠ tBulk) :
    Roomy (sendPacket .muslin p s) := by
  have hstill : Still (fun _ => true) s (sendPacket .muslin p s) := .sendPacket .refl
  have hlink := link_pump .muslin (s.setLink .muslin { s.muslin with waiting := s.muslin.waiting ++ [p] })
  obtain ⟨hlen, hmem⟩ := pumpGo_conserves .muslin (s.muslin.waiting ++ [p]) [] []
    (s.setLink .muslin { s.muslin with waiting := s.muslin.waiting ++ [p] })
  have hsend : sendPacket .muslin p s = pump .muslin (s.setLink .muslin { s.muslin with waiting := s.muslin.waiting ++ [p] }) := by
    rw [sendPacket_up hup, enqueued_of_type hbulk]
    rfl
  rw [hsend] at hstill ⊢
  refine ⟨(hstill.linkUp .muslin).trans hup, ?_, ?_⟩
  · intro q hq
    have hq' := hmem q ((congrArg (q ∈ ·.waiting) hlink).mp hq)
    rw [hw, List.nil_append, List.mem_singleton] at hq'
    rw [hq'.resolve_left List.not_mem_nil]
    exact hp
  · refine lt_of_eq_of_lt ((congrArg (fun l : LinkDie => l.unacked.length + l.waiting.length) hlink).trans hlen) ?_
    rw [hw]
    show s.muslin.unacked.length + 0 + 1 < 32
    omega

/-- After a report of the request levels there is still room for an answer. -/
theorem roomy_syncLevels {s : State} (hup : s.linkUp .muslin = true) (hw : s.muslin.waiting = [])
    (hroom : s.muslin.unacked.length < 30) : Roomy (syncLevels s) := by
  unfold syncLevels
  dsimp only
  split
  · exact roomy_sendPacket hup hw hroom (isResponse_eventPacket 0 _) (type_eventPacket 0 _)
  · exact ⟨hup, by rw [hw]; exact fun q hq => absurd hq List.not_mem_nil, by rw [hw, List.length_nil]; omega⟩

section
variable {q off : Nat} (hq : q ≠ pDDLM) (ho : off < 4096)
include hq ho

/-- A field of the link's page stands in no register of another page. -/
theorem reg_put_ddlm {f : Fld} (hf : f.off < 4096) (v : Nat) (s : State) : (s.put pDDLM f v).reg q off = s.reg q off := by
  refine reg_put_ne s v fun he => hq ?_
  simp only [regKey] at he
  omega

theorem reg_transmit (p : Packet) (s : State) : (transmit .muslin p s).reg q off = s.reg q off := by
  have hf : (creditFld p.vc).off < 4096 := by
    unfold creditFld
    split <;> decide
  unfold transmit
  dsimp only
  split
  · rfl
  · exact reg_put_ddlm hq ho hf _ _

theorem reg_pumpGo (w : List Packet) (blocked : List Nat) (held : List Packet) (s : State) :
    (pumpGo .muslin w blocked held s).reg q off = s.reg q off := by
  induction w generalizing blocked held s with
  | nil => rfl
  | cons p w ih =>
    rw [pumpGo]
    split
    · rw [ih, reg_transmit hq ho]
    · exact ih ..

/-- A packet that Muslin sends changes registers of the link's page alone. -/
theorem reg_sendPacket (p : Packet) (s : State) : (sendPacket .muslin p s).reg q off = s.reg q off := by
  have hpump (t : State) : (pump .muslin t).reg q off = t.reg q off := by
    unfold pump
    dsimp only
    split
    · rw [syncEvq, reg_put_ddlm hq ho (by decide), reg_pumpGo hq ho]
    · exact reg_pumpGo hq ho ..
  unfold sendPacket
  split
  · exact hpump _
  · rfl

end

/-- A request has been accepted: the answer is not sent yet, and there is room for it. -/
structure Serves (s t : State) : Prop where
  rxSeq : t.muslin.rxSeq = s.muslin.rxSeq + 1
  mem : t.mem = s.mem
  roomy : Roomy t

theorem serves_accepted {p : Packet} {n : Nat} {s : State} (hw : s.muslin.waiting = []) (hroom : s.muslin.unacked.length < 30)
    (h : InOrder .muslin p n s) : Serves s (accepted .muslin p s) ∧ (accepted .muslin p s).muslin.waiting = [] ∧
      (accepted .muslin p s).muslin.unacked.length < 30 := by
  obtain ⟨⟨-, -, -, hup, -⟩, -⟩ := h
  have honly := onlyLink_accepted .muslin p s
  obtain ⟨hrx, hwaiting, hunacked, -, -⟩ := took_accepted .muslin p s
  have hwaiting : (accepted .muslin p s).muslin.waiting = [] := hwaiting.trans hw
  have hunacked : (accepted .muslin p s).muslin.unacked = s.muslin.unacked := hunacked
  refine ⟨⟨hrx, honly.mem, (honly.linkUp _).trans hup, ?_, ?_⟩, hwaiting, by rwa [hunacked]⟩
  · rw [hwaiting]
    exact fun q hq => absurd hq List.not_mem_nil
  · rw [hwaiting, hunacked, List.length_nil]
    omega

/-- A request has been answered: the answer, of type `type`, is the last packet of Muslin. -/
structure Answered (p : Packet) (type : Nat) (err : Bool) (data : List Word) (s t : State) : Prop where
  rxSeq : t.muslin.rxSeq = s.muslin.rxSeq + 1
  answer : ∃ n, t.muslin.lanes.getLast? = some (mkPacket type err p.dom p.tag n data)
  mem : t.mem = s.mem

theorem tag_lt (p : Packet) : p.tag < 128 := BitVec.isLt _

theorem Serves.answered {p : Packet} {type : Nat} {err : Bool} {data : List Word} {s t : State} (h : Serves s t)
    (ht : type = tRdRsp ∨ type = tWrRsp) :
    Answered p type err data s (sendPacket .muslin (mkPacket type err p.dom p.tag 0 data) t) := by
  have hlt : type < 16 := by rcases ht with rfl | rfl <;> decide
  have hsent : Reports t (sendPacket .muslin (mkPacket type err p.dom p.tag 0 data) t) := .sendPacket .refl
  obtain ⟨n, hn⟩ := answer_last (r := mkPacket type err p.dom p.tag 0 data) h.roomy
    (by rw [type_mkPacket, Nat.mod_eq_of_lt hlt]; exact ht)
  rw [numbered_mkPacket _ _ _ _ _ _ n hlt (tag_lt p)] at hn
  exact ⟨hsent.muslin.rxSeq.trans h.rxSeq, ⟨n, hn⟩, hsent.mem.trans h.mem⟩

/-! ## Requests (R28, R57) -/

/-- The address of a request, aligned to a word. -/
def requestAddr (p : Packet) : Nat := (p.word 0).toNat / 4 * 4

theorem exec_rdReq {p : Packet} {s : State} (h : InOrder .muslin p tRdReq s) : exec (.rdReq p) s = ok s (
    let x := remoteRead (packetRequester p) (requestAddr p) (accepted .muslin p s)
    sendPacket .muslin (mkPacket tRdRsp x.1.isNone p.dom p.tag 0 [x.1.getD 0]) x.2) :=
  congrArg (ok s) (receive_sequenced h (by decide) _)

theorem regRead_irqEn (r : Requester) (q : Nat) (s : State) : regRead r q irqEnOff s = (s.reg q irqEnOff, s) := rfl

theorem completes_rdReq_irqEn {p : Packet} {s : State} (hw : s.muslin.waiting = []) (hroom : s.muslin.unacked.length < 30)
    (h : InOrder .muslin p tRdReq s) (ha : requestAddr p < 0x15000) (hoff : requestAddr p % 4096 = irqEnOff) :
    Completes (.rdReq p) s (Answered p tRdRsp false [s.reg (64 + requestAddr p / 4096) irqEnOff] s) := by
  refine completes_ok (exec_rdReq h) ?_
  rw [remoteRead, if_pos ha, hoff, regRead_irqEn, reg_of_regs (onlyLink_accepted ..).regs]
  obtain ⟨hserves, -, -⟩ := serves_accepted hw hroom h
  obtain ⟨hrx, hanswer, hmem⟩ := hserves.answered (p := p) (err := false)
    (data := [s.reg (64 + requestAddr p / 4096) irqEnOff]) (.inl (Eq.refl _))
  exact ⟨hrx, hanswer, hmem⟩

/-- A packet sent by Muslin leaves the registers of the other pages. -/
theorem reg_answer {p r : Packet} {s : State} {q off : Nat} (hq : q ≠ pDDLM) (ho : off < 4096) :
    (sendPacket .muslin r (accepted .muslin p s)).reg q off = s.reg q off := by
  rw [reg_sendPacket hq ho, reg_of_regs (onlyLink_accepted ..).regs]

theorem completes_rdReq_unmapped {p : Packet} {s : State} (hw : s.muslin.waiting = []) (hroom : s.muslin.unacked.length < 30)
    (h : InOrder .muslin p tRdReq s) (ha : 0x15000 ≤ requestAddr p)
    (hflash : requestAddr p < 0x8000000 ∨ 0x8200000 ≤ requestAddr p) :
    Completes (.rdReq p) s fun t => Answered p tRdRsp true [0] s t ∧
      ∀ q off, q ≠ pDDLM → off < 4096 → t.reg q off = s.reg q off := by
  refine completes_ok (exec_rdReq h) ?_
  rw [remoteRead, if_neg (by omega), if_neg (by omega)]
  obtain ⟨hserves, -, -⟩ := serves_accepted hw hroom h
  obtain ⟨hrx, hanswer, hmem⟩ := hserves.answered (p := p) (err := true) (data := [0]) (.inl (Eq.refl _))
  exact ⟨⟨hrx, hanswer, hmem⟩, fun q off => reg_answer⟩

theorem flagBits_irqEn : ∀ n < 21, flagBits (64 + n) irqEnOff = 0 := by decide

theorem muslin_irqEn : ∀ n < 21, isMuslinPage (64 + n) = true ∧ reported (regKey (64 + n) irqEnOff) = false ∧
    unheldReg (64 + n) irqEnOff = true := by decide

/-- IRQ_EN of a Muslin page takes a write, and the request levels follow. -/
theorem regWrite_irqEn (r : Requester) {n : Nat} (hn : n < 21) (v tie : Word) (s : State) :
    regWrite r (64 + n) irqEnOff v s tie = syncLevels (s.setReg (64 + n) irqEnOff (v &&& irqMask (64 + n))) := by
  have htie : tieEvents (64 + n) irqEnOff v tie s = s := if_pos (.inr (.inl (by decide)))
  have hval : v &&& ~~~(tie &&& flagBits (64 + n) irqEnOff) = v := by
    rw [flagBits_irqEn n hn]
    exact (congrArg (v &&& ~~~·) BitVec.and_zero).trans BitVec.and_allOnes
  have hlock : lockStep (64 + n) irqEnOff r v s tie = (⟨r, v, false⟩, s) := by
    rw [lockStep, hval]
    rfl
  obtain ⟨hpage, -, -⟩ := muslin_irqEn n hn
  rw [regWrite, htie, hlock]
  simp only [commonWrite, hpage]
  rfl

/-- A write of a register that holds no field of the link leaves room for an answer when the request levels follow it. -/
theorem Serves.syncLevels_setReg {s t : State} {q off : Nat} (h : Serves s t) (hw : t.muslin.waiting = [])
    (hroom : t.muslin.unacked.length < 30) (hu : unheldReg q off = true) (w : Word) :
    Serves s (syncLevels (t.setReg q off w)) := by
  have hset : Still (fun _ => true) t (t.setReg q off w) := .setReg .refl hu
  have hrep : Reports (t.setReg q off w) (syncLevels (t.setReg q off w)) := .syncLevels .refl
  exact ⟨hrep.muslin.rxSeq.trans h.rxSeq, hrep.mem.trans h.mem,
    roomy_syncLevels ((hset.linkUp _).trans h.roomy.up) hw hroom⟩

/-- The state in which a write request in sequence is served: its TAG and address are held for a late error (R57). -/
def writeHeld (p : Packet) (s : State) : State :=
  ((accepted .muslin p s).setReg pDDLM 0x04C (word (p.tag * 2 ^ 25 + requestAddr p % 4096))).setReg pDDLM 0x050
    (word (requestAddr p / 4096))

theorem serves_writeHeld {p : Packet} {n : Nat} {s : State} (hw : s.muslin.waiting = []) (hroom : s.muslin.unacked.length < 30)
    (h : InOrder .muslin p n s) : Serves s (writeHeld p s) ∧ (writeHeld p s).muslin.waiting = [] ∧
      (writeHeld p s).muslin.unacked.length < 30 := by
  obtain ⟨⟨hrx, hmem, hup, hwait, hr⟩, hwaiting, hunacked⟩ := serves_accepted hw hroom h
  have hheld : Still (fun _ => true) (accepted .muslin p s) (writeHeld p s) := by
    unfold writeHeld
    exact (Still.refl.setReg (by decide)).setReg (by decide)
  have hmuslin : (writeHeld p s).muslin = (accepted .muslin p s).muslin := by
    rw [writeHeld, setReg_muslin, setReg_muslin]
  have hkept : (writeHeld p s).mem = (accepted .muslin p s).mem := by
    rw [writeHeld, setReg_mem, setReg_mem]
  exact ⟨⟨by rw [hmuslin, hrx], by rw [hkept, hmem], (hheld.linkUp _).trans hup, by rwa [hmuslin], by rwa [hmuslin]⟩,
    by rw [hmuslin, hwaiting], by rwa [hmuslin]⟩

theorem exec_wrReq {p : Packet} {tie : Word} {s : State} (h : InOrder .muslin p tWrReq s) : exec (.wrReq p tie) s = ok s (
    if requestAddr p < 0x15000 then
      sendPacket .muslin (mkPacket tWrRsp false p.dom p.tag 0 [])
        (regWrite (packetRequester p) (64 + requestAddr p / 4096) (requestAddr p % 4096) (p.word 1) (writeHeld p s) tie)
    else sendPacket .muslin (mkPacket tWrRsp true p.dom p.tag 0 []) (accepted .muslin p s)) :=
  congrArg (ok s) (receive_sequenced h (by decide) _)

theorem completes_wrReq_irqEn {p : Packet} {tie : Word} {s : State} (hw : s.muslin.waiting = [])
    (hroom : s.muslin.unacked.length < 30) (h : InOrder .muslin p tWrReq s) (ha : requestAddr p < 0x15000)
    (hoff : requestAddr p % 4096 = irqEnOff) :
    Completes (.wrReq p tie) s fun t => Answered p tWrRsp false [] s t ∧
      t.reg (64 + requestAddr p / 4096) irqEnOff = p.word 1 &&& irqMask (64 + requestAddr p / 4096) := by
  refine completes_ok (exec_wrReq h) ?_
  have hn : requestAddr p / 4096 < 21 := by omega
  obtain ⟨-, hquiet, hunheld⟩ := muslin_irqEn _ hn
  rw [if_pos ha, hoff, regWrite_irqEn _ hn]
  obtain ⟨hserves, hwaiting, hunacked⟩ := serves_writeHeld hw hroom h
  obtain ⟨hrx, hanswer, hmem⟩ :=
    (hserves.syncLevels_setReg hwaiting hunacked hunheld (p.word 1 &&& irqMask (64 + requestAddr p / 4096))).answered (p := p)
      (err := false) (data := []) (.inr (Eq.refl tWrRsp))
  refine ⟨⟨hrx, hanswer, hmem⟩, ?_⟩
  rw [kept_reg, (Reports.refl.sendPacket).reg hquiet, (Reports.refl.syncLevels).reg hquiet, reg_setReg_same]

theorem completes_wrReq_unmapped {p : Packet} {tie : Word} {s : State} (hw : s.muslin.waiting = [])
    (hroom : s.muslin.unacked.length < 30) (h : InOrder .muslin p tWrReq s) (ha : 0x15000 ≤ requestAddr p) :
    Completes (.wrReq p tie) s fun t => Answered p tWrRsp true [] s t ∧
      ∀ q off, q ≠ pDDLM → off < 4096 → t.reg q off = s.reg q off := by
  refine completes_ok (exec_wrReq h) ?_
  rw [if_neg (by omega)]
  obtain ⟨hserves, -, -⟩ := serves_accepted hw hroom h
  obtain ⟨hrx, hanswer, hmem⟩ := hserves.answered (p := p) (err := true) (data := []) (.inr (Eq.refl tWrRsp))
  exact ⟨⟨hrx, hanswer, hmem⟩, fun q off => reg_answer⟩

/-! ## Responses (R28, R57) -/

/-- The general registers after a load of the datum word `v`. -/
def loaded (x : Txn) (v : Word) (g : Vector Word 16) : Vector Word 16 :=
  match x.load with
  | some (k, r) => if r = 0 then g else g.set r (loadDatum k x.addr.toNat v)
  | none => g

/-- What a transaction that ends brings the engine that made it. -/
def delivered (x : Txn) (v : Word) (err : Bool) (g : Eng) : Eng :=
  { g with
    g := loaded x v g.g
    record := match x.word with
      | some i => g.record.map fun ws => ws.set i (some v)
      | none => g.record
    remErr := if err then some (g.remErr.getD x.addr) else g.remErr }

theorem eng_loadInto_ne {e f : EngNo} (r : Reg) (v : Word) (s : State) (h : f ≠ e) : (loadInto e r v s).eng f = s.eng f := by
  unfold loadInto
  split
  · rfl
  · rw [eng_setEng_ne _ _ h]

theorem txns_loadInto (e : EngNo) (r : Reg) (v : Word) (s : State) : (loadInto e r v s).txns = s.txns := by
  unfold loadInto
  split <;> rfl

theorem eng_deliverTxn_same (x : Txn) (v : Word) (err : Bool) (s : State) :
    (deliverTxn x v err s).eng x.eng = delivered x v err (s.eng x.eng) := by
  unfold deliverTxn delivered loaded
  rcases x.load with _ | ⟨k, r⟩
  · rcases x.word with _ | i <;> cases err <;> simp [recordArrives]
  · by_cases hr : r = 0 <;> rcases x.word with _ | i <;> cases err <;> simp [recordArrives, loadInto, hr]

theorem eng_deliverTxn_ne {x : Txn} {f : EngNo} (v : Word) (err : Bool) (s : State) (h : f ≠ x.eng) :
    (deliverTxn x v err s).eng f = s.eng f := by
  unfold deliverTxn
  rcases hload : x.load with _ | ⟨k, r⟩ <;> rcases hword : x.word with _ | i <;> cases err <;>
    simp [recordArrives, eng_loadInto_ne _ _ _ h, eng_setEng_ne _ _ h]

theorem txns_deliverTxn (x : Txn) (v : Word) (err : Bool) (s : State) : (deliverTxn x v err s).txns = s.txns := by
  unfold deliverTxn
  rcases hload : x.load with _ | ⟨k, r⟩ <;> rcases hword : x.word with _ | i <;> cases err <;>
    simp [recordArrives, txns_loadInto]

theorem gr_delivered (x : Txn) (v : Word) (err : Bool) (r : Reg) {s t : State}
    (h : t.eng x.eng = delivered x v err (s.eng x.eng)) : gr x.eng r t = match x.load with
      | some (k, rd) => if r = rd ∧ r ≠ 0 then loadDatum k x.addr.toNat v else gr x.eng r s
      | none => gr x.eng r s := by
  rw [gr, gr, h]
  show (if r = 0 then 0 else (loaded x v (s.eng x.eng).g)[r]) = _
  unfold loaded
  rcases x.load with _ | ⟨k, rd⟩
  · rfl
  · by_cases hr : r = 0
    · simp [hr]
    · by_cases hrd : rd = 0
      · have hne : r ≠ rd := fun he => hr (he.trans hrd)
        simp [hr, hrd]
      · simp only [if_neg hrd, ne_eq, hr, not_false_eq_true, and_true]
        by_cases he : r = rd
        · subst he
          simp
        · have hval : (rd : Nat) ≠ (r : Nat) := fun hv => he (Fin.ext hv.symm)
          simp [he, hval]

theorem loadDatum_zero (k : LoadKind) (a : Nat) : loadDatum k a 0 = 0 := by
  cases k <;> simp [loadDatum]

theorem settleYield_run {e : EngNo} {s : State} (h : (s.eng e).mode = .run) : settleYield e s = s := by
  unfold settleYield
  rw [h]
  rfl

/-- An access error is recorded and reported; the engines and the transactions stay. -/
theorem fabError_frame (r : Requester) (kind : Nat) (addr : Word) (s : State) :
    (fabError r kind addr s).engs = s.engs ∧ (fabError r kind addr s).txns = s.txns := by
  unfold fabError
  dsimp only
  split
  · exact ⟨rfl, rfl⟩
  · have hrep := Reports.raise_put pFAB FAB_IRQ_RAW_ACCERR ((s.setReg pFAB 0x050 addr).setReg pFAB 0x054
      (word (kind * 2 ^ 13 + r.dom.toNat * 2 ^ 9 + (if r.sup then 256 else 0) + r.eng.val)))
    exact ⟨hrep.engs, hrep.txns⟩

/-- The state in which the tag of transaction `x` is free and an error of its access is reported. -/
def txnFreed (tag : Nat) (x : Txn) (err : Bool) (s : State) : State :=
  if err then fabError ⟨x.eng, x.sup, x.dom⟩ 4 x.addr (syncOutstanding (setTxn tag none s))
  else syncOutstanding (setTxn tag none s)

theorem engs_txnFreed (tag : Nat) (x : Txn) (err : Bool) (s : State) : (txnFreed tag x err s).engs = s.engs := by
  unfold txnFreed
  split
  · exact (fabError_frame ..).1
  · rfl

theorem txnOf_txnFreed (tag : Nat) (x : Txn) (err : Bool) (s : State) : txnOf tag (txnFreed tag x err s) = none := by
  have htxns : (txnFreed tag x err s).txns = (setTxn tag none s).txns := by
    unfold txnFreed
    split
    · exact (fabError_frame ..).2
    · rfl
  rw [txnOf, htxns, setTxn, tget_tset_same]

theorem completeTxn_of_txnOf {tag : Nat} {v : Word} {err : Bool} {x : Txn} {s : State} (h : txnOf tag s = some x)
    (hwithheld : x.withheld = false) (hmode : (s.eng x.eng).mode = .run) : completeTxn tag v err s =
      if x.orphan then txnFreed tag x err s else deliverTxn x (if err then 0 else v) err (txnFreed tag x err s) := by
  have hfreed : ((txnFreed tag x err s).eng x.eng).mode = .run := by rw [State.eng, engs_txnFreed]; exact hmode
  have hsettle (t : State) (ht : (t.eng x.eng).mode = .run) : settleYield x.eng t = t := settleYield_run ht
  unfold completeTxn
  rw [h]
  dsimp only
  rw [hwithheld, if_neg Bool.false_ne_true]
  refine hsettle _ ?_
  split
  · exact hfreed
  · exact (congrArg Eng.mode (eng_deliverTxn_same ..)).trans hfreed

/-- A transaction has ended: its tag is free, and its engine has what it brought unless its job is over. -/
structure Ended (tag : Nat) (x : Txn) (v : Word) (err : Bool) (s t : State) : Prop where
  txn : txnOf tag t = none
  others : ∀ f, f ≠ x.eng ∨ x.orphan = true → t.eng f = s.eng f
  own : x.orphan = false → t.eng x.eng = delivered x (if err then 0 else v) err (s.eng x.eng)

theorem ended_completeTxn {tag : Nat} {v : Word} {err : Bool} {x : Txn} {s u : State} (h : txnOf tag s = some x)
    (hwithheld : x.withheld = false) (hmode : (s.eng x.eng).mode = .run) (htxns : u.txns = s.txns) (hengs : u.engs = s.engs) :
    Ended tag x v err s (completeTxn tag v err u) := by
  have heng (f : EngNo) : (txnFreed tag x err u).eng f = s.eng f := by rw [State.eng, engs_txnFreed, hengs, State.eng]
  have hmode' : (u.eng x.eng).mode = .run := by rw [State.eng, hengs]; exact hmode
  rw [completeTxn_of_txnOf (by rw [txnOf, htxns]; exact h) hwithheld hmode']
  cases horphan : x.orphan
  · rw [if_neg Bool.false_ne_true]
    exact
      { txn := by rw [txnOf, txns_deliverTxn]; exact txnOf_txnFreed ..
        others := fun f hf => by
          rw [horphan] at hf
          rw [eng_deliverTxn_ne _ _ _ (hf.resolve_right Bool.false_ne_true), heng]
        own := fun _ => by rw [eng_deliverTxn_same, heng] }
  · rw [if_pos rfl]
    exact
      { txn := txnOf_txnFreed ..
        others := fun f _ => heng f
        own := fun hf => by rw [horphan] at hf; cases hf }

/-- What the response to transaction `x` brings (R57): the statement's own form. -/
theorem Ended.brings {tag : Nat} {x : Txn} {v : Word} {err : Bool} {s t : State} (h : Ended tag x v err s t)
    (horphan : x.orphan = false) :
    (t.eng x.eng).record = (match x.word with
      | some i => (s.eng x.eng).record.map fun ws => ws.set i (some (if err then 0 else v))
      | none => (s.eng x.eng).record) ∧
    (∀ r, gr x.eng r t = match x.load with
      | some (k, rd) => if r = rd ∧ r ≠ 0 then (if err then 0 else loadDatum k x.addr.toNat v) else gr x.eng r s
      | none => gr x.eng r s) ∧
    (t.eng x.eng).remErr = if err then some ((s.eng x.eng).remErr.getD x.addr) else (s.eng x.eng).remErr := by
  have hown := h.own horphan
  refine ⟨congrArg Eng.record hown, fun r => ?_, congrArg Eng.remErr hown⟩
  rw [gr_delivered x _ err r hown]
  rcases x.load with _ | ⟨k, rd⟩
  · rfl
  · cases err
    · rfl
    · simp only [if_true, loadDatum_zero]

theorem completes_response {c : Instr} {p : Packet} {n : Nat} {v : Word} {x : Txn} {s : State}
    (hexec : exec c s = ok s (receive .damask p (isType n) (completeTxn p.tag v p.sup) s)) (hn : n < 8)
    (h : InOrder .damask p n s) (htxn : txnOf p.tag s = some x) (hwithheld : x.withheld = false)
    (hmode : (s.eng x.eng).mode = .run) : Completes c s (Ended p.tag x v p.sup s) := by
  rw [receive_sequenced h hn] at hexec
  refine completes_ok hexec ?_
  have honly := onlyLink_accepted .damask p s
  obtain ⟨hfree, hothers, hown⟩ := ended_completeTxn (v := v) (err := p.sup) (u := accepted .damask p s) htxn hwithheld hmode
    (by rw [honly]) (by rw [honly])
  exact ⟨hfree, hothers, hown⟩

/-! ## Events, samples and sealed bytes (R32, R33, R40) -/

theorem mem_evInsert (e : Event) (l : List Event) : e ∈ evInsert e l := by
  induction l with
  | nil => exact List.mem_singleton_self e
  | cons x xs ih =>
    rw [evInsert]
    split
    · exact List.mem_cons_self
    · exact List.mem_cons_of_mem x ih

theorem length_evInsert (e : Event) (l : List Event) : (evInsert e l).length = l.length + 1 := by
  induction l with
  | nil => rfl
  | cons x xs ih =>
    rw [evInsert]
    split
    · rfl
    · rw [List.length_cons, ih, List.length_cons]

theorem exec_eventPacket {p : Packet} {s : State} (h : InOrder .damask p tEvent s) : exec (.eventPacket p) s = ok s (
    if (packetEvent p).code = 0 then
      { accepted .damask p s with ev := { (accepted .damask p s).ev with levels := (p.word 3).extractLsb' 0 21 } }
    else evsTake { packetEvent p with ready := (accepted .damask p s).mtb } (accepted .damask p s)) :=
  congrArg (ok s) (receive_sequenced h (by decide) _)

theorem completes_eventPacket_levels {p : Packet} {s : State} (h : InOrder .damask p tEvent s) (hc : (packetEvent p).code = 0) :
    Completes (.eventPacket p) s fun t => t.ev.levels = (p.word 3).extractLsb' 0 21 ∧ t.ev.waiting = s.ev.waiting := by
  have honly := onlyLink_accepted .damask p s
  refine completes_ok (exec_eventPacket h) ?_
  rw [if_pos hc]
  exact ⟨rfl, congrArg (·.ev.waiting) honly⟩

theorem completes_eventPacket_event {p : Packet} {s : State} (h : InOrder .damask p tEvent s) (hc : (packetEvent p).code ≠ 0) :
    Completes (.eventPacket p) s fun t => t.ev.levels = s.ev.levels ∧
      { packetEvent p with ready := s.mtb } ∈ t.ev.waiting ∧ t.ev.waiting.length = s.ev.waiting.length + 1 := by
  have honly := onlyLink_accepted .damask p s
  have hev : (accepted .damask p s).ev = s.ev := by rw [honly]
  have hmtb : (accepted .damask p s).mtb = s.mtb := by rw [honly]
  refine completes_ok (exec_eventPacket h) ?_
  rw [if_neg hc, hmtb, kept_ev, evsTake, hev]
  exact ⟨rfl, mem_evInsert .., length_evInsert ..⟩

theorem exec_samplePacket {p : Packet} {s : State} (h : InOrder .damask p tSample s) :
    exec (.samplePacket p) s = ok s (samplePart p (accepted .damask p s)) :=
  congrArg (ok s) (receive_sequenced h (by decide) _)

/-- The first packet of a delivery of kind 1, not its last, is kept. -/
theorem samplePart_first {p : Packet} {s : State} (hkind : (p.word 0).extractLsb' 28 4 = 1)
    (hoff : (p.word 0).extractLsb' 0 16 = 0) (hlast : (p.word 0).getLsbD 26 = false) :
    (samplePart p s).inputs =
      { s.inputs with parts := (s.inputs.parts.filter fun x => x.1 != 1) ++ [(1, p.word 1, wordsBytes (p.data.drop 3))] } := by
  have hbit : (p.word 0)[26] = false := hlast
  unfold samplePart
  simp [hkind, hoff, hbit, setInputs]

theorem completes_samplePacket {p : Packet} {s : State} (h : InOrder .damask p tSample s)
    (hkind : (p.word 0).extractLsb' 28 4 = 1) (hoff : (p.word 0).extractLsb' 0 16 = 0)
    (hlast : (p.word 0).getLsbD 26 = false) : Completes (.samplePacket p) s fun t =>
      (1, p.word 1, wordsBytes (p.data.drop 3)) ∈ t.inputs.parts ∧ t.inputs.locals = s.inputs.locals := by
  have hinputs : (accepted .damask p s).inputs = s.inputs := by rw [onlyLink_accepted .damask p s]
  refine completes_ok (exec_samplePacket h) ?_
  rw [kept_inputs, samplePart_first hkind hoff hlast, hinputs]
  exact ⟨List.mem_append_right _ (List.mem_singleton_self _), rfl⟩

theorem length_wordsBytes_eq (ws : List Word) : (wordsBytes ws).length = 4 * ws.length := by
  induction ws with
  | nil => rfl
  | cons w ws ih =>
    show (wordBytes w ++ wordsBytes ws).length = _
    rw [List.length_append, ih, List.length_cons]
    show 4 + _ = _
    omega

/-- Sealed bytes that are not the whole transfer are gathered. -/
theorem sealedPart_open {d : Die} {p : Packet} {s : State} (hnone : (s.link d).sealIn = [])
    (hmore : ∀ n, sealLength (wordsBytes p.data) = some n → (wordsBytes p.data).length < n) :
    sealedPart d p s = s.setLink d { s.link d with sealIn := wordsBytes p.data } := by
  unfold sealedPart
  dsimp only
  rw [hnone, List.nil_append]
  split
  case h_1 n hn => rw [if_neg (by have := hmore n hn; omega)]
  case h_2 => rfl

theorem exec_sealedTransfer {d : Die} {p : Packet} {s : State} (h : InOrder d p tSealed s) :
    exec (.sealedTransfer d p) s = ok s (sealedPart d p (accepted d p s)) :=
  congrArg (ok s) (receive_sequenced h (by decide) _)

theorem completes_sealedTransfer {d : Die} {p : Packet} {s : State} (h : InOrder d p tSealed s)
    (hnone : (s.link d).sealIn = []) (hlong : 32 ≤ leField (wordsBytes p.data) 0 2) :
    Completes (.sealedTransfer d p) s fun t =>
      (t.link d).sealIn = wordsBytes p.data ∧ (t.link d).sealRx = (s.link d).sealRx := by
  have htook := took_accepted d p s
  have hcrc : p.data.length ≤ 16 := by
    obtain ⟨⟨hcrc, -⟩, -⟩ := h
    simp only [Packet.crcGood, Bool.and_eq_true, decide_eq_true_eq, beq_iff_eq] at hcrc
    omega
  refine completes_ok (exec_sealedTransfer h) ?_
  rw [sealedPart_open (htook.sealIn.trans hnone), kept_link, link_setLink_same]
  · exact ⟨rfl, htook.sealRx⟩
  · intro n hn
    rw [sealLength] at hn
    have hlen := length_wordsBytes_eq p.data
    split at hn
    · cases hn
      omega
    · cases hn

/-- Settles O33: a packet in sequence acts on the state in which it has been accepted (`receive_sequenced`), from which the
link alone has changed (`onlyLink_accepted`); an answer is the last packet of Muslin (`Serves.answered`). -/
theorem sequencedPacketsAct : Obligations.SequencedPacketsAct := by
  intro d p tie s
  dsimp only
  refine ⟨fun hw hroom _ => ⟨fun h => ⟨fun ha hoff => ?_, fun ha hflash => ?_⟩, fun h => ⟨fun ha hoff => ?_, fun ha => ?_⟩⟩,
    fun x htxn hwithheld hmode => ⟨fun h => ?_, fun h _ => ?_⟩,
    fun h => ⟨completes_eventPacket_levels h, completes_eventPacket_event h⟩, completes_samplePacket,
    fun h hnone _ => completes_sealedTransfer h hnone⟩
  · obtain ⟨t, ht, hrx, hanswer, hmem⟩ := completes_rdReq_irqEn hw hroom h ha hoff
    exact ⟨t, ht, hrx, hanswer, hmem⟩
  · obtain ⟨t, ht, ⟨hrx, hanswer, hmem⟩, hregs⟩ := completes_rdReq_unmapped hw hroom h ha hflash
    exact ⟨t, ht, hrx, hanswer, hmem, hregs⟩
  · obtain ⟨t, ht, ⟨hrx, hanswer, hmem⟩, hreg⟩ := completes_wrReq_irqEn (tie := tie) hw hroom h ha hoff
    exact ⟨t, ht, hrx, hanswer, hreg, hmem⟩
  · obtain ⟨t, ht, ⟨hrx, hanswer, hmem⟩, hregs⟩ := completes_wrReq_unmapped (tie := tie) hw hroom h ha
    exact ⟨t, ht, hrx, hanswer, hmem, hregs⟩
  · obtain ⟨t, ht, hended⟩ := completes_response (v := p.word 0) (c := .rdRsp p) (Eq.refl _) (by decide) h htxn hwithheld hmode
    exact ⟨t, ht, hended.txn, hended.others, hended.brings⟩
  · obtain ⟨t, ht, hended⟩ := completes_response (v := 0) (c := .wrRsp p) (Eq.refl _) (by decide) h htxn hwithheld hmode
    exact ⟨t, ht, hended.txn, hended.others, hended.brings⟩

end Sys2Proof.Machine
end

section
/-! Compare units, and the output image that leaves 20 µs before a field tick (R46, R205; O36). -/

namespace Sys2Proof.Machine

open Reg

/-! ## Time passes up to a count -/

theorem mtb_untilMtb {s : State} {n : Nat} (h : s.mtb ≤ n) (hn : n < 2 ^ 64) : (s.untilMtb n).mtb = n := by
  unfold State.untilMtb
  split
  · show (s.mtb + (n - s.mtb)) % 2 ^ 64 = n
    rw [Nat.add_sub_cancel' h, Nat.mod_eq_of_lt hn]
  · omega

/-! ## Compare units (R46) -/

theorem completes_mtbCompareFire {n : Fin 2} {s : State} (hon : damaskOn s = true) (hen : s.bit pMTB (cmpEn n.val) = true) :
    Completes (.mtbCompareFire n) s fun t => t.bit pMTB (cmpEn n.val) = false ∧ t.bit pMTB ⟨0x010, n.val, 1⟩ = true ∧
      (s.mtb ≤ cmpValue n.val s → cmpValue n.val s < 2 ^ 64 → t.mtb = cmpValue n.val s) := by
  have hexec : exec (.mtbCompareFire n) s = ok s (raise pMTB ⟨0x010, n.val, 1⟩
      ((s.untilMtb (cmpValue n.val s)).put pMTB (cmpEn n.val) 0)) := by
    show ok s (if damaskOn s && s.bit pMTB (cmpEn n.val) then _ else s) = _
    rw [hon, hen, if_pos (by decide)]
  have hrep := Reports.raise_put pMTB ⟨0x010, n.val, 1⟩ ((s.untilMtb (cmpValue n.val s)).put pMTB (cmpEn n.val) 0)
  have hquiet : ∀ n : Fin 2, reported (regKey pMTB 0x010) = false ∧ reported (regKey pMTB (cmpEn n.val).off) = false ∧
      fieldsApart pMTB ⟨0x010, n.val, 1⟩ pMTB (cmpEn n.val) = true ∧ n.val < 32 := by decide
  obtain ⟨hflag, hcmp, hapart, hlt⟩ := hquiet n
  refine completes_ok hexec ⟨?_, ?_, fun hle hn => ?_⟩
  · rw [kept_bit, hrep.bit hcmp, bit_put_fieldsApart hapart]
    exact bit_put_zero (show n.val + 1 ≤ 32 by omega)
  · rw [kept_bit, hrep.bit hflag]
    exact bit_put_one hlt rfl
  · rw [kept_mtb, hrep.mtb]
    exact mtb_untilMtb hle hn

/-! ## A bulk packet on its way -/

/-- A bulk packet with the words `ws` waits or is on the lanes. -/
def Carries (ws : List Word) (l : LinkDie) : Prop := ∃ q ∈ l.lanes ++ l.waiting, q.type = tBulk ∧ q.data = ws

theorem data_mkPacket (type : Nat) (sup : Bool) (dom : Dom) (tag : Nat) (seq : BitVec 7) (data : List Word) :
    (mkPacket type sup dom tag seq data).data = data := by
  unfold mkPacket
  rfl

theorem type_lt (p : Packet) : p.type < 16 := BitVec.isLt _

theorem type_numbered (p : Packet) (n : BitVec 7) : (p.numbered n).type = p.type := by
  rw [Packet.numbered, type_mkPacket, Nat.mod_eq_of_lt (type_lt p)]

theorem data_numbered (p : Packet) (n : BitVec 7) : (p.numbered n).data = p.data := by
  rw [Packet.numbered, data_mkPacket]

/-- A bulk packet that is sent or goes on waiting is carried. -/
theorem carries_pumpGo {d : Die} {ws : List Word} (w : List Packet) (blocked : List Nat) (held : List Packet) (s : State)
    (h : ∃ q ∈ (s.link d).lanes ++ held ++ w, q.type = tBulk ∧ q.data = ws) :
    Carries ws ((pumpGo d w blocked held s).link d) := by
  induction w generalizing blocked held s with
  | nil =>
    obtain ⟨q, hq, hbulk, hdata⟩ := h
    rw [pumpGo, link_setLink_same]
    refine ⟨q, ?_, hbulk, hdata⟩
    simpa using hq
  | cons p w ih =>
    obtain ⟨q, hq, hbulk, hdata⟩ := h
    rw [pumpGo]
    split
    · apply ih
      rw [link_transmit]
      simp only [List.mem_append, List.mem_cons, List.not_mem_nil, or_false] at hq ⊢
      rcases hq with (hq | hq) | rfl | hq
      · exact ⟨q, .inl (.inl (.inl hq)), hbulk, hdata⟩
      · exact ⟨q, .inl (.inr hq), hbulk, hdata⟩
      · exact ⟨q.numbered (s.link d).txSeq, .inl (.inl (.inr rfl)), by rw [type_numbered, hbulk],
          by rw [data_numbered, hdata]⟩
      · exact ⟨q, .inr hq, hbulk, hdata⟩
    · apply ih
      refine ⟨q, ?_, hbulk, hdata⟩
      simp only [List.mem_append, List.mem_cons] at hq ⊢
      tauto

theorem mem_enqueued {p q : Packet} {w : List Packet} (h : q = p ∨ q ∈ w) : q ∈ enqueued w p := by
  unfold enqueued
  split
  · rw [List.append_assoc, List.mem_append, List.mem_append, List.mem_singleton]
    rcases h with h | h
    · exact .inr (.inl h)
    · rw [← List.takeWhile_append_dropWhile (p := fun q => !isOther q) (l := w), List.mem_append] at h
      tauto
  · rw [List.mem_append, List.mem_singleton]
    exact h.symm

theorem carries_sendPacket {d : Die} {ws : List Word} {p : Packet} {s : State} (hup : s.linkUp d = true)
    (h : (p.type = tBulk ∧ p.data = ws) ∨ Carries ws (s.link d)) : Carries ws ((sendPacket d p s).link d) := by
  rw [sendPacket_up hup, link_pump]
  refine carries_pumpGo _ _ _ _ ?_
  rw [link_setLink_same, List.append_nil]
  rcases h with ⟨hbulk, hdata⟩ | ⟨q, hq, hbulk, hdata⟩
  · exact ⟨p, List.mem_append_right _ (mem_enqueued (.inl rfl)), hbulk, hdata⟩
  · refine ⟨q, ?_, hbulk, hdata⟩
    rw [List.mem_append] at hq ⊢
    exact hq.imp_right fun hq => mem_enqueued (.inr hq)

/-- What follows a bulk packet leaves it on its way. -/
theorem carries_forAll {d : Die} {ws : List Word} (ps : List Packet) {s : State} (hup : s.linkUp d = true)
    (h : Carries ws (s.link d)) : Carries ws ((forAll ps (sendPacket d) s).link d) := by
  induction ps generalizing s with
  | nil => exact h
  | cons p ps ih =>
    have hstill : Still (fun _ => true) s (sendPacket d p s) := .sendPacket .refl
    exact ih ((hstill.linkUp d).trans hup) (carries_sendPacket hup (.inr h))

/-- The first packet of a transfer of more than one packet is on its way. -/
theorem carries_sendBulk {d : Die} {xid : Nat} {ws : List Word} {s : State} (hup : s.linkUp d = true) (hlen : 15 < ws.length) :
    Carries (word (xid * 2 ^ 24 + 2 ^ 23) :: ws.take 15) ((sendBulk d xid ws s).link d) := by
  obtain ⟨n, hn⟩ : ∃ n, (ws.length + 14) / 15 = n + 1 := ⟨(ws.length + 14) / 15 - 1, by omega⟩
  rw [sendBulk, bulkPackets, hn, bulkPacketsGo, if_pos rfl, if_neg (by omega), Nat.add_zero, Nat.add_zero]
  have hfirst : Carries (word (xid * 2 ^ 24 + 2 ^ 23) :: ws.take 15)
      ((sendPacket d (mkPacket tBulk false 0 0 0 (word (xid * 2 ^ 24 + 2 ^ 23) :: ws.take 15)) s).link d) :=
    carries_sendPacket hup (.inl ⟨type_mkPacket .., data_mkPacket ..⟩)
  have hstill : Still (fun _ => true) s
      (sendPacket d (mkPacket tBulk false 0 0 0 (word (xid * 2 ^ 24 + 2 ^ 23) :: ws.take 15)) s) := .sendPacket .refl
  exact carries_forAll (bulkPacketsGo xid n (0 + 15) (ws.drop 15)) ((hstill.linkUp d).trans hup) hfirst

/-! ## The output image leaves (R205) -/

theorem length_bytes (s : State) (a n : Nat) : (s.bytes a n).length = n := by
  induction n generalizing a with
  | zero => rfl
  | succ n ih => rw [State.bytes, List.length_cons, ih]

theorem length_bytesWordsN (n : Nat) (bs : List Byte) : (bytesWordsN n bs).length = n := by
  induction n generalizing bs with
  | zero => rfl
  | succ n ih => rw [bytesWordsN, List.length_cons, ih]

/-- The bytes of the local output image. -/
def outputImage (s : State) : List Byte :=
  s.bytes (s.g pAIO AIO_OUTBASE_BASE * 16) 512 ++ s.bytes (s.g pDIO DIO_OUTBASE_BASE * 16) 48

theorem length_outputImage (s : State) : (bytesWords (outputImage s)).length = 140 := by
  rw [bytesWords, length_bytesWordsN, outputImage, List.length_append, length_bytes, length_bytes]

theorem le_nextCutoff (s : State) : s.mtb ≤ nextCutoff s := by
  unfold nextCutoff
  dsimp only
  split <;> split <;> omega

theorem nextCutoff_mod (s : State) : (nextCutoff s + 2000) % 100000 = 0 := by
  unfold nextCutoff
  dsimp only
  split <;> split <;> omega

/-- The bases of the local images are noted at the cut-off `c`, for the boundary it is of. -/
def cutoffNoted (c : Nat) (s : State) : State :=
  { s with
    sched := { s.sched with cutoff := c }
    field := { s.field with aoBased := s.g pAIO AIO_OUTBASE_BASE != 0, doBased := s.g pDIO DIO_OUTBASE_BASE != 0 } }

theorem cutoffAt_eq (c : Nat) (s : State) : cutoffAt c s =
    if (cutoffNoted c s).linkUp .damask then sendBulk .damask 0x01 (bytesWords (outputImage (cutoffNoted c s))) (cutoffNoted c s)
    else cutoffNoted c s := by
  unfold cutoffAt outputImage cutoffNoted
  dsimp only

/-- The local output image is read from the memory and the registers. -/
theorem outputImage_congr {s t : State} (hm : t.mem = s.mem) (hr : t.regs = s.regs) : outputImage t = outputImage s := by
  have hg (p : Nat) (f : Fld) : t.g p f = s.g p f := by rw [State.g, reg_of_regs hr, State.g]
  rw [outputImage, bytes_of_mem hm, bytes_of_mem hm, hg, hg, outputImage]

/-- The image that leaves at the cut-off `c` is on its way. -/
theorem carries_cutoffAt {c : Nat} {s : State} (hup : s.linkUp .damask = true) :
    Carries (0x01800000 :: (bytesWords (outputImage s)).take 15) (cutoffAt c s).damask := by
  have hnoted : (cutoffNoted c s).linkUp .damask = true := hup
  have himage : outputImage (cutoffNoted c s) = outputImage s := outputImage_congr (Eq.refl _) (Eq.refl _)
  have hcarries := carries_sendBulk (xid := 0x01) hnoted (ws := bytesWords (outputImage s)) (by rw [length_outputImage]; decide)
  rw [cutoffAt_eq, if_pos hnoted, himage]
  exact hcarries

theorem mtb_cutoffAt (c : Nat) (s : State) : (cutoffAt c s).mtb = s.mtb := by
  have hstill (ws : List Word) : Still (fun _ => true) (cutoffNoted c s) (sendBulk .damask 0x01 ws (cutoffNoted c s)) :=
    .sendBulk .refl
  rw [cutoffAt_eq]
  split
  · exact (hstill _).mtb
  · rfl

theorem completes_outputTransferCutoff {s : State} (hon : damaskOn s = true) (hlt : nextCutoff s < 2 ^ 64) :
    Completes .outputTransferCutoff s fun t => t.mtb = nextCutoff s ∧ (t.mtb + 2000) % 100000 = 0 ∧
      (s.linkUp .damask = true → Carries (0x01800000 :: (bytesWords (outputImage s)).take 15) t.damask) := by
  have hexec : exec .outputTransferCutoff s = ok s (cutoffAt (nextCutoff s) (s.untilMtb (nextCutoff s))) := by
    show ok s (if damaskOn s then _ else s) = _
    rw [if_pos hon]
  have hmtb : (cutoffAt (nextCutoff s) (s.untilMtb (nextCutoff s))).mtb = nextCutoff s := by
    rw [mtb_cutoffAt, mtb_untilMtb (le_nextCutoff s) hlt]
  refine completes_ok hexec ?_
  rw [kept_mtb, hmtb, kept_damask]
  refine ⟨rfl, nextCutoff_mod s, fun hup => ?_⟩
  rw [← outputImage_congr (mem_untilNow s .damask (nextCutoff s)) (regs_untilNow s .damask (nextCutoff s))]
  exact carries_cutoffAt ((linkUp_untilNow s .damask .damask (nextCutoff s)).trans hup)

end Sys2Proof.Machine
end

section
/-! A release that finds the task's scan not committed (R136; O36). -/

namespace Sys2Proof.Machine

open Reg

theorem task_untilMtb (n : Nat) (s : State) (t : TaskNo) : (s.untilMtb n).task t = s.task t := by
  unfold State.untilMtb
  split <;> rfl

theorem mem_untilMtb (n : Nat) (s : State) : (s.untilMtb n).mem = s.mem := mem_untilNow s .damask n

theorem g_untilMtb (n : Nat) (s : State) (p : Nat) (f : Fld) : (s.untilMtb n).g p f = s.g p f := by
  have hregs : (s.untilMtb n).regs = s.regs := regs_untilNow s .damask n
  rw [State.g, reg_of_regs hregs, State.g]

theorem task_put (s : State) (p : Nat) (f : Fld) (v : Nat) (t : TaskNo) : (s.put p f v).task t = s.task t := rfl

theorem task_raise {p : Nat} {f : Fld} (h : unheld p f = true) (s : State) (t : TaskNo) : (raise p f s).task t = s.task t :=
  (Still.refl.raise (T := fun _ => false) h).task (Eq.refl _)

/-! ## POLICY skips the release -/

/-- The release at base tick `b` is skipped: the flag, the count, and the scan that goes on. -/
def skipped (t : TaskNo) (b : Nat) (sc : Scan) (s : State) : State :=
  let s := setScan t (some { sc with overrunAt := b }) (raise pSCH SCH_IRQ_RAW_SKIP s)
  dropRelease t (s.setTask t { s.task t with lastRel := some b })

theorem overrun_skip {t : TaskNo} {b : Nat} {sc : Scan} {e : TaskEntry} {s : State} (hsc : (s.task t).scan = some sc)
    (he : (s.task t).entry = some e) (hb : sc.overrunAt ≠ b) (ha : e.abort = false) : overrun t b s = skipped t b sc s := by
  unfold overrun
  rw [hsc, he]
  dsimp only
  rw [if_neg hb, ha, if_neg Bool.false_ne_true, skipped]

theorem task_skipped (t : TaskNo) (b : Nat) (sc : Scan) (s : State) :
    (skipped t b sc s).task t = { s.task t with
      scan := some { sc with overrunAt := b }, lastRel := some b, skipped := min ((s.task t).skipped + 1) 0xFFFFFFFF } := by
  unfold skipped dropRelease setScan
  dsimp only
  rw [State.bump, task_put, task_setTask_same, task_setTask_same, task_setTask_same, task_raise rfl]

theorem g_setTask (s : State) (t : TaskNo) (x : Task) (p : Nat) (f : Fld) : (s.setTask t x).g p f = s.g p f := rfl

/-- Neither the flag of a skip or of an abort nor a count of a task is part of a report. -/
theorem unreported_task (t : TaskNo) : reported (regKey (tskPage t) TSK_SKIPS_COUNT.off) = false ∧
    reported (regKey (tskPage t) TSK_ABORTS_COUNT.off) = false := by
  revert t
  decide

theorem regKey_tskPage_ne (t : TaskNo) (off : Nat) {p off' : Nat} (hp : p < 100) (ho : off' < 4096) :
    regKey (tskPage t) off ≠ regKey p off' := by
  simp only [regKey, tskPage, pTask]
  omega

theorem g_skipped (t : TaskNo) (b : Nat) (sc : Scan) (s : State) : (skipped t b sc s).g (tskPage t) TSK_SKIPS_COUNT =
    min (s.g (tskPage t) TSK_SKIPS_COUNT + 1) (2 ^ TSK_SKIPS_COUNT.wid - 1) := by
  obtain ⟨hquiet, -⟩ := unreported_task t
  unfold skipped dropRelease setScan
  dsimp only
  rw [g_bump_same _ _ _ _ (by decide), g_setTask, g_setTask, g_setTask,
    (Reports.raise_put pSCH SCH_IRQ_RAW_SKIP s).g hquiet, g_put_ne _ _ (regKey_tskPage_ne t _ (by decide) (by decide))]

theorem bit_skipped (t : TaskNo) (b : Nat) (sc : Scan) (s : State) : (skipped t b sc s).bit pSCH SCH_IRQ_RAW_SKIP = true := by
  unfold skipped dropRelease setScan
  dsimp only
  rw [State.bit, State.bump, g_put_ne _ _ (regKey_tskPage_ne t _ (by decide) (by decide)).symm, g_setTask, g_setTask, g_setTask]
  exact ((Reports.raise_put pSCH SCH_IRQ_RAW_SKIP s).bit (p := pSCH) (f := SCH_IRQ_RAW_SKIP) rfl).trans
    (bit_put_one (by decide) rfl)

theorem mem_skipped (t : TaskNo) (b : Nat) (sc : Scan) (s : State) : (skipped t b sc s).mem = s.mem := by
  have hset (u : State) (x : Task) : (u.setTask t x).mem = u.mem := rfl
  unfold skipped dropRelease setScan
  dsimp only
  rw [State.bump, put_mem, hset, hset, hset, (Reports.raise_put pSCH SCH_IRQ_RAW_SKIP s).mem, put_mem]

theorem exec_scanDeadline {t : TaskNo} {b : Nat} {s : State} (h : deadlineTick t s = some b) :
    exec (.scanDeadline t) s = ok s (overrun t b (s.untilMtb (25000 * b))) := by
  show ok s (match deadlineTick t s with | some b => overrun t b (s.untilMtb (25000 * b)) | none => s) = _
  rw [h]

theorem completes_scanDeadline_skip {t : TaskNo} {b : Nat} {sc : Scan} {e : TaskEntry} {s : State}
    (he : (s.task t).entry = some e) (hsc : (s.task t).scan = some sc) (hd : deadlineTick t s = some b)
    (hb : sc.overrunAt ≠ b) (ha : e.abort = false) :
    Completes (.scanDeadline t) s fun u => (u.task t).scan = some { sc with overrunAt := b } ∧
      (u.task t).lastRel = some b ∧ u.bit pSCH SCH_IRQ_RAW_SKIP = true ∧ u.mem = s.mem ∧
      u.g (tskPage t) TSK_SKIPS_COUNT = min (s.g (tskPage t) TSK_SKIPS_COUNT + 1) (2 ^ TSK_SKIPS_COUNT.wid - 1) := by
  refine completes_ok (exec_scanDeadline hd) ?_
  rw [overrun_skip (by rw [task_untilMtb, hsc]) (by rw [task_untilMtb, he]) hb ha, kept_task, task_skipped, kept_bit,
    bit_skipped, kept_mem, mem_skipped, mem_untilMtb, kept_g, g_skipped, g_untilMtb]
  exact ⟨rfl, rfl, rfl, rfl, rfl⟩

/-! ## POLICY aborts the scan -/

/-- The flag of an abort and the count of the task's aborts are as they were. -/
structure Counted (n : TaskNo) (a s : State) : Prop where
  flag : s.bit pSCH SCH_IRQ_RAW_ABORT = a.bit pSCH SCH_IRQ_RAW_ABORT
  aborts : s.g (tskPage n) TSK_ABORTS_COUNT = a.g (tskPage n) TSK_ABORTS_COUNT

namespace Counted
variable {n : TaskNo} {a s t : State}

theorem of_regs (h : s.regs = a.regs) : Counted n a s :=
  ⟨by rw [State.bit, State.g, reg_of_regs h]; rfl, by rw [State.g, reg_of_regs h]; rfl⟩

theorem refl : Counted n a a := of_regs (Eq.refl _)

theorem trans (h : Counted n a s) (h' : Counted n s t) : Counted n a t := ⟨h'.flag.trans h.flag, h'.aborts.trans h.aborts⟩

theorem regs (h : Counted n a s) (hr : t.regs = s.regs) : Counted n a t := h.trans (of_regs hr)

theorem ite {c : Prop} [Decidable c] (h : Counted n a s) (h' : Counted n a t) : Counted n a (if c then s else t) := by
  split <;> assumption

/-- A field of a page below the tasks', apart from the flag. -/
theorem put {p : Nat} {f : Fld} {v : Nat} (h : Counted n a s) (hp : p < 100) (ho : f.off < 4096)
    (hf : fieldsApart p f pSCH SCH_IRQ_RAW_ABORT = true) : Counted n a (s.put p f v) :=
  h.trans ⟨bit_put_fieldsApart hf, g_put_ne s v (regKey_tskPage_ne n _ hp ho)⟩

/-- A field of a task's page in another register than the count. -/
theorem putTask {m : TaskNo} {f : Fld} {v : Nat} (h : Counted n a s) (ho : f.off < 4096) (hf : f.off / 4 ≠ 0x15) :
    Counted n a (s.put (tskPage m) f v) := by
  refine h.trans ⟨?_, g_put_ne s v ?_⟩
  · rw [State.bit, g_put_ne s v (regKey_tskPage_ne m _ (by decide) (by decide)).symm, State.bit]
  · simp only [regKey, tskPage, pTask, TSK_ABORTS_COUNT]
    omega

theorem setReg {off : Nat} {w : Word} (h : Counted n a s) (ho : off < 4096) (hf : off / 4 ≠ 4) :
    Counted n a (s.setReg pSCH off w) := by
  refine h.trans ⟨bit_setReg_ne ?_, ?_⟩
  · simp only [regKey, SCH_IRQ_RAW_ABORT]
    omega
  · rw [State.g, reg_setReg_ne _ _ (regKey_tskPage_ne n _ (by decide) ho), State.g]

theorem putTaskBit {off : Nat} {m : TaskNo} {b : Bool} (h : Counted n a s) (ho : off ∈ taskOffs) :
    Counted n a (s.putTaskBit off m b) := by
  have hoff : ∀ off ∈ taskOffs, ∀ m : TaskNo, off + 4 * (m.val / 32) < 4096 ∧ (off + 4 * (m.val / 32)) / 4 ≠ 4 := by decide
  obtain ⟨hlt, hne⟩ := hoff off ho m
  exact h.setReg hlt hne

theorem raise {p : Nat} {f : Fld} (h : Counted n a s) (hp : p < 100) (ho : f.off < 4096)
    (hf : fieldsApart p f pSCH SCH_IRQ_RAW_ABORT = true) : Counted n a (raise p f s) := by
  have hrep := Reports.raise_put p f s
  obtain ⟨-, hquiet⟩ := unreported_task n
  exact (h.put (v := 1) hp ho hf).trans ⟨hrep.bit rfl, hrep.g hquiet⟩

theorem setTask {m : TaskNo} {x : Task} (h : Counted n a s) : Counted n a (s.setTask m x) := h.regs rfl

theorem setScan {m : TaskNo} {x : Option Scan} (h : Counted n a s) : Counted n a (setScan m x s) := h.setTask

theorem setScanning {m : TaskNo} {b : Bool} (h : Counted n a s) : Counted n a (setScanning m b s) :=
  put (putTask (putTaskBit h (by decide)) (by decide) (by decide)) (by decide) (by decide) (by decide)

theorem finishMigration {m : TaskNo} (h : Counted n a s) : Counted n a (finishMigration m s) := by
  have hwest {u : State} {b : Bool} (hu : Counted n a u) : Counted n a (setWest m b u) :=
    putTask (putTaskBit hu (by decide)) (by decide) (by decide)
  have hmig {u : State} {b : Bool} (hu : Counted n a u) : Counted n a (setMigPend m b u) :=
    put (putTaskBit hu (by decide)) (by decide) (by decide) (by decide)
  unfold Machine.finishMigration
  exact ite (raise (hmig (hwest h)) (by decide) (by decide) (by decide)) h

theorem dropRelease {m : TaskNo} (h : Counted n a s) : Counted n a (dropRelease m s) :=
  putTask h.setTask (by decide) (by decide)

theorem startRelease {m : TaskNo} {b p : Nat} (h : Counted n a s) : Counted n a (startRelease m b p s) := by
  have hcopy {u : State} {k : Half} {c : CopyPhase} (hu : Counted n a u) : Counted n a (copyDue k c u) :=
    hu.regs (by cases k <;> rfl)
  unfold Machine.startRelease
  split
  · exact h
  · exact hcopy (setScanning (setScan (putTask (putTask h (by decide) (by decide)) (by decide) (by decide))))

theorem determineRelease {m : TaskNo} {b : Nat} (h : Counted n a s) : Counted n a (determineRelease m b s) := by
  have hset : Counted n a (s.setTask m { s.task m with lastRel := some b }) := h.setTask
  unfold Machine.determineRelease
  refine ite (dropRelease hset) (ite ?_ (startRelease hset))
  exact raise (put hset.setTask (by decide) (by decide) (by decide)) (by decide) (by decide) (by decide)

theorem forAll {f : α → State → State} (l : List α) (h : Counted n a s) (hf : ∀ x s, Counted n s (f x s)) :
    Counted n a (forAll l f s) := by
  induction l generalizing s with
  | nil => exact h
  | cons x l ih => exact ih (h.trans (hf x s))

theorem dropQueued {m : TaskNo} (h : Counted n a s) : Counted n a (dropQueued m s) :=
  h.forAll _ fun _ _ => of_regs rfl

theorem dropSnapshot {m : TaskNo} (h : Counted n a s) : Counted n a (dropSnapshot m s) :=
  h.forAll _ fun k _ => of_regs (by cases k <;> rfl)

theorem endJobs {m : TaskNo} (h : Counted n a s) : Counted n a (Machine.forAll allEngines (fun e s =>
    let x := s.eng e
    if runsLive m x then
      match x.job with
      | some j => s.setEng e { x with job := some { j with dead := true, viol := ⟨0, 0, 0⟩ } }
      | none => s
    else s) s) := by
  refine h.forAll _ fun e s => ite ?_ refl
  split
  · exact of_regs rfl
  · exact refl

theorem retireTaskLines {m : TaskNo} (h : Counted n a s) : Counted n a (retireTaskLines m s) := by
  have htags (l : List Nat) (u : State) (hu : Counted n a u) :
      Counted n a (Machine.forAll l (fun k s => setLineTag k none s) u) := hu.forAll l fun _ _ => of_regs rfl
  exact ite h (put ((htags _ _ h).regs rfl) (by decide) (by decide) (by decide))

end Counted

/-- The scan of a task is killed: its jobs, its lines and its queue go, and the scheduler shows no scan. -/
def scanGone (t : TaskNo) (s : State) : State :=
  let s := dropSnapshot t (dropQueued t s)
  let s := forAll allEngines (fun e s =>
    let x := s.eng e
    if runsLive t x then
      match x.job with
      | some j => s.setEng e { x with job := some { j with dead := true, viol := ⟨0, 0, 0⟩ } }
      | none => s
    else s) s
  let s := retireTaskLines t s
  setScanning t false (s.setTask t { s.task t with scan := none, aborted := min ((s.task t).aborted + 1) 0xFFFFFFFF })

theorem killScan_of_scan {t : TaskNo} {sc : Scan} {s : State} (h : (s.task t).scan = some sc) :
    killScan t s = finishMigration t ((scanGone t s).bump (tskPage t) TSK_ABORTS_COUNT) := by
  unfold killScan
  rw [h]
  rfl

theorem counted_scanGone (n t : TaskNo) (s : State) : Counted n s (scanGone t s) :=
  .setScanning (.setTask (.retireTaskLines (.endJobs (.dropSnapshot (.dropQueued .refl)))))

theorem g_killScan {t : TaskNo} {sc : Scan} {s : State} (h : (s.task t).scan = some sc) :
    (killScan t s).g (tskPage t) TSK_ABORTS_COUNT =
      min (s.g (tskPage t) TSK_ABORTS_COUNT + 1) (2 ^ TSK_ABORTS_COUNT.wid - 1) := by
  have hgone := counted_scanGone t t s
  have hfinish : Counted t ((scanGone t s).bump (tskPage t) TSK_ABORTS_COUNT)
      (finishMigration t ((scanGone t s).bump (tskPage t) TSK_ABORTS_COUNT)) := .finishMigration .refl
  rw [killScan_of_scan h, hfinish.aborts, g_bump_same _ _ _ _ (by decide), hgone.aborts]

theorem bit_killScan {t : TaskNo} {sc : Scan} {s : State} (h : (s.task t).scan = some sc) :
    (killScan t s).bit pSCH SCH_IRQ_RAW_ABORT = s.bit pSCH SCH_IRQ_RAW_ABORT := by
  have hgone := counted_scanGone t t s
  have hfinish : Counted t ((scanGone t s).bump (tskPage t) TSK_ABORTS_COUNT)
      (finishMigration t ((scanGone t s).bump (tskPage t) TSK_ABORTS_COUNT)) := .finishMigration .refl
  rw [killScan_of_scan h, hfinish.flag, State.bit, State.bump,
    g_put_ne _ _ (regKey_tskPage_ne t _ (by decide) (by decide)).symm, ← State.bit, hgone.flag]

theorem lastRel_dropRelease (t : TaskNo) (s : State) : ((dropRelease t s).task t).lastRel = (s.task t).lastRel := by
  rw [dropRelease, State.bump, task_put, task_setTask_same]

theorem task_copyDue (k : Half) (c : CopyPhase) (s : State) (t : TaskNo) : (copyDue k c s).task t = s.task t := by
  cases k <;> rfl

theorem task_setScanning (t : TaskNo) (b : Bool) (s : State) (n : TaskNo) : (setScanning t b s).task n = s.task n := rfl

theorem lastRel_startRelease (t : TaskNo) (b p : Nat) (s : State) :
    ((startRelease t b p s).task t).lastRel = (s.task t).lastRel := by
  unfold startRelease
  split
  · rfl
  · dsimp only
    rw [task_copyDue, task_setScanning, setScan, task_setTask_same]
    rfl

/-- The release of a task at base tick `b` is known once it is determined. -/
theorem lastRel_determineRelease (t : TaskNo) (b : Nat) (s : State) : ((determineRelease t b s).task t).lastRel = some b := by
  have hset : ((s.setTask t { s.task t with lastRel := some b }).task t).lastRel = some b := by rw [task_setTask_same]
  unfold determineRelease
  dsimp only
  split
  · rw [lastRel_dropRelease, hset]
  · split
    · rw [holdRelease, task_raise rfl, State.bump, task_put, task_setTask_same, hset]
    · rw [lastRel_startRelease, hset]

theorem overrun_abort {t : TaskNo} {b : Nat} {sc : Scan} {e : TaskEntry} {s : State} (hsc : (s.task t).scan = some sc)
    (he : (s.task t).entry = some e) (hb : sc.overrunAt ≠ b) (ha : e.abort = true) :
    overrun t b s = determineRelease t b (killScan t (raise pSCH SCH_IRQ_RAW_ABORT s)) := by
  unfold overrun
  rw [hsc, he]
  dsimp only
  rw [if_neg hb, if_pos ha]

theorem completes_scanDeadline_abort {t : TaskNo} {b : Nat} {sc : Scan} {e : TaskEntry} {s : State}
    (he : (s.task t).entry = some e) (hsc : (s.task t).scan = some sc) (hd : deadlineTick t s = some b)
    (hb : sc.overrunAt ≠ b) (ha : e.abort = true) :
    Completes (.scanDeadline t) s fun u => u.bit pSCH SCH_IRQ_RAW_ABORT = true ∧ (u.task t).lastRel = some b ∧
      u.g (tskPage t) TSK_ABORTS_COUNT = min (s.g (tskPage t) TSK_ABORTS_COUNT + 1) (2 ^ TSK_ABORTS_COUNT.wid - 1) := by
  refine completes_ok (exec_scanDeadline hd) ?_
  have hrep := Reports.raise_put pSCH SCH_IRQ_RAW_ABORT (s.untilMtb (25000 * b))
  obtain ⟨-, hquiet⟩ := unreported_task t
  have hscan : ((raise pSCH SCH_IRQ_RAW_ABORT (s.untilMtb (25000 * b))).task t).scan = some sc := by
    rw [task_raise rfl, task_untilMtb, hsc]
  have hcounted (u : State) : Counted t u (determineRelease t b u) := .determineRelease .refl
  rw [overrun_abort (by rw [task_untilMtb, hsc]) (by rw [task_untilMtb, he]) hb ha, kept_bit, (hcounted _).flag,
    bit_killScan hscan, hrep.bit rfl, kept_task, lastRel_determineRelease, kept_g, (hcounted _).aborts, g_killScan hscan,
    hrep.g hquiet, g_put_ne _ _ (regKey_tskPage_ne t _ (by decide) (by decide)), g_untilMtb]
  exact ⟨bit_put_one (by decide) rfl, rfl, rfl⟩

end Sys2Proof.Machine
end

section
/-! What the work of a base tick leaves alone (R117 to R119, R381 to R384, R388; O36). -/

namespace Sys2Proof.Machine

open Reg

/-- The activity that cluster `k` shows for the base tick that has ended (R381). -/
def showActivity (k : Nat) (s : State) : State :=
  (s.put (pENG + k) ENG_ACTIVITY_LANEBUSY (min 500000 (fabricClocks (tget (fun _ => 0) s.sched.laneBusy k)))).put
    (pENG + k) ENG_SOLVACT_BUSY (min 62500 (fabricClocks (tget (fun _ => 0) s.sched.solvBusy k)))

/-- The counts start anew. -/
def countsCleared (s : State) : State := { s with sched := { s.sched with laneBusy := [], solvBusy := [] } }

theorem activityTick_eq (s : State) : activityTick s = countsCleared
    (forAll (List.range 8) showActivity (forAll (List.range 8) countSolver (forAll allEngines countBusy s))) := by
  have hshow : showActivity = fun k s =>
      (s.put (pENG + k) ENG_ACTIVITY_LANEBUSY (min 500000 (fabricClocks (tget (fun _ => 0) s.sched.laneBusy k)))).put
        (pENG + k) ENG_SOLVACT_BUSY (min 62500 (fabricClocks (tget (fun _ => 0) s.sched.solvBusy k))) := by
    funext k s
    rw [showActivity]
  unfold activityTick countsCleared
  dsimp only
  rw [hshow]

namespace Still
variable {T : TaskNo → Bool} {a s : State}

/-! ### Activity, gating and the forecast -/

theorem countBusy {e : EngNo} (h : Still T a s) : Still T a (countBusy e s) := by
  unfold Machine.countBusy
  exact ite (setEng ⟨h.same⟩) h

theorem countSolver {k : Nat} (h : Still T a s) : Still T a (countSolver k s) := ite h ⟨h.same⟩

theorem unheld_cluster {k : Nat} (hk : k ∈ List.range 8) : ∀ f ∈ [ENG_ACTIVITY_LANEBUSY, ENG_SOLVACT_BUSY, ENG_STAT_GATED],
    unheld (pENG + k) f = true := by
  revert k
  decide

theorem showActivity {k : Nat} (h : Still T a s) (hk : k ∈ List.range 8) : Still T a (showActivity k s) := by
  unfold Machine.showActivity
  exact put (put h (unheld_cluster hk _ (by decide))) (unheld_cluster hk _ (by decide))

theorem countsCleared (h : Still T a s) : Still T a (countsCleared s) := ⟨h.same⟩

theorem activityTick (h : Still T a s) : Still T a (activityTick s) := by
  have hcount : Still T a (Machine.forAll (List.range 8) Machine.countSolver (Machine.forAll allEngines Machine.countBusy s)) :=
    (h.forAll _ fun _ _ => countBusy refl).forAll _ fun _ _ => countSolver refl
  have hshow := hcount.forAllMem (List.range 8) (f := Machine.showActivity) fun k hk s => showActivity refl hk
  rw [activityTick_eq]
  exact countsCleared hshow

theorem gateClusters (h : Still T a s) : Still T a (gateClusters s) := by
  refine h.forAllMem _ fun k hk s => ?_
  have hfld {f : Fld} (hf : f ∈ [ENG_ACTIVITY_LANEBUSY, ENG_SOLVACT_BUSY, ENG_STAT_GATED]) : unheld (pENG + k) f = true :=
    unheld_cluster hk f hf
  exact ifThen (putBit refl (hfld (by decide))) (put (put refl (hfld (by decide))) (hfld (by decide)))

/-! ### The switch of the Ethernet ports -/

theorem setComms {x : Comms} (h : Still T a s) : Still T a (s.setComms x) := h.update

theorem rxDrop (h : Still T a s) : Still T a (rxDrop s) := raise (bump h rfl) rfl

theorem txStamp {port tag at_ : Nat} (h : Still T a s) : Still T a (txStamp port tag at_ s) := ite (raise h rfl) (setComms h)

theorem ethSend {o : EthOut} {at_ : Nat} (h : Still T a s) : Still T a (ethSend o at_ s) := by
  unfold Machine.ethSend
  refine ite ?_ (ite ?_ (setComms h))
  · exact pushB_getD (setComms h) (rxDrop (setComms h)) rfl
  · dsimp only
    split
    · exact txStamp (setComms (setComms h))
    · exact setComms (setComms h)

theorem portPump {k n : Nat} (h : Still T a s) : Still T a (portPump k n s) := by
  induction n generalizing s with
  | zero => exact h
  | succ n ih =>
    unfold Machine.portPump
    dsimp only
    split
    · exact h
    · split
      · exact ih (ethSend (setComms h))
      · exact h

theorem ethTick (h : Still T a s) : Still T a (ethTick s) :=
  ite h (ite (setComms h) ((setComms h).forAll _ fun _ _ => portPump refl))

/-! ### Releases -/

theorem dropHeld {n : TaskNo} (h : Still T a s) (hn : T n = true) : Still T a (dropHeld n s) :=
  ite (bump (loseHeld h hn) rfl) h

theorem releaseTick {n : TaskNo} {b : Nat} (h : Still T a s) (hn : T n = true) : Still T a (releaseTick n b s) := by
  unfold Machine.releaseTick
  split
  · exact ite (ite (overrun (dropHeld h hn) hn) (determineRelease (dropHeld h hn) hn)) h
  · exact h

theorem periodTick {n : TaskNo} {b : Nat} (h : Still T a s) (hn : T n = true) : Still T a (periodTick n b s) := by
  unfold Machine.periodTick
  split
  · exact ite h (ite h (ite (setEnabled (setTask h hn) hn) (setTask h hn)))
  · exact h

/-- A held release that starts, or is lost, is one of the tasks that hold one. -/
theorem startHeld {b pf : Nat} (h : Still T a s) (hT : ∀ n, T n = true) : Still T a (startHeld b pf s) := by
  refine h.forAll _ fun n s => ?_
  split
  · exact ite (loseHeld refl (hT n)) (ite (startRelease (setTask refl (hT n)) (hT n)) refl)
  · exact refl

end Still

end Sys2Proof.Machine
end

section
/-! The clocks at a base tick: the time base, the count of base ticks and the tick's flag, which no work of the tick
changes, a switch of the profile included (R46, R117, R388; O36). -/

namespace Sys2Proof.Machine

open Reg

namespace Still
variable {T : TaskNo → Bool} {a s : State}

theorem ww {n : Nat} {w : Word} (h : Still T a s) : Still T a (s.ww n w) := by
  have hb {u : State} (hu : Still T a u) (k : Nat) (b : Byte) : Still T a (u.wb k b) := hu.update
  exact hb (hb (hb (hb h _ _) _ _) _ _) _ _

theorem writeOverrides {n : Nat} (h : Still T a s) : Still T a (writeOverrides n s) := h.forAll _ fun _ _ => ww refl

theorem setFb {c : FbNo} {x : FbChan} (h : Still T a s) : Still T a (s.setFb c x) := by
  unfold State.setFb
  split <;> exact h.update

theorem requestBank {c : FbNo} {bank : Nat} (h : Still T a s) : Still T a (requestBank c bank s) := by
  unfold Machine.requestBank
  split
  · exact raise (setReg h rfl) rfl
  · exact setFb h

theorem profileBanks {n : Nat} (h : Still T a s) : Still T a (profileBanks n s) :=
  h.forAll _ fun c _ => ifThen refl (requestBank (put refl (by revert c; decide)))

theorem aioCfgWrite {c : ChanNo} {x : Access} (h : Still T a s) : Still T a (aioCfgWrite c x s) := by
  have hpage : Nat.ble 68 (aioPage c) = true := by revert c; decide
  unfold Machine.aioCfgWrite
  refine ite h (ite (raise (put h ?_) rfl) (put (put (setReg h ?_) ?_) rfl))
  · rw [unheld, hpage, Bool.true_or]
  · rw [unheldReg, hpage, Bool.true_or]
  · rw [unheld, hpage, Bool.true_or]

/-- The two overload limits of the analog page. -/
theorem aioWrite_limit {off : Nat} {x : Access} (h : Still T a s) (ho : off = 0x04C ∨ off = 0x050) :
    Still T a (aioWrite off x s) := by
  unfold aioWrite
  rw [if_neg (by omega), if_neg (by omega), if_pos ho]
  exact ite (setReg h rfl) h

theorem profileAnalog {n : Nat} (h : Still T a s) : Still T a (profileAnalog n s) := by
  unfold Machine.profileAnalog
  refine ite (raise h rfl) (aioWrite_limit (aioWrite_limit (h.forAll _ fun c s => ?_) (.inl rfl)) (.inr rfl))
  exact ite refl (ite (raise (aioCfgWrite refl) rfl) (aioCfgWrite refl))

theorem profileTasks {n : Nat} (h : Still T a s) (hT : ∀ n, T n = true) : Still T a (profileTasks n s) := by
  unfold Machine.profileTasks
  exact ite (forAll _ ⟨h.same⟩ fun n _ => setTask refl (hT n)) h

end Still

/-- The time base, the count of base ticks and the tick's flag are as they were. -/
structure Clock (a s : State) : Prop where
  mtb : s.mtb = a.mtb
  btick : s.sched.btick = a.sched.btick
  flag : s.bit pMTB MTB_IRQ_RAW_BTICK = a.bit pMTB MTB_IRQ_RAW_BTICK

theorem Still.clock {T : TaskNo → Bool} {a s : State} (h : Still T a s) : Clock a s :=
  ⟨h.mtb, h.btick, h.bit (by decide)⟩

namespace Clock
variable {a s t : State}

theorem trans (h : Clock a s) (h' : Clock s t) : Clock a t :=
  ⟨h'.mtb.trans h.mtb, h'.btick.trans h.btick, h'.flag.trans h.flag⟩

theorem ite {c : Prop} [Decidable c] (h : Clock a s) (h' : Clock a t) : Clock a (if c then s else t) := by
  split <;> assumption

theorem put {p : Nat} {f : Fld} {v : Nat} (h : Clock a s) (hf : fieldsApart p f pMTB MTB_IRQ_RAW_BTICK = true) :
    Clock a (s.put p f v) := h.trans ⟨Eq.refl _, Eq.refl _, bit_put_fieldsApart hf⟩

theorem setPower {x : Power} (h : Clock a s) : Clock a { s with power := x } := ⟨h.mtb, h.btick, h.flag⟩

/-- The fields of the scheduler that a switch of the profile sets. -/
theorem setAccepted {m n : Nat} (h : Clock a s) : Clock a { s with sched := { s.sched with prevProfile := m, acceptedAt := n } } :=
  ⟨h.mtb, h.btick, h.flag⟩

theorem setDefer {x : Option (Nat × Nat)} (h : Clock a s) : Clock a { s with sched := { s.sched with defer := x } } :=
  ⟨h.mtb, h.btick, h.flag⟩

/-- A switch of the profile leaves the clocks. -/
theorem acceptProfile {n : Nat} (h : Clock a s) : Clock a (acceptProfile n s) := by
  have hrest {u : State} : Still (fun _ => true) u
      (Machine.profileAnalog n (Machine.profileBanks n (Machine.writeOverrides n (Machine.profileTasks n u)))) :=
    .profileAnalog (.profileBanks (.writeOverrides (.profileTasks .refl fun _ => rfl)))
  have hend {u : State} {w : Word} : Still (fun _ => true) u (Machine.raise pPRF PRF_IRQ_RAW_SWITCH (u.setReg pPMU 0x050 w)) :=
    .raise (.setReg .refl rfl) rfl
  have htime {u : State} {w : Word} : Still (fun _ => true) u (u.setReg pPRF 0x04C w) := .setReg .refl rfl
  unfold Machine.acceptProfile
  exact (((h.setAccepted.put (by decide)).trans htime.clock).trans hrest.clock).trans hend.clock

theorem switchProfile {n : Nat} (h : Clock a s) : Clock a (switchProfile n s).2 := by
  have hbad : Still (fun _ => true) s (Machine.raise pPRF PRF_IRQ_RAW_BADIMG s) := .raise .refl rfl
  unfold Machine.switchProfile
  split
  · exact h.acceptProfile
  · exact h.trans hbad.clock

theorem pinSample {v : Nat} (h : Clock a s) : Clock a (pinSample v s) := by
  unfold Machine.pinSample
  exact ite h (ite (setPower (switchProfile (put h.setPower (by decide)))) (put h.setPower (by decide)))

theorem powerTick {b : Nat} (h : Clock a s) : Clock a (powerTick b s) := by
  have hheld {u : State} {pf : Nat} : Still (fun _ => true) u (startHeld b pf u) := .startHeld .refl fun _ => rfl
  unfold Machine.powerTick
  exact put (((h.put (by decide)).setDefer).trans hheld.clock) (by decide)

end Clock

/-! ## The clocks after a base tick -/

/-- The state in which base tick `b` has begun: its flag is raised. -/
def tickBegun (b : Nat) (s : State) : State :=
  raise pMTB MTB_IRQ_RAW_BTICK { s.untilMtb (25000 * b) with sched := { (s.untilMtb (25000 * b)).sched with btick := b } }

/-- The work of base tick `b`: the profile pins, activity, releases, and the forecast for the next tick. -/
def tickWork (v : Fin 4) (b : Nat) (s : State) : State :=
  let s := pinSample v.val (forAll allTasks (fun t s => periodTick t b s) s)
  let s := activityTick s
  let s := forAll (byClass s) (fun t s => releaseTick t b s) s
  powerTick b (gateClusters (ethTick s))

theorem exec_baseTick {v : Fin 4} {s : State} (hon : damaskOn s = true) :
    exec (.baseTick v) s = ok s (tickWork v (s.sched.btick + 1) (tickBegun (s.sched.btick + 1) s)) := by
  show ok s (if damaskOn s then _ else s) = _
  rw [if_pos hon]
  rfl

theorem clock_tickWork (v : Fin 4) (b : Nat) (s : State) : Clock s (tickWork v b s) := by
  have hperiod : Still (fun _ => true) s (forAll allTasks (fun t s => periodTick t b s) s) :=
    .forAll _ .refl fun _ _ => .periodTick .refl rfl
  have hactivity {u : State} : Still (fun _ => true) u (activityTick u) := .activityTick .refl
  have hrelease {u : State} : Still (fun _ => true) u (forAll (byClass u) (fun t s => releaseTick t b s) u) :=
    .forAll _ .refl fun _ _ => .releaseTick .refl rfl
  have hrest {u : State} : Still (fun _ => true) u (gateClusters (ethTick u)) := .gateClusters (.ethTick .refl)
  unfold tickWork
  exact ((((hperiod.clock.pinSample).trans hactivity.clock).trans hrelease.clock).trans hrest.clock).powerTick

theorem clock_tickBegun (b : Nat) (s : State) : (tickBegun b s).mtb = (s.untilMtb (25000 * b)).mtb ∧
    (tickBegun b s).sched.btick = b ∧ (tickBegun b s).bit pMTB MTB_IRQ_RAW_BTICK = true := by
  have hraise := (Still.raise_put (T := fun _ => true) pMTB MTB_IRQ_RAW_BTICK
    { s.untilMtb (25000 * b) with sched := { (s.untilMtb (25000 * b)).sched with btick := b } }).clock
  exact ⟨hraise.mtb, hraise.btick, hraise.flag.trans (bit_put_one (by decide) rfl)⟩

theorem completes_baseTick_clock {v : Fin 4} {s : State} (hon : damaskOn s = true) :
    Completes (.baseTick v) s fun t => t.sched.btick = s.sched.btick + 1 ∧ t.bit pMTB MTB_IRQ_RAW_BTICK = true ∧
      (s.mtb ≤ 25000 * (s.sched.btick + 1) → 25000 * (s.sched.btick + 1) < 2 ^ 64 → t.mtb = 25000 * (s.sched.btick + 1)) := by
  refine completes_ok (exec_baseTick hon) ?_
  have hwork := clock_tickWork v (s.sched.btick + 1) (tickBegun (s.sched.btick + 1) s)
  obtain ⟨hmtb, hbtick, hflag⟩ := clock_tickBegun (s.sched.btick + 1) s
  rw [kept_sched, hwork.btick, hbtick, kept_bit, hwork.flag, hflag, kept_mtb, hwork.mtb, hmtb]
  exact ⟨rfl, rfl, mtb_untilMtb⟩

end Sys2Proof.Machine
end

section
/-! A base tick releases the tasks that are due (R117 to R119; O36): what makes a release due is kept by the work on the other
tasks, and the release, once made, is kept by all that follows. -/

namespace Sys2Proof.Machine

open Reg

/-! ## A task whose release is due -/

/-- Task `t` with entry `e` is due at base tick `b`, under profile `p`, and nothing keeps it from being released. -/
structure Due (t : TaskNo) (b p : Nat) (e : TaskEntry) (s : State) : Prop where
  entry : (s.task t).entry = some e
  enabled : taskEnabled t s = true
  on : s.bit pSCH SCH_STAT_EN = true
  released : halfHeld (taskHalf t s) s = false
  noScan : (s.task t).scan = none
  noHeld : (s.task t).heldRel = none
  fresh : ∀ r, (s.task t).lastRel = some r → r < b
  profile : profileAt b s = p
  phase : b % e.period = e.phase % e.period
  defer : s.sched.defer = none

/-- Every task but `t`. -/
def others (t : TaskNo) (n : TaskNo) : Bool := n != t

theorem others_self (t : TaskNo) : others t t = false := bne_self_eq_false t

theorem others_ne {t n : TaskNo} (h : n ≠ t) : others t n = true := bne_iff_ne.2 h

namespace Still
variable {T : TaskNo → Bool} {a s : State}

theorem taskEnabled (h : Still T a s) {t : TaskNo} (ht : T t = false) : taskEnabled t s = taskEnabled t a :=
  congrArg (fun l : List Bool => l.getD 0 false) (h.taskBits ht)

theorem taskHalf (h : Still T a s) {t : TaskNo} (ht : T t = false) : taskHalf t s = taskHalf t a := by
  have hwest : taskWest t s = taskWest t a := congrArg (fun l : List Bool => l.getD 2 false) (h.taskBits ht)
  rw [Machine.taskHalf, hwest, Machine.taskHalf]

theorem halfHeld (h : Still T a s) (k : Half) : halfHeld k s = halfHeld k a := by
  cases k
  · exact h.bit (p := pSCH) (f := SCH_CTRL_HOLDE) (by decide)
  · exact h.bit (p := pSCH) (f := SCH_CTRL_HOLDW) (by decide)

theorem profileAt (h : Still T a s) (b : Nat) : profileAt b s = profileAt b a := by
  have hactive : activeProfile s = activeProfile a := h.g (p := pPRF) (f := PRF_STAT_ACTIVE) (by decide)
  rw [Machine.profileAt, h.acceptedAt, hactive, h.prevProfile, Machine.profileAt]

/-- What does not touch the task leaves its release due. -/
theorem due (h : Still T a s) {t : TaskNo} {b p : Nat} {e : TaskEntry} (ht : T t = false) (hd : Due t b p e a) :
    Due t b p e s where
  entry := by rw [h.task ht]; exact hd.entry
  enabled := by rw [h.taskEnabled ht]; exact hd.enabled
  on := by rw [h.bit (by decide)]; exact hd.on
  released := by rw [h.taskHalf ht, h.halfHeld]; exact hd.released
  noScan := by rw [h.task ht]; exact hd.noScan
  noHeld := by rw [h.task ht]; exact hd.noHeld
  fresh := by rw [h.task ht]; exact hd.fresh
  profile := by rw [h.profileAt]; exact hd.profile
  phase := hd.phase
  defer := by rw [h.defer]; exact hd.defer

end Still

/-! ## The release -/

/-- Task `t` has been released at base tick `b` under profile `p`. -/
structure Released (t : TaskNo) (b p : Nat) (s : State) : Prop where
  scan : ∃ sc, (s.task t).scan = some sc ∧ sc.btick = b ∧ sc.phase = .due ∧ sc.profile = p
  lastRel : (s.task t).lastRel = some b
  noHeld : (s.task t).heldRel = none

theorem Released.of_task {t : TaskNo} {b p : Nat} {s u : State} (h : Released t b p s) (hu : u.task t = s.task t) :
    Released t b p u :=
  ⟨by rw [hu]; exact h.scan, by rw [hu]; exact h.lastRel, by rw [hu]; exact h.noHeld⟩

theorem released_startRelease {t : TaskNo} {b p : Nat} {e : TaskEntry} {s : State} (he : (s.task t).entry = some e)
    (hl : (s.task t).lastRel = some b) (hh : (s.task t).heldRel = none) : Released t b p (startRelease t b p s) := by
  unfold startRelease
  rw [he]
  dsimp only
  have htask (x : Scan) (u : State) (k : Half) (c : CopyPhase) :
      (copyDue k c (setScanning t true (setScan t (some x) u))).task t = { u.task t with scan := some x } := by
    rw [task_copyDue, task_setScanning, setScan, task_setTask_same]
  refine ⟨⟨_, by rw [htask], rfl, rfl, rfl⟩, ?_, ?_⟩
  · rw [htask]
    exact hl
  · rw [htask]
    exact hh

theorem Due.determined {t : TaskNo} {b p : Nat} {e : TaskEntry} {s : State} (h : Due t b p e s) :
    Released t b p (determineRelease t b s) := by
  have hdefer : isDeferred t b (s.setTask t { s.task t with lastRel := some b }) = false := by
    unfold isDeferred
    rw [show (s.setTask t { s.task t with lastRel := some b }).sched.defer = s.sched.defer from rfl, h.defer]
  have hheld : halfHeld (taskHalf t (s.setTask t { s.task t with lastRel := some b }))
      (s.setTask t { s.task t with lastRel := some b }) = false := h.released
  have hprofile : profileAt b (s.setTask t { s.task t with lastRel := some b }) = p := h.profile
  unfold determineRelease
  dsimp only
  rw [hheld, hdefer, if_neg Bool.false_ne_true, if_neg Bool.false_ne_true, hprofile]
  exact released_startRelease (by rw [task_setTask_same]; exact h.entry) (by rw [task_setTask_same])
    (by rw [task_setTask_same]; exact h.noHeld)

theorem Due.releaseTick {t : TaskNo} {b p : Nat} {e : TaskEntry} {s : State} (h : Due t b p e s) :
    Released t b p (releaseTick t b s) := by
  have hdrop : dropHeld t s = s := by
    rw [dropHeld, h.noHeld]
    rfl
  unfold Machine.releaseTick
  rw [h.entry, h.enabled, h.on, hdrop]
  dsimp only
  rw [h.noScan, h.phase, beq_self_eq_true]
  cases hlast : (s.task t).lastRel with
  | none => exact h.determined
  | some r =>
    have hlt := h.fresh r hlast
    dsimp only
    rw [if_pos (by rw [decide_eq_false (by omega : ¬ b ≤ r)]; rfl)]
    exact h.determined

/-- A release that is known is not made again. -/
theorem Released.releaseTick {t : TaskNo} {b p : Nat} {s : State} (h : Released t b p s) : releaseTick t b s = s := by
  unfold Machine.releaseTick
  rw [h.lastRel]
  split
  · dsimp only
    rw [decide_eq_true (Nat.le_refl b), Bool.not_true, Bool.and_false, if_neg Bool.false_ne_true]
  · rfl

/-! ## The tasks in turn -/

/-- What every step on an element of the list keeps, the whole of the steps keeps. -/
theorem forAll_keepsMem {P : State → Prop} {f : α → State → State} (l : List α) {s : State} (h : P s)
    (hf : ∀ x ∈ l, ∀ s, P s → P (f x s)) : P (forAll l f s) := by
  induction l generalizing s with
  | nil => exact h
  | cons x l ih => exact ih (hf x List.mem_cons_self s h) fun y hy => hf y (List.mem_cons_of_mem x hy)

theorem mem_byClass {t : TaskNo} {e : TaskEntry} {s : State} (he : (s.task t).entry = some e) : t ∈ byClass s := by
  have hclass : taskClass t s = e.cls.val := by
    unfold taskClass
    rw [he]
  unfold byClass
  rw [List.mem_flatMap]
  refine ⟨e.cls.val, List.mem_range.2 e.cls.isLt, List.mem_filter.2 ⟨List.mem_finRange t, ?_⟩⟩
  rw [hclass, beq_self_eq_true]

/-- A task whose release is due is released when its turn comes. -/
theorem Due.forAll_releaseTick {t : TaskNo} {b p : Nat} {e : TaskEntry} {s : State} (h : Due t b p e s) {l : List TaskNo}
    (ht : t ∈ l) : Released t b p (forAll l (fun n s => Machine.releaseTick n b s) s) := by
  have hothers {n : TaskNo} (hn : n ≠ t) (u : State) : Still (others t) u (Machine.releaseTick n b u) :=
    .releaseTick .refl (others_ne hn)
  induction l generalizing s with
  | nil => exact absurd ht List.not_mem_nil
  | cons n l ih =>
    by_cases hn : n = t
    · subst hn
      refine forAll_keepsMem l h.releaseTick fun m _ u hu => ?_
      by_cases hm : m = n
      · subst hm
        rwa [hu.releaseTick]
      · exact hu.of_task ((hothers hm u).task (others_self n))
    · have hl : t ∈ l := (List.mem_cons.1 ht).resolve_left fun he => hn he.symm
      exact ih ((hothers hn s).due (others_self t) h) hl

/-- The release stands while held releases of other tasks start. -/
theorem Released.startHeld {t : TaskNo} {b p b' pf : Nat} {s : State} (h : Released t b p s) :
    Released t b p (startHeld b' pf s) := by
  unfold Machine.startHeld
  refine forAll_keepsMem _ h fun n _ u hu => ?_
  by_cases hn : n = t
  · subst hn
    rw [hu.noHeld]
    exact hu
  · split
    · refine hu.of_task (Still.task (T := others t) ?_ (others_self t))
      exact .ite (.loseHeld .refl (others_ne hn))
        (.ite (.startRelease (.setTask .refl (others_ne hn)) (others_ne hn)) .refl)
    · exact hu

theorem Released.powerTick {t : TaskNo} {b p b' : Nat} {s : State} (h : Released t b p s) : Released t b p (powerTick b' s) := by
  unfold Machine.powerTick
  refine Released.of_task (Released.startHeld (Released.of_task h ?_)) (Eq.refl _)
  rfl

/-! ## The profile's periods (R119) -/

theorem mem_periodTick (n : TaskNo) (b : Nat) (s : State) : (periodTick n b s).mem = s.mem := by
  unfold periodTick
  split
  · split
    · rfl
    · dsimp only
      split
      · rfl
      · split <;> rfl
  · rfl

/-- The release of a task is due, and its period is the one of the profile in force. -/
structure DueNow (t : TaskNo) (b p : Nat) (e : TaskEntry) (s : State) : Prop where
  due : Due t b p e s
  period : profilePeriod p t s = e.period
  pins : s.bit pPRF PRF_STAT_PINEN = false

theorem DueNow.periodTick_self {t : TaskNo} {b p : Nat} {e : TaskEntry} {s : State} (h : DueNow t b p e s) :
    periodTick t b s = s := by
  unfold periodTick
  rw [h.due.entry]
  dsimp only
  rw [h.due.enabled, h.due.profile, h.period, if_neg (by decide), if_pos rfl]

/-- What touches neither the task nor the memory leaves its release due. -/
theorem DueNow.of_still {t : TaskNo} {b p : Nat} {e : TaskEntry} {s u : State} (h : DueNow t b p e s)
    (hstill : Still (others t) s u) (hmem : u.mem = s.mem) : DueNow t b p e u := by
  refine ⟨hstill.due (others_self t) h.due, ?_, by rw [hstill.bit (by decide)]; exact h.pins⟩
  have himage : prfImage p u = prfImage p s := by
    rw [prfImage, hstill.g (p := pPRF) (f := PRF_BASE_BASE) (by decide), prfImage]
  rw [profilePeriod, himage, State.rw, State.rb, State.rb, State.rb, State.rb, hmem]
  exact h.period

theorem DueNow.periodTick_other {t n : TaskNo} {b p : Nat} {e : TaskEntry} {s : State} (h : DueNow t b p e s) (hn : n ≠ t) :
    DueNow t b p e (periodTick n b s) :=
  h.of_still (.periodTick .refl (others_ne hn)) (mem_periodTick n b s)

theorem DueNow.forAll_periodTick {t : TaskNo} {b p : Nat} {e : TaskEntry} {s : State} (h : DueNow t b p e s) :
    DueNow t b p e (forAll allTasks (fun n s => periodTick n b s) s) := by
  refine forAll_keepsMem _ h fun n _ u hu => ?_
  by_cases hn : n = t
  · subst hn
    rwa [hu.periodTick_self]
  · exact hu.periodTick_other hn

theorem pinSample_of_not_pinen {v : Nat} {s : State} (h : s.bit pPRF PRF_STAT_PINEN = false) : pinSample v s = s := by
  unfold pinSample
  rw [h]
  rfl

/-- The work of a base tick releases a task that is due. -/
theorem DueNow.tickWork {v : Fin 4} {t : TaskNo} {b p : Nat} {e : TaskEntry} {s : State} (h : DueNow t b p e s) :
    Released t b p (tickWork v b s) := by
  have hperiod := h.forAll_periodTick
  have hactivity : Still (others t) (forAll allTasks (fun n s => periodTick n b s) s)
      (activityTick (forAll allTasks (fun n s => periodTick n b s) s)) := .activityTick .refl
  have hdue := hactivity.due (others_self t) hperiod.due
  have hreleased := hdue.forAll_releaseTick (mem_byClass hdue.entry)
  have hrest {u : State} : Still (others t) u (gateClusters (ethTick u)) := .gateClusters (.ethTick .refl)
  unfold Machine.tickWork
  dsimp only
  rw [pinSample_of_not_pinen hperiod.pins]
  exact (hreleased.of_task (hrest.task (others_self t))).powerTick

/-! ## The release of the statement -/

/-- The clocks say nothing of the tasks. -/
theorem DueNow.timed {t : TaskNo} {b p m r k : Nat} {e : TaskEntry} {s : State} (h : DueNow t b p e s) :
    DueNow t b p e { s with mtb := m, replica := r, sched := { s.sched with btick := k } } := by
  obtain ⟨⟨hentry, henabled, hon, hreleased, hscan, hheld, hfresh, hprofile, hphase, hdefer⟩, hperiod, hpins⟩ := h
  exact ⟨⟨hentry, henabled, hon, hreleased, hscan, hheld, hfresh, hprofile, hphase, hdefer⟩, hperiod, hpins⟩

/-- Nor does the tick's flag. -/
theorem DueNow.flag {t : TaskNo} {b p : Nat} {e : TaskEntry} {s : State} (h : DueNow t b p e s) :
    DueNow t b p e (s.put pMTB MTB_IRQ_RAW_BTICK 1) := by
  have hg {q : Nat} {f : Fld} (hf : fieldsApart pMTB MTB_IRQ_RAW_BTICK q f = true) :
      (s.put pMTB MTB_IRQ_RAW_BTICK 1).g q f = s.g q f := g_put_fieldsApart s 1 hf
  have hbit {q : Nat} {f : Fld} (hf : fieldsApart pMTB MTB_IRQ_RAW_BTICK q f = true) :
      (s.put pMTB MTB_IRQ_RAW_BTICK 1).bit q f = s.bit q f := bit_put_fieldsApart hf
  have htask {off : Nat} (ho : off < 2048) : (s.put pMTB MTB_IRQ_RAW_BTICK 1).taskBit off t = s.taskBit off t := by
    rw [State.taskBit, reg_put_ne, State.taskBit]
    simp only [regKey, MTB_IRQ_RAW_BTICK, pSCH, pMTB]
    omega
  have hhalf : taskHalf t (s.put pMTB MTB_IRQ_RAW_BTICK 1) = taskHalf t s := by
    rw [taskHalf, taskWest, htask (by decide), taskHalf, taskWest]
  obtain ⟨⟨hentry, henabled, hon, hreleased, hscan, hheld, hfresh, hprofile, hphase, hdefer⟩, hperiod, hpins⟩ := h
  exact
    { due :=
        { entry := hentry
          enabled := by rw [taskEnabled, htask (by decide)]; exact henabled
          on := by rw [hbit (by decide)]; exact hon
          released := by
            rw [hhalf]
            cases hk : taskHalf t s <;> rw [hk] at hreleased <;> rw [halfHeld, hbit (by decide)] <;> exact hreleased
          noScan := hscan
          noHeld := hheld
          fresh := hfresh
          profile := by rw [profileAt, activeProfile, hg (by decide)]; exact hprofile
          phase := hphase
          defer := hdefer }
      period := by rw [profilePeriod, prfImage, hg (by decide)]; exact hperiod
      pins := by rw [hbit (by decide)]; exact hpins }

theorem DueNow.tickBegun {t : TaskNo} {b p : Nat} {e : TaskEntry} {s : State} (h : DueNow t b p e s) :
    DueNow t b p e (tickBegun b s) := by
  have htimed : { s.untilMtb (25000 * b) with sched := { (s.untilMtb (25000 * b)).sched with btick := b } } =
      { s with mtb := (s.untilMtb (25000 * b)).mtb, replica := (s.untilMtb (25000 * b)).replica,
               sched := { s.sched with btick := b } } := by
    unfold State.untilMtb
    split <;> rfl
  unfold Machine.tickBegun
  rw [htimed]
  exact h.timed.flag.of_still (.raise_put ..) (Reports.raise_put ..).mem

theorem completes_baseTick_release {v : Fin 4} {t : TaskNo} {p : Nat} {e : TaskEntry} {s : State} (hon : damaskOn s = true)
    (h : DueNow t (s.sched.btick + 1) p e s) : Completes (.baseTick v) s fun u => ∃ sc, (u.task t).scan = some sc ∧
      sc.btick = s.sched.btick + 1 ∧ sc.phase = .due ∧ sc.profile = p ∧ (u.task t).lastRel = some (s.sched.btick + 1) := by
  refine completes_ok (exec_baseTick hon) ?_
  obtain ⟨⟨sc, hsc, hb, hphase, hp⟩, hlast, -⟩ := h.tickBegun.tickWork (v := v)
  exact ⟨sc, hsc, hb, hphase, hp, hlast⟩

end Sys2Proof.Machine
end

section
/-! The field tick (R205, R420; O36): what the boundary does leaves the replica and the number of the tick. -/

namespace Sys2Proof.Machine

open Reg

/-- The replica and the number of the field tick are as they were. -/
structure FieldClock (a s : State) : Prop where
  replica : s.replica = a.replica
  tick : s.field.tick = a.field.tick

theorem Still.fieldClock {T : TaskNo → Bool} {a s : State} (h : Still T a s) : FieldClock a s := ⟨h.replica, h.fieldTick⟩

namespace FieldClock
variable {a s t : State}

theorem refl : FieldClock a a := ⟨Eq.refl _, Eq.refl _⟩

theorem trans (h : FieldClock a s) (h' : FieldClock s t) : FieldClock a t :=
  ⟨h'.replica.trans h.replica, h'.tick.trans h.tick⟩

theorem ite {c : Prop} [Decidable c] (h : FieldClock a s) (h' : FieldClock a t) : FieldClock a (if c then s else t) := by
  split <;> assumption

theorem put {p : Nat} {f : Fld} {v : Nat} (h : FieldClock a s) : FieldClock a (s.put p f v) := ⟨h.replica, h.tick⟩

theorem putBit {p : Nat} {f : Fld} {b : Bool} (h : FieldClock a s) : FieldClock a (s.putBit p f b) := h.put

theorem raise {p : Nat} {f : Fld} (h : FieldClock a s) : FieldClock a (raise p f s) :=
  h.put.trans (Still.raise_put (T := fun _ => true) p f s).fieldClock

theorem still (h : FieldClock a s) (hs : Still (fun _ => true) s t) : FieldClock a t := h.trans hs.fieldClock

theorem forAll {f : α → State → State} (l : List α) (h : FieldClock a s) (hf : ∀ x s, FieldClock s (f x s)) :
    FieldClock a (forAll l f s) := by
  induction l generalizing s with
  | nil => exact h
  | cons x l ih => exact ih (h.trans (hf x s))

/-! ### The analog channels (R205) -/

theorem setAin {n : ChanNo} {x : Ain} (h : FieldClock a s) : FieldClock a (s.setAin n x) := ⟨h.replica, h.tick⟩

theorem startOff {n : ChanNo} (h : FieldClock a s) : FieldClock a (startOff n s) := ite h h.setAin

theorem muslinFault {p c : Nat} {masked : Bool} {addr : Word} (h : FieldClock a s) : FieldClock a (muslinFault p c masked addr s) :=
  h.still (.muslinFault .refl)

theorem raiseIf {c : Prop} [Decidable c] {p : Nat} {f : Fld} (h : FieldClock a s) :
    FieldClock a (if c then Machine.raise p f s else s) := ite (raise h) h

theorem faultIf {c : Prop} [Decidable c] {p n : Nat} {masked : Bool} {addr : Word} (h : FieldClock a s) :
    FieldClock a (if c then Machine.muslinFault p n masked addr s else s) := ite (muslinFault h) h

theorem evaluate {n : ChanNo} {f : Nat} {x : AioSample} (h : FieldClock a s) : FieldClock a (evaluate n f x s) := by
  have hflags (g : Nat → Bool) (p : Nat) (u : State) :
      FieldClock u (Machine.forAll (List.range 5) (fun k s => s.putBit p (flagFld n k) (g k)) u) :=
    refl.forAll _ fun _ _ => putBit refl
  unfold Machine.evaluate
  have hshown {u : State} (hu : FieldClock a u) {p t' c' : Nat} {b₁ b₂ b₃ b₄ : Bool} :
      FieldClock a ((((((u.put p (af AIOC_STS_TICK n) t').put p (af AIOC_STS_CLASS n) c').putBit p
        (af AIOC_STS_SETTLE n) b₁).putBit p (af AIOC_STS_NEWVAL n) b₂).putBit p (af AIOC_STS_HELD n) b₃).putBit p
        (af AIOC_STS_SAFEOUT n) b₄) := putBit (putBit (putBit (putBit (put (put hu)))))
  exact raiseIf (raiseIf (faultIf (raiseIf (put (put (put (putBit (putBit (putBit
    (hshown (h.setAin.trans (hflags _ _ _))))))))))))

theorem syncAioStat {p : Nat} (h : FieldClock a s) : FieldClock a (syncAioStat p s) := put (put h)

theorem advanceCfg {n : ChanNo} (h : FieldClock a s) : FieldClock a (advanceCfg n s) := h.setAin

theorem driveChan {n : ChanNo} {m : HoldMode} {xfer : Option (List Byte)} (h : FieldClock a s) :
    FieldClock a (driveChan n m xfer s) := ite h.setAin h.setAin

/-! ### The digital channels and the output hold -/

theorem setDio {x : Dio} (h : FieldClock a s) : FieldClock a (s.setDio x) := ⟨h.replica, h.tick⟩

theorem syncDio (h : FieldClock a s) : FieldClock a (syncDio s) := putBit (put (put h.setDio))

theorem deliver {kind key : Nat} {w1 : Word} {bs : List Byte} (h : FieldClock a s) : FieldClock a (deliver kind key w1 bs s) :=
  h.still (.deliver .refl)

theorem dioSample {f : Nat} {x : FieldSample} (h : FieldClock a s) : FieldClock a (dioSample f x s) := by
  have hchanged {u : State} {c : Prop} [Decidable c] (hu : FieldClock a u) :
      FieldClock a (if c then u else Machine.raise pDIO DIO_IRQ_RAW_DICHG u) := ite hu (raise hu)
  have himage {u : State} {c : Prop} [Decidable c] {w1 : Word} {bs : List Byte} (hu : FieldClock a u) :
      FieldClock a (if c then Machine.deliver 2 2 w1 bs u else u) := ite (deliver hu) hu
  unfold Machine.dioSample
  exact setDio (himage (hchanged (put h.setDio)))

theorem dioDrive {m : HoldMode} {xfer : Option (List Byte)} (h : FieldClock a s) : FieldClock a (dioDrive m xfer s) := by
  unfold Machine.dioDrive
  exact syncDio (raiseIf h.setDio)

theorem ohmBoundary (h : FieldClock a s) : FieldClock a (ohmBoundary s) :=
  ite h (ite (put (put (put h))) (ite (raise (put h)) h))

theorem fieldBoundary {f : Nat} {x : FieldSample} (h : FieldClock a s) : FieldClock a (fieldBoundary f x s) := by
  have himage {u : State} {c : Prop} [Decidable c] {w1 : Word} {bs : List Byte} (hu : FieldClock a u) :
      FieldClock a (if c then Machine.deliver 1 1 w1 bs u else u) := ite (deliver hu) hu
  have hsample {u : State} {l : List ChanNo} (hu : FieldClock a u) :
      FieldClock a (Machine.forAll (List.range 4) (fun k s => Machine.syncAioStat (pAIOC + k) s)
        (Machine.forAll l (fun n s => Machine.evaluate n f (x.analog.getD n.val ⟨0, 0, 0, 0, false, false⟩) s)
          (Machine.forAll l Machine.startOff u))) :=
    ((hu.forAll _ fun _ _ => startOff refl).forAll _ fun _ _ => evaluate refl).forAll _ fun _ _ => syncAioStat refl
  have hconfig {u : State} {l : List ChanNo} (hu : FieldClock a u) : FieldClock a (Machine.forAll l Machine.advanceCfg u) :=
    hu.forAll _ fun _ _ => advanceCfg refl
  have hdrive {u : State} {l : List ChanNo} {m : HoldMode} {xfer : Option (List Byte)} (hu : FieldClock a u) :
      FieldClock a (Machine.forAll l (fun n s => Machine.driveChan n m xfer s) u) :=
    hu.forAll _ fun _ _ => driveChan refl
  have hdone {u : State} (hu : FieldClock a u) : FieldClock a { u with field := { u.field with xfer := none } } :=
    ⟨hu.replica, hu.tick⟩
  unfold Machine.fieldBoundary
  exact hdone (dioDrive (hdrive (raiseIf (hconfig (ohmBoundary (dioSample (himage (hsample
    (putBit (raiseIf (putBit (put h))))))))))))

/-! ### The modems at the boundary -/

theorem hartAbort {n : ChanNo} (h : FieldClock a s) : FieldClock a (hartAbort n s) := by
  have hstaged (k : Nat) (u : State) : Still (fun _ => true) u (hartAbortStaged n k u) := by
    induction k generalizing u with
    | zero => exact .refl
    | succ k ih => exact (Still.hartEnd .refl).trans (ih _)
  have hend {u : State} {st : Word} : Still (fun _ => true) u (Machine.hartEnd n hsAborted 0 st [] u) := .hartEnd .refl
  unfold Machine.hartAbort
  exact h.still (.syncHart (((Still.setModem .refl).trans hend).trans (hstaged _ _)))

theorem hartBoundary {n : ChanNo} {w : Word} (h : FieldClock a s) : FieldClock a (hartBoundary n w s) :=
  (ite (hartAbort h) h).still (.hartStop .refl)

/-! ### The flash controller admits an operation -/

theorem evrKick (h : FieldClock a s) : FieldClock a (evrKick s) := ite (h.still (.askFlash .refl)) h

theorem setFlash {x : Flash} (h : FieldClock a s) : FieldClock a (s.setFlash x) := ⟨h.replica, h.tick⟩

theorem setEvr {x : Recorder} (h : FieldClock a s) : FieldClock a (s.setEvr x) := ⟨h.replica, h.tick⟩

theorem placeRecord {p off : Nat} {data : List Byte} {seq : Option Nat} {c : Bool} (h : FieldClock a s) :
    FieldClock a (placeRecord p off data seq c s).2 := by
  have hseq {u : State} {c : Prop} [Decidable c] {n : Nat} (hu : FieldClock a u) :
      FieldClock a (if c then u.put pNVM NVM_NEXTSEQ_SEQ n else u) := ite hu.put hu
  have hfree {u : State} {n : Nat} (hu : FieldClock a u) : FieldClock a { u with freed := n } := ⟨hu.replica, hu.tick⟩
  unfold Machine.placeRecord
  dsimp only
  split
  · exact hseq h
  · exact hfree (hseq h)

theorem syncQlevel (h : FieldClock a s) : FieldClock a (syncQlevel s) := h.put

theorem eraseAhead (h : FieldClock a s) : FieldClock a (eraseAhead s) := ite h (h.still (.askFlash .refl))

theorem advanceWp (h : FieldClock a s) : FieldClock a (advanceWp s) := ite (eraseAhead h.setEvr) h.setEvr

theorem recordLost (h : FieldClock a s) : FieldClock a (recordLost s) := ite h (syncQlevel (setEvr h.put))

theorem logSteps (h : FieldClock a s) : FieldClock a (logSteps s).2 := by
  unfold Machine.logSteps
  split
  · exact advanceWp (recordLost (syncQlevel h.setEvr))
  · exact h

theorem commitRead (h : FieldClock a s) : FieldClock a (commitRead s) := by
  have hfree {n : Nat} : FieldClock a { s with freed := n } := ⟨h.replica, h.tick⟩
  exact hfree.still (.eccIn (.eccIn .refl))

/-- The steps of an operation take places of the flash; the clock stays. -/
theorem flashSteps {o : FlashOp} {x : List FlashStep × Nat × State} (h : FieldClock a s)
    (hx : flashSteps o s = some x) : FieldClock a x.2.2 := by
  unfold Machine.flashSteps at hx
  dsimp only at hx
  split at hx
  case h_1 => cases hx; exact h
  case h_2 => cases hx; exact h
  case h_3 =>
    split at hx
    · cases hx; exact placeRecord h
    · cases hx
  case h_4 =>
    split at hx
    · cases hx; exact h
    · split at hx
      · cases hx; exact h
      · cases hx
  case h_5 =>
    split at hx
    · cases hx; exact h
    · cases hx
  case h_6 =>
    split at hx
    · cases hx; exact logSteps h
    · cases hx
  case h_7 =>
    split at hx
    · split at hx
      · cases hx; exact commitRead h
      · cases hx
    · cases hx; exact h

theorem nextOp {x : FlashOp × List FlashStep × Nat × State} (h : FieldClock a s) (hx : nextOp s = some x) :
    FieldClock a x.2.2.2 := by
  obtain ⟨o, -, ho⟩ := List.exists_of_findSome?_eq_some hx
  obtain ⟨y, hy, rfl⟩ := Option.map_eq_some_iff.1 ho
  exact flashSteps h hy

theorem setPend {n : Nat} (h : FieldClock a s) : FieldClock a (setPend n s) := ⟨h.replica, h.tick⟩

theorem syncWaits (h : FieldClock a s) : FieldClock a (syncWaits s) := h.still (.syncWaits .refl)

theorem setMeter {x : Meter} (h : FieldClock a s) : FieldClock a (s.setMeter x) := ⟨h.replica, h.tick⟩

theorem withdrawSave (h : FieldClock a s) : FieldClock a (withdrawSave s) :=
  setMeter (setFlash (h.still (.dropOps .refl)))

theorem saveRefused (h : FieldClock a s) : FieldClock a (saveRefused s) := raise (putBit (setMeter (withdrawSave h)))

theorem flashAdmit (h : FieldClock a s) : FieldClock a (flashAdmit s) := by
  unfold Machine.flashAdmit
  refine ite h ?_
  dsimp only
  split
  · exact syncWaits (evrKick h)
  · next hx =>
    exact ite (syncWaits (setPend (setFlash (nextOp (evrKick h) hx))))
      (ite (saveRefused (evrKick h)) (syncWaits (setFlash (evrKick h))))

/-! ### The supply, and the end of Damask's time -/

theorem pmuMeasure {x : FieldSample} (h : FieldClock a s) : FieldClock a (pmuMeasure x s) := by
  unfold Machine.pmuMeasure
  dsimp only
  split
  · exact putBit (put (put (put (put h))))
  · exact putBit (put (put (put h)))

theorem damaskOff (h : FieldClock a s) : FieldClock a (damaskOff s) :=
  ⟨(damaskOff_replica s).trans h.replica, (damaskOff_fieldTick s).trans h.tick⟩

theorem muslinLosesLink {flight waiting : List Packet} (h : FieldClock a s) :
    FieldClock a (muslinLosesLink flight waiting s) := by
  have hrep {u : State} {x : Replica} (hu : FieldClock a u) : FieldClock a { u with rep := x } := ⟨hu.replica, hu.tick⟩
  have hlose {u : State} : Still (fun _ => true) u
      (hartLinkDown .muslin (vaultLinkDown (missDeliveries waiting (keepEvents flight u)))) :=
    .hartLinkDown_muslin (.vaultLinkDown (.missDeliveries (.keepEvents .refl)))
  have hstop {u : State} {c : Prop} [Decidable c] : Still (fun _ => true) u
      (if c then Machine.forAll allChans Machine.hartStop u else u) :=
    .ite (.forAll _ .refl fun _ _ => .hartStop .refl) .refl
  have hdown {u : State} {c : Prop} [Decidable c] : Still (fun _ => true) u
      (if c then retainLost u else Machine.muslinFault pDDLM 6 true 0 u) := .ite (.retainLost .refl) (.muslinFault .refl)
  have hoff {u : State} {c : Prop} [Decidable c] (hu : FieldClock a u) :
      FieldClock a (if c then Machine.damaskOff u else u) := ite (damaskOff hu) hu
  unfold Machine.muslinLosesLink
  exact hoff (still (put (still (still (hrep (still h.put (.ohmEngage .refl))) hlose) hstop)) hdown)

theorem setLink {d : Die} {l : LinkDie} (h : FieldClock a s) : FieldClock a (s.setLink d l) := by
  cases d <;> exact ⟨h.replica, h.tick⟩

theorem toDown_muslin (h : FieldClock a s) : FieldClock a (toDown .muslin s) := by
  have hreg {u : State} {w : Word} (hu : FieldClock a u) : FieldClock a (u.setReg (ddlPage .muslin) 0x044 w) :=
    ⟨hu.replica, hu.tick⟩
  have hleave : FieldClock a (leaveUp .muslin s) := by
    unfold leaveUp
    exact raise (muslinLosesLink (put (hreg (put (setLink (put h))))))
  unfold Machine.toDown
  exact setLink (ite hleave (setLink (put h)))

theorem damaskCut (h : FieldClock a s) : FieldClock a (damaskCut s) := by
  have hdown : FieldClock a (if s.linkUp .muslin then toDown .muslin s else s) := ite (toDown_muslin h) h
  unfold Machine.damaskCut
  exact ite hdown (damaskOff hdown)

theorem damaskOverdue (h : FieldClock a s) : FieldClock a (damaskOverdue s) := ite (damaskCut (h.still (.retainLost .refl))) h

theorem decay {x : Nat × Bool} (h : FieldClock a s) : FieldClock a (decay x s) := h.setFlash

theorem fieldSide {f : Nat} {x : FieldSample} (h : FieldClock a s) : FieldClock a (fieldSide f x s) := by
  have hbound {u : State} {l : List (ChanNo × Word)} (hu : FieldClock a u) :
      FieldClock a (Machine.forAll l (fun c s => Machine.hartBoundary c.1 c.2 s) u) :=
    hu.forAll _ fun _ _ => hartBoundary refl
  have hleds {u : State} {l : List Led} (hu : FieldClock a u) : FieldClock a { u with field := { u.field with leds := l } } :=
    ⟨hu.replica, hu.tick⟩
  unfold Machine.fieldSide
  exact still (hleds (flashAdmit (hbound (fieldBoundary h)))) (.syncLevels .refl)

end FieldClock

/-! ## The field tick -/

/-- The boundary that ends the tick in progress has come: the number of the tick that it opens is `g`. -/
def boundaryCome (x : FieldSample) (s : State) : State :=
  { (setPins x.straps s).untilReplica (100000 * (s.field.tick + 1)) with
    field := { ((setPins x.straps s).untilReplica (100000 * (s.field.tick + 1))).field with tick := openedTick s } }

/-- The work of the boundary: the supply is measured, and the field side goes through it while Muslin runs. -/
def boundaryWork (f : Nat) (x : FieldSample) (s : State) : State :=
  let s := pmuMeasure x (forAll x.decayed decay s)
  if muslinRuns s then damaskOverdue (fieldSide f x s) else s

theorem exec_fieldTick {x : FieldSample} {s : State} (h : s.power.held = false) :
    exec (.fieldTick x) s = ok s (boundaryWork s.field.tick x (boundaryCome x s)) := by
  show ok s (if s.power.held then setPins x.straps s else _) = _
  rw [h, if_neg Bool.false_ne_true]
  rfl

theorem fieldClock_boundaryWork (f : Nat) (x : FieldSample) (s : State) : FieldClock s (boundaryWork f x s) := by
  have hmeasure : FieldClock s (pmuMeasure x (forAll x.decayed decay s)) :=
    .pmuMeasure (.forAll _ .refl fun _ _ => .decay .refl)
  unfold boundaryWork
  exact FieldClock.ite (.damaskOverdue (.fieldSide hmeasure)) hmeasure

theorem replica_untilReplica {s : State} {n : Nat} (h : n < 2 ^ 64) : (s.untilReplica n).replica = max s.replica n := by
  unfold State.untilReplica
  split
  · show (s.replica + (n - s.replica)) % 2 ^ 64 = max s.replica n
    rw [Nat.add_sub_cancel' (by omega), Nat.mod_eq_of_lt h]
    omega
  · omega

theorem completes_fieldTick {x : FieldSample} {s : State} (hheld : s.power.held = false) (hlt : s.replica < 2 ^ 63)
    (hle : s.field.tick ≤ s.replica / 100000) : Completes (.fieldTick x) s fun t =>
      t.field.tick = max (s.field.tick + 1) (s.replica / 100000) ∧
        t.replica = max s.replica (100000 * (s.field.tick + 1)) := by
  refine completes_ok (exec_fieldTick hheld) ?_
  have hclock := fieldClock_boundaryWork s.field.tick x (boundaryCome x s)
  have hreplica : (boundaryCome x s).replica = max s.replica (100000 * (s.field.tick + 1)) :=
    replica_untilReplica (s := setPins x.straps s) (by omega)
  rw [kept_field, hclock.tick, kept_replica, hclock.replica, hreplica]
  exact ⟨rfl, rfl⟩

/-! ## The statement -/

/-- Settles O36: a tick's own clock is kept by all that the tick does (`Clock`, `FieldClock`), and a release that is due is
kept due by the work on the other tasks until its turn comes (`DueNow.tickWork`). -/
theorem ticksReleaseTheTasks : Obligations.TicksReleaseTheTasks := by
  refine ⟨fun n v x s => ⟨fun hon => ⟨completes_mtbCompareFire hon, completes_baseTick_clock hon,
    completes_outputTransferCutoff hon⟩, completes_fieldTick⟩, fun v t e s he => ⟨?_, fun sc d hsc hd hb ha => ?_,
    fun sc d hsc hd hb ha => completes_scanDeadline_abort he hsc hd hb ha⟩⟩
  · intro hon hpins hen henabled hreleased hscan hheld hfresh hperiod _ hphase hdefer
    exact completes_baseTick_release hon
      ⟨⟨he, henabled, hen, hreleased, hscan, hheld, hfresh, rfl, hphase, hdefer⟩, hperiod, hpins⟩
  · exact completes_scanDeadline_skip he hsc hd hb ha

end Sys2Proof.Machine
end

section
/-! The canonical form of the memory: every operation keeps it (R47, R308; O59). -/

namespace Sys2Proof.Machine

open Reg

/-- The memory of `s` has the canonical form. -/
structure MemWf (s : State) : Prop where
  wf : Memory.wf s.mem = true

/-- Where the command ends in a next state, that state's memory has the canonical form. -/
def EndsWf (o : Host.Outcome State Fault Refusal) : Prop := ∀ t, o = .next t → MemWf t

/-- A choice among the entries of a memory keeps the canonical form. -/
theorem wf_filter (keep : Nat → Bool) {m : List Host.Cell} (h : Memory.wf m = true) :
    Memory.wf (m.filter fun e => keep e.1) = true := by
  have hclear := tcanon_tclear memDefault (fun k => !keep k) m h
  simpa only [Memory.wf, tclear, Bool.not_not] using hclear

namespace MemWf
variable {s t : State}

/-- A change of other fields. -/
theorem update {pending fused mtb replica regs points lockAt damask muslin txns ev engs icache mtbHi cmp grants fabric
    drawn freed boot fb0 fb1 stations field hart flash power meter sched chr evr vault cry comms wdts q31 inputs rep pins
    answer} (h : MemWf s) : MemWf ⟨pending, fused, mtb, replica, regs, s.mem, points, lockAt, damask, muslin, txns, ev,
      engs, icache, mtbHi, cmp, grants, fabric, drawn, freed, boot, fb0, fb1, stations, field, hart, flash, power, meter,
      sched, chr, evr, vault, cry, comms, wdts, q31, inputs, rep, pins, answer⟩ := ⟨h.wf⟩

theorem kept (h : MemWf t) : MemWf (kept s t) := h.update

theorem snd (h : MemWf s) : MemWf (a, s).2 := h

/-- A result that is used more than once. -/
theorem andThen (h : MemWf s) (ht : MemWf s → MemWf t) : MemWf t := ht h

theorem ifThen {c : Prop} [Decidable c] (h : MemWf s) (ht : MemWf s → MemWf t) : MemWf (if c then t else s) := by
  split
  · exact ht h
  · exact h

theorem ifElse {c : Prop} [Decidable c] (h : MemWf s) (ht : MemWf s → MemWf t) : MemWf (if c then s else t) := by
  split
  · exact h
  · exact ht h

theorem ite {c : Prop} [Decidable c] (h : MemWf s) (h' : MemWf t) : MemWf (if c then s else t) := by
  split <;> assumption

theorem iteSnd {c : Prop} [Decidable c] {p q : α × State} (h : MemWf p.2) (h' : MemWf q.2) :
    MemWf (if c then p else q).2 := by
  split <;> assumption

theorem iteReply {c : Prop} [Decidable c] {p q : α × β × State} (h : MemWf p.2.2) (h' : MemWf q.2.2) :
    MemWf (if c then p else q).2.2 := by
  split <;> assumption

theorem of_snd {p : α × State} (h : MemWf p.2) {a : α} (hp : p = (a, t)) : MemWf t := by
  rw [hp] at h
  exact h

theorem forAll {f : α → State → State} (h : MemWf s) (hf : ∀ x s, MemWf s → MemWf (f x s)) :
    MemWf (forAll l f s) := by
  induction l generalizing s with
  | nil => exact h
  | cons x l ih => exact ih (hf x s h)

theorem foldl {f : State → α → State} {l : List α} (h : MemWf s) (hf : ∀ s x, MemWf s → MemWf (f s x)) :
    MemWf (l.foldl f s) := by
  induction l generalizing s with
  | nil => exact h
  | cons x l ih => exact ih (hf s x h)

theorem wb (h : MemWf s) : MemWf (s.wb a b) := ⟨wf_wb _ _ _ h.wf⟩
theorem ww (h : MemWf s) : MemWf (s.ww a w) := ⟨wf_ww _ _ _ h.wf⟩
theorem wh (h : MemWf s) : MemWf (s.wh a n) := ⟨wf_wh _ _ _ h.wf⟩
theorem wbytes (h : MemWf s) : MemWf (s.wbytes a bs) := ⟨wf_wbytes _ _ _ h.wf⟩
theorem clearMem (h : MemWf s) : MemWf (s.clearMem a b) := ⟨wf_clearMem _ _ _ h.wf⟩

end MemWf

theorem EndsWf.ok {s t : State} (h : MemWf t) : EndsWf (ok s t) := by
  rintro u ⟨⟩
  exact h.kept
end Sys2Proof.Machine
end

section
/-! The operations on the state, packets on their way out, events, queues and violations keep the canonical form of the
memory (O59). -/

namespace Sys2Proof.Machine

open Reg

namespace MemWf

theorem setReg (h : MemWf s) : MemWf (s.setReg p off w) := .update h
theorem put (h : MemWf s) : MemWf (s.put p f v) := .setReg h
theorem putBit (h : MemWf s) : MemWf (s.putBit p f b) := .put h
theorem bump (h : MemWf s) : MemWf (s.bump p f n) := .put h
theorem incr (h : MemWf s) : MemWf (s.incr p f) := .put h
theorem resetPages (h : MemWf s) : MemWf (s.resetPages a b) := .update h
theorem pass (h : MemWf s) : MemWf (s.pass n) := .update h
theorem untilMtb (h : MemWf s) : MemWf (s.untilMtb t) := .ite (.pass h) h
theorem untilReplica (h : MemWf s) : MemWf (s.untilReplica t) := .ite (.pass h) h
theorem setEng (h : MemWf s) : MemWf (s.setEng e x) := .update h
theorem setTask (h : MemWf s) : MemWf (s.setTask t x) := .update h
theorem setLink (h : MemWf s) : MemWf (s.setLink d l) := by
  unfold Machine.State.setLink
  split <;> exact .update h

theorem putTaskBit (h : MemWf s) : MemWf (s.putTaskBit off t b) := .setReg h
theorem putLanes (h : MemWf s) : MemWf (putLanes d p s) := .setLink h
theorem sendCtrl (h : MemWf s) : MemWf (sendCtrl d type seq data s) := .putLanes h
theorem transmit (h : MemWf s) : MemWf (transmit d p s) := .ifElse (.setLink h) fun h' => .put h'
theorem pumpGo (h : MemWf s) : MemWf (pumpGo d ps blocked held s) := by
  induction ps generalizing blocked held s with
  | nil => exact .setLink h
  | cons p ps ih => exact .ite (ih (.transmit h)) (ih h)

theorem syncEvq (h : MemWf s) : MemWf (syncEvq s) := .put h
theorem pump (h : MemWf s) : MemWf (pump d s) := .ifThen (.pumpGo h) fun h' => .syncEvq h'
theorem sendPacket (h : MemWf s) : MemWf (sendPacket d p s) := .ite (.pump (.setLink h)) h
theorem sendBulk (h : MemWf s) : MemWf (sendBulk d xid ws s) := .forAll h fun _ _ h' => .sendPacket h'
theorem sendSample (h : MemWf s) : MemWf (sendSample kind gap w1 w2 bs s) := .forAll h fun _ _ h' => .sendPacket h'
theorem syncQlevel (h : MemWf s) : MemWf (syncQlevel s) := .put h
theorem recAccept (h : MemWf s) : MemWf (recAccept r s) := .ite (.syncQlevel (.update h)) (.bump (.update h))
theorem recordLocal (h : MemWf s) : MemWf (recordLocal page dom sev code data s) := .incr (.recAccept h)
theorem muslinEventOnce (h : MemWf s) : MemWf (muslinEventOnce page dom sev code data s) :=
  .ite (.sendPacket h) (.ite (.put (.update (.recordLocal h))) (.bump (.update (.recordLocal h))))

theorem tellDiscarded (ht : MemWf t) : MemWf (tellDiscarded s t) := .ite (.muslinEventOnce (.put ht)) ht
theorem muslinEvent (h : MemWf s) : MemWf (muslinEvent page dom sev code data s) :=
  .tellDiscarded (.muslinEventOnce h)

theorem syncLevels (h : MemWf s) : MemWf (syncLevels s) := .ite (.sendPacket (.update h)) h
theorem evsTake (h : MemWf s) : MemWf (evsTake e s) := .update h
theorem damaskEvent (h : MemWf s) : MemWf (damaskEvent rank source dom sev code data s) := .evsTake h
theorem pageEvent (h : MemWf s) : MemWf (pageEvent p dom code data s) := .ite (.muslinEvent h) (.damaskEvent h)
theorem otherEvent (h : MemWf s) : MemWf (otherEvent p dom data s) := .pageEvent h
theorem raiseWith (h : MemWf s) : MemWf (raiseWith p f always dom data s) :=
  .ifThen (.ifThen (.put h) fun h' => .pageEvent h') fun h' => .syncLevels h'

theorem raise (h : MemWf s) : MemWf (raise p f s) := .raiseWith h
theorem raiseLog (h : MemWf s) : MemWf (raiseLog p f data s) := .raiseWith h
theorem raiseFaultWith (h : MemWf s) : MemWf (raiseFaultWith c masked eng addr data s) :=
  .damaskEvent (.bump (.setReg (.setReg (.setReg h))))

theorem raiseFault (h : MemWf s) : MemWf (raiseFault c masked eng addr s) := .raiseFaultWith h
theorem muslinFault (h : MemWf s) : MemWf (muslinFault p c masked addr s) := .ite (.raiseFault h) (.muslinEvent h)
theorem pushB (h : MemWf s) (ht : pushB q entry s = some t) : MemWf t := by
  unfold Machine.pushB at ht
  dsimp only at ht
  split at ht <;> cases ht
  exact .put (.wbytes h)

theorem pushB_getD (h : MemWf s) (hu : MemWf u) : MemWf ((Machine.pushB q entry s).getD u) := by
  cases hp : Machine.pushB q entry s with
  | none => exact hu
  | some t => exact .pushB h hp

theorem takeA (h : MemWf s) : MemWf (takeA q s) := .put h
theorem setPageOwner (h : MemWf s) : MemWf (setPageOwner p d s) := .ite h (.put h)
theorem setPointTag (h : MemWf s) : MemWf (setPointTag p b s) := .update h
theorem collect (h : MemWf s) : MemWf (collect e addr kind s) := by
  unfold Machine.collect
  dsimp only
  split
  · exact h
  · exact .setEng h

theorem releaseViolation (h : MemWf s) : MemWf (releaseViolation rank d t job addr count kind s) :=
  .bump (.setReg (.setReg (.put (.damaskEvent h))))

end MemWf
end Sys2Proof.Machine
end

section
/-! Twin images and the scheduler keep the canonical form of the memory (O59). -/

namespace Sys2Proof.Machine

open Reg

namespace MemWf

theorem flipSel (h : MemWf s) : MemWf (flipSel k s) := .put h
theorem setLineTag (h : MemWf s) : MemWf (setLineTag l t s) := .update h
theorem syncCfBusy (h : MemWf s) : MemWf (syncCfBusy s) := .put h
theorem copyLine (h : MemWf s) : MemWf (copyLine l s) := .wbytes h
theorem dropPending (h : MemWf s) : MemWf (dropPending l s) := .update h
theorem settleLine (h : MemWf s) : MemWf (settleLine l s) := .ite (.syncCfBusy (.dropPending (.copyLine h))) h
theorem pendLines (h : MemWf s) : MemWf (pendLines t lines s) := .syncCfBusy (.update h)
theorem retireLines (h : MemWf s) : MemWf (retireLines t p s) :=
  .ite h (.pendLines (.forAll h fun _ _ h' => .setLineTag h'))

theorem discardJobLines (h : MemWf s) : MemWf (discardJobLines t job s) := .retireLines h
theorem retireTaskLines (h : MemWf s) : MemWf (retireTaskLines t s) := .retireLines h
theorem commitImages (h : MemWf s) : MemWf (commitImages t s) :=
  .retireTaskLines (.incr (.forAll h fun _ _ h' => .flipSel h'))

theorem copyUpTo (h : MemWf s) : MemWf (copyUpTo t k s) :=
  .forAll h fun _ _ h' => .forAll h' fun _ _ h2 => .dropPending (.copyLine h2)

theorem copyDone (h : MemWf s) : MemWf (copyDone t s) := .syncCfBusy (.forAll h fun _ _ h' => .copyUpTo h')
theorem clearRegion (h : MemWf s) : MemWf (clearRegion k s) := .clearMem (.clearMem h)
theorem syncRetain (h : MemWf s) : MemWf (syncRetain s) := .put h
theorem setEnabled (h : MemWf s) : MemWf (setEnabled t b s) := .put (.putBit (.putTaskBit h))
theorem setScanning (h : MemWf s) : MemWf (setScanning t b s) := .put (.putBit (.putTaskBit h))
theorem setWest (h : MemWf s) : MemWf (setWest t b s) := .putBit (.putTaskBit h)
theorem setMigPend (h : MemWf s) : MemWf (setMigPend t b s) := .putBit (.putTaskBit h)
theorem setDeque (h : MemWf s) : MemWf (s.setDeque k q) := .update h
theorem dropQueued (h : MemWf s) : MemWf (dropQueued t s) := .forAll h fun _ _ h' => .setDeque h'
theorem setMode (h : MemWf s) : MemWf (setMode e m s) := .setEng (.ite (.update h) h)
theorem setInJob (h : MemWf s) : MemWf (setInJob e b s) := .put h
theorem orphanTxns (h : MemWf s) : MemWf (orphanTxns e s) := .update h
theorem leaveJob (h : MemWf s) : MemWf (leaveJob e s) :=
  .andThen (.setInJob (.setEng (.orphanTxns h))) fun h' => .ite (.setMode (.setEng h')) (.setMode h')

theorem setScan (h : MemWf s) : MemWf (setScan t sc s) := .setTask h
theorem finishMigration (h : MemWf s) : MemWf (finishMigration t s) := .ite (.raise (.setMigPend (.setWest h))) h
theorem setCopyQ (hs : MemWf s) : MemWf (s.setCopyQ h q) := by
  unfold Machine.State.setCopyQ
  dsimp only
  split <;> exact .update hs

theorem dropSnapshot (h : MemWf s) : MemWf (dropSnapshot t s) := .forAll h fun _ _ h' => .setCopyQ h'
theorem killScan (h : MemWf s) : MemWf (killScan t s) := by
  unfold Machine.killScan
  split
  · exact h
  · refine .finishMigration (.bump (.setScanning (.setTask (.retireTaskLines
      (.forAll (.dropSnapshot (.dropQueued h)) fun _ _ h' => .ite ?_ h')))))
    split
    · exact .setEng h'
    · exact h'

theorem failScan (h : MemWf s) : MemWf (failScan t reason kind job flag eng addr data s) :=
  .killScan (.raiseFaultWith (.bump (.raise (.setReg h))))

theorem checkStall (h : MemWf s) : MemWf (checkStall t s) := by
  unfold Machine.checkStall
  split
  · exact .ite (.failScan h) h
  · exact h

theorem queueJob (h : MemWf s) : MemWf (queueJob t e j s) := .setDeque h
theorem dropRelease (h : MemWf s) : MemWf (dropRelease t s) := .bump (.setTask h)
theorem copyDue (hs : MemWf s) : MemWf (copyDue h c s) := .setCopyQ hs
theorem startRelease (h : MemWf s) : MemWf (startRelease t b p s) := by
  unfold Machine.startRelease
  split
  · exact h
  · exact .copyDue (.setScanning (.setScan (.putBit (.putBit h))))

theorem holdRelease (h : MemWf s) : MemWf (holdRelease t b s) := .raise (.bump (.setTask h))
theorem loseHeld (h : MemWf s) : MemWf (loseHeld t s) := .ite (.dropRelease (.setTask h)) h
theorem determineRelease (h : MemWf s) : MemWf (determineRelease t b s) :=
  .ite (.dropRelease (.setTask h)) (.ite (.holdRelease (.setTask h)) (.startRelease (.setTask h)))

theorem overrun (h : MemWf s) : MemWf (overrun t b s) := by
  unfold Machine.overrun
  split
  · exact .ite h (.ite (.determineRelease (.killScan (.raise h))) (.dropRelease (.setTask (.setScan (.raise h)))))
  · exact h

theorem commitScan (h : MemWf s) : MemWf (commitScan t s) := by
  unfold Machine.commitScan
  split
  · exact .finishMigration (.ifElse (.setScanning (.setTask (.put
      (.put (.ifThen (.ifThen (.put (.put (.incr (.commitImages h)))) fun h' => .put h') fun h' => .put h'))))) fun
      h' => .copyDue h')
  · exact h

theorem endExecute (h : MemWf s) : MemWf (endExecute t s) := by
  unfold Machine.endExecute
  dsimp only
  split
  · refine .ite ?_ ?_
    · refine .commitScan ?_
      split
      · exact .ite (.overrun h) h
      · exact h
    · split
      · exact .ite (.overrun h) h
      · exact h
  · split
    · exact .ite (.overrun h) h
    · exact h

theorem completeJob (h : MemWf s) : MemWf (completeJob t j s) := by
  unfold Machine.completeJob
  split
  · exact .checkStall (.endExecute (.forAll (.setScan h) fun _ _ h' => .ifThen (.wh h') fun h2 => .queueJob h2))
  · exact h

theorem jobError (h : MemWf s) : MemWf (jobError e kind addr s) := by
  unfold Machine.jobError
  dsimp only
  split
  · exact h
  · refine .ite (.leaveJob (.ite (.raiseFault h) h)) ?_
    split
    · exact .leaveJob (.discardJobLines h)
    · exact .andThen (.raiseFault (.setScan (.leaveJob (.discardJobLines h)))) fun h' => .ite
        (.setDeque (.bump (.bump (.raise h')))) (.failScan h')

theorem jobFault (h : MemWf s) : MemWf (jobFault e reason code addr s) := by
  unfold Machine.jobFault
  split
  · exact h
  · exact .ite (.leaveJob h) (.failScan (.leaveJob (.discardJobLines h)))

theorem gsramDead (h : MemWf s) : MemWf (gsramDead t job s) := .killScan (.bump (.raise (.setReg h)))
theorem startJob (h : MemWf s) : MemWf (startJob e t j s) := by
  unfold Machine.startJob
  split
  · exact .setInJob (.setMode (.setEng h))
  · exact h

theorem takeJob (h : MemWf s) : MemWf (takeJob e s) := by
  unfold Machine.takeJob
  refine .ite ?_ h
  split
  · exact .startJob (.setDeque h)
  · exact h

end MemWf
end Sys2Proof.Machine
end

section
/-! Register rules, the fabric and what every instruction of an engine shares keep the canonical form of the memory
(O59). -/

namespace Sys2Proof.Machine

open Reg

namespace MemWf

theorem plainWrite (h : MemWf s) : MemWf (plainWrite p off a s) := by
  unfold Machine.plainWrite
  split
  · exact .setReg h
  · exact h

theorem plainRead (h : MemWf s) : MemWf (plainRead p off s).2 := by
  unfold Machine.plainRead
  split
  · exact .snd (.ite h (.setReg h))
  · exact .snd h

theorem closeLock (h : MemWf s) : MemWf (closeLock p s) := .put h
theorem lockWrite (h : MemWf s) : MemWf (lockWrite p a s) := .ite (.update (.put (.put h))) (.bump (.closeLock h))
theorem lockTimeout (h : MemWf s) : MemWf (lockTimeout p s) := by
  unfold Machine.lockTimeout
  refine .ite (.closeLock ?_) h
  split
  · exact .untilMtb h
  · exact .untilReplica h

theorem irqForce (h : MemWf s) : MemWf (irqForce p v s) :=
  .ifThen (.ifElse (.setReg h) fun h' => .forAll h' fun _ _ h2 => .ite (.pageEvent h2) h2) fun h' => .syncLevels h'

theorem commonWrite (h : MemWf s) (ht : commonWrite p off a s = some t) : MemWf t := by
  unfold Machine.commonWrite at ht
  dsimp only at ht
  split at ht
  · cases ht; exact h
  split at ht
  · cases ht; exact .ite (.syncLevels (.setReg h)) (.setReg h)
  split at ht
  · cases ht; exact .irqForce h
  split at ht
  · cases ht; exact .lockWrite h
  split at ht
  · cases ht; exact .ite (.setPageOwner h) h
  split at ht <;> cases ht
  exact h

theorem lockStep (h : MemWf s) : MemWf (lockStep p off r v s tie).2 := .snd (.ite (.closeLock h) h)
theorem refetchLine (hs : MemWf s) : MemWf (refetchLine h off s) := .wbytes hs
theorem setArbiter (h : MemWf s) : MemWf (setArbiter k x s) := .update h
theorem takeGrant (h : MemWf s) : MemWf (takeGrant e target rs level s) := .ite (.setArbiter h) h
theorem takeClock (h : MemWf s) : MemWf (takeClock target s) := .update h
theorem arbitrate (h : MemWf s) : MemWf (arbitrate e target s) :=
  .takeClock (.ifElse (.update (.forAll h fun _ _ h' => .takeGrant h')) fun h' => .takeClock h')

theorem countGrant (h : MemWf s) : MemWf (countGrant e target s) := .ite (.ifThen (.update h) fun h' => .incr h') h
theorem grantTarget (h : MemWf s) : MemWf (grantTarget e target s) := .countGrant (.arbitrate h)
theorem waitForTarget (h : MemWf s) : MemWf (waitForTarget e target s) := .update h
theorem setTxn (h : MemWf s) : MemWf (setTxn tag x s) := .update h
theorem syncOutstanding (h : MemWf s) : MemWf (syncOutstanding s) := .put h
theorem dropLoad (h : MemWf s) : MemWf (dropLoad e r s) := .ite (.update h) h
theorem setGr (h : MemWf s) : MemWf (setGr e r v s) := .ite h (.setEng (.dropLoad h))
theorem setPc (h : MemWf s) : MemWf (setPc e a s) := .setEng h
theorem advance (h : MemWf s) : MemWf (advance e s) := .setPc h
theorem setFl (h : MemWf s) : MemWf (setFl e w s) := .setEng h
theorem result (h : MemWf s) : MemWf (result e rd v s) := .advance (.setGr h)
theorem fabError (h : MemWf s) : MemWf (fabError r kind addr s) := .ite h (.raise (.setReg (.setReg h)))
theorem arbiterError (h : MemWf s) : MemWf (arbiterError r addr s) := .setEng (.fabError h)
theorem setExcl (h : MemWf s) : MemWf (setExcl e s) := .put h
theorem doubleException (h : MemWf s) : MemWf (doubleException e s) := .raiseFault (.setExcl (.setMode h))
theorem enterException (h : MemWf s) : MemWf (enterException e code detail addr imprecise s) :=
  .ite (.doubleException h) (.setEng h)

theorem exception (h : MemWf s) : MemWf (exception e code detail addr s) :=
  .ite (.ite (.jobError h) (.jobFault h)) (.enterException h)

theorem accessError (h : MemWf s) : MemWf (accessError e kind addr s) := .ite (.leaveJob h) (.exception (.fabError h))
theorem errCount (h : MemWf s) : MemWf (errCount e kind wordIx masked s) := by
  unfold Machine.errCount
  extract_lets p counted located
  have hcounted : MemWf counted := by
    unfold counted
    split
    case h_8 => exact h
    all_goals exact .bump h
  split <;> exact .raise (.setReg hcounted)

theorem checkFails (h : MemWf s) : MemWf (checkFails e kind wordIx addr s) :=
  .ite (.jobError (.errCount h)) (.enterException (.raiseFault (.errCount h)))

theorem setIcache (h : MemWf s) : MemWf (setIcache e l s) := .update h
theorem fillLine (h : MemWf s) : MemWf (fillLine e s) := .ite (.setIcache h) (.setIcache (.update h))
theorem fetched (h : MemWf s) : MemWf (fetched e s) := .ite h (.grantTarget (.fillLine h))
theorem icacheParity (h : MemWf s) : MemWf (icacheParity e s) :=
  .ifElse (.errCount (.fetched (.setIcache h))) fun h' => .raiseFault h'

theorem codeParity (h : MemWf s) : MemWf (codeParity e a s) := .checkFails (.refetchLine h)
theorem issue {run : State → State} (h : MemWf s) (hrun : ∀ s, MemWf s → MemWf (run s)) : MemWf
    (issue x srcs run s) := by
  unfold Machine.issue
  refine .ite ?_ (.ite (.waitForTarget h) h)
  split
  · exact hrun _ (.icacheParity (.fetched h))
  · exact .codeParity (.fetched h)
  · exact hrun _ (.fetched h)

theorem residued {run : State → State} (h : MemWf s) (hrun : ∀ s, MemWf s → MemWf (run s)) : MemWf
    (residued x run s) :=
  .ite (.checkFails h) (hrun _ h)

theorem floatResidued {run : State → State} (h : MemWf s) (hrun : ∀ s, MemWf s → MemWf (run s)) : MemWf
    (floatResidued x run s) :=
  .ite (.checkFails h) (hrun _ h)

theorem privileged {run : State → State} (h : MemWf s) (hrun : ∀ s, MemWf s → MemWf (run s)) : MemWf
    (privileged e run s) :=
  .ite (.exception h) (hrun _ h)

theorem aluRR (h : MemWf s) : MemWf (aluRR x rd ra rb f s) := .issue h fun _ h' => .residued h' fun _ h2 => .result h2
theorem aluRI (h : MemWf s) : MemWf (aluRI x rd ra f s) := .issue h fun _ h' => .residued h' fun _ h2 => .result h2
theorem aluCmp (h : MemWf s) : MemWf (aluCmp x srcs ra b s) :=
  .issue h fun _ h' => .residued h' fun _ h2 => .advance (.setFl h2)

end MemWf
end Sys2Proof.Machine
end

section
/-! Channels, digital points and the HART modems keep the canonical form of the memory (O59). -/

namespace Sys2Proof.Machine

open Reg

namespace MemWf

theorem setAin (h : MemWf s) : MemWf (s.setAin n x) := .update h
theorem aioCfgWrite (h : MemWf s) : MemWf (aioCfgWrite n a s) :=
  .ite h (.ite (.raise (.put h)) (.put (.put (.setReg h))))

theorem syncAioStat (h : MemWf s) : MemWf (syncAioStat p s) := .put (.put h)
theorem evaluate (h : MemWf s) : MemWf (evaluate n f x s) :=
  .ifThen (.ifThen (.ifThen (.ifThen (.put (.put (.put (.putBit
      (.putBit (.putBit (.putBit (.putBit (.putBit (.putBit (.put
      (.put (.forAll (.setAin h) fun _ _ h' => .putBit h'))))))))))))) fun h' => .raise h') fun h' => .muslinFault
      h') fun h' => .raise h') fun h' => .raise h'

theorem startOff (h : MemWf s) : MemWf (startOff n s) := .ite h (.setAin h)
theorem advanceCfg (h : MemWf s) : MemWf (advanceCfg n s) := .setAin h
theorem driveChan (h : MemWf s) : MemWf (driveChan n hold xfer s) := .ite (.setAin h) (.setAin h)
theorem protect (h : MemWf s) : MemWf (protect n s) := .ite (.raise (.syncAioStat (.put (.setAin h)))) h
theorem setMissed (h : MemWf s) : MemWf (setMissed k n s) := .update h
theorem deliver (h : MemWf s) : MemWf (deliver kind key w1 bs s) := .ite (.sendSample (.setMissed h)) (.setMissed h)
theorem setDio (h : MemWf s) : MemWf (s.setDio x) := .update h
theorem syncDio (h : MemWf s) : MemWf (syncDio s) := .putBit (.put (.put (.setDio h)))
theorem dioSample (h : MemWf s) : MemWf (dioSample f x s) :=
  .setDio (.ifThen (.ifElse (.put (.setDio h)) fun h' => .raise h') fun h' => .deliver h')

theorem dioDrive (h : MemWf s) : MemWf (dioDrive hold xfer s) := .syncDio (.ifThen (.setDio h) fun h' => .raise h')
theorem ohmEngage (h : MemWf s) : MemWf (ohmEngage s) := .ite h (.raise (.put (.put (.put (.update h)))))
theorem ohmBoundary (h : MemWf s) : MemWf (ohmBoundary s) :=
  .ite h (.ite (.put (.put (.put h))) (.ite (.raise (.put h)) h))

theorem ohmWrite (h : MemWf s) : MemWf (ohmWrite off a s) := .ite (.ite (.put h) h) (.plainWrite h)
theorem fieldBoundary (h : MemWf s) : MemWf (fieldBoundary f x s) :=
  .update (.dioDrive (.forAll (.ifThen (.forAll (.ohmBoundary
      (.dioSample (.ifThen (.forAll (.forAll (.forAll (.putBit (.ifThen (.putBit (.put h)) fun h' => .raise h'))
      fun _ _ h' => .startOff h') fun _ _ h' => .evaluate h') fun _ _ h' => .syncAioStat h') fun h' => .deliver
      h'))) fun _ _ h' => .advanceCfg h') fun h' => .raise h') fun _ _ h' => .driveChan h'))

theorem baseWrite (h : MemWf s) : MemWf (baseWrite p off len ctrl a s) := .ite h (.plainWrite h)
theorem imgenWrite (h : MemWf s) : MemWf (imgenWrite p ctrl stat bases a s) := .ite h (.putBit (.plainWrite h))
theorem aioWrite (h : MemWf s) : MemWf (aioWrite off a s) :=
  .ite (.imgenWrite h) (.ite (.baseWrite h) (.ite (.ite (.setReg h) h) (.plainWrite h)))

theorem aioChanWrite (h : MemWf s) : MemWf (aioChanWrite p off a s) := by
  unfold Machine.aioChanWrite
  refine .ifElse (.plainWrite h) fun h' => ?_
  split
  · exact .ite h (.ite (.aioCfgWrite h) (.ite (.ite (.syncAioStat (.setAin (.put h))) h) h'))
  · exact h

theorem dioWrite (h : MemWf s) : MemWf (dioWrite off a s) :=
  .ite (.ifThen (.imgenWrite h) fun h' => .setDio h') (.ite (.baseWrite h) (.plainWrite h))

theorem dioRead (h : MemWf s) : MemWf (dioRead off s).2 := .iteSnd (.snd (.put (.put h))) (.plainRead h)
theorem setModem (h : MemWf s) : MemWf (s.setModem n x) := .update h
theorem syncHart (h : MemWf s) : MemWf (syncHart n s) :=
  .put (.putBit (.putBit (.putBit (.putBit (.putBit (.putBit (.ite (.setModem h) h)))))))

theorem hartLose (h : MemWf s) : MemWf (hartLose s) := .bump (.update h)
theorem hartSend (h : MemWf s) : MemWf (hartSend n status entry s) := .ite (.sendBulk (.put h)) (.hartLose (.put h))
theorem hartNext (h : MemWf s) : MemWf (hartNext n s) := .syncHart (.setModem h)
theorem hartEnd (h : MemWf s) : MemWf (hartEnd n status stamp stampEnd frame s) := by
  unfold Machine.hartEnd
  split
  · exact h
  · exact .ite (.bump (.put (.hartNext h))) (.hartSend (.hartNext h))

theorem hartTake (h : MemWf s) : MemWf (hartTake e s) := by
  unfold Machine.hartTake
  dsimp only
  refine .ite (.hartSend h) (.ite (.hartSend h) (.ite (.hartSend h) ?_))
  split <;> exact .syncHart (.setModem h)

theorem hartPumpGo (h : MemWf s) : MemWf (hartPumpGo k s) := by
  induction k generalizing s with
  | zero => exact h
  | succ k ih =>
    rw [Machine.hartPumpGo]
    split
    · exact h
    · exact .ite (ih (.sendBulk (.takeA (.update h)))) h

theorem hartPump (h : MemWf s) : MemWf (hartPump s) := .hartPumpGo h
theorem hartWriteResult (h : MemWf s) : MemWf (hartWriteResult e s) := by
  unfold Machine.hartWriteResult
  split
  case h_1 t ht => exact .pushB h ht
  case h_2 => exact .raise (.bump h)

theorem hartResult (h : MemWf s) : MemWf (hartResult e s) := .hartPump (.hartWriteResult (.update h))
theorem hartRxError (h : MemWf s) : MemWf (hartRxError s) := .raise (.bump h)
theorem hartTimeout (h : MemWf s) : MemWf (hartTimeout n s) := .hartEnd (.raise (.bump h))
theorem masterReceive (h : MemWf s) : MemWf (masterReceive n x s) := by
  unfold Machine.masterReceive
  extract_lets st own ty count heard counted
  have hcount {u : State} (hu : MemWf u) : MemWf (count u) := .ite (.bump hu) (.hartRxError hu)
  refine .ite h ?_
  have hheard : MemWf heard := by
    unfold heard
    split
    · exact .ite (.hartTimeout h) h
    · exact h
  split
  · exact .ite (.hartEnd (hcount hheard)) (hcount hheard)
  · exact .ite (.ite (.hartSend (hcount hheard)) (hcount hheard)) (.ite (.bump hheard) (hcount hheard))

theorem deviceReceive (h : MemWf s) : MemWf (deviceReceive n x s) :=
  .ite h (.ite (.hartRxError h) (.ifElse (.bump h) fun h' => .hartSend (.setModem h')))

theorem hartBegin (h : MemWf s) : MemWf (hartBegin n s) := by
  unfold Machine.hartBegin
  dsimp only
  split
  · exact h
  · exact .ite (.hartEnd h) (.syncHart (.setModem h))

theorem hartSent (h : MemWf s) : MemWf (hartSent n r e s) := .ite (.hartEnd (.bump h)) (.setModem (.bump h))
theorem hartAbortStaged (h : MemWf s) : MemWf (hartAbortStaged n k s) := by
  induction k generalizing s with
  | zero => exact h
  | succ k ih => exact ih (.hartEnd h)

theorem hartAbort (h : MemWf s) : MemWf (hartAbort n s) := .syncHart (.hartAbortStaged (.hartEnd (.setModem h)))
theorem hartStop (h : MemWf s) : MemWf (hartStop n s) := by
  unfold Machine.hartStop
  refine .syncHart ?_
  split
  · exact .ite h (.ite (.hartSent h) (.ite (.raise (.hartEnd (.ite (.bump h) h))) (.hartEnd h)))
  · exact h

theorem hartBoundary (h : MemWf s) : MemWf (hartBoundary n was s) := .hartStop (.ite (.hartAbort h) h)
theorem hartLinkDown (h : MemWf s) : MemWf (hartLinkDown d s) := by
  unfold Machine.hartLinkDown
  split
  · refine .forAll h fun n s h' => ?_
    extract_lets x hart lost unstaged y
    have hu : MemWf unstaged := .ifElse (.ite (.update h') h') fun h2 => .setModem h2
    split
    · exact hu
    · exact .ite (.hartNext hu) (.setModem hu)
  · exact .forAll (.update h) fun _ _ h' => .hartWriteResult h'

theorem hartBroken (h : MemWf s) : MemWf (hartBroken b s) := by
  unfold Machine.hartBroken
  dsimp only
  split
  · exact .hartPump (.hartWriteResult (.update h))
  · exact h

theorem hartLinkUp (h : MemWf s) : MemWf (hartLinkUp s) := .hartPump (.ite (.raise (.update h)) h)
theorem hrtWrite (h : MemWf s) : MemWf (hrtWrite off a s) := by
  unfold Machine.hrtWrite
  split
  · exact .ite (.ite h (.ite (.raise h) (.syncHart (.plainWrite h))))
      (.ite (.syncHart (.plainWrite h)) (.ite (.raise h) h))
  · exact .ifThen (.plainWrite h) fun h' => .hartPump h'

end MemWf
end Sys2Proof.Machine
end

section
/-! The flash, its emulation layer and its counters keep the canonical form of the memory: they program bytes one by one
(R308; O59). -/

namespace Sys2Proof.Machine

open Reg

namespace MemWf

theorem setFlash (h : MemWf s) : MemWf (s.setFlash x) := .update h
theorem eccReport (h : MemWf s) : MemWf (eccReport gs s) := by
  unfold Machine.eccReport
  refine .forAll h fun _ _ h' => ?_
  split
  · exact h'
  · exact .muslinFault (.raise (.put (.put (.bump h'))))
  · exact .muslinFault (.raise (.put (.put (.bump h'))))

theorem eccIn (h : MemWf s) : MemWf (eccIn off n s) := .eccReport h
theorem eraseSector (h : MemWf s) : MemWf (eraseSector k s) := .setFlash (.clearMem h)
theorem programBytes (h : MemWf s) : MemWf (programBytes off bs s) := .setFlash (.wbytes h)
theorem runStep (h : MemWf s) : MemWf (runStep st s) := by
  unfold Machine.runStep
  split
  · exact .eraseSector h
  · exact .programBytes h

theorem setPend (h : MemWf s) : MemWf (setPend n s) := .put (.update h)
theorem askFlash (h : MemWf s) : MemWf (askFlash prec w u s) := .setFlash h
theorem syncWaits (h : MemWf s) : MemWf (syncWaits s) := .putBit (.putBit (.setFlash h))
theorem dropOps (h : MemWf s) : MemWf (dropOps p s) := .syncWaits (.setFlash h)
theorem placeRecord (h : MemWf s) : MemWf (placeRecord page off data seq compact s).2 := by
  unfold Machine.placeRecord
  dsimp only
  split
  · exact .snd (.ite (.put h) h)
  · exact .snd (.update (.ite (.put h) h))

theorem syncLayer (h : MemWf s) : MemWf (syncLayer s) := .put (.put h)
theorem tellInvalid (h : MemWf s) : MemWf (tellInvalid rs s) := .forAll h fun _ _ h' => .otherEvent h'
theorem compactStart (h : MemWf s) : MemWf (compactStart s) := by
  unfold Machine.compactStart
  split
  · exact .put (.setFlash (.tellInvalid (.eccReport h)))
  · exact .put h
  · exact h

theorem compactGo (h : MemWf s) : MemWf (compactGo v ps s) := by
  induction ps generalizing s with
  | nil => exact .askFlash (.setFlash h)
  | cons p ps ih =>
    rw [Machine.compactGo]
    dsimp only
    split
    · exact ih (.eccReport h)
    · exact .ite (ih (.eccReport h)) (.askFlash (.setFlash (.eccReport h)))

theorem compactNext (h : MemWf s) : MemWf (compactNext s) := by
  unfold Machine.compactNext
  split
  · exact .ite h (.compactGo h)
  · exact h

theorem compactAuto (h : MemWf s) : MemWf (compactAuto s) := .ite (.compactNext (.compactStart h)) h
theorem compactDone (h : MemWf s) : MemWf (compactDone s) :=
  .compactAuto (.syncLayer (.ifThen (.put (.put (.setFlash h))) fun h' => .put h'))

theorem indexBuilt (h : MemWf s) : MemWf (indexBuilt s) :=
  .compactAuto (.syncLayer (.ifThen (.put (.put (.forAll (.forAll (.tellInvalid (.eccReport h)) fun _ _ h' =>
      .ifThen (.raiseLog (.put h')) fun h2 => .muslinFault (.raise h2)) fun _ _ h' => .askFlash h'))) fun h' =>
      .compactNext (.compactStart h')))

theorem setNvmBuf (h : MemWf s) : MemWf (setNvmBuf bs s) := .forAll h fun _ _ h' => .setReg h'
theorem nvmResult (h : MemWf s) : MemWf (nvmResult st seq s) := .setFlash h
theorem nvmRead (h : MemWf s) : MemWf (nvmRead s) := by
  unfold Machine.nvmRead
  split
  · exact .ite h (.nvmResult (.setNvmBuf (.tellInvalid (.eccReport h))))
  · exact h

theorem nvmStart (h : MemWf s) : MemWf (nvmStart s) := by
  have hs {x p f v q g} : MemWf (((s.setFlash x).put p f v).incr q g) := .incr (.put (.setFlash h))
  unfold Machine.nvmStart
  dsimp only
  split
  · exact .ite (.nvmResult hs) (.nvmRead hs)
  · exact .ite (.nvmResult hs) (.ite (.nvmResult hs) (.askFlash hs))
  · exact .ite (.nvmResult hs) (.ite (.nvmResult hs) (.ite (.nvmResult hs) (.askFlash hs)))
  · exact .ite (.nvmResult hs) (.ite (.nvmResult hs) (.askFlash hs))
  · exact .nvmResult hs

theorem nvmCmdWrite (h : MemWf s) : MemWf (nvmCmdWrite a s) :=
  .ifElse (.plainWrite h) fun h' => .ite (.raise h) (.nvmStart h')

theorem nvmWrite (h : MemWf s) : MemWf (nvmWrite off a s) :=
  .ite (.nvmCmdWrite h) (.ite (.ite (.ifThen (.put h) fun h' => .compactNext (.compactStart h')) h) (.plainWrite h))

theorem syncCounter (h : MemWf s) : MemWf (syncCounter n s) := .ifThen (.putBit (.put (.put h))) fun h' => .setReg h'
theorem syncCounters (h : MemWf s) : MemWf (syncCounters s) := .forAll h fun _ _ h' => .syncCounter h'
theorem syncPend (h : MemWf s) : MemWf (syncPend n s) := .putBit h
theorem nctDone (h : MemWf s) : MemWf (nctDone s) := .raise (.put (.put h))
theorem counterWritten (h : MemWf s) : MemWf (counterWritten n cmd s) :=
  .andThen (.syncCounter h) fun h' => .ite (.syncPend (.askFlash h')) (.ite (.nctDone h') h')

theorem askCount (h : MemWf s) : MemWf (askCount n user s) := .askFlash h
theorem repairCounter (h : MemWf s) : MemWf (repairCounter n s) := by
  unfold Machine.repairCounter
  split
  · exact .ite (.ifElse (.askFlash (.ifElse (.raise (.setFlash h)) fun h' => .askFlash h')) fun h' => .askFlash h')
      (.ite h (.ifElse (.raise (.setFlash h)) fun h' => .askFlash h'))
  · exact .askFlash (.ifElse (.ifElse (.muslinFault (.raise (.setFlash h))) fun h' => .askFlash h') fun h' =>
      .askFlash h')

theorem settleCounters (h : MemWf s) : MemWf (settleCounters s) :=
  .forAll (.syncCounters (.forAll (.eccIn (.syncCounters h)) fun _ _ h' => .repairCounter h')) fun _ _ h' =>
      .syncPend h'

theorem repairDone (h : MemWf s) : MemWf (repairDone n last s) := .syncPend (.syncCounter (.ite (.setFlash h) h))
theorem nctRefuse (h : MemWf s) : MemWf (nctRefuse s) := .raise (.put h)
theorem nctStart (h : MemWf s) : MemWf (nctStart s) :=
  .andThen (.incr h) fun h' => .ite (.ite (.nctRefuse h') (.ite (.nctDone h') (.askCount (.put h'))))
      (.ite (.nctRefuse h') (.ite (.nctDone h') (.askFlash (.put h'))))

theorem nctWrite (h : MemWf s) : MemWf (nctWrite off a s) :=
  .ifThen (.plainWrite h) fun h' => .ite h' (.ite h (.nctStart h'))

end MemWf
end Sys2Proof.Machine
end

section
/-! Metering and Charon keep the canonical form of the memory (O59). -/

namespace Sys2Proof.Machine

open Reg

namespace MemWf

theorem setMeter (h : MemWf s) : MemWf (s.setMeter m) := .update h
theorem setFeeder (h : MemWf s) : MemWf (s.setFeeder k x) := .setMeter h
theorem setPulse (h : MemWf s) : MemWf (s.setPulse n x) := .setMeter h
theorem losePulse (h : MemWf s) : MemWf (losePulse n s) := by
  unfold Machine.losePulse
  exact .raiseWith (.put (.bump h))

theorem addPulses (h : MemWf s) : MemWf (addPulses k a n s) :=
  .forAll h fun _ _ h' => .ite (.forAll (.put (.setPulse h')) fun _ _ h2 => .losePulse h2) h'

theorem clearPulse (h : MemWf s) : MemWf (clearPulse n s) := .put (.setPulse h)
theorem syncAcc (h : MemWf s) : MemWf (syncAcc k a s) := .setReg h
theorem book (h : MemWf s) : MemWf (book k a e s) :=
  .addPulses (.ifElse (.syncAcc (.setFeeder h)) fun h' => .raiseWith h')

theorem writeDemand (h : MemWf s) : MemWf (writeDemand k imp exp ticks sec counts s) :=
  .ifThen (.ifThen (.put (.put h)) fun h' => .put (.put h')) fun h' => .put (.put h')

theorem closeInterval (h : MemWf s) : MemWf (closeInterval ticks sec t nextPartial s) :=
  .raise (.setMeter (.forAll h fun _ _ h' => .setFeeder (.putBit (.incr (.writeDemand h')))))

theorem closeAt (h : MemWf s) : MemWf (closeAt sec t s) := .closeInterval h
theorem cutDemand (h : MemWf s) : MemWf (cutDemand old sec s) := .ite (.closeInterval (.setMeter h)) h
theorem resumeDemand (h : MemWf s) : MemWf (resumeDemand s) :=
  .ite (.setMeter (.setMeter h)) (.ifElse (.setMeter h) fun h' => .closeInterval h')

theorem bookDemand (h : MemWf s) : MemWf (bookDemand k stamp imp exp s) := by
  unfold Machine.bookDemand
  refine .ite (.setFeeder h) ?_
  split
  · exact .ite (.writeDemand (.setFeeder h)) (.setFeeder h)
  · exact .setFeeder h

theorem bookCycle (h : MemWf s) : MemWf (bookCycle k n stamp p q s) :=
  .book (.book (.ite (.bookDemand h) (.bookDemand h)))

theorem windowEnd (h : MemWf s) : MemWf (windowEnd k stamp crossing s) :=
  .ifThen (.raiseWith (.ifThen (.ifThen (.setFeeder (.forAll (.setReg
      (.setReg (.setReg (.setReg (.setReg (.setReg (.incr (.setReg (.update h))))))))) fun _ _ h' => .forAll h' fun
      _ _ h2 => .setReg h2)) fun h' => .raiseWith h') fun h' => .raiseWith h')) fun h' => .deliver
      (.ite h' (.raiseWith h'))

theorem closeCycle (h : MemWf s) : MemWf (closeCycle k stamp c s) :=
  .ifThen (.setFeeder (.bookCycle h)) fun h' => .windowEnd h'

theorem settleStop (h : MemWf s) : MemWf (settleStop s) := .ite (.put (.put (.setMeter h))) h
theorem detectCycle (h : MemWf s) : MemWf (detectCycle k s) := .ite h (.setFeeder h)
theorem absorbSample (h : MemWf s) : MemWf (absorbSample k s) := .ite h (.setFeeder h)
theorem beginFeeder (h : MemWf s) : MemWf (beginFeeder k on s) := .setFeeder h
theorem seedMeter (h : MemWf s) : MemWf (seedMeter s) :=
  .forAll (.put (.setMeter (.forAll h fun _ _ h' => .setMeter h'))) fun _ _ h' => .ite (.beginFeeder h') h'

theorem closeDue (h : MemWf s) : MemWf (closeDue k s) := by
  unfold Machine.closeDue
  split
  · exact .ite (.settleStop (.closeCycle h)) h
  · exact h

theorem endBlock (h : MemWf s) : MemWf (endBlock s) :=
  .setMeter (.forAll h fun _ _ h' => .setMeter (.ifThen (.putBit (.put h')) fun h2 => .raiseWith h2))

theorem setStuck (h : MemWf s) : MemWf (setStuck n s) := .muslinFault (.raiseWith (.put h))
theorem clearStuck (h : MemWf s) : MemWf (clearStuck n s) := .put h
theorem settleMeter (h : MemWf s) : MemWf (settleMeter s) :=
  .forAll (.ifThen (.forAll (.ite (.seedMeter h) h) fun _ _ h' => .closeDue h') fun h' => .endBlock h') fun _ _ h'
      => .ite (.setStuck h') (.ite (.clearStuck h') h')

theorem meterSample (h : MemWf s) : MemWf (meterSample x s) := by
  unfold Machine.meterSample
  exact .ifElse (.settleMeter (.untilReplica h)) fun h' => .forAll
      (.setMeter (.forAll h' fun _ _ h2 => .absorbSample h2)) fun _ _ h2 => .detectCycle h2

theorem feedMeter (h : MemWf s) : MemWf (feedMeter xs s) := .forAll h fun _ _ h' => .meterSample h'
theorem startSampling (h : MemWf s) : MemWf (startSampling s) := .ite h (.resumeDemand (.put (.put (.setMeter h))))
theorem stopSampling (h : MemWf s) : MemWf (stopSampling s) :=
  .put (.put (.setMeter (.forAll (.settleMeter h) fun _ _ h' => .setFeeder (.ite (.closeCycle h') h'))))

theorem withdrawSave (h : MemWf s) : MemWf (withdrawSave s) := .setMeter (.setFlash (.dropOps h))
theorem askSave (h : MemWf s) : MemWf (askSave kind s) :=
  .put (.forAll (.setMeter (.ite (.withdrawSave h) h)) fun _ _ h' => .askFlash h')

theorem restoreBytes (h : MemWf s) : MemWf (restoreBytes b s) :=
  .forAll (.forAll h fun _ _ h' => .forAll (.forAll (.setFeeder h') fun _ _ h2 => .setReg h2) fun _ _ h2 => .setReg
      (.syncAcc h2)) fun _ _ h' => .put (.setPulse h')

theorem askCommit (h : MemWf s) : MemWf (askCommit s) := .forAll h fun _ _ h' => .askFlash h'
theorem loadConfig (h : MemWf s) : MemWf (loadConfig s) := .ite h (.ite (.foldl h fun _ _ h' => .setReg h') h)
theorem meterStart (h : MemWf s) : MemWf (meterStart s) := by
  unfold Machine.meterStart
  extract_lets mine reported loaded restored due
  have hl : MemWf loaded := .loadConfig (.eccReport h)
  have hr : MemWf restored := by
    unfold restored
    split
    · exact .ifThen (.setMeter (.put (.restoreBytes hl))) fun h' => .otherEvent (.put h')
    · exact hl
  exact .ite (.startSampling (.setMeter hr)) (.setMeter hr)

theorem saveRefused (h : MemWf s) : MemWf (saveRefused s) := .raise (.putBit (.setMeter (.withdrawSave h)))
theorem saveDone (h : MemWf s) : MemWf (saveDone last s) :=
  .ite h (.forAll (.ifElse (.setMeter (.put (.put h))) fun h' => .put h') fun _ _ h' => .raiseWith h')

theorem configDone (h : MemWf s) : MemWf (configDone last s) := .ite (.raise (.put h)) h
theorem clearFeeder (h : MemWf s) : MemWf (clearFeeder k s) :=
  .askSave (.setMeter (.forAll (.forAll (.forAll (.setFeeder h) fun _ _ h' => .setReg (.syncAcc h')) fun _ _ h' =>
      .setReg h') fun _ _ h' => .ite (.clearPulse h') h'))

theorem markCal (h : MemWf s) : MemWf (markCal n s) := .forAll h fun _ _ h' => .ite (.setFeeder h') h'
theorem mtvWrite (h : MemWf s) : MemWf (mtvWrite off a s) := by
  unfold Machine.mtvWrite
  refine .ite (.andThen (.ifThen (.plainWrite h) fun h' => .askCommit h') fun h' => .ite (.startSampling h')
      (.ite (.settleStop (.setMeter h')) h')) ?_
  split
  · exact .ite h (.ite (.raise h) (.ite (.beginFeeder (.setReg h)) (.settleStop (.setFeeder (.setReg h)))))
  · exact .ifThen (.plainWrite h) fun h' => .markCal h'

theorem mtcWrite (h : MemWf s) : MemWf (mtcWrite off a s) := .ifThen (.plainWrite h) fun h' => .markCal h'
theorem mtrWrite (h : MemWf s) : MemWf (mtrWrite off a s) :=
  .ite (.imgenWrite h) (.ite (.baseWrite h) (.plainWrite h))

theorem mteWrite (h : MemWf s) : MemWf (mteWrite off a s) := by
  unfold Machine.mteWrite
  refine .ite (.ite (.askSave (.put h)) h) (.ite (.ifThen (.put h) fun h' => .clearFeeder (.put h')) ?_)
  split
  · exact .ite h (.clearFeeder (.setReg h))
  · exact .ite (.ite (.forAll h fun _ _ h' => .setReg h') h) (.plainWrite h)

theorem mteRead (h : MemWf s) : MemWf (mteRead off s).2 := by
  unfold Machine.mteRead
  split
  · exact .iteSnd (.snd (.setReg h)) (.plainRead h)
  · exact .plainRead h

theorem plsWrite (h : MemWf s) : MemWf (plsWrite off a s) := by
  unfold Machine.plsWrite
  split
  · exact .ifThen (.plainWrite h) fun h' => .ite (.ifElse (.clearPulse h') fun h2 => .setPulse h2) h
  · exact .ifThen (.plainWrite h) fun h' => .put h'

theorem setChr (h : MemWf s) : MemWf (s.setChr x) := .update h
theorem chrRaise (h : MemWf s) : MemWf (chrRaise f always data s) := .ite (.raiseWith h) (.put h)
theorem fireAlarm (h : MemWf s) : MemWf (fireAlarm a c skip s) :=
  .ifThen (.ifThen (.ifThen (.chrRaise h) fun h' => .chrRaise h') fun h' => .put h') fun h' => .setChr h'

theorem almEdge (h : MemWf s) : MemWf (almEdge a c s) := .ite (.fireAlarm h) h
theorem almCatch (h : MemWf s) : MemWf (almCatch a old new s) := by
  unfold Machine.almCatch
  refine .ite ?_ h
  split
  · exact .ite (.fireAlarm h) h
  · exact h

theorem chrCapture (h : MemWf s) : MemWf (chrCapture load' s) := .putBit (.setChr h)
theorem syncOpPend (h : MemWf s) : MemWf (syncOpPend s) := .put h
theorem opTick (h : MemWf s) : MemWf (opTick s) :=
  .ite h (.ite (.setChr h) (.ifThen (.put (.setChr h)) fun h' => .syncOpPend (.askCount h')))

theorem chrLoad (h : MemWf s) : MemWf (chrLoad sec old s) :=
  .forAll (.cutDemand (.chrCapture (.put (.put (.setChr h))))) fun _ _ h' => .almEdge (.almCatch h')

theorem charonEdge (h : MemWf s) : MemWf (charonEdge s) := by
  unfold Machine.charonEdge
  refine .ite h (.opTick ?_)
  split
  · exact .chrLoad h
  · exact .forAll (.ifThen (.setChr h) fun h' => .chrCapture h') fun _ _ h' => .almEdge h'

theorem charonTicks (h : MemWf s) : MemWf (charonTicks n s) := by
  induction n generalizing s with
  | zero => exact h
  | succ n ih => exact ih (.charonEdge h)

theorem ticksToAlarm (h : MemWf s) : MemWf (ticksToAlarm a n s) := by
  induction n generalizing s with
  | zero => exact h
  | succ n ih => exact .ite (.charonEdge (.put h)) (ih (.put (.charonEdge (.put h))))

theorem chrSupplyGood (h : MemWf s) : MemWf (chrSupplyGood s) := .setChr (.put (.askCount h))
theorem charonStart (h : MemWf s) : MemWf (charonStart s) := .resetPages (.setChr (.dropOps h))
theorem chrRead (h : MemWf s) : MemWf (chrRead off s).2 :=
  .iteSnd (.snd (.put (.put h))) (.iteSnd (.snd (.setReg (.setReg h))) (.iteSnd (.snd (.put h)) (.plainRead h)))

theorem almWrite (h : MemWf s) : MemWf (almWrite a off x s) :=
  .ite h (.ifElse (.plainWrite h) fun h' => .ite (.raise h) (.ifThen (.setReg h') fun h2 => .raise h2))

theorem chrWrite (h : MemWf s) : MemWf (chrWrite off x s) :=
  .ite (.ite h (.ite (.raise h) (.put (.setChr h)))) (.ite (.almWrite h) (.ite (.almWrite h) (.plainWrite h)))

end MemWf
end Sys2Proof.Machine
end

section
/-! Vault, event recorder and crypto jobs keep the canonical form of the memory (O59). -/

namespace Sys2Proof.Machine

open Reg

namespace MemWf

theorem drawBytes (h : MemWf s) : MemWf (drawBytes n s).2 := .snd (.update h)
theorem sendSealed (h : MemWf s) : MemWf (sendSealed d kind slot plain s) :=
  .ite (.forAll (.setLink h) fun _ _ h' => .sendPacket h') h

theorem setVault (h : MemWf s) : MemWf (s.setVault x) := .update h
theorem setWslot (h : MemWf s) : MemWf (s.setWslot w x) := .update h
theorem tagFail (h : MemWf s) : MemWf (tagFail i s) := .muslinFault (.raiseLog h)
theorem useFlags (h : MemWf s) : MemWf (useFlags i code s) := .ite (.raise h) (.ite (.tagFail h) h)
theorem syncBusy (h : MemWf s) : MemWf (syncBusy s) := .putBit h
theorem consumeUse (h : MemWf s) : MemWf (consumeUse i s) := .askFlash (.setVault h)
theorem answerStatus (h : MemWf s) : MemWf (answerStatus wslot st s) := .sendSealed h
theorem vaultPop (h : MemWf s) : MemWf (vaultPop s) := .syncBusy (.setVault h)
theorem updateRefused (h : MemWf s) : MemWf (updateRefused st s) := .raise (.vaultPop (.put (.put (.put h))))
theorem clearRefused (h : MemWf s) : MemWf (clearRefused st s) := .raise (.update (.put (.put (.put h))))
theorem setBootKey (hs : MemWf s) : MemWf (setBootKey h k s) := by
  unfold Machine.setBootKey
  split <;> exact .update hs

theorem vaultServe (h : MemWf s) : MemWf (vaultServe s) := by
  unfold Machine.vaultServe
  refine .ite h ?_
  split
  · exact h
  · exact .ite (.consumeUse (.eccIn h)) (.vaultPop (.answerStatus (.useFlags (.eccIn h))))
  · exact .ite (.consumeUse (.eccIn h)) (.vaultPop (.ifThen (.useFlags (.eccIn h)) fun h' => .setBootKey h'))
  · split
    · exact .vaultPop (.sendSealed h)
    · exact .vaultPop (.answerStatus h)
  · exact .vaultPop (.sendSealed (.drawBytes (.drawBytes h)))
  · exact .andThen (.eccIn h) fun h' => .ite (.updateRefused (.ite (.useFlags h') h'))
      (.ite (.updateRefused (.useFlags h')) (.consumeUse h'))
  · exact .ite (.consumeUse (.eccIn h)) (.clearRefused (.vaultPop (.useFlags (.eccIn h))))

theorem vaultRunN (h : MemWf s) : MemWf (vaultRunN n s) := by
  induction n generalizing s with
  | zero => exact h
  | succ n ih => exact .ite (ih (.vaultServe h)) h

theorem vaultRun (h : MemWf s) : MemWf (vaultRun s) := .vaultRunN h
theorem vaultAsk (h : MemWf s) : MemWf (vaultAsk r s) := .vaultRun (.syncBusy (.setVault h))
theorem sendTransport (h : MemWf s) : MemWf (sendTransport s) :=
  .ite (.sendBulk (.setVault (.sendSealed h))) (.vaultRun (.updateRefused h))

theorem useDone (h : MemWf s) : MemWf (useDone slot s) := by
  unfold Machine.useDone
  refine .ite h ?_
  split
  · exact .vaultRun (.vaultPop (.sendSealed h))
  · exact .vaultRun (.vaultPop (.ite (.setBootKey (.setWslot h)) h))
  · exact .sendTransport h
  · exact .setVault h
  · exact .setVault h
  · exact h

theorem updateVerified (h : MemWf s) : MemWf (updateVerified good s) :=
  .ite (.vaultRun (.updateRefused h)) (.ite (.consumeUse (.eccIn h))
      (.vaultRun (.updateRefused (.useFlags (.eccIn h)))))

theorem commitRead (h : MemWf s) : MemWf (commitRead s) := .eccIn (.eccIn (.update h))
theorem updateReturned (h : MemWf s) : MemWf (updateReturned plain s) :=
  .ite h (.ite (.vaultRun (.updateRefused h)) (.ite (.vaultRun (.updateRefused h)) (.askFlash (.setVault h))))

theorem updateDone (h : MemWf s) : MemWf (updateDone s) :=
  .vaultRun (.vaultPop (.raiseLog (.counterWritten (.put (.put (.put (.setVault (.dropOps h))))))))

theorem vaultCheck (h : MemWf s) : MemWf (vaultCheck s) :=
  .put (.forAll (.ifElse (.setVault (.forAll (.eccIn (.setVault h)) fun _ _ h' => .ite (.tagFail h') h')) fun h' =>
      .raise h') fun _ _ h' => .ite h' (.askFlash h'))

theorem loseBootKeys (h : MemWf s) : MemWf (loseBootKeys s) := by
  unfold Machine.loseBootKeys
  exact .setBootKey (.setBootKey h)

theorem vaultBroken (h : MemWf s) : MemWf (vaultBroken s) := by
  unfold Machine.vaultBroken
  split
  · exact .ite (.vaultRun (.syncBusy (.updateRefused h))) h
  · exact h

theorem vaultLinkDown (h : MemWf s) : MemWf (vaultLinkDown s) := by
  unfold Machine.vaultLinkDown
  extract_lets lost v refused dropped
  have hl : MemWf lost := .loseBootKeys h
  have hr : MemWf refused := by
    unfold refused
    split
    · exact .ite (.setVault hl) (.ite (.updateRefused (.setVault hl)) (.setVault hl))
    · exact hl
  exact .vaultRun (.syncBusy (.ite (.dropOps hr) hr))

theorem keyWrite (h : MemWf s) : MemWf (keyWrite off a s) :=
  .ite (.ite (.vaultAsk (.put (.setVault h))) h) (.plainWrite h)

theorem keyRead (h : MemWf s) : MemWf (keyRead off s).2 :=
  .iteSnd (.snd h) (.iteSnd (.snd h) (.iteSnd (.snd h) (.plainRead h)))

theorem setEvr (h : MemWf s) : MemWf (s.setEvr x) := .update h
theorem syncCount (h : MemWf s) : MemWf (syncCount s) := .put h
theorem ownRecord (h : MemWf s) : MemWf (ownRecord sev code data s).2 := .snd (.incr h)
theorem recordLost (h : MemWf s) : MemWf (recordLost s) := by
  unfold Machine.recordLost
  dsimp only
  exact .ite h (.syncQlevel (.setEvr (.ownRecord h)))

theorem evrKick (h : MemWf s) : MemWf (evrKick s) := .ite (.askFlash h) h
theorem eraseAhead (h : MemWf s) : MemWf (eraseAhead s) := .ite h (.askFlash h)
theorem advanceWp (h : MemWf s) : MemWf (advanceWp s) := .ifThen (.setEvr h) fun h' => .eraseAhead h'
theorem logSteps (h : MemWf s) : MemWf (logSteps s).2 := by
  unfold Machine.logSteps
  split
  · exact .snd (.advanceWp (.recordLost (.syncQlevel (.setEvr h))))
  · exact .snd h

theorem evrClear (h : MemWf s) : MemWf (evrClear s) :=
  .ite h (.ifElse (.put h) fun h' => .ite (.clearRefused h) (.vaultAsk (.setEvr (.put (.put h')))))

theorem clearVerified (h : MemWf s) : MemWf (clearVerified good s) :=
  .ite (.clearRefused (.vaultRun (.vaultPop h))) (.askCount (.vaultRun (.vaultPop (.setEvr h))))

theorem clearCounted (h : MemWf s) : MemWf (clearCounted s) := by
  unfold Machine.clearCounted
  dsimp only
  exact .askFlash (.setEvr (.ownRecord h))

theorem clearNext (h : MemWf s) : MemWf (clearNext ks s) := by
  unfold Machine.clearNext
  split
  · exact .askFlash (.setEvr h)
  · exact .raise (.eraseAhead (.syncCount (.put (.put (.put (.put (.setEvr h)))))))

theorem clearWritten (h : MemWf s) : MemWf (clearWritten s) := .clearNext (.syncCount (.setEvr h))
theorem clearErased (h : MemWf s) : MemWf (clearErased s) := by
  unfold Machine.clearErased
  split
  · exact .clearNext (.syncCount h)
  · exact h

theorem recorderReset (h : MemWf s) : MemWf (recorderReset s) := .syncCount (.setReg (.setEvr h))
theorem searchSlots (h : MemWf s) : MemWf (searchSlots filt is s).2 := by
  induction is generalizing s with
  | nil => exact h
  | cons i is ih =>
    rw [Machine.searchSlots]
    refine .iteSnd (ih h) ?_
    dsimp only
    split
    · exact .iteSnd (.snd (.eccReport h)) (ih (.eccReport h))
    · exact .iteSnd (.snd (.raise (.bump (.eccReport h)))) (ih (.raise (.bump (.eccReport h))))

theorem readDone (h : MemWf s) : MemWf (readDone op slot filt s) := by
  unfold Machine.readDone
  refine .raise (.put (.setEvr ?_))
  split
  · exact .forAll (.put (.put (.put (.put (.searchSlots h))))) fun _ _ h' => .setReg h'
  · exact .forAll (.put (.put (.put (.put (.searchSlots h))))) fun _ _ h' => .setReg h'
  · exact .put (.put (.put (.searchSlots h)))

theorem readRow (h : MemWf s) : MemWf (readRow op s) := by
  unfold Machine.readRow
  split
  · exact .ite (.ite h (.readDone h)) h
  · exact h

theorem evrWrite (h : MemWf s) : MemWf (evrWrite off a s) :=
  .ite (.ifThen (.plainWrite h) fun h' => .setEvr h') (.ite (.ite (.evrClear h) h) (.plainWrite h))

theorem setCry (h : MemWf s) : MemWf (s.setCry x) := .update h
theorem wcmdEnd (h : MemWf s) : MemWf (wcmdEnd st s) := by
  unfold Machine.wcmdEnd
  split
  · exact h
  · exact .raise (.put (.ifThen (.put (.put (.put (.setCry h)))) fun h' => .forAll h' fun _ _ h2 => .setReg h2))

theorem sendVault (h : MemWf s) : MemWf (sendVault op v w attr s) := .sendBulk h
theorem wcmdGo (h : MemWf s) : MemWf (wcmdGo s) := by
  unfold Machine.wcmdGo
  split
  · exact h
  · refine .ite h ?_
    split
    · exact .ite (.sendVault (.setCry h)) (.wcmdEnd h)
    · exact .ite (.wcmdEnd h) (.ite (.sendSealed (.setCry h)) (.wcmdEnd h))
    · exact .ite (.wcmdEnd h) (.ite (.sendVault (.setCry h)) (.wcmdEnd h))
    · exact .ite (.wcmdEnd h) (.wcmdEnd (.setWslot h))
    · exact .wcmdEnd (.setWslot h)
    · exact .wcmdEnd h

theorem wcmdWrite (h : MemWf s) : MemWf (wcmdWrite a s) :=
  .ifElse (.plainWrite h) fun h' => .ite (.putBit h') (.wcmdGo (.put (.setCry h')))

theorem cryKey (h : MemWf s) : MemWf (cryKey target p s) := by
  unfold Machine.cryKey
  refine .ite (.setCry h) ?_
  split
  · exact .ite h (.ite (.wcmdEnd h) (.wcmdEnd (.setWslot (.ite (.wbytes h) h))))
  · exact h

theorem cryTransport (h : MemWf s) : MemWf (cryTransport m s) := .sendSealed (.setCry h)
theorem vaultRequest (h : MemWf s) : MemWf (vaultRequest b s) := by
  unfold Machine.vaultRequest
  split
  · exact .vaultAsk h
  · exact .vaultAsk h
  · exact h

theorem cryBroken (h : MemWf s) : MemWf (cryBroken s) := by
  unfold Machine.cryBroken
  split
  · exact .ite (.wcmdEnd h) h
  · exact h

theorem cryLinkDown (h : MemWf s) : MemWf (cryLinkDown s) := .cryBroken (.setCry h)
theorem jobOutput (h : MemWf s) : MemWf (jobOutput j key s).2 := by
  unfold Machine.jobOutput
  dsimp only
  split
  · exact .snd h
  · split <;> exact .snd h
  · exact .snd h
  · exact .snd h
  · exact .snd h
  · exact .snd h
  · exact .snd h
  · exact .snd h
  · exact .snd h
  · exact .snd h
  · exact .snd h
  · exact .snd h
  · exact .snd (.drawBytes h)
  · exact .snd h
  · split <;> exact .snd (.drawBytes h)
  · split
    · exact .iteSnd (.snd h) (.snd h)
    · exact .snd h
  · exact .snd (.drawBytes h)
  · exact .snd (.drawBytes h)

theorem runJob (h : MemWf s) : MemWf (runJob e s).2 :=
  .iteSnd (.snd h) (.iteSnd (.snd h) (.iteSnd (.snd h) (.iteSnd (.snd (.raiseWith h))
      (.iteSnd (.snd h) (.snd (.wbytes (.wbytes (.jobOutput h))))))))

theorem syncCry (h : MemWf s) : MemWf (syncCry s) := .putBit (.putBit (.put h))
theorem startOp (h : MemWf s) : MemWf (startOp op s) := by
  unfold Machine.startOp
  dsimp only
  split
  · exact .ite (.syncCry (.setCry (.runJob (.setCry h)))) h
  · exact h

theorem jobResult (h : MemWf s) : MemWf (jobResult r s) := by
  have hcounted : MemWf (let s := s.bump pCRY CRY_CNT_JOBS
      if r.status = 0 then s else Machine.raise pCRY CRY_IRQ_RAW_JOBERR (s.bump pCRY CRY_CNT_ERRS)) :=
    .ifElse (.bump h) fun h' => .raise (.bump h')
  unfold Machine.jobResult
  dsimp only
  split
  case h_1 t ht => exact .raise (.pushB hcounted ht)
  case h_2 => exact .raise hcounted

theorem cryWrite (h : MemWf s) : MemWf (cryWrite off a s) := .ite (.wcmdWrite h) (.plainWrite h)
theorem cryRead (h : MemWf s) : MemWf (cryRead off s).2 := .iteSnd (.snd h) (.plainRead h)

end MemWf
end Sys2Proof.Machine
end

section
/-! Serial ports, Ethernet, block transfers and fault pages keep the canonical form of the memory (O59). -/

namespace Sys2Proof.Machine

open Reg

namespace MemWf

theorem setComms (h : MemWf s) : MemWf (s.setComms x) := .update h
theorem setSer (h : MemWf s) : MemWf (s.setSer n x) := .setComms h
theorem serDeliver (h : MemWf s) : MemWf (serDeliver n kind status first last tag data s) := by
  unfold Machine.serDeliver
  dsimp only
  split
  case h_1 => exact .raise (.bump h)
  case h_2 t ht => exact .ifThen (.ifElse (.raise (.pushB h ht)) fun h' => .bump h') fun h' => .raise h'

theorem serTimeout (h : MemWf s) : MemWf (serTimeout n s) := by
  unfold Machine.serTimeout
  split
  · exact .raise (.serDeliver (.setSer h))
  · exact h

theorem serAnswer (h : MemWf s) : MemWf (serAnswer n x s).2 := by
  unfold Machine.serAnswer
  split
  · exact .iteSnd (.snd (.setSer h)) (.snd (.serTimeout h))
  · exact .snd h

theorem setRx (h : MemWf s) : MemWf (s.setRx n x) := .putBit (.setSer h)
theorem endModbus (h : MemWf s) : MemWf (endModbus n x s) :=
  .ite (.ifThen (.setRx h) fun h' => .serDeliver h') (.serDeliver (.serAnswer (.setRx h)))

theorem endOsdp (h : MemWf s) : MemWf (endOsdp n x s) := .ifElse (.setRx h) fun h' => .serDeliver (.serAnswer h')
theorem endRaw (h : MemWf s) : MemWf (endRaw n x s) := .serDeliver (.setRx h)
theorem endFrame (h : MemWf s) : MemWf (endFrame n s) := by
  unfold Machine.endFrame
  split
  · exact h
  · exact .ite (.endModbus h) (.ite (.endOsdp h) (.endRaw h))

theorem serSettle (h : MemWf s) : MemWf (serSettle n t s) := by
  unfold Machine.serSettle
  refine .ifElse (.endFrame h) fun h' => ?_
  split
  · exact .ite h' h
  · exact h

theorem hearChar (h : MemWf s) : MemWf (hearChar n c s) := by
  unfold Machine.hearChar
  dsimp only
  refine .ifElse (.untilMtb h) fun h' => ?_
  split
  · exact .setRx (.setSer (.serSettle h'))
  · exact .ifElse (.setSer (.serSettle h')) fun h2 => .setRx h2

theorem hearLine (h : MemWf s) : MemWf (hearLine n xs s) := .forAll h fun _ _ h' => .hearChar h'
theorem serSend (h : MemWf s) : MemWf (serSend n s) := by
  unfold Machine.serSend
  split
  · exact h
  · exact .ite (.raise (.takeA h)) (.put (.setSer (.takeA h)))

theorem syncSvc (h : MemWf s) : MemWf (syncSvc s) := .put (.put h)
theorem svcKick (h : MemWf s) : MemWf (svcKick s) := .ite (.setComms h) h
theorem stopSer (h : MemWf s) : MemWf (stopSer n s) := .setRx (.putBit (.setSer h))
theorem stopSvc (h : MemWf s) : MemWf (stopSvc s) := .syncSvc (.setComms h)
theorem stopComms (h : MemWf s) : MemWf (stopComms s) := .stopSvc (.forAll h fun _ _ h' => .stopSer h')
theorem serWrite (h : MemWf s) : MemWf (serWrite n off a s) :=
  .ite (.ite h (.plainWrite h)) (.ifThen (.plainWrite h) fun h' => .ifElse (.putBit h') fun h2 => .setRx
      (.put (.setSer h2)))

theorem svcWrite (h : MemWf s) : MemWf (svcWrite off a s) :=
  .ite (.ite (.svcKick (.syncSvc (.setComms h))) h) (.ifThen (.plainWrite h) fun h' => .ite (.svcKick h')
      (.setComms h'))

theorem svcRead (h : MemWf s) : MemWf (svcRead off s).2 := by
  unfold Machine.svcRead
  refine .iteSnd ?_ (.plainRead h)
  split
  · exact .snd (.syncSvc (.setComms h))
  · exact .snd h

theorem learn (h : MemWf s) : MemWf (learn vid mac port s) := .ite h (.setComms h)
theorem txStamp (h : MemWf s) : MemWf (txStamp port tag at_ s) := .ite (.raise h) (.setComms h)
theorem rxDrop (h : MemWf s) : MemWf (rxDrop s) := .raise (.bump h)
theorem ethSend (h : MemWf s) : MemWf (ethSend o at_ s) := by
  unfold Machine.ethSend
  dsimp only
  refine .ite (.pushB_getD (.setComms h) (.rxDrop (.setComms h))) (.ite ?_ (.setComms h))
  split
  · exact .txStamp (.setComms (.setComms h))
  · exact .setComms (.setComms h)

theorem ethOut (h : MemWf s) : MemWf (ethOut o s) := .ite (.ethSend h) (.setComms h)
theorem portPump (h : MemWf s) : MemWf (portPump k n s) := by
  induction n generalizing s with
  | zero => exact h
  | succ n ih =>
    rw [Machine.portPump]
    dsimp only
    split
    · exact h
    · split
      · exact ih (.ethSend (.setComms h))
      · exact h

theorem ethPump (h : MemWf s) : MemWf (ethPump s) := .ite h (.forAll h fun _ _ h' => .portPump h')
theorem ethTick (h : MemWf s) : MemWf (ethTick s) := .ite h (.ethPump (.setComms h))
theorem putWire (h : MemWf s) : MemWf (putWire k vid pri at_ tag b s) := .ite (.ethOut h) h
theorem toQ22 (h : MemWf s) : MemWf (toQ22 x d vid b s) := .ethOut h
theorem ethLink (h : MemWf s) : MemWf (ethLink p up fdx speed s) :=
  .ifThen (.ite (.put (.putBit (.putBit h))) (.put (.putBit (.putBit h)))) fun h' => .raise h'

theorem ethWrite (h : MemWf s) : MemWf (ethWrite off a s) :=
  .forAll (.plainWrite h) fun _ _ h' => .ite (.ethLink h') h'

theorem ethRead (h : MemWf s) : MemWf (ethRead off s).2 := by
  unfold Machine.ethRead
  refine .iteSnd ?_ (.plainRead h)
  split
  · exact .snd (.setReg (.setReg (.setComms h)))
  · exact .snd h

theorem eswWrite (h : MemWf s) : MemWf (eswWrite off a s) :=
  .ite (.ite h (.ite (.raise h) (.plainWrite h))) (.ifElse (.plainWrite h) fun h' => .setComms h')

theorem syncEvsLevel (h : MemWf s) : MemWf (syncEvsLevel s) := .put h
theorem toQ29 (h : MemWf s) : MemWf (toQ29 entry s) := by
  refine .ite h ?_
  split
  case h_1 t ht => exact .pushB h ht
  case h_2 => exact .raise (.bump h)

theorem toRecorder (h : MemWf s) : MemWf (toRecorder n s) :=
  .ite (.sendBulk h) (.ite (.syncEvsLevel (.update h)) (.bump (.update h)))

theorem numberEvent (h : MemWf s) : MemWf (numberEvent e s) := .ifElse (.toQ29 (.setReg h)) fun h' => .toRecorder h'
theorem evsLinkUp (h : MemWf s) : MemWf (evsLinkUp s) :=
  .ifElse (.forAll (.syncEvsLevel (.update h)) fun _ _ h' => .toRecorder h') fun h' => .raiseLog (.update h')

theorem evsLinkDown (h : MemWf s) : MemWf (evsLinkDown flight s) := .syncEvsLevel (.bump (.update h))
theorem intWrite (h : MemWf s) : MemWf (intWrite off a s) := .ite (.update h) (.ite (.update h) (.plainWrite h))
theorem intRead (h : MemWf s) : MemWf (intRead off s).2 := .iteSnd (.snd h) (.plainRead h)
theorem setWdt (h : MemWf s) : MemWf (s.setWdt r x) := .update h
theorem wdtOpen (h : MemWf s) : MemWf (wdtOpen r s) := .put (.setWdt h)
theorem wdtSync (h : MemWf s) : MemWf (wdtSync s) :=
  .forAll h fun _ _ h' => .ite (.wdtOpen h') (.ite (.put (.setWdt h')) h')

theorem wdtStage1 (h : MemWf s) : MemWf (wdtStage1 r s) :=
  .raiseFault (.ifThen (.raise (.put (.setWdt h))) fun h' => .put h')

theorem wdtHalfBoot (hs : MemWf s) : MemWf (wdtHalfBoot h s) := .put (.wdtSync (.put (.put hs)))
theorem syncSupv (h : MemWf s) : MemWf (syncSupv s) := .forAll h fun _ _ h' => .put h'
theorem settleRole (h : MemWf s) : MemWf (settleRole e s) :=
  .ite (.setMode (.setEng h)) (.ite (.setMode (.setEng h)) h)

theorem setSupv (h : MemWf s) : MemWf (setSupv w s) :=
  .wdtSync (.forAll (.syncSupv (.setReg h)) fun _ _ h' => .settleRole h')

theorem supvWrite (h : MemWf s) : MemWf (supvWrite a s) := .ite h (.ifThen (.setSupv h) fun h' => .raise h')
theorem ringWrite (h : MemWf s) : MemWf (ringWrite q r off a s) :=
  .ite (.ite h (.ite (.ite (.raise h) h) (.plainWrite h))) (.ite
      (.ite h (.ite (.ite (.raise h) h) (.plainWrite h))) (.ite (.ite (.plainWrite h) h)
      (.ite (.ite (.plainWrite h) h) (.ite (.ite (.ite (.raise h) h) (.plainWrite h)) h))))

theorem qmgWrite (h : MemWf s) : MemWf (qmgWrite off a s) := .ite (.ringWrite h) (.plainWrite h)
theorem writeBuffer (h : MemWf s) : MemWf (writeBuffer target off ws s) := .forAll h fun _ _ h' => .setReg h'
theorem q31Result (h : MemWf s) : MemWf (q31Result tag status s) := .pushB_getD h h
theorem q31Take (h : MemWf s) : MemWf (q31Take s) := by
  unfold Machine.q31Take
  split
  · split
    · exact .q31Result (.takeA h)
    · exact .ite (.q31Result (.takeA h)) (.ite (.sendBulk (.update (.takeA h))) (.q31Result (.takeA h)))
  · exact h

theorem q31Abort (h : MemWf s) : MemWf (q31Abort s) := by
  unfold Machine.q31Abort
  split
  · exact .q31Result (.update h)
  · exact h

theorem q31Serve (h : MemWf s) : MemWf (q31Serve ws s) := .ite h (.ite (.sendBulk h) (.sendBulk (.writeBuffer h)))
theorem q31Done (h : MemWf s) : MemWf (q31Done ws s) := by
  unfold Machine.q31Done
  split
  · exact .q31Result (.ifThen (.update h) fun h' => .wbytes h')
  · exact h

end MemWf
end Sys2Proof.Machine
end

section
/-! The floor bus and its stations keep the canonical form of the memory (O59). -/

namespace Sys2Proof.Machine

open Reg

namespace MemWf

theorem setFb (h : MemWf s) : MemWf (s.setFb c x) := .ite (.update h) (.update h)
theorem putChans (h : MemWf s) : MemWf (putChans c f v s) := .forAll h fun _ _ h' => .put h'
theorem putTstate (h : MemWf s) : MemWf (putTstate c v s) := .forAll h fun _ _ h' => .ite h' (.put h')
theorem raiseChans (h : MemWf s) : MemWf (raiseChans c f s) := .forAll h fun _ _ h' => .raise h'
theorem storeFrame (h : MemWf s) : MemWf (storeFrame c k f stamp inwin chan cyc s) := .ww (.ww (.ww (.wbytes h)))
theorem sentObject (h : MemWf s) : MemWf (sentObject c k f stamp chan cyc s) := .ww (.ww h)
theorem settleObj (h : MemWf s) : MemWf (settleObj a s) := .ww h
theorem msgWrite (h : MemWf s) : MemWf (msgWrite sup a v s) :=
  .ite h (.ite (.ite (.settleObj (.ww h)) h) (.ite (.ite (.ww h) h) (.ite (.ww h) (.ite (.ww h) h))))

theorem setStn (h : MemWf s) : MemWf (s.setStn q x) := .update h
theorem syncLost (h : MemWf s) : MemWf (syncLost s) := .forAll (.put h) fun _ _ h' => .setReg h'
theorem writeArea (h : MemWf s) : MemWf (writeArea q withImage record s) :=
  .ite h (.ifThen (.wbytes h) fun h' => .wbytes h')

theorem writeNow (h : MemWf s) : MemWf (writeNow q s) := .writeArea (.setStn h)
theorem dueWrite (h : MemWf s) : MemWf (dueWrite q withImage s) := .setStn (.setStn h)
theorem validateStation (h : MemWf s) : MemWf (validateStation q s) :=
  .ifElse (.putBit (.setStn h)) fun h' => .raise (.writeNow h')

theorem enableStation (h : MemWf s) : MemWf (enableStation q s) :=
  .syncLost (.validateStation (.writeArea (.setStn (.setReg h))))

theorem rioBank (h : MemWf s) : MemWf (rioBank c s) := .forAll h fun _ _ h' => .ite (.validateStation h') h'
theorem rioFrame (h : MemWf s) : MemWf (rioFrame c obj hit s) := .forAll h fun _ _ h' => .ite (.setStn h') h'
theorem dropSettled (h : MemWf s) : MemWf (dropSettled s) := .forAll h fun _ _ h' => .setStn h'
theorem setUnconfirmed (h : MemWf s) : MemWf (setUnconfirmed q b s) := .ifThen (.putBit h) fun h' => .raise h'
theorem acceptSet (h : MemWf s) : MemWf (acceptSet c q s) :=
  .dueWrite (.syncLost (.setUnconfirmed (.ifThen (.put (.put (.put (.put (.put (.put (.setStn h))))))) fun h' =>
      .raise (.ite (.put h') h'))))

theorem raiseStation (h : MemWf s) : MemWf (missSet.raiseStation q s) := .raiseFault h
theorem missSet (h : MemWf s) : MemWf (missSet q s) :=
  .dueWrite (.syncLost (.setUnconfirmed (.ifThen (.ifThen (.bump (.bump (.put (.setStn h)))) fun h' => .raise
      (.put (.put h'))) fun h' => .raiseStation h')))

theorem rioCycleLost (h : MemWf s) : MemWf (rioCycleLost c s) :=
  .ite h (.syncLost (.forAll h fun _ _ h' => .ite (.writeNow (.setStn
      (.ifElse (.put (.put (.put h'))) fun h2 => .raiseFault (.raise (.put h2))))) h'))

theorem rioSent (h : MemWf s) : MemWf (rioSent c obj s) := by
  unfold Machine.rioSent
  refine .forAll h fun _ _ h' => .ite ?_ h'
  split
  · exact .ite (.setStn h') (.setStn h')
  · exact h'

theorem rioMissed (h : MemWf s) : MemWf (rioMissed c obj s) := .forAll h fun _ _ h' => .ite (.setStn h') h'
theorem rioRead (h : MemWf s) : MemWf (rioRead off s).2 := by
  unfold Machine.rioRead
  refine .iteSnd ?_ (.plainRead h)
  split
  · exact .plainRead h
  · exact .snd h

theorem scfgWrite (h : MemWf s) : MemWf (scfgWrite q a s) :=
  .ite h (.ite (.enableStation (.plainWrite h)) (.syncLost (.plainWrite h)))

theorem rioWrite (h : MemWf s) : MemWf (rioWrite off a s) := by
  unfold Machine.rioWrite
  refine .ite ?_ (.ifElse (.plainWrite h) fun h' => .dropSettled h')
  split
  · exact h
  · exact .ite (.scfgWrite h) (.ifElse (.plainWrite h) fun h' => .ite h h')

theorem syncErrState (h : MemWf s) : MemWf (syncErrState c s) := .ite h (.ifThen (.putBit h) fun h' => .raise h')
theorem startRecovery (h : MemWf s) : MemWf (startRecovery c s) := .ite (.put (.put h)) h
theorem channelFails (h : MemWf s) : MemWf (channelFails c s) := .ite h (.raiseFault (.raise (.put h)))
theorem channelMiss (h : MemWf s) : MemWf (channelMiss c s) := .ifThen (.setFb h) fun h' => .channelFails h'
theorem channelGood (h : MemWf s) : MemWf (channelGood c s) := .ifThen (.setFb h) fun h' => .raise (.put h')
theorem txOver (h : MemWf s) : MemWf (txOver e s) := .setFb h
theorem dropObjectOn (h : MemWf s) : MemWf (dropObjectOn k e s) := .ifThen (.ite (.setFb h) h) fun h' => .txOver h'
theorem dropObjectTx (h : MemWf s) : MemWf (dropObjectTx c w s) := .ite (.forAll h fun _ _ h' => .dropObjectOn h') h
theorem loseCycle (h : MemWf s) : MemWf (loseCycle c s) := by
  unfold Machine.loseCycle
  extract_lets d x had dropped idle cleared
  have hd : MemWf dropped := by
    unfold dropped
    split
    · exact .dropObjectTx h
    · exact h
  exact .ifThen (.forAll (.setFb hd) fun _ _ h' => .setFb h') fun h' => .rioCycleLost h'

theorem enterBusOff (h : MemWf s) : MemWf (enterBusOff c s) :=
  .andThen (.setFb (.raise (.put h))) fun h' => .startRecovery
      (.ifThen (.ite (.channelFails h') (.raiseFault h')) fun h2 => .loseCycle (.ite (.putTstate h2) h2))

theorem txError (h : MemWf s) : MemWf (txError c lec spared eights s) :=
  .ite (.enterBusOff (.put (.put h))) (.syncErrState (.put (.put h)))

theorem rxError (h : MemWf s) : MemWf (rxError c lec eight s) :=
  .ifElse (.put h) fun h' => .syncErrState (.ifThen (.put h') fun h2 => .put h2)

theorem rxGood (h : MemWf s) : MemWf (rxGood c s) := .ite h (.ite (.syncErrState (.update (.put (.put h)))) (.put h))
theorem deliverRing (h : MemWf s) : MemWf (deliverRing c exclusive counts entry s) := by
  unfold Machine.deliverRing
  dsimp only
  split
  case h_1 t ht => exact .ifThen (.pushB h ht) fun h' => .bump h'
  case h_2 => exact .raise (.bump h)

theorem settleChannels (h : MemWf s) : MemWf (settleChannels w s) :=
  .ite h (.forAll h fun _ _ h' => .ite (.channelGood h') (.ite (.channelMiss h') (.setFb h')))

theorem settleWin (h : MemWf s) : MemWf (settleWin d w s) :=
  .ite (.ite h (.rioMissed (.raise (.bump h)))) (.ite h (.rioFrame (.settleChannels (.ite h (.raise (.bump h))))))

theorem putEx (h : MemWf s) : MemWf (putEx d at_ w s) := by
  unfold Machine.putEx
  split <;> exact .setFb h

theorem settleLate (h : MemWf s) : MemWf (settleLate d s) := .forAll (.setFb h) fun _ _ h' => .settleWin h'
theorem clearWaits (h : MemWf s) : MemWf (clearWaits c s) := .settleLate (.setFb h)
theorem receiveCell (h : MemWf s) : MemWf (receiveCell c d f stamp ring at_ w s) := by
  unfold Machine.receiveCell
  refine .settleLate ?_
  split
  · exact .ifThen (.bump (.putEx (.storeFrame h))) fun h' => .deliverRing h'
  · exact .ite (.ifElse (.putEx h) fun h' => .raise h') (.ifThen (.bump (.putEx (.storeFrame h))) fun h' =>
      .deliverRing h')

theorem receiveOther (h : MemWf s) : MemWf (receiveOther c f stamp ring s) := by
  unfold Machine.receiveOther
  dsimp only
  split
  · exact .ifThen (.bump (.storeFrame h)) fun h' => .deliverRing h'
  · exact .ite (.deliverRing h) (.bump h)

theorem receiveFrame (h : MemWf s) : MemWf (receiveFrame c f stamp ring s) := by
  unfold Machine.receiveFrame
  dsimp only
  split
  · exact .ite (.receiveCell h) (.ifElse (.receiveOther h) fun h' => .settleLate (.putEx h'))
  · exact .receiveOther h

theorem closeWin (h : MemWf s) : MemWf (closeWin d s) := by
  unfold Machine.closeWin
  split
  · exact .settleWin (.dropObjectTx (.setFb h))
  · exact h

theorem openCycle (h : MemWf s) : MemWf (openCycle c start count s) := by
  unfold Machine.openCycle
  dsimp only
  split
  · exact .raiseChans (.putChans (.putChans (.setFb (.closeWin h))))
  · exact .rioBank (.raiseChans (.raise (.forAll (.putChans (.putChans (.putChans (.setFb (.closeWin h))))) fun _ _
      h' => .put h')))

theorem sendChans (h : MemWf s) : MemWf (sendChans c f s) :=
  .forAll h fun _ _ h' => .ite h' (.ite (.setFb h') (.setFb h'))

theorem sendOwed (h : MemWf s) : MemWf (sendOwed e s) := .setFb h
theorem referenceSent (h : MemWf s) : MemWf (referenceSent c stamp s) := by
  unfold Machine.referenceSent
  dsimp only
  split
  · exact h
  · exact .setFb (.openCycle h)

theorem ackMiss (h : MemWf s) : MemWf (ackMiss d at_ w s) := .ite (.channelMiss (.putEx h)) h
theorem objectEnded (h : MemWf s) : MemWf (objectEnded c k f stamp sent ack' s) := by
  unfold Machine.objectEnded
  dsimp only
  split
  · exact h
  · exact .settleLate (.ackMiss (.ifThen (.ifThen (.putEx h) fun h' => .txOver h') fun h' => .rioSent
      (.sentObject h')))

theorem measureLoop (h : MemWf s) : MemWf (measureLoop c f loop s) := by
  unfold Machine.measureLoop
  split
  · exact .ite (.put h) h
  · exact h

theorem frameSentOn (h : MemWf s) : MemWf (frameSentOn c x stamp s) := by
  unfold Machine.frameSentOn
  extract_lets p f tec sent held ended
  have hs : MemWf sent := .syncErrState (.bump (.put h))
  have he : MemWf ended := by
    unfold ended
    split
    · exact .objectEnded hs
    · exact .txOver (.takeA (.setFb hs))
    · exact .referenceSent (.txOver hs)
  exact .ite (.receiveFrame he) he

theorem attemptFailed (h : MemWf s) : MemWf (attemptFailed c x stamp ack' s) := by
  unfold Machine.attemptFailed
  split
  · exact .objectEnded h
  · exact .txOver h
  · exact .ifThen (.txOver h) fun h' => .setFb h'

theorem attemptError (h : MemWf s) : MemWf (attemptError c x stamp lec spared eights s) :=
  .ite (.clearWaits (.txError h)) (.attemptFailed (.txError h))

theorem requestBank (h : MemWf s) : MemWf (requestBank c bank s) := by
  unfold Machine.requestBank
  split
  · exact .raise (.setReg h)
  · exact .setFb h

theorem startBank (h : MemWf s) : MemWf (startBank d s) := by
  unfold Machine.startBank
  dsimp only
  split
  · exact .raise (.setReg h)
  · exact .rioBank (.ifThen (.forAll (.putChans (.setFb h)) fun _ _ h' => .put h') fun h' => .raise h')

theorem modeChanged (hs : MemWf s) : MemWf (modeChanged c old s) := by
  unfold Machine.modeChanged
  refine .ite ?_ (.ite (.andThen (.clearWaits (.setFb (.put hs))) fun h' => .ite (.loseCycle h')
      (.ite (.putTstate (.setFb (.loseCycle h'))) h')) (.ite (.ifThen (.ite hs (.clearWaits (.setFb hs))) fun h' =>
      .putTstate (.setFb (.loseCycle h'))) hs))
  split
  · exact .ifElse (.ifThen (.put hs) fun h' => .putTstate (.setFb (.loseCycle h'))) fun h' => .requestBank h'
  · exact .startBank (.setFb (.put hs))

theorem fbCtrlWrite (h : MemWf s) : MemWf (fbCtrlWrite c a s) :=
  .ite (.raise h) (.startRecovery (.modeChanged (.plainWrite h)))

theorem fbWrite (h : MemWf s) : MemWf (fbWrite c off a s) := .ite (.fbCtrlWrite h) (.ite (.raise h) (.plainWrite h))
theorem fbtCtrlWrite (h : MemWf s) : MemWf (fbtCtrlWrite a s) :=
  .ifElse (.requestBank (.put (.put (.ite (.ite (.forAll (.putBit (.putBit h)) fun _ _ h' => .put (.setFb h'))
      (.raise h)) h)))) fun h' => .requestBank h'

theorem mdataStep (h : MemWf s) : MemWf (mdataStep s) := .setReg h
theorem mdataWrite (h : MemWf s) : MemWf (mdataWrite v s) := .ite (.raise (.mdataStep h)) (.mdataStep (.ww h))
theorem fbtRead (h : MemWf s) : MemWf (fbtRead off s).2 := .iteSnd (.snd (.mdataStep h)) (.plainRead h)
theorem fbtWrite (h : MemWf s) : MemWf (fbtWrite off a s) :=
  .ite (.fbtCtrlWrite h) (.ite (.mdataWrite h) (.plainWrite h))

end MemWf
end Sys2Proof.Machine
end

section
/-! Supply, boot, link states, the ends of flash operations and resets keep the canonical form of the memory (O59). -/

namespace Sys2Proof.Machine

open Reg

namespace MemWf

theorem pmuMeasure (h : MemWf s) : MemWf (pmuMeasure x s) := by
  unfold Machine.pmuMeasure
  refine .putBit (.put (.put ?_))
  split
  · exact .put (.put h)
  · exact .put h

theorem freeBytes (h : MemWf s) : MemWf (freeBytes n s).2 := .snd (.update h)
theorem syncRetainStat (h : MemWf s) : MemWf (syncRetainStat s) := .putBit (.putBit h)
theorem retainSettle (h : MemWf s) : MemWf (retainSettle s) :=
  .syncRetainStat (.forAll (.dropOps h) fun _ _ h' => .askFlash h')

theorem setArea (h : MemWf s) : MemWf (setArea x s) := .update h
theorem retainSkip (h : MemWf s) : MemWf (retainSkip s) := .raiseLog (.setArea h)
theorem retainBegin (h : MemWf s) : MemWf (retainBegin s) := .ite (.setArea h) (.retainSkip h)
theorem retainLost (h : MemWf s) : MemWf (retainLost s) := by
  unfold Machine.retainLost
  split
  · exact .ite h (.retainSkip (.dropOps h))
  · exact h

theorem askRetain (h : MemWf s) : MemWf (askRetain off bs s) := .ite h (.askFlash h)
theorem retainStore (h : MemWf s) : MemWf (retainStore ws whole s) := by
  unfold Machine.retainStore
  split
  · exact h
  · exact .ite h (.setArea (.ifThen (.askRetain h) fun h' => .askRetain h'))

theorem retainDone (h : MemWf s) : MemWf (retainDone s) := by
  unfold Machine.retainDone
  dsimp only
  split
  · exact .ifThen (.syncRetainStat h) fun h' => .setArea h'
  · exact .syncRetainStat h

theorem readArea (h : MemWf s) : MemWf (readArea k s).2 := .iteSnd (.snd (.eccIn h)) (.snd (.freeBytes (.eccIn h)))
theorem pmuRestore (h : MemWf s) : MemWf (pmuRestore s) := by
  unfold Machine.pmuRestore
  dsimp only
  split
  · exact .sendBulk (.put (.readArea (.put h)))
  · exact .retainSettle (.put (.put h))

theorem restoreRegion (h : MemWf s) : MemWf (restoreRegion d image s) :=
  .ite (.put (.setTask (.wbytes (.wbytes h)))) (.raiseLog h)

theorem restoreApply (h : MemWf s) : MemWf (restoreApply ws s) :=
  .retainSettle (.put (.put (.forAll h fun _ _ h' => .restoreRegion h')))

theorem norTear (h : MemWf s) : MemWf (norTear s) := by
  unfold Machine.norTear
  split
  · exact .ite (.wbytes (.freeBytes h)) h
  · exact h

theorem damaskClear (h : MemWf s) : MemWf (damaskClear s) :=
  .update (.update (.clearMem (.clearMem (.clearMem (.clearMem (.resetPages (.resetPages (.norTear h))))))))

theorem keepCause {run : State → State} (h : MemWf s) (hrun : ∀ s, MemWf s → MemWf (run s)) : MemWf
    (keepCause run s) :=
  .setReg (hrun _ h)

theorem damaskOff (h : MemWf s) : MemWf (damaskOff s) :=
  .put (.put (.put (.put (.update (.keepCause h fun _ h' => .damaskClear h')))))

theorem stopBus (h : MemWf s) : MemWf (stopBus s) := .forAll h fun _ _ h' => .setFb h'
theorem damaskStop (h : MemWf s) : MemWf (damaskStop s) :=
  .stopComms (.stopBus (.update (.put (.put (.forAll h fun _ _ h' => .killScan h')))))

theorem damaskLeave (h : MemWf s) : MemWf (damaskLeave s) := .sendBulk (.retainBegin (.damaskStop h))
theorem pmuDoff (h : MemWf s) : MemWf (pmuDoff s) := .ite h (.ite (.damaskLeave (.put h)) (.damaskOff (.put h)))
theorem pmuWrite (h : MemWf s) : MemWf (pmuWrite off a s) :=
  .ite (.ifThen (.ifThen (.plainWrite h) fun h' => .pmuRestore h') fun h' => .pmuDoff h') (.plainWrite h)

theorem planOrder (h : MemWf s) : MemWf (planOrder s) := .setFlash h
theorem writeOverrides (h : MemWf s) : MemWf (writeOverrides n s) := .forAll h fun _ _ h' => .ww h'
theorem profileBanks (h : MemWf s) : MemWf (profileBanks n s) :=
  .forAll h fun _ _ h' => .ite (.requestBank (.put h')) h'

theorem profileAnalog (h : MemWf s) : MemWf (profileAnalog n s) :=
  .ite (.raise h) (.aioWrite (.aioWrite (.forAll h fun _ _ h' => .ite h'
      (.ifThen (.aioCfgWrite h') fun h2 => .raise h2))))

theorem profileTasks (h : MemWf s) : MemWf (profileTasks n s) :=
  .ite (.forAll (.update h) fun _ _ h' => .setTask h') h

theorem acceptProfile (h : MemWf s) : MemWf (acceptProfile n s) :=
  .raise (.setReg (.profileAnalog (.profileBanks (.writeOverrides (.profileTasks (.setReg (.put (.update h))))))))

theorem switchProfile (h : MemWf s) : MemWf (switchProfile n s).2 :=
  .iteSnd (.snd (.acceptProfile h)) (.snd (.raise h))

theorem noProfile (h : MemWf s) : MemWf (noProfile s) :=
  .forAll (.update h) fun _ _ h' => .ifThen (.setTask h') fun h2 => .setEnabled h2

theorem prfLoad (h : MemWf s) : MemWf (prfLoad n s) :=
  .ite (.ifThen (.put h) fun h' => .acceptProfile h') (.ifThen (.raise (.put h)) fun h' => .noProfile h')

theorem prfCmd (h : MemWf s) : MemWf (prfCmd n s) := .ite (.raise h) (.switchProfile h)
theorem pinSample (h : MemWf s) : MemWf (pinSample v s) :=
  .ite h (.ifThen (.put (.update h)) fun h' => .update (.switchProfile h'))

theorem prfWrite (h : MemWf s) : MemWf (prfWrite off a s) :=
  .ite (.ite (.update h) h) (.ite (.ifThen (.plainWrite h) fun h' => .ite (.prfCmd h') (.prfLoad h')) (.plainWrite h))

theorem loadCode (hs : MemWf s) : MemWf (loadCode h slot s) := .forAll (.clearMem hs) fun _ _ h' => .wbytes h'
theorem stepEffect (hs : MemWf s) : MemWf (stepEffect h slot k s) := .ite (.setWslot hs) (.ite (.loadCode hs) hs)
theorem runSteps (hs : MemWf s) : MemWf (runSteps h slot u ks s).2 := by
  induction ks generalizing s with
  | nil => exact .snd hs
  | cons k ks ih =>
    rw [Machine.runSteps]
    split
    · exact .snd (.stepEffect hs)
    · exact .iteSnd (ih (.stepEffect hs)) (.snd (.stepEffect hs))

theorem setRom (hs : MemWf s) : MemWf (s.setRom h x) := by
  unfold Machine.State.setRom
  split <;> exact .update hs

theorem askBootKey (hs : MemWf s) : MemWf (askBootKey h s).2 := .snd (.vaultAsk (.setBootKey hs))
theorem firstSteps (hs : MemWf s) : MemWf (firstSteps h slot u s).2 := by
  unfold Machine.firstSteps
  dsimp only
  split
  · exact .snd (.runSteps hs)
  · exact .askBootKey (.runSteps hs)

theorem repeatAttempt (hs : MemWf s) : MemWf (repeatAttempt h slot u s).2 := .firstSteps (.setRom hs)
theorem tryAttempt (hs : MemWf s) : MemWf (tryAttempt h slot u s).2 := by
  unfold Machine.tryAttempt
  dsimp only
  split
  · exact .snd hs
  · exact .snd hs
  · split
    · exact .repeatAttempt (.runSteps hs)
    · exact .snd (.runSteps hs)
    · exact .askBootKey (.runSteps hs)
  · split
    · exact .repeatAttempt (.runSteps hs)
    · exact .snd (.runSteps hs)
    · exact .snd (.runSteps hs)

theorem syncProt (h : MemWf s) : MemWf (syncProt s) := .putBit (.putBit h)
theorem setHalfState (hs : MemWf s) : MemWf (setHalfState h v s) := .syncProt (.put hs)
theorem setFail (hs : MemWf s) : MemWf (setFail h code s) := .put hs
theorem endHalfBoot (hs : MemWf s) : MemWf (endHalfBoot h s) := .ite (.put hs) hs
theorem handOver (hs : MemWf s) : MemWf (handOver h slot fallback s) :=
  .setHalfState (.setRom (.ifThen (.raise (.endHalfBoot (.update
      (.setMode (.setEng (.put (.forAll (.setReg (.setReg (.put (.put (.putBit (.ite (.setFail hs) hs)))))) fun _ _
      h' => .setReg h'))))))) fun h' => .raise h'))

theorem halfFailed (hs : MemWf s) : MemWf (halfFailed h s) :=
  .setHalfState (.setMode (.setRom (.raise (.raise (.endHalfBoot hs)))))

theorem enterRecovery (h : MemWf s) : MemWf (enterRecovery cause s) :=
  .setHalfState (.setHalfState (.setMode (.setRom (.setRom (.put h)))))

theorem attemptEnds (hs : MemWf s) : MemWf (attemptEnds h slot c s) := by
  unfold Machine.attemptEnds
  extract_lets r
  split
  · exact .handOver hs
  · extract_lets failed
    have hf : MemWf failed := .setFail hs
    refine .ite (.ite (.syncProt (.setRom hf)) (.halfFailed hf)) ?_
    split
    · exact .halfFailed hf
    · exact .ite (.enterRecovery hf) (.ite (.syncProt (.setRom hf)) (.enterRecovery hf))

theorem eastBegins (h : MemWf s) : MemWf (eastBegins s).2 :=
  .iteSnd (.snd (.enterRecovery (.setFail (.untilMtb h)))) (.andThen (.update (.put (.put (.put (.bump h))))) fun
      h' => .iteSnd (.snd (.enterRecovery h')) (.iteSnd (.snd (.enterRecovery h'))
      (.iteSnd (.snd (.enterRecovery (.setFail h'))) (.snd (.syncProt (.setRom h'))))))

theorem slotDue (hs : MemWf s) : MemWf (slotDue h s).2 := by
  unfold Machine.slotDue
  split
  · exact .snd hs
  · exact .snd hs
  · exact .eastBegins hs
  · exact .snd hs

theorem bootOver (hs : MemWf s) : MemWf (bootOver h s) := by
  unfold Machine.bootOver
  split
  next _ u heq =>
    have hu : MemWf u := .of_snd (.slotDue hs) heq
    exact .attemptEnds hu
  next u heq =>
    have hu : MemWf u := .of_snd (.slotDue hs) heq
    exact .ite (.halfFailed (.setFail hu)) hu

theorem attemptSlot (hs : MemWf s) : MemWf (attemptSlot h k u s) := by
  unfold Machine.attemptSlot
  dsimp only
  split
  · exact .tryAttempt (.ite hs (.syncProt (.setRom hs)))
  · exact .attemptEnds (.tryAttempt (.ite hs (.syncProt (.setRom hs))))
  · exact .attemptEnds (.tryAttempt (.ite hs (.syncProt (.setRom hs))))

theorem norProgram (h : MemWf s) : MemWf (norProgram a bs s) := .forAll (.freeBytes h) fun _ _ h' => .wb h'
theorem norErase (h : MemWf s) : MemWf (norErase a s) := .clearMem h
theorem xflStart (h : MemWf s) : MemWf (xflStart s) :=
  .ite (.raise (.put h)) (.ite (.raise (.put h)) (.update (.put (.put h))))

theorem xflWrite (h : MemWf s) : MemWf (xflWrite off a s) :=
  .ite (.ite h (.ifThen (.plainWrite h) fun h' => .xflStart h')) (.plainWrite h)

theorem setXflHash (hs : MemWf s) : MemWf (setXflHash h s) := .forAll hs fun _ _ h' => .setReg h'
theorem norEffect (h : MemWf s) : MemWf (norEffect c err s) := by
  unfold Machine.norEffect
  split
  · exact .ite (.wbytes (.freeBytes h)) (.norErase h)
  · exact .ite (.wbytes (.freeBytes h)) (.norProgram h)
  · exact .ite (.setXflHash (.freeBytes h)) (.setXflHash h)
  · exact .ite (.wbytes (.freeBytes h)) (.wbytes h)

theorem sendReply (h : MemWf s) : MemWf (sendReply path b s) := by
  unfold Machine.sendReply
  split <;> exact .update h

theorem setSession (h : MemWf s) : MemWf (setSession x s) := .update h
theorem answer (h : MemWf s) : MemWf (answer type payload x ss s) := .sendReply (.setSession h)
theorem ack (h : MemWf s) : MemWf (ack st x ss s) := .answer h
theorem sessionOver (h : MemWf s) : MemWf (sessionOver s) := by
  unfold Machine.sessionOver
  split
  · exact .ite (.setSession h) h
  · exact h

theorem dlRequest (h : MemWf s) (hrun : ∀ b ss s, MemWf s → MemWf (run b ss s).2.2) :
    MemWf (dlRequest type x run s) := by
  unfold Machine.dlRequest
  dsimp only
  split
  · exact .sessionOver h
  · exact .ifElse (.sessionOver h) fun h' => .ite (.sendReply (.setSession h')) (.ite (.sendReply (.setSession h'))
      (.ite (.ack h') (.ack (hrun _ _ _ h'))))

theorem bootBlockWrite (h : MemWf s) : MemWf (bootBlockWrite off a s) := .ite (.plainWrite h) h
theorem finishYield (h : MemWf s) : MemWf (finishYield e s) := by
  unfold Machine.finishYield
  split
  · exact h
  · exact .ite (.leaveJob h) (.completeJob (.leaveJob (.ite h (.releaseViolation h))))

theorem settleYield (h : MemWf s) : MemWf (settleYield e s) := .ite (.finishYield h) h
theorem loadInto (h : MemWf s) : MemWf (loadInto e r v s) := .ite h (.setEng h)
theorem recordArrives (h : MemWf s) : MemWf (recordArrives e i v s) := .setEng h
theorem deliverTxn (h : MemWf s) : MemWf (deliverTxn x v err s) := by
  unfold Machine.deliverTxn
  extract_lets loaded arrived
  have hl : MemWf loaded := by
    unfold loaded
    split
    · exact .loadInto h
    · exact h
  have ha : MemWf arrived := by
    unfold arrived
    split
    · exact .recordArrives hl
    · exact hl
  exact .ite (.setEng ha) ha

theorem completeTxn (h : MemWf s) : MemWf (completeTxn tag v err s) := by
  unfold Machine.completeTxn
  split
  · exact h
  · exact .ifElse (.syncOutstanding (.setTxn h)) fun h' => .settleYield
      (.ifElse (.ite (.fabError h') h') fun h2 => .deliverTxn h2)

theorem retireTxns (h : MemWf s) : MemWf (retireTxns s) := .forAll h fun _ _ h' => .completeTxn h'
theorem withholdWhere (h : MemWf s) : MemWf (withholdWhere p s) := .update h
theorem withholdTxns (hs : MemWf s) : MemWf (withholdTxns h s) := .withholdWhere hs
theorem bufferEvent (h : MemWf s) : MemWf (bufferEvent e s) :=
  .andThen (.ite h (.recordLocal h)) fun h' => .ite (.syncEvq (.update h')) (.bump (.update h'))

theorem keepEvents (h : MemWf s) : MemWf (keepEvents flight s) :=
  .tellDiscarded (.forAll (.update h) fun _ _ h' => .bufferEvent h')

theorem missDeliveries (h : MemWf s) : MemWf (missDeliveries waiting' s) := .forAll h fun _ _ h' => .setMissed h'
theorem damaskLosesLink (h : MemWf s) : MemWf (damaskLosesLink flight s) :=
  .cryLinkDown (.hartLinkDown (.q31Abort (.update (.evsLinkDown (.retireTxns (.raiseFault h))))))

theorem muslinLosesLink (h : MemWf s) : MemWf (muslinLosesLink flight waiting' s) := by
  unfold Machine.muslinLosesLink
  exact .andThen (.put (.ifThen (.hartLinkDown (.vaultLinkDown
      (.missDeliveries (.keepEvents (.update (.ohmEngage (.put h))))))) fun h' => .forAll h' fun _ _ h2 =>
      .hartStop h2)) fun h' => .ifThen (.ite (.retainLost h') (.muslinFault h')) fun h2 => .damaskOff h2

theorem leaveUp (h : MemWf s) : MemWf (leaveUp d s) := by
  unfold Machine.leaveUp
  refine .raise ?_
  split
  · exact .damaskLosesLink (.incr (.setReg (.put (.setLink (.put h)))))
  · exact .muslinLosesLink (.incr (.setReg (.put (.setLink (.put h)))))

theorem toDown (h : MemWf s) : MemWf (toDown d s) := .setLink (.ite (.leaveUp h) (.setLink (.put h)))
theorem damaskCut (h : MemWf s) : MemWf (damaskCut s) := .ifElse (.ite (.toDown h) h) fun h' => .damaskOff h'
theorem damaskOverdue (h : MemWf s) : MemWf (damaskOverdue s) := .ite (.damaskCut (.retainLost h)) h
theorem toTrain (h : MemWf s) : MemWf (toTrain d s) := .setLink (.put (.put h))
theorem ddlSettle (h : MemWf s) : MemWf (ddlSettle d s) := .ite (.ite h (.toDown h)) (.ite (.toTrain (.toDown h)) h)
theorem ddlWrite (h : MemWf s) : MemWf (ddlWrite d off a s) := .ifThen (.plainWrite h) fun h' => .ddlSettle h'
theorem awaitLink (hs : MemWf s) : MemWf (awaitLink h s) := by
  -- `delta` on the constant: to unfold its application is to evaluate `nextRetrain`, unary in 10 ms of counts.
  generalize hf : Machine.awaitLink = f
  delta Machine.awaitLink at hf
  subst hf
  beta_reduce
  split
  · exact .ddlSettle (.put (.untilMtb hs))
  · split
    next k u heq =>
      have hu : MemWf u := .of_snd (.slotDue hs) heq
      exact .attemptEnds (.untilMtb hu)
    next u heq => exact .of_snd (.slotDue hs) heq

theorem untilNow (h : MemWf s) : MemWf (untilNow d t s) := by
  unfold Machine.untilNow
  split
  · exact .untilMtb h
  · exact .untilReplica h

theorem trainOver (h : MemWf s) : MemWf (trainOver d s) := .ite (.toDown h) h
theorem enterUp (h : MemWf s) : MemWf (enterUp d paired s) :=
  .put (.setReg (.putBit (.putBit (.putBit (.setLink h)))))

theorem loadMtb (h : MemWf s) : MemWf (loadMtb s) :=
  .ite (.put (.forAll (.setRom (.setRom (.update h))) fun _ _ h' => .ite h' (.setEng h'))) h

theorem muslinLinkUp (h : MemWf s) : MemWf (muslinLinkUp s) :=
  .syncLevels (.update (.forAll (.ifElse (.syncEvq (.update h)) fun h' => .sendPacket h') fun _ _ h' => .sendPacket
      h'))

theorem closeMuslinLocks (h : MemWf s) : MemWf (closeMuslinLocks s) := .forAll h fun _ _ h' => .closeLock h'
theorem clearPool (h : MemWf s) : MemWf (clearPool s) := .syncOutstanding (.update h)
/-- The steps of a flash operation, and what they have already written. -/
theorem flashSteps (h : MemWf s) (hx : flashSteps o s = some x) : MemWf x.2.2 := by
  unfold Machine.flashSteps at hx
  dsimp only at hx
  split at hx
  case h_1 | h_2 => cases hx; exact h
  case h_3 =>
    split at hx <;> cases hx
    exact .placeRecord h
  case h_4 =>
    split at hx
    · cases hx; exact h
    · split at hx <;> cases hx
      exact h
  case h_5 =>
    split at hx <;> cases hx
    exact h
  case h_6 =>
    split at hx <;> cases hx
    exact .logSteps h
  case h_7 =>
    split at hx
    · split at hx <;> cases hx
      exact .commitRead h
    · cases hx; exact h

theorem nextOp (h : MemWf s) (hx : nextOp s = some (o, steps, energy, t)) : MemWf t := by
  obtain ⟨o', -, hmap⟩ := List.exists_of_findSome?_eq_some hx
  obtain ⟨x, hsteps, heq⟩ := Option.map_eq_some_iff.1 hmap
  cases heq
  exact .flashSteps h hsteps

theorem flashAdmit (h : MemWf s) : MemWf (flashAdmit s) := by
  have hkick : MemWf (Machine.evrKick s) := .evrKick h
  unfold Machine.flashAdmit
  refine .ite h ?_
  dsimp only
  split
  · exact .syncWaits hkick
  case h_2 hnext =>
    exact .ite (.syncWaits (.setPend (.setFlash (.nextOp hkick hnext))))
      (.ite (.saveRefused hkick) (.syncWaits (.setFlash hkick)))

theorem flashFollow (h : MemWf s) : MemWf (flashFollow o s) := by
  unfold Machine.flashFollow
  split
  · exact .syncRetainStat (.compactAuto (.syncLayer (.nvmResult h)))
  · exact .compactNext (.syncLayer h)
  · exact .compactDone h
  · exact .compactAuto (.syncLayer h)
  · exact .syncOpPend (.counterWritten h)
  · exact .clearCounted (.counterWritten h)
  · exact .ifThen (.syncPend (.syncCounter h)) fun h' => .nctDone h'
  · exact .repairDone h
  · exact .evrKick (.syncCount h)
  · exact .syncCount h
  · exact .clearWritten h
  · exact .clearErased h
  · exact .compactAuto (.syncLayer (.saveDone h))
  · exact .compactAuto (.syncLayer (.configDone h))
  · exact .useDone h
  · exact .updateDone h
  · exact h
  · exact .retainDone h
  · exact .syncRetainStat h

theorem flashDone (h : MemWf s) : MemWf (flashDone s) := by
  unfold Machine.flashDone
  split
  · exact h
  · exact .nvmRead (.flashFollow (.setPend (.forAll (.setFlash h) fun _ _ h' => .runStep h')))

theorem fpResult (h : MemWf s) : MemWf (fpResult e rd r s) := .result (.setFl h)
theorem fpRR (h : MemWf s) : MemWf (fpRR x rd ra rb f s) :=
  .issue h fun _ h' => .floatResidued h' fun _ h2 => .fpResult h2

theorem fpPick (h : MemWf s) : MemWf (fpPick x rd ra rb f s) := .issue h fun _ h' => .fpResult h'
theorem fpR (h : MemWf s) : MemWf (fpR x rd ra f s) := .issue h fun _ h' => .fpResult h'
theorem startHalves (h : MemWf s) : MemWf (startHalves s) := .syncProt (.syncSupv (.put (.put (.update h))))
theorem syncPinen (h : MemWf s) : MemWf (syncPinen s) := .putBit h
theorem damaskStart (h : MemWf s) : MemWf (damaskStart s) :=
  .syncPinen (.startHalves (.put (.put (.put (.put (.update (.keepCause h fun _ h' => .damaskClear h')))))))

/-- Only the flash and the NOR keep their content. -/
theorem moduleBase (h : MemWf s) : MemWf (moduleBase s) := by
  have hkept := wf_filter (fun a => (0x58000000 ≤ a && a < 0x58200000) || (0x60000000 ≤ a && a < 0x64000000))
    (norTear h).wf
  exact .closeLock ⟨hkept⟩

theorem setCause (h : MemWf s) : MemWf (setCause cause s) := .setReg (.setReg h)
theorem showStraps (h : MemWf s) : MemWf (showStraps x s) := .syncPinen (.putBit (.putBit (.putBit h)))
theorem sampleStraps (h : MemWf s) : MemWf (sampleStraps s) := .showStraps h
theorem setPins (h : MemWf s) : MemWf (setPins x s) := .update h
theorem moduleStart (h : MemWf s) : MemWf (moduleStart s) :=
  .startHalves (.toTrain (.toTrain (.retainSettle (.meterStart
      (.vaultCheck (.settleCounters (.recorderReset (.sampleStraps h))))))))

theorem holdModule (h : MemWf s) : MemWf (holdModule s) := .update h
theorem writeSave (h : MemWf s) : MemWf (writeSave s) := by
  unfold Machine.writeSave
  refine .forAll h fun _ s h' => ?_
  split
  case h_1 o steps energy t hfound =>
    obtain ⟨o', -, hsteps⟩ := List.exists_of_findSome?_eq_some hfound
    split at hsteps
    · obtain ⟨x, hx, heq⟩ := Option.map_eq_some_iff.1 hsteps
      cases heq
      exact .ite (.forAll (.setFlash (.flashSteps h' hx)) fun _ _ h2 => .runStep h2) h'
    · cases hsteps
  case h_2 => exact h'

theorem moduleResetNow (h : MemWf s) : MemWf (moduleResetNow cause low saved s) :=
  .andThen (.put (.putBit (.setCause (.moduleBase (.ifElse (.flashDone h) fun h' => .writeSave (.askSave h'))))))
      fun h' => .ite (.holdModule (.showStraps h')) (.moduleStart h')

theorem moduleReset (h : MemWf s) : MemWf (moduleReset cause low s) :=
  .ite h (.ite (.update h) (.ite h (.moduleResetNow h)))

theorem wakeDamask (h : MemWf s) : MemWf (wakeDamask s) := .ite (.damaskStart h) h
theorem wakeUp (h : MemWf s) : MemWf (wakeUp s) := .ite (.ifThen (.setChr h) fun h' => .wakeDamask h') h
theorem resetEngPages (hs : MemWf s) : MemWf (resetEngPages h s) :=
  .forAll hs fun _ _ h' => .setReg (.setReg (.setReg (.resetPages h')))

theorem stopHalf (hs : MemWf s) : MemWf (stopHalf h s) :=
  .forAll (.clearMem (.update (.update hs))) fun _ _ h' => .ite (.setEng h') h'

theorem halfBoot (hs : MemWf s) : MemWf (halfBoot h slot s) :=
  .setHalfState (.setRom (.put (.wdtHalfBoot (.setMode (.setEng
      (.setSupv (.resetEngPages (.stopHalf (.withholdTxns (.forAll
      (.forAll hs fun _ _ h' => .ite (.killScan h') h') fun _ _ h' => .ite (.loseHeld h') h'))))))))))

theorem hbootWrite (h : MemWf s) : MemWf (hbootWrite a s) :=
  .ite (.plainWrite h) (.ite (.halfBoot (.plainWrite h)) (.raise h))

theorem bootWrite (h : MemWf s) : MemWf (bootWrite off a s) :=
  .ite (.ite (.damaskStart h) h) (.ite (.hbootWrite h) (.ite (.bootBlockWrite h) (.plainWrite h)))

theorem wdtAct (h : MemWf s) : MemWf (wdtAct r s) := by
  unfold Machine.wdtAct
  split
  · exact h
  · exact .ite (.halfBoot h) (.moduleReset h)
  · exact .moduleReset h

theorem wdtExpire (h : MemWf s) : MemWf (wdtExpire r s) := by
  unfold Machine.wdtExpire
  split
  · exact .wdtStage1 h
  · exact .wdtAct (.put h)
  · exact h

theorem wdtOverdue (h : MemWf s) : MemWf (wdtOverdue r s) := .ite (.wdtExpire h) h
theorem wdtKick (h : MemWf s) : MemWf (wdtKick r a s) :=
  .ite h (.ite (.ifThen (.wdtOverdue (.wdtOverdue h)) fun h' => .wdtOpen h') (.raise h))

theorem wdtWrite (h : MemWf s) : MemWf (wdtWrite off a s) :=
  .ite (.wdtSync (.plainWrite h)) (.ite (.wdtKick h) (.plainWrite h))

end MemWf
end Sys2Proof.Machine
end

section
/-! The effects of register accesses and of packets received keep the canonical form of the memory (O59). -/

namespace Sys2Proof.Machine

open Reg

namespace MemWf

theorem sysRead (h : MemWf s) : MemWf (sysRead r p off s).2 :=
  .iteSnd (.snd h) (.iteSnd (.snd h) (.iteSnd (.snd h) (.iteSnd (.snd h) (.plainRead h))))

theorem sysWrite (h : MemWf s) : MemWf (sysWrite p off a s) := .ite (.ite (.moduleReset h) h) (.plainWrite h)
theorem mtbRead (h : MemWf s) : MemWf (mtbRead r off s).2 :=
  .iteSnd (.snd (.update h)) (.iteSnd (.snd h) (.plainRead h))

theorem mtbWrite (h : MemWf s) : MemWf (mtbWrite off a s) :=
  .ifThen (.plainWrite h) fun h' => .ite h (.ite (.update h') h')

theorem fabRead (h : MemWf s) : MemWf (fabRead off s).2 :=
  .iteSnd (.snd (.update (.setReg (.setReg h)))) (.plainRead h)

theorem clearDeficits (h : MemWf s) : MemWf (clearDeficits s) := .update h
theorem fabWrite (h : MemWf s) : MemWf (fabWrite off a s) :=
  .ite (.ifThen (.plainWrite h) fun h' => .clearDeficits (.putBit h'))
      (.ite (.supvWrite h) (.ifThen (.plainWrite h) fun h' => .update (.setReg (.setReg h'))))

theorem engWrite (h : MemWf s) : MemWf (engWrite p off a s) :=
  .ite (.ifThen (.setReg (.plainWrite h)) fun h' => .update h') (.plainWrite h)

theorem placeTasks (h : MemWf s) : MemWf (placeTasks s) := .forAll h fun _ _ h' => .ite h' (.setWest (.setTask h'))
theorem schedulerOn (h : MemWf s) : MemWf (schedulerOn s) :=
  .update (.forAll (.placeTasks (.put h)) fun _ _ h' => .setTask h')

theorem schedulerOff (h : MemWf s) : MemWf (schedulerOff s) :=
  .forAll (.update (.put h)) fun _ _ h' => .ifThen (.setTask (.killScan h')) fun h2 => .setEnabled h2

theorem schWrite (h : MemWf s) : MemWf (schWrite off a s) :=
  .ite (.andThen (.plainWrite h) fun h' => .ite (.schedulerOn h') (.ite (.schedulerOff h') h'))
      (.ifThen (.plainWrite h) fun h' => .ite h h')

theorem schRead (h : MemWf s) : MemWf (schRead off s).2 := .iteSnd (.snd (.put h)) (.plainRead h)
theorem tskRead (h : MemWf s) : MemWf (tskRead off s).2 :=
  .iteSnd (.snd h) (.iteSnd (.snd (.put h)) (.iteSnd (.plainRead h) (.plainRead h)))

theorem rgnWrite (h : MemWf s) : MemWf (rgnWrite off a s) := .ite h (.ite (.raise h) (.syncRetain (.plainWrite h)))
theorem clrWrite (h : MemWf s) : MemWf (clrWrite a s) := .ite (.ite (.raise h) (.clearRegion (.put h))) (.put h)
theorem imgWrite (h : MemWf s) : MemWf (imgWrite off a s) := .ite (.clrWrite h) (.ite (.rgnWrite h) (.plainWrite h))
theorem pidxStep (h : MemWf s) : MemWf (pidxStep s) := .put h
theorem domRead (h : MemWf s) : MemWf (domRead off s).2 := .iteSnd (.snd (.pidxStep h)) (.plainRead h)
theorem domWrite (h : MemWf s) : MemWf (domWrite off a s) :=
  .ite (.pidxStep (.ite (.forAll h fun _ _ h' => .setPointTag h') h)) (.ite (.ite (.setReg h) h) (.plainWrite h))

theorem produced (h : MemWf s) : MemWf (produced off s) := .ite (.hartPump h) h
theorem blockRead (h : MemWf s) : MemWf (blockRead r p off s).2 :=
  .iteSnd (.sysRead h) (.iteSnd (.mtbRead h) (.iteSnd (.fabRead h)
      (.iteSnd (.schRead h) (.iteSnd (.tskRead h) (.iteSnd (.domRead h)
      (.iteSnd (.intRead h) (.iteSnd (.cryRead h) (.iteSnd (.fbtRead h)
      (.iteSnd (.rioRead h) (.iteSnd (.ethRead h) (.iteSnd (.svcRead h)
      (.iteSnd (.chrRead h) (.iteSnd (.keyRead h) (.iteSnd (.mteRead h)
      (.iteSnd (.dioRead h) (.plainRead h))))))))))))))))

theorem damaskWrite (h : MemWf s) : MemWf (damaskWrite p off a s) :=
  .ite (.sysWrite h) (.ite (.fabWrite h) (.ite (.mtbWrite h) (.ite (.schWrite h)
      (.ite (.imgWrite h) (.ite (.domWrite h) (.ite (.intWrite h)
      (.ite (.wdtWrite h) (.ite (.bootWrite h) (.ite (.prfWrite h)
      (.ite (.xflWrite h) (.ite (.cryWrite h) (.ite (.ddlWrite h)
      (.ite (.engWrite h) (.ite (.fbWrite h) (.ite (.fbWrite h)
      (.ite (.fbtWrite h) (.ite (.rioWrite h) (.ite (.ethWrite h)
      (.ite (.eswWrite h) (.ite (.serWrite h) (.ite (.serWrite h)
      (.ite (.serWrite h) (.ite (.serWrite h) (.ite (.svcWrite h)
      (.ite (.produced (.qmgWrite h)) (.plainWrite h))))))))))))))))))))))))))

theorem syncModems (h : MemWf s) : MemWf (syncModems p s) := .forAll h fun _ _ h' => .syncHart h'
theorem muslinWrite (h : MemWf s) : MemWf (muslinWrite p off a s) :=
  .ite (.sysWrite h) (.ite (.ddlWrite h) (.ite (.chrWrite h) (.ite (.pmuWrite h)
      (.ite (.nvmWrite h) (.ite (.nctWrite h) (.ite (.evrWrite h)
      (.ite (.keyWrite h) (.ite (.aioWrite h) (.ite (.syncModems (.aioChanWrite h))
      (.ite (.hrtWrite h) (.ite (.mtrWrite h) (.ite (.mtcWrite h)
      (.ite (.mtvWrite h) (.ite (.mteWrite h) (.ite (.plsWrite h)
      (.ite (.dioWrite h) (.ite (.ohmWrite h) (.plainWrite h))))))))))))))))))

theorem regRead (h : MemWf s) : MemWf (regRead r p off s).2 := by
  unfold Machine.regRead
  split
  · exact .snd h
  · exact .iteSnd (.snd h) (.blockRead h)

theorem tieEvents (h : MemWf s) : MemWf (tieEvents p off v tie s) :=
  .ite h (.forAll h fun _ _ h' => .ite (.pageEvent h') h')

theorem regWrite (h : MemWf s) : MemWf (regWrite r p off v s tie) := by
  have hstep : MemWf (Machine.lockStep p off r v (Machine.tieEvents p off v tie s) tie).2 := .lockStep (.tieEvents h)
  unfold Machine.regWrite
  dsimp only
  split
  case h_1 t ht => exact .commonWrite hstep ht
  case h_2 => exact .ite hstep (.ite (.syncLevels (.muslinWrite hstep)) (.damaskWrite hstep))

theorem pageLoad (h : MemWf s) : MemWf (pageLoad r p off s).2 := .iteSnd (.snd (.collect h)) (.regRead h)
theorem pageStore (h : MemWf s) : MemWf (pageStore r p off v s tie) :=
  .ite (.collect h) (.ifThen (.regWrite h) fun h' => .collect h')

theorem writeCmd (h : MemWf s) : MemWf (writeCmd r p off v s tie) :=
  .ite (.ite (.collect h) (.arbiterError h)) (.ite (.pageStore h) h)

theorem fieldCmd (h : MemWf s) : MemWf (fieldCmd r p f v s) := .writeCmd h
theorem readCmd (h : MemWf s) : MemWf (readCmd r p off s) :=
  .ite (.update (.ite (.collect h) (.arbiterError h))) (.ite (.update (.pageLoad h)) h)

theorem sendAck (h : MemWf s) : MemWf (sendAck d s) := .sendCtrl (.setLink h)
theorem takeLane (h : MemWf s) : MemWf (takeLane d s) := .setLink h
theorem corrupted (h : MemWf s) : MemWf (corrupted d s) := by
  unfold Machine.corrupted
  split
  · exact .raiseFault (.raise (.bump h))
  · exact .muslinFault (.raise (.bump h))

theorem returnCredit (h : MemWf s) : MemWf (returnCredit d p s) := .ite h (.sendCtrl h)
theorem acceptPacket (h : MemWf s) : MemWf (acceptPacket d p s) :=
  .ifThen (.returnCredit (.setLink h)) fun h' => .sendAck h'

theorem sequence {act : State → State} (h : MemWf s) (hact : ∀ s, MemWf s → MemWf (act s)) : MemWf
    (sequence d p act s) :=
  .ite (hact _ (.acceptPacket h)) (.ite (.sendAck h) (.ite h (.sendCtrl (.setLink h))))

theorem receive {act : State → State} (h : MemWf s) (hact : ∀ s, MemWf s → MemWf (act s)) : MemWf
    (receive d p fits act s) :=
  .ite h (.ifElse (.takeLane h) fun h' => .ite (.toDown (.untilNow h'))
      (.ite (.corrupted h') (.ite h' (.ite (.sequence (.setLink h') fun _ h2 => hact _ h2) (hact _ (.setLink h'))))))

theorem replayFrom (h : MemWf s) : MemWf (replayFrom d keep again s) :=
  .ite h (.ite (.toDown h) (.raise (.bump (.setLink h))))

theorem addCredits (h : MemWf s) : MemWf (addCredits d w s) := .forAll h fun _ _ h' => .bump h'
theorem moveReplica (h : MemWf s) : MemWf (moveReplica e s) := .update h
theorem slewReplica (h : MemWf s) : MemWf (slewReplica e s) := .update (.moveReplica (.update h))
theorem followMtb (h : MemWf s) : MemWf (followMtb stamp s) :=
  .andThen (.putBit (.update (.setReg h))) fun h' => .ite (.raise (.update (.moveReplica h'))) (.slewReplica h')

theorem flashRead (h : MemWf s) : MemWf (flashRead off s).2 :=
  .iteSnd (.snd (.ite (.flashDone h) h)) (.snd (.eccReport (.ite (.flashDone h) h)))

theorem remoteRead (h : MemWf s) : MemWf (remoteRead r a s).2 :=
  .iteSnd (.snd (.regRead h)) (.iteSnd (.flashRead h) (.snd h))

theorem setInputs (h : MemWf s) : MemWf (setInputs x s) := .update h
theorem deliveryDone (h : MemWf s) : MemWf (deliveryDone kind w1 bs s) := .ite (.setInputs h) (.setInputs h)
theorem samplePart (h : MemWf s) : MemWf (samplePart p s) := by
  unfold Machine.samplePart
  refine .ite h ?_
  split
  · exact .setInputs h
  · exact .ite (.ifThen (.setInputs h) fun h' => .deliveryDone h') (.setInputs (.setInputs h))

theorem writeLocals (h : MemWf s) : MemWf (writeLocals f s) := .setInputs (.forAll h fun _ _ h' => .wbytes h')
theorem localUpdate (h : MemWf s) : MemWf (localUpdate s) := by
  unfold Machine.localUpdate
  split
  · exact .ite h (.writeLocals h)
  · exact h

theorem bulkAborted (h : MemWf s) : MemWf (bulkAborted d x ws s) := by
  unfold Machine.bulkAborted
  split
  · exact .ite (.sendBulk h) h
  · exact .put h
  · exact .toRecorder h
  · exact .hartBroken h
  · exact .hartLose h
  · exact .q31Abort h
  · split
    · exact .cryBroken h
    · exact .vaultBroken h
  · exact h

theorem bulkPart {done : List Word → State → State} (h : MemWf s)
    (hdone : ∀ ws s, MemWf s → MemWf (done ws s)) : MemWf (bulkPart d p done s) := by
  unfold Machine.bulkPart
  dsimp only
  refine .ite h ?_
  split
  · exact h
  · exact .ite (.bulkAborted (.setLink h)) (.andThen (.ifThen (.setLink h) fun h' => .bulkAborted h') fun h' =>
      .ite (hdone _ _ h') (.setLink h'))

theorem receiveBulk {done : List Word → State → State} (h : MemWf s)
    (hdone : ∀ ws s, MemWf s → MemWf (done ws s)) : MemWf (receiveBulk d x p done s) :=
  .receive h fun _ h' => .bulkPart h' fun _ _ h2 => hdone _ _ h2

theorem takeOutputs (h : MemWf s) : MemWf (takeOutputs bs s) := .ite (.update h) h
theorem acceptNumbered (h : MemWf s) : MemWf (acceptNumbered ws s) := .ifThen (.recAccept h) fun h' => .raise h'
theorem sealedWhole (h : MemWf s) : MemWf (sealedWhole d bs s) := by
  unfold Machine.sealedWhole
  split
  · exact .raiseLog h
  · split
    · exact .ifThen (.setLink h) fun h' => .cryKey h'
    · exact .ite (.vaultAsk (.setLink h)) (.ifThen (.setLink h) fun h' => .updateReturned h')

theorem sealedPart (h : MemWf s) : MemWf (sealedPart d p s) := by
  unfold Machine.sealedPart
  dsimp only
  split
  · exact .ite (.sealedWhole (.setLink h)) (.setLink h)
  · exact .setLink h

end MemWf
end Sys2Proof.Machine
end

section
/-! Loads, stores, primitives, scans and the matrix solver keep the canonical form of the memory (O59). -/

namespace Sys2Proof.Machine

open Reg

namespace MemWf

theorem failingLoad (h : MemWf s) : MemWf (failingLoad e kind addr s) := .update (.accessError h)
/-- What a refused access does instead. -/
theorem refusal (h : MemWf u) (hf : refusal e write size a s = some f) : MemWf (f u) := by
  unfold Machine.refusal at hf
  split at hf
  · cases hf; exact .exception h
  split at hf
  · cases hf
    split
    · exact .accessError h
    · exact .failingLoad h
  · split at hf <;> cases hf
    exact .accessError (.raise h)

theorem refusals (h : MemWf u) (hf : refusals e l s = some f) : MemWf (f u) := by
  obtain ⟨x, -, hx⟩ := List.exists_of_findSome?_eq_some hf
  exact .refusal h hx

theorem grant (h : MemWf s) : MemWf (grant e a s) := .ite h (.grantTarget h)
theorem waitInFabric (h : MemWf s) : MemWf (waitInFabric e as s) := by
  unfold Machine.waitInFabric
  split
  · exact .waitForTarget h
  · exact h

theorem issueMem {run : State → State} (h : MemWf s) (hrun : ∀ s, MemWf s → MemWf (run s)) : MemWf
    (issueMem x srcs as run s) :=
  .ite h (.ite (.waitInFabric h) (.issue h fun _ h' => hrun _ h'))

theorem gsramDouble (h : MemWf s) : MemWf (gsramDouble e a s) := by
  unfold Machine.gsramDouble
  split
  · exact .ite h (.gsramDead (.raiseFault h))
  · exact .raiseFault h

theorem gsramChecked (h : MemWf s) : MemWf (gsramChecked x a s) := by
  unfold Machine.gsramChecked
  split
  · exact .ite h (.raiseFault h)
  · exact .gsramDouble h
  · exact h

theorem readInst (h : MemWf s) : MemWf (readInst x a s).2 :=
  .iteSnd (.iteSnd (.snd (.ifElse (.errCount (.ww h)) fun h' => .raiseFault h')) (.snd (.checkFails h))) (.snd h)

theorem writeInst (h : MemWf s) : MemWf (writeInst e a v s) := by
  unfold Machine.writeInst
  split
  · exact .setLineTag (.ww (.settleLine h))
  · exact .ww (.ww h)

theorem writeMsg (h : MemWf s) : MemWf (writeMsg e a v s) := .ifThen (.msgWrite h) fun h' => .collect h'
theorem readWord (h : MemWf s) : MemWf (readWord x a s).2 :=
  .andThen (.grant h) fun h' => .iteSnd (.snd (.collect h')) (.iteSnd (.snd (.pageLoad h'))
      (.iteSnd (.readInst h') (.iteSnd (.snd (.gsramChecked h'))
      (.iteSnd (.snd (.codeParity h')) (.iteSnd (.snd (.checkFails h')) (.snd h'))))))

theorem putWord (h : MemWf s) : MemWf (putWord x a v s) :=
  .ite (.pageStore h) (.ite (.writeInst h) (.ite (.ww h) (.ite (.ww h) (.ite (.writeMsg h) (.ww h)))))

theorem writeWord (h : MemWf s) : MemWf (writeWord x a v s) :=
  .ifElse (.grant h) fun h' => .ite (.collect h') (.putWord h')

theorem sendRequest (h : MemWf s) : MemWf (sendRequest e type load' i a data s) := by
  unfold Machine.sendRequest
  split
  · exact h
  · exact .sendPacket (.syncOutstanding (.setTxn h))

theorem remoteLoad (h : MemWf s) : MemWf (remoteLoad e k rd a s) :=
  .andThen (.grant h) fun h' => .ite (.setGr (.collect h')) (.ite (.setGr h')
      (.ite (.setGr (.arbiterError h')) (.sendRequest (.dropLoad h'))))

theorem remoteRws (h : MemWf s) : MemWf (remoteRws e a s) := .ite (.collect h) h
theorem remoteStore (h : MemWf s) : MemWf (remoteStore e a v s) :=
  .andThen (.grant h) fun h' => .ite (.collect h') (.ite (.ite (.collect h') (.setPageOwner h'))
      (.ite (.arbiterError h') (.sendRequest (.remoteRws h'))))

theorem loadFrom (h : MemWf s) : MemWf (loadFrom x k rd a s) := by
  unfold Machine.loadFrom
  refine .ite (.advance (.remoteLoad h)) ?_
  split
  next _ u heq =>
    have hu : MemWf u := .of_snd (.readWord h) heq
    exact .result hu
  next u heq =>
    exact .of_snd (.readWord h) heq

theorem load (h : MemWf s) : MemWf (load x k rd ra b off s) := by
  refine .issueMem h fun s h' => .residued h' fun s h2 => ?_
  split
  case h_1 f hf => exact .refusal h2 hf
  case h_2 => exact .loadFrom h2

theorem mergeRead (h : MemWf s) : MemWf (mergeRead x a s).2 :=
  .iteSnd (.readInst h) (.iteSnd (.iteSnd (.snd (.advance (.gsramDouble h))) (.snd (.gsramChecked h))) (.snd h))

theorem storeTo (h : MemWf s) : MemWf (storeTo x size a v s) := by
  unfold Machine.storeTo
  refine .ite (.remoteStore (.advance h)) (.ite (.writeWord (.advance h)) ?_)
  split
  next _ u heq =>
    have hu : MemWf u := .of_snd (.mergeRead h) heq
    exact .putWord (.grant (.advance hu))
  next u heq =>
    exact .of_snd (.mergeRead h) heq

theorem store (h : MemWf s) : MemWf (store x size rd ra b off s) := by
  refine .issueMem h fun s h' => .residued h' fun s h2 => ?_
  split
  case h_1 f hf => exact .refusal h2 hf
  case h_2 => exact .storeTo h2

theorem frameRefusal (h : MemWf s) (hg : frameRefusal e f = some g) : MemWf (g s) := by
  obtain ⟨a, -, ha⟩ := List.exists_of_findSome?_eq_some hg
  split at ha
  · cases ha; exact .exception h
  · split at ha <;> cases ha
    exact .accessError h

theorem readWords (h : MemWf s) : MemWf (readWords x as s).2 := by
  induction as generalizing x s with
  | nil => exact h
  | cons a as ih =>
    have hread : MemWf (Machine.readWord x a s).2 := .readWord h
    rw [Machine.readWords]
    split
    case h_1 hr => exact .of_snd hread hr
    case h_2 hr =>
      have hrest := ih (x := pastWords x 1) (hread.of_snd hr)
      split
      case h_1 hrs => exact .of_snd hrest hrs
      case h_2 hrs => exact .of_snd hrest hrs

theorem writeRecord (h : MemWf s) : MemWf (writeRecord x ws s) := by
  induction ws generalizing s with
  | nil => exact h
  | cons w ws ih => exact ih (.ite (.remoteStore h) (.writeWord h))

theorem askRecordWord (h : MemWf s) : MemWf (askRecordWord e i a s).2 :=
  .andThen (.grant h) fun h' => .iteSnd (.snd (.collect h')) (.iteSnd (.snd h')
      (.iteSnd (.snd (.arbiterError h')) (.snd (.sendRequest h'))))

theorem askRecord (h : MemWf s) : MemWf (askRecord e i as s).2 := by
  induction as generalizing i s with
  | nil => exact h
  | cons a as ih => exact ih (.askRecordWord h)

theorem primitiveStep (h : MemWf s) : MemWf (primitiveStep x rd as f ws s) := .writeRecord (.result h)
theorem primitive (h : MemWf s) : MemWf (primitive x rd srcs woff n wr f s) := by
  unfold Machine.primitive
  dsimp only
  split
  · exact .ite h (.ite (.waitInFabric h) (.residued (.setEng h) fun _ h' => .primitiveStep h'))
  · refine .issueMem h fun s h' => .residued h' fun s h2 => ?_
    split
    case h_1 g hg => exact .refusals h2 hg
    case h_2 =>
      refine .ite (.ite (.primitiveStep (.askRecord h2)) (.setEng (.askRecord h2))) ?_
      split
      case h_1 hr => exact .of_snd (.readWords h2) hr
      case h_2 hr => exact .primitiveStep (.of_snd (.readWords h2) hr)

theorem timer (h : MemWf s) : MemWf (timer x rd ra rb woff f s) := .primitive h
theorem counter (h : MemWf s) : MemWf (counter x rd ra rb woff up down s) := .primitive h
theorem countBusy (h : MemWf s) : MemWf (countBusy e s) := .ite (.setEng (.update h)) h
theorem countSolver (h : MemWf s) : MemWf (countSolver k s) := .ite h (.update h)
theorem activityTick (h : MemWf s) : MemWf (activityTick s) :=
  .update (.forAll (.forAll (.forAll h fun _ _ h' => .countBusy h') fun _ _ h' => .countSolver h') fun _ _ h' =>
      .put (.put h'))

theorem gateClusters (h : MemWf s) : MemWf (gateClusters s) :=
  .forAll h fun _ _ h' => .ifThen (.putBit h') fun h2 => .put (.put h2)

theorem wakeClusters (h : MemWf s) : MemWf (wakeClusters s) := .forAll h fun _ _ h' => .ite (.put h') h'
theorem startHeld (h : MemWf s) : MemWf (startHeld b pf s) := by
  unfold Machine.startHeld
  refine .forAll h fun _ _ h' => ?_
  split
  · exact .ite (.loseHeld h') (.ite (.startRelease (.setTask h')) h')
  · exact h'

theorem powerTick (h : MemWf s) : MemWf (powerTick b s) := .put (.startHeld (.update (.put h)))
theorem periodTick (h : MemWf s) : MemWf (periodTick t b s) := by
  unfold Machine.periodTick
  split
  · exact .ite h (.ite h (.ite (.setEnabled (.setTask h)) (.setTask h)))
  · exact h

theorem dropHeld (h : MemWf s) : MemWf (dropHeld t s) := .ite (.bump (.loseHeld h)) h
theorem releaseTick (h : MemWf s) : MemWf (releaseTick t b s) := by
  unfold Machine.releaseTick
  split
  · exact .ite (.ite (.overrun (.dropHeld h)) (.determineRelease (.dropHeld h))) h
  · exact h

theorem clearInit (h : MemWf s) : MemWf (clearInit t s) := .ite (.forAll h fun _ _ h' => .clearRegion h') h
theorem enableTask (h : MemWf s) : MemWf (enableTask t e s) :=
  .wakeClusters (.setEnabled (.putBit (.put (.put (.put (.put (.setTask (.clearInit h))))))))

theorem failValidation (h : MemWf s) : MemWf (failValidation t s) := .raiseLog (.put (.setEnabled (.setTask h)))
theorem copyNext (hs : MemWf s) : MemWf (copyNext h c s) := by
  unfold Machine.copyNext
  dsimp only
  refine .ite (.setCopyQ hs) ?_
  split
  · exact .setScan (.setCopyQ hs)
  · exact .setCopyQ hs

theorem refuseEntry (h : MemWf s) : MemWf (refuseEntry c addr kind s) := .ite h (.releaseViolation h)
theorem correctedEntry (h : MemWf s) : MemWf (correctedEntry base bad s) := by
  unfold Machine.correctedEntry
  split
  · exact .ite h (.raiseFault h)
  · exact h

theorem beginExecute (h : MemWf s) : MemWf (beginExecute t sc e s) :=
  .checkStall (.forAll (.setScan (.forAll h fun _ _ h' => .wh h')) fun _ _ h' => .queueJob h')

theorem publishWord (h : MemWf s) : MemWf (publishWord dst src s) := .ww h
theorem cutoffAt (h : MemWf s) : MemWf (cutoffAt c s) := .ifThen (.update h) fun h' => .sendBulk h'
theorem cutoffFirst (h : MemWf s) : MemWf (cutoffFirst s) := .ite (.cutoffAt h) h
theorem setSolver (h : MemWf s) : MemWf (setSolver k ops s) := .update h
theorem haltLane (h : MemWf s) : MemWf (haltLane e s) :=
  .setMode (.setEng (.setSolver (.countSolver (.update (.withholdWhere h)))))

theorem decay (h : MemWf s) : MemWf (decay x s) := .setFlash h
theorem fieldSide (h : MemWf s) : MemWf (fieldSide f x s) :=
  .syncLevels (.update (.flashAdmit (.forAll (.fieldBoundary h) fun _ _ h' => .hartBoundary h')))

theorem issueMat {run : State → State} (h : MemWf s) (hrun : ∀ s, MemWf s → MemWf (run s)) : MemWf
    (issueMat x srcs run s) :=
  .ite h (.ite (.waitForTarget h) (.issue h fun _ h' => hrun _ h'))

theorem matIssue (h : MemWf s) : MemWf (matIssue x fn rd ra s) := by
  unfold Machine.matIssue
  dsimp only
  refine .issueMat h fun _ h' => .residued h' fun _ h2 => ?_
  split
  · exact .exception h2
  · exact .setMode (.setSolver (.ifThen (.grantTarget h2) fun h3 => .update h3))

theorem readElem (h : MemWf s) : MemWf (readElem x a s).2 := .iteSnd (.readInst h) (.snd (.collect h))
theorem readElems (h : MemWf s) : MemWf (readElems x a is vs s).2 := by
  induction is generalizing x vs s with
  | nil => exact h
  | cons i is ih =>
    rw [Machine.readElems]
    split
    case h_1 hr => exact .of_snd (.readElem h) hr
    case h_2 hr => exact ih (.of_snd (.readElem h) hr)

theorem readOperand (h : MemWf s) : MemWf (readOperand x o k past a n s).2 := .readElems h
theorem writeElems (h : MemWf s) : MemWf (writeElems e a vs s) := by
  induction vs generalizing a s with
  | nil => exact h
  | cons v vs ih => exact ih (.ite h (.ite (.writeInst h) (.collect h)))

theorem solverNext (h : MemWf s) : MemWf (solverNext k s) := .incr (.setSolver (.countSolver h))
theorem solverResult (h : MemWf s) : MemWf (solverResult o u a b s) := by
  unfold Machine.solverResult
  refine .ite (.checkFails h) ?_
  split
  · exact .accessError (.raise h)
  · exact .result (.writeElems h)

theorem solverFinish (h : MemWf s) : MemWf (solverFinish o u s) := by
  unfold Machine.solverFinish
  dsimp only
  split
  next u heq =>
    exact .of_snd (.readOperand (.setMode h)) heq
  next _ u heq =>
    have hu : MemWf u := .of_snd (.readOperand (.setMode h)) heq
    split
    next u heq =>
      exact .of_snd (.readOperand hu) heq
    next _ u heq =>
      have hv : MemWf u := .of_snd (.readOperand hu) heq
      exact .solverResult hv

theorem setSpecial (h : MemWf s) : MemWf (setSpecial e n v s) := by
  unfold Machine.setSpecial
  split
  case h_11 => exact h
  all_goals exact .setEng h

theorem storePage (h : MemWf s) : MemWf (storePage x a v s) := .ite (.remoteStore h) (.writeWord h)
theorem migrate (hs : MemWf s) : MemWf (migrate t h s).2 :=
  .iteSnd (.snd hs) (.iteSnd (.snd hs) (.snd (.wakeClusters (.ite (.setMigPend hs) (.raise (.setWest hs))))))

end MemWf
end Sys2Proof.Machine
end

section
/-! Every command ends with a memory of the canonical form: the command's own meaning for the long ones, the arm for the
others (R47, R308; O59). -/

namespace Sys2Proof.Machine

open Reg

namespace EndsWf

theorem execHartFrameReceive (h : MemWf s) : EndsWf (execHartFrameReceive n x s) :=
  .ok (.ifElse (.untilReplica h) fun h' => .ite (.hartRxError h') (.ite (.deviceReceive h') (.masterReceive h')))

theorem execHartTxEnd (h : MemWf s) : EndsWf (execHartTxEnd n s) := by
  unfold Machine.execHartTxEnd
  dsimp only
  refine .ok ?_
  split
  · exact .hartSent (.untilReplica h)
  · exact h

theorem execHartResponseDeadline (h : MemWf s) : EndsWf (execHartResponseDeadline n s) := by
  unfold Machine.execHartResponseDeadline
  refine .ok ?_
  split
  · exact .hartTimeout (.untilReplica h)
  · exact h

theorem execHartPoll (h : MemWf s) : EndsWf (execHartPoll n s) := by
  unfold Machine.execHartPoll
  dsimp only
  refine .ok (.ite ?_ h)
  split
  · exact .syncHart (.setModem (.untilReplica h))
  · exact .setModem (.untilReplica h)

theorem execNvmCommandDone (h : MemWf s) : EndsWf (execNvmCommandDone s) := by
  unfold Machine.execNvmCommandDone
  refine .ok ?_
  split
  · exact .raise (.setFlash (.put (.put (.put (.put h)))))
  · exact h

theorem execDemandBoundary (h : MemWf s) : EndsWf (execDemandBoundary s) := by
  unfold Machine.execDemandBoundary
  refine .ok (.ite h ?_)
  split
  · exact .closeAt (.untilReplica h)
  · exact h

theorem execPulseTimer (h : MemWf s) : EndsWf (execPulseTimer n s) :=
  .ok (.ifElse (.untilReplica h) fun h' => .ite (.putBit (.setPulse h')) (.ite h' (.putBit (.put (.setPulse h')))))

theorem execSaveRetry (h : MemWf s) : EndsWf (execSaveRetry s) := by
  unfold Machine.execSaveRetry
  refine .ok ?_
  split
  · exact .askSave (.setMeter (.untilReplica h))
  · exact h

theorem execWritePointFound (h : MemWf s) : EndsWf (execWritePointFound s) := by
  unfold Machine.execWritePointFound
  dsimp only
  refine .ok (.ite h ?_)
  split
  · exact .ifThen (.eraseAhead (.put (.eccIn (.syncCount (.setEvr h))))) fun h' => .evrClear h'
  · exact .clearNext (.put (.eccIn (.syncCount (.setEvr h))))

theorem execVerifierDone (h : MemWf s) : EndsWf (execVerifierDone s) := by
  unfold Machine.execVerifierDone
  refine .ok ?_
  split
  · exact .updateVerified h
  · exact .clearVerified h
  · exact h

theorem execCryJobStage (h : MemWf s) : EndsWf (execCryJobStage s) := by
  unfold Machine.execCryJobStage
  refine .ok ?_
  split
  · exact .ite (.syncCry (.takeA (.setCry h))) h
  · exact h

theorem execCryJobComplete (h : MemWf s) : EndsWf (execCryJobComplete pk s) := by
  unfold Machine.execCryJobComplete
  refine .ok ?_
  split
  · exact .wcmdGo (.syncCry (.jobResult (.setCry h)))
  · split
    · exact .ite (.syncCry (.jobResult (.setCry h))) h
    · exact h

theorem execModbusFrameEnd (h : MemWf s) : EndsWf (execModbusFrameEnd n xs s) := by
  unfold Machine.execModbusFrameEnd
  dsimp only
  refine .ok ?_
  split
  · exact .ifThen (.hearLine h) fun h' => .endModbus (.untilMtb h')
  · exact .hearLine h

theorem execResponseTimeout (h : MemWf s) : EndsWf (execResponseTimeout n s xs) := by
  unfold Machine.execResponseTimeout
  dsimp only
  refine .ok ?_
  split
  · split
    · exact .ite (.serTimeout (.untilMtb (.hearLine h))) (.ifThen (.untilMtb (.hearLine h)) fun h' => .serTimeout
        (.setRx h'))
    · exact .serTimeout (.untilMtb (.hearLine h))
  · exact .hearLine h

theorem execOsdpPacketReceive (h : MemWf s) : EndsWf (execOsdpPacketReceive n xs s) := by
  unfold Machine.execOsdpPacketReceive
  dsimp only
  refine .ok ?_
  split
  · exact .ifThen (.hearLine h) fun h' => .endOsdp h'
  · exact .hearLine h

theorem execRawChunkClose (h : MemWf s) : EndsWf (execRawChunkClose n xs s) := by
  unfold Machine.execRawChunkClose
  dsimp only
  refine .ok ?_
  split
  · exact .ifThen (.hearLine h) fun h' => .endRaw (.ite h' (.untilMtb h'))
  · exact .hearLine h

theorem execSerTransmitStart (h : MemWf s) : EndsWf (execSerTransmitStart n s xs) := by
  unfold Machine.execSerTransmitStart
  refine .ok (.ifElse (.hearLine h) fun h' => ?_)
  split
  · exact h'
  · exact .serSend (.ifThen (.serSettle (.untilMtb h')) fun h2 => .setRx h2)

theorem execSerTransmitEnd (h : MemWf s) : EndsWf (execSerTransmitEnd n s) := by
  unfold Machine.execSerTransmitEnd
  refine .ok ?_
  split
  · exact h
  · exact .ifElse (.setSer (.put (.untilMtb h))) fun h' => .ite (.setSer h') (.ite (.setSer h') h')

theorem execSvcByteReceive (h : MemWf s) : EndsWf (execSvcByteReceive b s) :=
  .ok (.ite h (.andThen (.setComms (.untilMtb h)) fun h' => .ite (.raise h') (.raise (.syncSvc (.setComms h')))))

theorem execSvcByteSent (h : MemWf s) : EndsWf (execSvcByteSent s) := by
  unfold Machine.execSvcByteSent
  refine .ok ?_
  split
  · exact h
  · exact .ite h (.ifThen (.svcKick (.syncSvc (.setComms (.untilMtb h)))) fun h' => .raise h')

theorem execEthFrameReceive (h : MemWf s) : EndsWf (execEthFrameReceive x s) := by
  unfold Machine.execEthFrameReceive
  dsimp only
  refine .ok (.ite h (.ite (.rxDrop (.ethPump (.setComms (.untilMtb h))))
      (.ifElse (.ethPump (.setComms (.untilMtb h))) fun h' => ?_)))
  split
  · exact .raise h'
  · exact .forAll (.learn h') fun _ _ h2 => .ite (.toQ22 h2) (.putWire h2)

theorem execEthTransmit (h : MemWf s) : EndsWf (execEthTransmit at1 at2 s) := by
  unfold Machine.execEthTransmit
  refine .ok ?_
  split
  · exact h
  · exact .andThen (.takeA (.ethPump (.setComms h))) fun h' => .ite (.bump h')
      (.ite (.bump (.raise h')) (.forAll (.learn h') fun _ _ h2 => .ite (.putWire (.untilMtb h2)) h2))

theorem execAddressAgeing (h : MemWf s) : EndsWf (execAddressAgeing s) := by
  unfold Machine.execAddressAgeing
  refine .ok ?_
  split
  · exact .setComms (.ethTick (.untilMtb h))
  · exact h

theorem execEventNumber (h : MemWf s) : EndsWf (execEventNumber s) := by
  unfold Machine.execEventNumber
  refine .ok ?_
  split
  · exact .ite (.numberEvent (.update h)) h
  · exact h

theorem execInputDecision (h : MemWf s) : EndsWf (execInputDecision q s) := by
  unfold Machine.execInputDecision
  refine .ok ?_
  split
  · exact h
  · exact .ite (.setStn (.ite (.acceptSet h) (.missSet (.ite (.raise (.bump h)) h)))) h

theorem execStationImageWrite (h : MemWf s) : EndsWf (execStationImageWrite q s) := by
  unfold Machine.execStationImageWrite
  refine .ok ?_
  split
  · exact h
  · exact .ite h (.writeArea (.setStn h))

theorem execOutputSetBuild (h : MemWf s) : EndsWf (execOutputSetBuild q s) := by
  unfold Machine.execOutputSetBuild
  dsimp only
  refine .ok ?_
  split
  · exact h
  · split
    · split
      · exact h
      · exact .ite (.forAll (.setStn (.untilMtb h)) fun _ _ h' => .wbytes h') h
    · exact h

theorem execFrameError (h : MemWf s) : EndsWf (execFrameError c lec eight seen s) := by
  unfold Machine.execFrameError
  dsimp only
  refine .ok (.ite h ?_)
  split
  · exact .ifElse (.rxError h) fun h' => .settleLate (.putEx h')
  · exact .rxError h

theorem execReferenceSend (h : MemWf s) : EndsWf (execReferenceSend c driven s) :=
  .ok (.ite (.forAll (.untilMtb h) fun _ _ h' => .sendOwed h')
      (.ite (.sendChans (.setFb (.forAll (.untilMtb h) fun _ _ h' => .setFb h'))) h))

theorem execReferenceReceive (h : MemWf s) : EndsWf (execReferenceReceive c data seen s) :=
  .ok (.ite h (.ifThen (.rxGood h) fun h' => .ifElse (.openCycle (.putTstate (.setFb h'))) fun h2 => .raiseChans h2))

theorem execAcceptanceTimeout (h : MemWf s) : EndsWf (execAcceptanceTimeout c s) := by
  unfold Machine.execAcceptanceTimeout
  dsimp only
  refine .ok ?_
  split
  · exact .ite (.andThen (.raiseChans (.setFb (.untilMtb h))) fun h' => .ite
      (.raiseChans (.putTstate (.loseCycle h'))) (.openCycle (.putTstate h'))) h
  · exact h

theorem execTxObjectFetch (h : MemWf s) : EndsWf (execTxObjectFetch c s) := by
  unfold Machine.execTxObjectFetch
  dsimp only
  refine .ok ?_
  split
  · exact h
  · split
    · exact .ite (.ite (.raise (.ww (.untilMtb h))) (.setFb (.untilMtb h))) h
    · exact h

theorem execWindowOpen (h : MemWf s) : EndsWf (execWindowOpen c s) := by
  unfold Machine.execWindowOpen
  dsimp only
  refine .ok ?_
  split
  · exact h
  · split
    · refine .ite ?_ h
      split
      · exact .sendChans (.setFb (.closeWin (.untilMtb h)))
      · exact .setFb (.closeWin (.untilMtb h))
    · exact h

theorem execWindowClose (h : MemWf s) : EndsWf (execWindowClose c on0 s on1) := by
  unfold Machine.execWindowClose
  dsimp only
  refine .ok ?_
  split
  · refine .ite ?_ h
    split
    · exact .untilMtb h
    · exact .settleLate (.ifThen (.setFb (.untilMtb h)) fun h' => .forAll h' fun _ _ h2 => .dropObjectOn h2)
  · exact h

theorem execArbitratingTransmit (h : MemWf s) : EndsWf (execArbitratingTransmit c s) := by
  unfold Machine.execArbitratingTransmit
  refine .ok (.ite ?_ h)
  split
  · exact .setFb h
  · exact h
  · split
    · exact .raise (.bump (.takeA h))
    · exact .setFb h

theorem execTxFrameEnd (h : MemWf s) : EndsWf (execTxFrameEnd c driven how s loop) := by
  unfold Machine.execTxFrameEnd
  refine .ok ?_
  split
  · exact h
  · refine .ite h ?_
    split
    · exact .frameSentOn (.measureLoop h)
    · exact .attemptFailed (.measureLoop h)
    · exact .attemptError (.measureLoop h)
    · exact .attemptError (.measureLoop h)

theorem execSupplyFailure (h : MemWf s) : EndsWf (execSupplyFailure xs s) :=
  .ok (.ite h (.ifElse (.muslinFault (.planOrder (.askSave (.stopSampling
      (.feedMeter (.setChr (.raise (.update (.put (.put h)))))))))) fun h' => .ite (.damaskLeave h')
      (.retainSkip (.damaskStop h'))))

theorem execXflDone (h : MemWf s) : EndsWf (execXflDone err s) := by
  unfold Machine.execXflDone
  refine .ok ?_
  split
  · exact h
  · exact .raise (.put (.put (.put (.norEffect (.update h)))))

theorem execDlData (h : MemWf s) : EndsWf (execDlData x s) := by
  refine .ok (.dlRequest h fun _ _ _ h' => ?_)
  split
  · exact h'
  · exact .iteReply h' (.iteReply h' (.iteReply (.wbytes (.freeBytes h')) (.norProgram (.forAll h' fun _ _ h2 =>
      .norErase h2))))

theorem execDlEnd (h : MemWf s) : EndsWf (execDlEnd x s) := by
  refine .ok (.dlRequest h fun _ _ _ h' => ?_)
  split
  · exact h'
  · exact .iteReply h' (.iteReply h' (.setXflHash h'))

theorem execDlAbort (h : MemWf s) : EndsWf (execDlAbort x s) := by
  unfold Machine.execDlAbort
  extract_lets t
  have ht : MemWf t := .dlRequest h fun _ _ _ h' => .iteReply h' h'
  refine .ok ?_
  split
  · exact .ifThen ht fun h' => .setSession h'
  · exact ht

theorem execSessionTimeout (h : MemWf s) : EndsWf (execSessionTimeout s) := by
  unfold Machine.execSessionTimeout
  refine .ok ?_
  split
  · exact .setSession (.untilMtb h)
  · exact h

theorem execBootAttempt (hs : MemWf s) : EndsWf (execBootAttempt h u s) := by
  unfold Machine.execBootAttempt
  refine .ok (.ite hs (.ite (.bootOver hs) (.ite (.awaitLink hs) ?_)))
  split
  next u heq =>
    exact .of_snd (.slotDue hs) heq
  next _ u heq =>
    have hu : MemWf u := .of_snd (.slotDue hs) heq
    exact .attemptSlot hu

theorem execTrainingComplete (h : MemWf s) : EndsWf (execTrainingComplete delay s) :=
  .ok (.ifThen (.trainOver (.trainOver h)) fun h' => .put (.put (.update (.put (.drawBytes (.drawBytes h'))))))

theorem execPairing (h : MemWf s) : EndsWf (execPairing s) :=
  .ok (.ite (.hartLinkUp (.evsLinkUp (.muslinLinkUp (.update (.ifElse
      (.raise (.raise (.enterUp (.enterUp (.loadMtb h))))) fun h' => .raiseFault (.raise (.raise h'))))))) h)

theorem execLinkReset (h : MemWf s) : EndsWf (execLinkReset s) :=
  .ok (.ite h (.ifThen (.ifThen (.pass (.closeMuslinLocks (.clearPool (.toDown (.ite (.toDown h) h))))) fun h' =>
      .toTrain h') fun h' => .toTrain h'))

theorem execPowerOnReset (h : MemWf s) : EndsWf (execPowerOnReset x lost s) :=
  .ok (.moduleStart (.setPins (.setCause (.moduleBase (.ite (.charonStart (.flashDone h))
      (.setChr (.flashDone h)))))))

theorem execSupplyGood (h : MemWf s) : EndsWf (execSupplyGood s) :=
  .ok (.ite h (.wakeDamask (.retainSettle (.ifThen (.raise (.put (.chrSupplyGood (.update h)))) fun h' =>
      .startSampling h'))))

theorem execPowerFailPlanEnd (h : MemWf s) : EndsWf (execPowerFailPlanEnd low x s) := by
  unfold Machine.execPowerFailPlanEnd
  dsimp only
  refine .ok (.ite h ?_)
  split
  · exact .moduleResetNow (.setPins (.update (.put (.ifThen (.damaskCut (.retainLost h)) fun h' => .retainSkip
      (.dropOps h')))))
  · exact .put (.ifThen (.damaskCut (.retainLost h)) fun h' => .retainSkip (.dropOps h'))

theorem execDamaskCrystalLoss (h : MemWf s) : EndsWf (execDamaskCrystalLoss s) :=
  .ok (.ite h (.update (.forAll (.raiseFault (.forAll h fun _ _ h' => .killScan h')) fun _ _ h' => .setMode h')))

theorem execMeterCrystalLoss (h : MemWf s) : EndsWf (execMeterCrystalLoss xs s) :=
  .ok (.ite h (.forAll (.muslinFault (.setMeter (.stopSampling (.feedMeter h)))) fun _ _ h' => .hartStop h'))

theorem execReplayTimeout (h : MemWf s) : EndsWf (execReplayTimeout d s) := by
  unfold Machine.execReplayTimeout
  refine .ok ?_
  split
  · exact .ite (.replayFrom (.untilNow h)) h
  · exact h

theorem execHeartbeatSend (h : MemWf s) : EndsWf (execHeartbeatSend d s) := by
  unfold Machine.execHeartbeatSend
  refine .ok (.ite ?_ h)
  split <;> exact .sendCtrl (.setLink (.untilNow h))

theorem execHeartbeat (h : MemWf s) : EndsWf (execHeartbeat d p s) := by
  unfold Machine.execHeartbeat
  refine .ok (.receive h fun _ h' => ?_)
  split
  · exact .ite (.followMtb h') h'
  · exact h'

theorem execWrReq (h : MemWf s) : EndsWf (execWrReq p s tie) :=
  .ok (.receive h fun _ h' => .ite (.sendPacket (.regWrite (.setReg (.setReg h')))) (.sendPacket h'))

theorem execLoneDeliveryTimeout (h : MemWf s) : EndsWf (execLoneDeliveryTimeout s) := by
  unfold Machine.execLoneDeliveryTimeout
  refine .ok ?_
  split
  · exact .ite (.localUpdate (.untilMtb h)) h
  · exact h

theorem execFeederRecordWrite (h : MemWf s) : EndsWf (execFeederRecordWrite s) := by
  unfold Machine.execFeederRecordWrite
  refine .ok ?_
  split
  · exact .ite (.wbytes (.setInputs h)) h
  · exact h

theorem execRetainTransfer (h : MemWf s) : EndsWf (execRetainTransfer p s) :=
  .ok (.ifThen (.receiveBulk h fun _ _ h' => .ifThen (.retainStore h') fun h2 => .damaskCut h2) fun h' =>
      .retainStore h')

theorem execVaultRequest (h : MemWf s) : EndsWf (execVaultRequest d p s) := by
  unfold Machine.execVaultRequest
  refine .ok (.receiveBulk h fun _ _ h' => ?_)
  split
  · exact .vaultRequest h'
  · exact .cryTransport h'

theorem execBlockTransfer (h : MemWf s) : EndsWf (execBlockTransfer x s) := by
  unfold Machine.execBlockTransfer
  refine .ok ?_
  split
  · exact .ite (.q31Take h) h
  · exact .receiveBulk h fun _ _ h' => .q31Serve h'
  · exact .receiveBulk h fun _ _ h' => .q31Done h'

theorem execDlReboot (h : MemWf s) : EndsWf (execDlReboot x s) := by
  unfold Machine.execDlReboot
  extract_lets run t
  have ht : MemWf t := .dlRequest h fun _ _ _ h' => .iteReply h' (.ite (.put h') h')
  refine .ok ?_
  split
  · exact .ifThen ht fun h' => .update (.moduleReset h')
  · exact ht

theorem execBcall (h : MemWf s) : EndsWf (execBcall x ra rb s) := by
  refine .ok (.issue h fun s h' => .residued h' fun s h2 => ?_)
  refine .ite (.exception h2) ?_
  split
  case h_1 g hg => exact .frameRefusal h2 hg
  case h_2 => exact .setEng (.writeWord (.writeWord h2))

theorem execBret (h : MemWf s) : EndsWf (execBret x s) := by
  refine .ok (.issue h fun s h' => .residued h' fun s h2 => ?_)
  dsimp only
  split
  case h_1 g hg => exact .frameRefusal h2 hg
  case h_2 =>
    split
    case h_1 hr => exact .of_snd (.readWords h2) hr
    case h_2 hr => exact .setEng (.of_snd (.readWords h2) hr)

theorem execRegisterWrite (h : MemWf s) : EndsWf (execRegisterWrite r a v s tie) := by
  unfold Machine.execRegisterWrite
  refine .ok ?_
  split
  · exact .writeCmd h
  · exact h

theorem execReadClear (h : MemWf s) : EndsWf (execReadClear r a s) := by
  unfold Machine.execReadClear
  refine .ok ?_
  split
  · exact .readCmd h
  · exact h

theorem execModrst (h : MemWf s) : EndsWf (execModrst r d s) := by
  unfold Machine.execModrst
  refine .ok ?_
  split <;> exact .fieldCmd h

theorem execPdataAccess (h : MemWf s) : EndsWf (execPdataAccess r v s) := by
  unfold Machine.execPdataAccess
  refine .ok ?_
  split
  · exact .writeCmd h
  · exact .readCmd h

theorem execMdataAccess (h : MemWf s) : EndsWf (execMdataAccess r v s) := by
  unfold Machine.execMdataAccess
  refine .ok ?_
  split
  · exact .writeCmd h
  · exact .readCmd h

theorem execBaseTick (h : MemWf s) : EndsWf (execBaseTick v s) :=
  .ok (.ite (.powerTick (.gateClusters (.ethTick (.forAll (.activityTick
      (.pinSample (.forAll (.raise (.update (.untilMtb h))) fun _ _ h' => .periodTick h'))) fun _ _ h' =>
      .releaseTick h')))) h)

theorem execTaskValidation (h : MemWf s) : EndsWf (execTaskValidation t s) := by
  unfold Machine.execTaskValidation
  refine .ok (.ite (.ifThen (.update h) fun h' => ?_) h)
  split
  · exact .enableTask h'
  · exact .failValidation h'

theorem execSnapshotStart (hs : MemWf s) : EndsWf (execSnapshotStart h s) := by
  unfold Machine.execSnapshotStart
  refine .ok ?_
  split
  · refine .ite hs ?_
    split
    · exact .copyNext (.setScan (.wbytes hs))
    · exact hs
  · exact hs

theorem execSnapshotEntry (hs : MemWf s) : EndsWf (execSnapshotEntry h bad s) := by
  unfold Machine.execSnapshotEntry
  refine .ok ?_
  split
  · split
    · refine .ite hs (.ite ?_ (.copyNext (.setScan (.refuseEntry (.wbytes hs)))))
      split
      · exact .gsramDead (.raiseFault (.wbytes (.correctedEntry hs)))
      · exact .copyNext (.setScan (.wbytes (.correctedEntry hs)))
    · exact hs
  · exact hs

theorem execExecuteStart (h : MemWf s) : EndsWf (execExecuteStart t s) := by
  unfold Machine.execExecuteStart
  refine .ok ?_
  split
  · exact .ite (.beginExecute h) h
  · exact h

theorem execScanDeadline (h : MemWf s) : EndsWf (execScanDeadline t s) := by
  unfold Machine.execScanDeadline
  refine .ok ?_
  split
  · exact .overrun (.untilMtb h)
  · exact h

theorem execPublishEntry (hs : MemWf s) : EndsWf (execPublishEntry h bad s) := by
  unfold Machine.execPublishEntry
  refine .ok ?_
  split
  · refine .ite hs (.ite ?_ (.copyNext (.refuseEntry (.cutoffFirst hs))))
    split
    · exact .raise (.setReg (.raiseFault (.setCopyQ (.correctedEntry (.cutoffFirst hs)))))
    · exact .copyNext (.forAll (.correctedEntry (.cutoffFirst hs)) fun _ _ h' => .publishWord h')
  · exact hs

theorem execJobTimerExpiry (h : MemWf s) : EndsWf (execJobTimerExpiry e s) := by
  unfold Machine.execJobTimerExpiry
  refine .ok ?_
  split
  · exact .haltLane (.jobError (.put (.setExcl (.errCount (.untilMtb h)))))
  · exact h

theorem execFieldTick (h : MemWf s) : EndsWf (execFieldTick x s) :=
  .ok (.ifElse (.setPins h) fun h' => .ifThen (.pmuMeasure (.forAll (.update (.untilReplica h')) fun _ _ h2 =>
      .decay h2)) fun h2 => .damaskOverdue (.fieldSide h2))

theorem execSolverOpDone (h : MemWf s) : EndsWf (execSolverOpDone k u s) := by
  unfold Machine.execSolverOpDone
  refine .ok ?_
  split
  · exact .ifThen (.solverNext h) fun h' => .solverFinish h'
  · exact h

theorem execMts (h : MemWf s) : EndsWf (execMts x ra n s) :=
  .ok (.issue h fun _ h' => .ite (.exception h') (.ite (.exception h') (.advance (.setSpecial h'))))

theorem execPlk (h : MemWf s) : EndsWf (execPlk x ra rb rc s) := by
  refine .ok (.issueMem h fun s h' => .privileged h' fun s h2 => .residued h2 fun s h3 => ?_)
  dsimp only
  split
  case h_1 f hf => exact .refusal h3 hf
  case h_2 => exact .ite (.accessError h3) (.storePage (.storePage (.advance h3)))

theorem execInterruptEntry (h : MemWf s) : EndsWf (execInterruptEntry e s) := by
  unfold Machine.execInterruptEntry
  refine .ok ?_
  split
  · exact .ite (.setMode (.setEng h)) h
  · exact h

theorem execRemoteAccessException (h : MemWf s) : EndsWf (execRemoteAccessException e s) := by
  unfold Machine.execRemoteAccessException
  dsimp only
  refine .ok ?_
  split
  · exact .ite (.ite (.jobFault h) (.enterException (.setEng h))) h
  · exact h

theorem execFetchAccessError (h : MemWf s) : EndsWf (execFetchAccessError e s) := by
  unfold Machine.execFetchAccessError
  dsimp only
  refine .ok ?_
  split
  · exact .ite (.accessError h) h
  · exact h

end EndsWf

theorem endsWf_exec (h : MemWf s) (c : Instr) : EndsWf (exec c s) := by
  cases c with
  | powerOnReset => exact .execPowerOnReset h
  | moduleReset => exact .ok (.moduleReset (.setPins h))
  | modrst => exact .execModrst h
  | damaskRestart => exact .ok (.fieldCmd h)
  | halfBoot => exact .ok (.writeCmd h)
  | linkReset => exact .execLinkReset h
  | registerWrite => exact .execRegisterWrite h
  | readClear => exact .execReadClear h
  | irqForce | lockWrite => exact .ok (.writeCmd h)
  | lockTimeout => exact .ok (.ite (.lockTimeout h) h)
  | rdReq => exact .ok (.receive h fun _ h' => .sendPacket (.remoteRead h'))
  | wrReq => exact .execWrReq h
  | rdRsp | wrRsp => exact .ok (.receive h fun _ h' => .completeTxn h')
  | ack => exact .ok (.receive h fun _ h' => .pump (.setLink h'))
  | nak => exact .ok (.receive h fun _ h' => .replayFrom h')
  | credit => exact .ok (.receive h fun _ h' => .pump (.addCredits h'))
  | heartbeat => exact .execHeartbeat h
  | heartbeatSend => exact .execHeartbeatSend h
  | ackTimeout => exact .ok (.ite (.sendAck (.untilNow h)) h)
  | replayTimeout => exact .execReplayTimeout h
  | linkDownTimeout => exact .ok (.ite (.toDown (.untilNow h)) h)
  | downWaitExpiry => exact .ok (.ite (.toTrain (.untilNow h)) h)
  | retrain | linkEn | loopback => exact .ok (.fieldCmd h)
  | trainTimeout => exact .ok (.ite (.toDown (.untilNow h)) h)
  | trainingComplete => exact .execTrainingComplete h
  | pairing => exact .execPairing h
  | sealedTransfer => exact .ok (.receive h fun _ h' => .sealedPart h')
  | eventPacket => exact .ok (.receive h fun _ h' => .ite (.update h') (.evsTake h'))
  | samplePacket => exact .ok (.receive h fun _ h' => .samplePart h')
  | localInputUpdate => exact .ok (.ite (.localUpdate h) h)
  | loneDeliveryTimeout => exact .execLoneDeliveryTimeout h
  | feederRecordWrite => exact .execFeederRecordWrite h
  | outputImageTransfer => exact .ok (.receiveBulk h fun _ _ h' => .takeOutputs h')
  | retainTransfer => exact .execRetainTransfer h
  | retainRestoreTransfer => exact .ok (.receiveBulk h fun _ _ h' => .restoreApply h')
  | eventRecordTransfer => exact .ok (.receiveBulk h fun _ _ h' => .acceptNumbered h')
  | hartRequest => exact .ok (.receiveBulk h fun _ _ h' => .hartTake h')
  | hartResultTransfer => exact .ok (.receiveBulk h fun _ _ h' => .hartResult h')
  | vaultRequest => exact .execVaultRequest h
  | mtbLoRead => exact .ok (.readCmd h)
  | mtbCmpWrite => exact .ok (.writeCmd h)
  | mtbCompareFire => exact .ok (.ite (.raise (.put (.untilMtb h))) h)
  | baseTick => exact .execBaseTick h
  | fieldTick => exact .execFieldTick h
  | holdExpiry => exact .ok (.ite (.update (.untilReplica h)) h)
  | release | icinv => exact .ok (.fieldCmd h)
  | jobTimerExpiry => exact .execJobTimerExpiry h
  | fairmodeWrite => exact .ok (.fieldCmd h)
  | supvWrite | obsselWrite => exact .ok (.writeCmd h)
  | grantcntRead => exact .ok (.readCmd h)
  | add | sub | and | or | xor | shl | shr | sar | slt | sltu | min | max => exact .ok (.aluRR h)
  | cmp => exact .ok (.aluCmp h)
  | mul | mulh | mulhu | div | divu | rem | remu => exact .ok (.aluRR h)
  | addi | andi | ori | xori | shli | shri | sari | slti | lui => exact .ok (.aluRI h)
  | cmpi => exact .ok (.aluCmp h)
  | fadd | fsub | fmul | fdiv | fsqrt => exact .ok (.fpRR h)
  | fmin | fmax => exact .ok (.fpPick h)
  | fabs | fneg => exact .ok (.fpR h)
  | fcmp => exact .ok (.issue h fun _ h' => .advance (.setFl h'))
  | itof | ftoi | ftoiz => exact .ok (.fpR h)
  | lw | lh | lhu | lb | lbu => exact .ok (.load h)
  | sw | sh | sb => exact .ok (.store h)
  | b => exact .ok (.issue h fun _ h' => .residued h' fun _ h2 => .ite (.setPc h2) (.advance h2))
  | bl => exact .ok (.issue h fun _ h' => .residued h' fun _ h2 => .setPc (.setGr h2))
  | jr => exact .ok (.issue h fun _ h' => .ite (.setPc h') (.exception h'))
  | bcall => exact .execBcall h
  | bret => exact .execBret h
  | edge => exact .ok (.primitive h)
  | ton | tof | tp => exact .ok (.timer h)
  | ctu | ctd | ctud => exact .ok (.counter h)
  | gemv | gemm | chol | solve => exact .ok (.matIssue h)
  | solverOpDone => exact .execSolverOpDone h
  | mfs => exact .ok (.issue h fun _ h' => .ite (.exception h') (.ite (.exception h') (.result h')))
  | mts => exact .execMts h
  | yield => exact .ok (.issue h fun _ h' => .ite (.settleYield (.setMode h')) (.exception h'))
  | fault => exact .ok (.issue h fun _ h' => .exception h')
  | plk => exact .execPlk h
  | iret => exact .ok (.issue h fun _ h' => .privileged h' fun _ h2 => .setEng h2)
  | sleep => exact .ok (.issue h fun _ h' => .privileged h' fun _ h2 => .setMode (.advance h2))
  | migrate => exact .ok (.issue h fun _ h' => .privileged h' fun _ h2 => .ite (.result h2) (.result (.migrate h2)))
  | interruptEntry => exact .execInterruptEntry h
  | remoteAccessException => exact .execRemoteAccessException h
  | jobTake => exact .ok (.ite h (.takeJob h))
  | taskValidation => exact .execTaskValidation h
  | schedulerEnable | holdHalf => exact .ok (.fieldCmd h)
  | snapshotStart => exact .execSnapshotStart h
  | snapshotEntry => exact .execSnapshotEntry h
  | executeStart => exact .execExecuteStart h
  | publishEntry => exact .execPublishEntry h
  | outputTransferCutoff => exact .ok (.ite (.cutoffAt (.untilMtb h)) h)
  | copyForwardDone => exact .ok (.copyDone h)
  | scanDeadline => exact .execScanDeadline h
  | regionClear | imgRgnWrite => exact .ok (.writeCmd h)
  | btickLoRead | nextLoRead => exact .ok (.readCmd h)
  | pdataAccess => exact .execPdataAccess h
  | pgownWrite => exact .ok (.writeCmd h)
  | frameReceive => exact .ok (.ite h (.ite (.ite h (.rxGood h)) (.receiveFrame (.rxGood h))))
  | txObjectFetch => exact .execTxObjectFetch h
  | windowOpen => exact .execWindowOpen h
  | windowClose => exact .execWindowClose h
  | txFrameEnd => exact .execTxFrameEnd h
  | arbitratingTransmit => exact .execArbitratingTransmit h
  | referenceSend => exact .execReferenceSend h
  | referenceAbandon => exact .ok (.ite (.raiseChans (.setFb (.openCycle (.untilMtb h)))) h)
  | referenceReceive => exact .execReferenceReceive h
  | acceptanceTimeout => exact .execAcceptanceTimeout h
  | recover => exact .ok (.fieldCmd h)
  | busoffRecoveryDone => exact .ok (.ite (.put (.put (.put (.put h)))) h)
  | fbCtrlWrite => exact .ok (.writeCmd h)
  | bankRequest | redundantWrite => exact .ok (.fieldCmd h)
  | mdataAccess => exact .execMdataAccess h
  | inputDecision => exact .execInputDecision h
  | stationImageWrite => exact .execStationImageWrite h
  | outputSetBuild => exact .execOutputSetBuild h
  | stationEnable => exact .ok (.writeCmd h)
  | protectedStateEntry => exact .ok (.hartStop (.protect h))
  | miswireRearm | aioCfgWrite | recordBaseWrite => exact .ok (.writeCmd h)
  | imgenWrite => exact .ok (.fieldCmd h)
  | outputCurrentLimit => exact .ok (.ite (.raise (.syncDio (.setDio h))) h)
  | limitTurnoff => exact .ok (.ite (.syncDio (.bump (.setDio (.untilReplica h)))) h)
  | limitRetry => exact .ok (.ite (.syncDio (.setDio (.untilReplica h))) h)
  | diLoRead => exact .ok (.readCmd h)
  | hartTxStart => exact .ok (.ite (.hartBegin (.untilReplica h)) h)
  | hartTxEnd => exact .execHartTxEnd h
  | hartResponseDeadline => exact .execHartResponseDeadline h
  | hartFrameReceive => exact .execHartFrameReceive h
  | hartAnswerStart =>
    exact .ok (.ite (.ite (.hartEnd (.bump (.untilReplica h))) (.ite h (.hartBegin (.untilReplica h)))) h)
  | hartPoll => exact .execHartPoll h
  | hrtCfgWrite => exact .ok (.writeCmd h)
  | dcSeedDone => exact .ok (.ifThen (.feedMeter h) fun h' => .seedMeter h')
  | cycleClose => exact .ok (.closeDue (.feedMeter h))
  | rmsBlockEnd => exact .ok (.ifThen (.feedMeter h) fun h' => .endBlock h')
  | stuckDetect => exact .ok (.ifThen (.feedMeter h) fun h' => .setStuck h')
  | demandBoundary => exact .execDemandBoundary h
  | pulseTimer => exact .execPulseTimer h
  | meterSaveTimer => exact .ok (.askSave (.setMeter (.untilReplica h)))
  | meterSave => exact .ok (.fieldCmd h)
  | saveRetry => exact .execSaveRetry h
  | configCommit | meteringEnable => exact .ok (.fieldCmd h)
  | feederCfgWrite | calibrationWrite | feederClear | lsbWrite => exact .ok (.writeCmd h)
  | accloRead => exact .ok (.readCmd h)
  | demandMaxClear | pulseCfgWrite => exact .ok (.writeCmd h)
  | serTransmitStart => exact .execSerTransmitStart h
  | serTransmitEnd => exact .execSerTransmitEnd h
  | modbusFrameEnd => exact .execModbusFrameEnd h
  | responseTimeout => exact .execResponseTimeout h
  | broadcastTurn => exact .ok (.untilMtb h)
  | osdpPacketReceive => exact .execOsdpPacketReceive h
  | rawChunkClose => exact .execRawChunkClose h
  | svcTxdWrite => exact .ok (.writeCmd h)
  | svcRxdRead => exact .ok (.readCmd h)
  | svcByteReceive => exact .execSvcByteReceive h
  | ethFrameReceive => exact .execEthFrameReceive h
  | ethTransmit => exact .execEthTransmit h
  | ethLinkChange => exact .ok (.ite h (.ethLink (.ethTick h)))
  | addressAgeing => exact .execAddressAgeing h
  | txtsTagRead => exact .ok (.readCmd h)
  | vlanWrite => exact .ok (.writeCmd h)
  | charonSecond => exact .ok (.wakeUp (.charonTicks (.untilReplica h)))
  | alarmFire => exact .ok (.wakeUp (.ticksToAlarm h))
  | timeWrite => exact .ok (.writeCmd h)
  | timeLoad => exact .ok (.wakeUp (.charonTicks h))
  | alarmWrite => exact .ok (.writeCmd h)
  | secLoRead | corrLoRead | opsecRead => exact .ok (.readCmd h)
  | opsecMinute => exact .ok (.wakeUp (.charonTicks h))
  | crystalLoss32k => exact .ok (.ite h (.muslinFault (.raiseLog (.put (.setMeter h)))))
  | crystalReturn32k => exact .ok (.put h)
  | vbatCheck => exact .ok (.ifThen (.putBit h) fun h' => .chrRaise h')
  | flashOpAdmit => exact .ok (.flashAdmit h)
  | flashOpDone => exact .ok (.flashDone h)
  | nvmRead | nvmWrite | rawProg | rawErase => exact .ok (.writeCmd h)
  | nvmCommandDone => exact .execNvmCommandDone h
  | compact => exact .ok (.fieldCmd h)
  | compactionStart => exact .ok (.compactAuto h)
  | indexBuilt => exact .ok (.ite h (.indexBuilt h))
  | counterIncrement | counterAdvance => exact .ok (.writeCmd h)
  | writePointFound => exact .execWritePointFound h
  | evrFirst | evrNext | evrAt => exact .ok (.readRow h)
  | eventClear | keyUpdate | wsLoadVault | wsLoadBlob | wsGenerate | wsImport | wsClear => exact .ok (.writeCmd h)
  | cryJobStage => exact .execCryJobStage h
  | aesGcmEncrypt | aesGcmDecrypt | aesCbcEncrypt | aesCbcDecrypt | aesEcbEncrypt | aesEcbDecrypt | aesCtr
  | aesCmacGenerate | aesCmacVerify | hmacSha256Generate | hmacSha256Verify | sha256 | rsassaPssSign
  | rsassaPssVerify | rsaOaepEncrypt | rsaOaepDecrypt | attest | cryRandom => exact .ok (.startOp h)
  | cryJobComplete => exact .execCryJobComplete h
  | bootAttempt => exact .execBootAttempt h
  | bootTimeout => exact .ok (.ite h (.bootOver (.untilMtb h)))
  | dlHello => exact .ok (.ifThen (.sessionOver h) fun h' => .answer h')
  | dlStart => exact .ok (.dlRequest h fun _ _ _ h' => .iteReply h' (.iteReply h' h'))
  | dlData => exact .execDlData h
  | dlEnd => exact .execDlEnd h
  | dlReboot => exact .execDlReboot h
  | dlAbort => exact .execDlAbort h
  | sessionTimeout => exact .execSessionTimeout h
  | xflErase | xflProg | xflHash | xflRead => exact .ok (.writeCmd h)
  | xflDone => exact .execXflDone h
  | supplyFailure => exact .execSupplyFailure h
  | powerFailPlanEnd => exact .execPowerFailPlanEnd h
  | supplyGood => exact .execSupplyGood h
  | doff | restore => exact .ok (.fieldCmd h)
  | prfLoad | prfCmd => exact .ok (.writeCmd h)
  | retry => exact .ok (.fieldCmd h)
  | wdtKick => exact .ok (.writeCmd h)
  | watchdogExpiry => exact .ok (.ite h (.wdtExpire (.untilMtb h)))
  | muslinWatchdogExpiry => exact .ok (.moduleReset h)
  | damaskCrystalLoss => exact .execDamaskCrystalLoss h
  | meterCrystalLoss => exact .execMeterCrystalLoss h
  | meterCrystalReturn =>
    exact .ok (.ite h (.ifThen (.otherEvent (.setMeter (.untilReplica h))) fun h' => .startSampling h'))
  | softwareInterrupt => exact .ok (.writeCmd h)
  | eventNumber => exact .execEventNumber h
  | sequencerStart => exact .ok (.ite (.numberEvent (.put (.setReg h))) h)
  | blockTransfer => exact .execBlockTransfer h
  | queueConfigWrite => exact .ok (.writeCmd h)
  | ringProduce => exact .ok (.fieldCmd h)
  | resetRelease => exact .ok (.ite (.moduleStart (.setPins (.update h))) h)
  | illegalInstruction => exact .ok (.issue h fun _ h' => .exception h')
  | fetchAccessError => exact .execFetchAccessError h
  | sleepWake => exact .ok (.ite (.setMode h) h)
  | frameError => exact .execFrameError h
  | carrierDetect => exact .ok (.ite h (.ifElse (.putBit h) fun h' => .setModem h'))
  | stuckClear => exact .ok (.ifThen (.feedMeter h) fun h' => .clearStuck h')
  | svcByteSent => exact .execSvcByteSent h
  | onvbatChange => exact .ok (.putBit h)
  | charonStop => exact .ok (.setChr h)
  | verifierDone => exact .execVerifierDone h

/-- Settles O59: the front command's outcome keeps the form, and with no command in the queue nothing changes. -/
theorem memoryStaysCanonical : Obligations.MemoryStaysCanonical := by
  unfold Obligations.MemoryStaysCanonical
  intro s t hs hstep
  unfold step at hstep
  split at hstep
  · exact (endsWf_exec (.update ⟨hs⟩) _ t hstep).wf
  · cases hstep
    exact hs

/-- Settles O60: the reset state lists no memory and no point tag, and its register table rises. -/
theorem resetIsCanonical : Obligations.ResetIsCanonical := by
  unfold Obligations.ResetIsCanonical State.canonical
  exact ⟨wf_reset, by decide, rfl⟩

end Sys2Proof.Machine
end

section
/-! Loads and stores that trap, and those that the domain rules refuse and count (R54, R94, R95; O9). -/

namespace Sys2Proof.Machine

open Reg

variable {x : Issue} {srcs : List Reg} {as : List Nat} {e : EngNo} {s t u : State} {a : Nat}

/-! ## The checks and what they read -/

/-- An engine with nothing to wait for executes the instruction after its fetch. -/
theorem issueMem_ready (h : ReadyMem x srcs as s) (run : State → State) :
    issueMem x srcs as run s = run (fetched x.eng s) := by
  obtain ⟨hready, hwait⟩ := h
  obtain ⟨hslots, hfabric⟩ : slotsShort x.eng as s = false ∧ fabricWaits x.eng as s = false := by
    simpa [mustWait] using hwait
  simp [issueMem, hslots, hfabric, issue_ready hready]

/-- Alignment comes first (R94). -/
theorem refusal_misaligned {size : Nat} (h : a % size ≠ 0) (write : Bool) :
    refusal e write size a s = some (exception e xAlign 0 (word a)) := by
  simp [refusal, h]

/-- Whose a region is stands in its entry. -/
theorem rgnTask_congr {k : Nat} (h : rgnEntry k t = rgnEntry k s) : rgnTask k t = rgnTask k s := by
  have htask : rgnTaskField k t = rgnTaskField k s := Fin.ext (by simp only [rgnTaskField, h])
  have hvalid : rgnValid k t = rgnValid k s := by simp only [rgnValid, h]
  simp only [rgnTask, hvalid, htask]

/-- All that the checks of an access in task mode read is as before. -/
structure SameChecks (e : EngNo) (s t : State) : Prop where
  job : (t.eng e).job = (s.eng e).job
  boot : t.boot = s.boot
  points : t.points = s.points
  mem : t.mem = s.mem
  fab : OnlyFab s t

namespace SameChecks

theorem trans (h : SameChecks e s t) (h' : SameChecks e t u) : SameChecks e s u where
  job := h'.job.trans h.job
  boot := h'.boot.trans h.boot
  points := h'.points.trans h.points
  mem := h'.mem.trans h.mem
  fab p off hp ho := (h'.fab p off hp ho).trans (h.fab p off hp ho)

theorem fetched : SameChecks e s (fetched e s) where
  job := by simp
  boot := by rw [fetched_eq]
  points := by rw [fetched_eq]
  mem := fetched_mem e s
  fab := fetched_fab e s

theorem grant : SameChecks e s (grant e a s) := by
  unfold Machine.grant
  split
  · exact ⟨rfl, rfl, rfl, rfl, fun _ _ _ _ => rfl⟩
  · exact ⟨by rw [grantTarget_eq]; rfl, by rw [grantTarget_eq], by rw [grantTarget_eq], by rw [grantTarget_eq],
      grantTarget_fab e _ s⟩

theorem advance : SameChecks e s (advance e s) := ⟨by simp, rfl, rfl, rfl, fun _ _ _ _ => rfl⟩

theorem inTask (h : SameChecks e s t) : inTask e t = inTask e s := by simp [Machine.inTask, h.job]

theorem jobDead (h : SameChecks e s t) : jobDead e t = jobDead e s := by simp [Machine.jobDead, h.job]

theorem regionError (h : SameChecks e s t) (write : Bool) (size a : Nat) :
    regionError e write size a t = regionError e write size a s := by
  have hboot : ∀ half, inHalfBoot half t = inHalfBoot half s := fun half => by cases half <;> simp [inHalfBoot, h.boot]
  simp only [Machine.regionError, h.inTask, hboot]

theorem refusal (h : SameChecks e s t) (htask : Machine.inTask e s = true) (write : Bool) (size a : Nat) :
    refusal e write size a t = refusal e write size a s := by
  simp [Machine.refusal, h.regionError, h.inTask, htask]

theorem shareMask (h : SameChecks e s t) (n : BitVec 3) : shareMask n.toNat t = shareMask n.toNat s := by
  have hn := n.isLt
  simp only [Machine.shareMask]
  rw [h.fab pDOM _ (by decide) (by omega)]

theorem taskMay (h : SameChecks e s t) (write : Bool) (a : Nat) : taskMay e write a t = taskMay e write a s := by
  have htag : ∀ p, pointTag p t = pointTag p s := fun p => by simp [pointTag, h.points]
  simp only [Machine.taskMay, h.job, gsramWritable, gsramReadable, pointWritable, pointReadable, pointOwner, htag,
    h.shareMask]

theorem rgnEntry (h : SameChecks e s t) (ha : inInstance a = true) :
    rgnEntry (regionOf a) t = rgnEntry (regionOf a) s := by
  have hk : regionOf a < 1024 := by
    simp only [inInstance, Bool.and_eq_true, decide_eq_true_eq] at ha
    simp only [regionOf, instBase]
    omega
  simp only [Machine.rgnEntry]
  rw [h.fab pIMG _ (by decide) (by omega)]

theorem rgnTask (h : SameChecks e s t) (ha : inInstance a = true) :
    rgnTask (regionOf a) t = rgnTask (regionOf a) s := rgnTask_congr (h.rgnEntry ha)

theorem domainRefuses (h : SameChecks e s t) (write : Bool) (a : Nat) :
    domainRefuses e write a t = domainRefuses e write a s := by
  unfold Machine.domainRefuses
  split
  · rw [h.taskMay]
  · split
    next ha =>
      have hinst : instReadable e a t = instReadable e a s := by
        simp only [instReadable, h.job, rgnValid, rgnDom, h.rgnEntry ha]
      simp only [instWritable, hinst, h.job, h.rgnTask ha]
    · split
      · simp only [msgMay, h.job, objDom, objCfg, State.rw, State.rb, h.mem]
      · rfl

end SameChecks

/-! ## Loads and stores -/

section
variable {k : LoadKind} {size : Nat} {rd ra : Reg} {b : Base} {off : BitVec 15} {f : State → State}

theorem load_trapped (h : ReadyMem x [ra] [(dataAddr x.eng ra b off s).toNat] s)
    (hf : refusal x.eng false k.size (dataAddr x.eng ra b off s).toNat (fetched x.eng s) = some f) :
    load x k rd ra b off s = f (fetched x.eng s) := by
  simp only [load, issueMem_ready h, residued_ready h.1.1, hf]

theorem load_passed (h : ReadyMem x [ra] [(dataAddr x.eng ra b off s).toNat] s)
    (hf : refusal x.eng false k.size (dataAddr x.eng ra b off s).toNat (fetched x.eng s) = none) :
    load x k rd ra b off s = loadFrom x k rd (dataAddr x.eng ra b off s).toNat (fetched x.eng s) := by
  simp only [load, issueMem_ready h, residued_ready h.1.1, hf]

theorem store_trapped (h : ReadyMem x [rd, ra] [(dataAddr x.eng ra b off s).toNat] s)
    (hf : refusal x.eng true size (dataAddr x.eng ra b off s).toNat (fetched x.eng s) = some f) :
    store x size rd ra b off s = f (fetched x.eng s) := by
  simp only [store, issueMem_ready h, residued_ready h.1.1, hf]

theorem store_passed (h : ReadyMem x [rd, ra] [(dataAddr x.eng ra b off s).toNat] s)
    (hf : refusal x.eng true size (dataAddr x.eng ra b off s).toNat (fetched x.eng s) = none) :
    store x size rd ra b off s =
      storeTo x size (dataAddr x.eng ra b off s).toNat (gr x.eng rd (fetched x.eng s)) (fetched x.eng s) := by
  simp only [store, issueMem_ready h, residued_ready h.1.1, hf]

/-- A misaligned load raises the alignment exception with its address (R94). -/
theorem load_misaligned (h : ReadyMem x [ra] [(dataAddr x.eng ra b off s).toNat] s)
    (ha : (dataAddr x.eng ra b off s).toNat % k.size ≠ 0) :
    load x k rd ra b off s = exception x.eng xAlign 0 (dataAddr x.eng ra b off s) (fetched x.eng s) := by
  rw [load_trapped h (refusal_misaligned ha _)]
  simp only [BitVec.ofNat_toNat, BitVec.setWidth_eq]

/-- A misaligned store raises the alignment exception with its address (R94). -/
theorem store_misaligned (h : ReadyMem x [rd, ra] [(dataAddr x.eng ra b off s).toNat] s)
    (ha : (dataAddr x.eng ra b off s).toNat % size ≠ 0) :
    store x size rd ra b off s = exception x.eng xAlign 0 (dataAddr x.eng ra b off s) (fetched x.eng s) := by
  rw [store_trapped h (refusal_misaligned ha _)]
  simp only [BitVec.ofNat_toNat, BitVec.setWidth_eq]

end

/-- A load of a word that the domain rules refuse gives zero and counts. -/
theorem loadFrom_refused {rd : Reg} (hremote : isRemote a = false) (hdom : domainRefuses x.eng false a s = true) :
    loadFrom x .w rd a s = result x.eng rd 0 (collect x.eng (word a) vkRead (grant x.eng a s)) := by
  have hgranted : domainRefuses x.eng false a (grant x.eng a s) = true := by
    rw [SameChecks.grant.domainRefuses, hdom]
  simp [loadFrom, hremote, readWord, hgranted, loadDatum]

/-- A store of a word that the domain rules refuse counts and does no more. -/
theorem storeTo_refused {v : Word} (hremote : isRemote a = false) (hlive : jobDead x.eng s = false)
    (hdom : domainRefuses x.eng true a s = true) :
    storeTo x 4 a v s = collect x.eng (word a) vkWrite (grant x.eng a (advance x.eng s)) := by
  have hsame : SameChecks x.eng s (grant x.eng a (advance x.eng s)) := SameChecks.advance.trans .grant
  simp [storeTo, hremote, writeWord, hsame.jobDead, hsame.domainRefuses, hlive, hdom]

/-- The engine's job after one more violation (R96). -/
def counted (j : JobRun) (addr : Word) (kind : Nat) : JobRun :=
  { j with viol := if j.viol.count = 0 then ⟨1, addr, kind⟩ else { j.viol with count := min 255 (j.viol.count + 1) } }

theorem collect_eng {j : JobRun} (hj : (s.eng e).job = some j) (addr : Word) (kind : Nat) :
    (collect e addr kind s).eng e = { s.eng e with job := some (counted j addr kind) } := by
  simp [collect, hj, counted]

@[simp] theorem collect_mem (addr : Word) (kind : Nat) : (collect e addr kind s).mem = s.mem := by
  unfold collect
  dsimp only
  split <;> rfl

@[simp] theorem grant_eng (f : EngNo) : (grant e a s).eng f = s.eng f := by
  unfold grant
  split
  · rfl
  · rw [grantTarget_eq]
    rfl

@[simp] theorem grant_mem : (grant e a s).mem = s.mem := SameChecks.grant.mem

section
variable {rd ra : Reg} {b : Base} {off : BitVec 15} {j : JobRun}

theorem load_refused (h : ReadyMem x [ra] [(dataAddr x.eng ra b off s).toNat] s)
    (ha : a = (dataAddr x.eng ra b off s).toNat) (hj : (s.eng x.eng).job = some j) (hremote : isRemote a = false)
    (hnone : refusal x.eng false 4 a s = none) (hdom : domainRefuses x.eng false a s = true) :
    load x .w rd ra b off s =
      result x.eng rd 0 (collect x.eng (word a) vkRead (grant x.eng a (fetched x.eng s))) := by
  subst ha
  have htask : inTask x.eng s = true := by simp [inTask, hj]
  rw [load_passed (k := .w) h ((SameChecks.fetched.refusal htask ..).trans hnone)]
  exact loadFrom_refused hremote ((SameChecks.fetched.domainRefuses ..).trans hdom)

theorem store_refused (h : ReadyMem x [rd, ra] [(dataAddr x.eng ra b off s).toNat] s)
    (ha : a = (dataAddr x.eng ra b off s).toNat) (hj : (s.eng x.eng).job = some j) (hlive : j.dead = false)
    (hremote : isRemote a = false) (hnone : refusal x.eng true 4 a s = none)
    (hdom : domainRefuses x.eng true a s = true) :
    store x 4 rd ra b off s =
      collect x.eng (word a) vkWrite (grant x.eng a (advance x.eng (fetched x.eng s))) := by
  subst ha
  have htask : inTask x.eng s = true := by simp [inTask, hj]
  have hdead : jobDead x.eng (fetched x.eng s) = false := by simp [jobDead, hj, hlive]
  rw [store_passed h ((SameChecks.fetched.refusal htask ..).trans hnone)]
  exact storeTo_refused hremote hdead ((SameChecks.fetched.domainRefuses ..).trans hdom)

end

theorem registers_result {rd : Reg} {v : Word} (hg : (t.eng e).g = (s.eng e).g) :
    Registers e rd v s (kept u (result e rd v t)) := by
  intro r
  show gr e r (advance e (setGr e rd v t)) = _
  rw [gr_congr (s := setGr e rd v t) (by simp), gr_setGr, gr_congr hg]

theorem result_job (e : EngNo) (rd : Reg) (v : Word) (s : State) : ((result e rd v s).eng e).job = (s.eng e).job := by
  rw [result, advance_eng, eng_setGr]

theorem result_pc (e : EngNo) (rd : Reg) (v : Word) (s : State) :
    ((result e rd v s).eng e).pc = (s.eng e).pc + 4 := by
  rw [result, advance_eng, eng_setGr]

theorem result_mem (e : EngNo) (rd : Reg) (v : Word) (s : State) : (result e rd v s).mem = s.mem := by
  rw [result, advance_eq, setGr_eq]

/-- Settles O9: misalignment is the first check; a domain refusal passes the others and ends in one more violation. -/
theorem refusedAccessesTrapOrCount : Obligations.RefusedAccessesTrapOrCount := by
  unfold Obligations.RefusedAccessesTrapOrCount
  refine ⟨?_, ?_⟩
  · intro x rd ra b off s
    dsimp only
    refine ⟨fun h => ⟨fun ha => ?_, fun ha => ⟨?_, ?_⟩⟩, fun h => ⟨fun ha => ?_, fun ha => ?_⟩⟩
    · exact completes_ok rfl (congrArg _ (load_misaligned (k := .w) h ha))
    · exact completes_ok rfl (congrArg _ (load_misaligned (k := .h) h ha))
    · exact completes_ok rfl (congrArg _ (load_misaligned (k := .hu) h ha))
    · exact completes_ok rfl (congrArg _ (store_misaligned h ha))
    · exact completes_ok rfl (congrArg _ (store_misaligned h ha))
  · intro x rd ra b off s j
    dsimp only
    intro hj hlive hremote _
    refine ⟨fun h hnone hdom => completes_ok rfl ?_, fun h hnone hdom => completes_ok rfl ?_⟩
    · rw [load_refused h rfl hj hremote hnone hdom]
      refine ⟨registers_result ?_, ?_, ?_, ?_⟩
      · rw [collect_eng (by simpa using hj)]
        simp
      · rw [kept_eng, result_job, collect_eng (by simpa using hj)]
        rfl
      · rw [kept_eng, result_pc, collect_eng (by simpa using hj)]
        simp
      · show (result x.eng rd 0 _).mem = s.mem
        simp [result_mem]
    · rw [store_refused h rfl hj hlive hremote hnone hdom, kept_eng, collect_eng (by simpa using hj)]
      refine ⟨rfl, by simp, ?_⟩
      show (collect _ _ _ _).mem = s.mem
      rw [collect_mem, grant_mem, SameChecks.advance.mem, fetched_mem]

end Sys2Proof.Machine
end

section
/-! Exceptions of an engine in supervisor mode: entry, the second one that halts, and the access error that FAB records
(R47, R48, R109 to R111; O15). -/

namespace Sys2Proof.Machine

open Reg

variable {e : EngNo} {code detail kind : Nat} {addr : Word} {imprecise : Bool} {s u : State}

/-! ## The second exception (R110, R393) -/

theorem getLsbD_setBit_same (w : Word) {i : Nat} (hi : i < 32) : (setBit w i true).getLsbD i = true := by
  rw [setBit, if_pos rfl, BitVec.getLsbD_or, getLsbD_word_pow hi]
  simp

theorem excluded_iff_bit : excluded e s = s.bit (engPage e) ⟨0x008, laneOf e, 1⟩ := (get_bit _ _ _).symm

theorem raiseFault_eng (c : Nat) (masked : Bool) (n : Nat) (f : EngNo) :
    (raiseFault c masked n addr s).eng f = s.eng f := rfl

/-- A fault sets the flag of its class. -/
theorem reg_raiseFault_raw (c : Nat) (masked : Bool) (n : Nat) :
    (raiseFault c masked n addr s).reg pFLT 0x010 = setBit (s.reg pFLT 0x010) c true := by
  unfold raiseFault raiseFaultWith
  show ((((s.setReg pFLT irqRawOff _).setReg pFLT 0x044 _).setReg pFLT 0x048 _).bump pFLT _).reg pFLT irqRawOff = _
  rw [State.bump, reg_put_ne _ _ (by cases masked <;> decide), reg_setReg_ne _ _ (by decide),
    reg_setReg_ne _ _ (by decide), reg_setReg_same]
  rfl

/-- A fault writes no page but FLT. -/
theorem reg_raiseFault_page (c : Nat) (masked : Bool) (n : Nat) {p off : Nat} (hp : p ≠ pFLT) (ho : off < 4096) :
    (raiseFault c masked n addr s).reg p off = s.reg p off := by
  unfold raiseFault raiseFaultWith
  show ((((s.setReg pFLT irqRawOff _).setReg pFLT 0x044 _).setReg pFLT 0x048 _).bump pFLT _).reg p off = _
  have hcount : (if masked then FLT_CNT_MASKED else FLT_CNT_DETECTED).off < 4096 := by cases masked <;> decide
  rw [State.bump, State.put, reg_setReg_page _ _ hp hcount ho, reg_setReg_page _ _ hp (by decide) ho,
    reg_setReg_page _ _ hp (by decide) ho, reg_setReg_page _ _ hp (by decide) ho]

theorem engPage_ne_pFLT (e : EngNo) : engPage e ≠ pFLT := by
  have h := e.isLt
  simp only [engPage, clusterOf, pENG, pFLT]
  omega

/-- The engine halts, its lane is excluded, and class 5 stands. -/
theorem doubleException_halts (e : EngNo) (s : State) :
    ((doubleException e s).eng e).mode = .halted ∧ excluded e (doubleException e s) = true ∧
      ((doubleException e s).reg pFLT 0x010).getLsbD 5 = true := by
  unfold doubleException
  refine ⟨?_, ?_, ?_⟩
  · rw [raiseFault_eng]
    exact (eng_setMode_same e .halted s).1
  · rw [excluded, reg_raiseFault_page _ _ _ (engPage_ne_pFLT e) (by decide)]
    have hset : excluded e (setExcl e (setMode e .halted s)) = true := by
      rw [excluded_iff_bit]
      exact bit_put_one (Nat.lt_trans (Nat.mod_lt _ (by decide)) (by decide)) rfl
    exact hset
  · rw [reg_raiseFault_raw]
    exact getLsbD_setBit_same _ (by decide)

/-! ## Entry (R110) -/

theorem exception_supervisor (h : (s.eng e).job = none) :
    exception e code detail addr s =
      enterException e code detail (if 3 ≤ code ∧ code ≤ 6 then addr else 0) false s := by
  simp [exception, inTask, h]

theorem enterException_again (hex : (s.eng e).fl.getLsbD 15 = true) :
    enterException e code detail addr imprecise s = doubleException e s := by
  simp [enterException, flEX, hex]

/-- With EX clear only the engine changes. -/
theorem enterException_eq (hex : (s.eng e).fl.getLsbD 15 = false) :
    enterException e code detail addr imprecise s = s.setEng e { s.eng e with
      epc := (s.eng e).pc, efl := (s.eng e).fl, fl := setBit (setBit (s.eng e).fl 13 false) 15 true,
      ecause := ecauseWord code detail imprecise, eaddr := addr, pc := (s.eng e).vbase } :=
  if_neg (by rw [flEX, hex]; exact Bool.false_ne_true)

/-- The engine enters as the state before the exception had it, but for a remote error that has been taken. -/
theorem enteredException (hex : (s.eng e).fl.getLsbD 15 = false) (hd : detail < 65536)
    (hu : u.eng e = { s.eng e with remErr := (u.eng e).remErr }) :
    EnteredException e code detail addr imprecise s (enterException e code detail addr imprecise u) ∧
      ((enterException e code detail addr imprecise u).eng e).remErr = (u.eng e).remErr := by
  have hexu : (u.eng e).fl.getLsbD 15 = false := by rw [hu]; exact hex
  rw [enterException_eq hexu]
  simp only [EnteredException, eng_setEng_same, ecauseWord, Nat.mod_eq_of_lt hd, and_true]
  rw [hu]

/-- An exception of an instruction changes the engine, and the caches and the fabric as its fetch does. -/
theorem onlyEngine_enterException (hex : (s.eng e).fl.getLsbD 15 = false) :
    OnlyEngine e s (kept s (enterException e code detail addr imprecise (fetched e s))) := by
  have hexf : ((fetched e s).eng e).fl.getLsbD 15 = false := by rw [fetched_eng]; exact hex
  rw [enterException_eq hexf]
  refine onlyEngine_intro rfl (fun f hf => ?_) ?_
  · rw [eng_setEng_ne _ _ hf, fetched_eng]
  · rw [setEng_txns, fetched_txns]

/-- What an instruction does that raises an exception in supervisor mode. -/
theorem completes_exception {c : Instr} (hc : exec c s = ok s (exception e code detail 0 (fetched e s)))
    (hjob : (s.eng e).job = none) (hd : detail < 65536) :
    if (s.eng e).fl.getLsbD 15 then Completes c s fun t => (t.eng e).mode = .halted ∧ excluded e t = true ∧
      (t.reg pFLT 0x010).getLsbD 5 = true
    else Completes c s fun t => EnteredException e code detail 0 false s t ∧ (t.eng e).remErr = (s.eng e).remErr ∧
      OnlyEngine e s t := by
  have henter : exception e code detail 0 (fetched e s) = enterException e code detail 0 false (fetched e s) := by
    rw [exception_supervisor (by rw [fetched_eng]; exact hjob), ite_self]
  rw [henter] at hc
  split
  next hex =>
    rw [enterException_again (by rw [fetched_eng]; exact hex)] at hc
    exact completes_ok hc (doubleException_halts e (fetched e s))
  next hex =>
    have hclear : (s.eng e).fl.getLsbD 15 = false := by simpa using hex
    obtain ⟨hentered, hrem⟩ :=
      enteredException (code := code) (addr := 0) (imprecise := false) (u := fetched e s) hclear hd (by rw [fetched_eng])
    exact completes_ok hc ⟨hentered, hrem.trans (by rw [fetched_eng]), onlyEngine_enterException hclear⟩

/-! ## Access errors (R48, R76) -/

section
variable {r : Requester}

/-- FAB's record of an access error keeps the memory and the engines. -/
theorem fabError_keeps : (fabError r kind addr s).mem = s.mem ∧ (fabError r kind addr s).engs = s.engs := by
  unfold fabError
  split
  · exact ⟨rfl, rfl⟩
  · exact ⟨(Reports.raise_put ..).mem, (Reports.raise_put ..).engs⟩

theorem fabError_eng (f : EngNo) : (fabError r kind addr s).eng f = s.eng f := by
  rw [State.eng, fabError_keeps.2, State.eng]

theorem bit_fabError : (fabError r kind addr s).bit pFAB FAB_IRQ_RAW_ACCERR = true := by
  unfold fabError
  split
  next h => exact h
  next =>
    dsimp only
    rw [(Reports.raise_put ..).bit rfl]
    exact bit_put_one (by decide) rfl

/-- The first error is recorded with its address and its kind. -/
theorem reg_fabError (h : s.bit pFAB FAB_IRQ_RAW_ACCERR = false) :
    (fabError r kind addr s).reg pFAB 0x050 = addr ∧ (fabError r kind addr s).reg pFAB 0x054 =
      word (kind * 2 ^ 13 + r.dom.toNat * 2 ^ 9 + (if r.sup then 256 else 0) + r.eng.val) := by
  unfold fabError
  rw [if_neg (by simp [h])]
  dsimp only
  rw [(Reports.raise_put ..).reg rfl, (Reports.raise_put ..).reg rfl, reg_put_ne _ _ (by decide),
    reg_put_ne _ _ (by decide), reg_setReg_ne _ _ (by decide), reg_setReg_same, reg_setReg_same]
  exact ⟨rfl, rfl⟩

end

theorem accessError_supervisor (h : (s.eng e).job = none) (kind : Nat) (addr : Word) :
    accessError e kind addr s = enterException e xAccess kind addr false (fabError ⟨e, true, 0⟩ kind addr s) := by
  rw [accessError, if_neg (by simp [jobDead, h]), requesterOf, h]
  dsimp only
  rw [exception_supervisor (by rw [fabError_eng]; exact h), if_pos (by decide)]

/-- Settles O15: a first exception enters the handler, a second one halts; FAB's record comes before the entry. -/
theorem exceptionsEnterTheHandler : Obligations.ExceptionsEnterTheHandler := by
  unfold Obligations.ExceptionsEnterTheHandler
  refine ⟨?_, ?_⟩
  · intro x code s h
    dsimp only
    intro hjob
    refine ⟨completes_exception ?_ hjob code.isLt, completes_exception ?_ hjob (by decide),
      completes_exception ?_ hjob (by decide)⟩
    · exact congrArg (ok s) (issue_ready h _)
    · exact congrArg (ok s) (issue_ready h _)
    · refine congrArg (ok s) ((issue_ready h _).trans (if_neg ?_))
      simp [inTask, hjob]
  · intro e a k s hjob hex hmode hrecord
    refine ⟨fun hrem => ?_, fun hrem herr hk => ?_⟩
    · have hc : exec (.remoteAccessException e) s =
          ok s (enterException e xRemote 4 a true (s.setEng e { s.eng e with remErr := none })) := by
        show execRemoteAccessException e s = _
        simp [execRemoteAccessException, hrem, hmode, hrecord, inTask, hjob]
      obtain ⟨hentered, hnone⟩ := enteredException (code := xRemote) (addr := a) (imprecise := true)
        (u := s.setEng e { s.eng e with remErr := none }) hex (by decide : 4 < 65536) (by simp)
      have hcu : ((s.setEng e { s.eng e with remErr := none }).eng e).fl.getLsbD 15 = false := by simpa using hex
      refine completes_ok hc ⟨hentered, hnone.trans (by simp), ?_, ?_⟩
      · rw [enterException_eq hcu]
        rfl
      · rw [enterException_eq hcu]
        rfl
    · have hc : exec (.fetchAccessError e) s =
          ok s (enterException e xAccess k (s.eng e).pc false (fabError ⟨e, true, 0⟩ k (s.eng e).pc s)) := by
        show execFetchAccessError e s = _
        simp [execFetchAccessError, herr, hmode, hrecord, hrem, accessError_supervisor hjob]
      obtain ⟨hentered, -⟩ := enteredException (code := xAccess) (addr := (s.eng e).pc) (imprecise := false)
        (u := fabError ⟨e, true, 0⟩ k (s.eng e).pc s) hex (by omega : k < 65536) (by rw [fabError_eng])
      have hregs := enterException_eq (code := xAccess) (detail := k) (addr := (s.eng e).pc) (imprecise := false)
        (s := fabError ⟨e, true, 0⟩ k (s.eng e).pc s) (by rw [fabError_eng]; exact hex)
      refine completes_ok hc ⟨hentered, ?_, ?_, fun hfirst => ?_⟩
      · rw [hregs]
        exact bit_fabError
      · rw [hregs]
        exact fabError_keeps.1
      · rw [hregs]
        obtain ⟨haddr, hsrc⟩ := reg_fabError (r := ⟨e, true, 0⟩) (kind := k) (addr := (s.eng e).pc) hfirst
        refine ⟨haddr, hsrc.trans ?_⟩
        simp

end Sys2Proof.Machine
end

section
/-! The start of the module after a reset: what each of its parts leaves alone (R61, R421, R427; O21). -/

namespace Sys2Proof.Machine

open Reg

/-! ## What the start of the parts leaves alone -/

/-- The registers that show a reset: RSTCAUSE of both dies, and the straps. -/
def resetRegs : List (Nat × Nat) := [(pSYS, 0x04C), (pMSYS, 0x04C), (pMSYS, 0x050)]

/-- The register at `off` of page `p` shows nothing of a reset; from page 65 on none does. -/
def resetApart (p off : Nat) : Bool := Nat.ble 65 p || resetRegs.all fun x => regKey x.1 x.2 != regKey p off

theorem regKey_ne_reset {p off : Nat} (h : resetApart p off = true) {x : Nat × Nat} (hx : x ∈ resetRegs) :
    regKey x.1 x.2 ≠ regKey p off := by
  simp only [resetApart, Bool.or_eq_true, Nat.ble_eq, List.all_eq_true, bne_iff_ne] at h
  rcases h with hp | ha
  · have hlt : regKey x.1 x.2 < 1024 * 65 := (by decide : ∀ x ∈ resetRegs, regKey x.1 x.2 < 1024 * 65) x hx
    simp only [regKey] at hlt ⊢
    omega
  · exact ha x hx

/-- The counts, the hold of the module and the registers that show its reset are as they were. -/
structure ResetShown (a s : State) : Prop where
  mtb : s.mtb = a.mtb
  replica : s.replica = a.replica
  held : s.power.held = a.power.held
  regs : ∀ x ∈ resetRegs, s.reg x.1 x.2 = a.reg x.1 x.2

namespace ResetShown
variable {a s t : State}

theorem refl : ResetShown a a := ⟨Eq.refl _, Eq.refl _, Eq.refl _, fun _ _ => Eq.refl _⟩

theorem trans (h : ResetShown a s) (h' : ResetShown s t) : ResetShown a t where
  mtb := h'.mtb.trans h.mtb
  replica := h'.replica.trans h.replica
  held := h'.held.trans h.held
  regs x hx := (h'.regs x hx).trans (h.regs x hx)

theorem bit (h : ResetShown a s) {p : Nat} {f : Fld} (hx : (p, f.off) ∈ resetRegs) : s.bit p f = a.bit p f := by
  rw [State.bit, State.g, h.regs _ hx, State.bit, State.g]

theorem ite {c : Prop} [Decidable c] (h : ResetShown a s) (h' : ResetShown a t) : ResetShown a (if c then s else t) := by
  split <;> assumption

theorem ifThen {c : Prop} [Decidable c] (h : ResetShown a s) (ht : ResetShown s t) :
    ResetShown a (if c then t else s) := ite (h.trans ht) h

theorem ifElse {c : Prop} [Decidable c] (h : ResetShown a s) (ht : ResetShown s t) :
    ResetShown a (if c then s else t) := ite h (h.trans ht)

theorem forAll {f : α → State → State} (l : List α) (h : ResetShown a s) (hf : ∀ x s, ResetShown s (f x s)) :
    ResetShown a (forAll l f s) := by
  induction l generalizing s with
  | nil => exact h
  | cons x l ih => exact ih (h.trans (hf x s))

theorem foldl {f : State → α → State} {l : List α} (h : ResetShown a s)
    (hf : ∀ x ∈ l, ∀ s, ResetShown s (f s x)) : ResetShown a (l.foldl f s) := by
  induction l generalizing s with
  | nil => exact h
  | cons x l ih => exact ih (h.trans (hf x List.mem_cons_self s)) fun y hy => hf y (List.mem_cons_of_mem x hy)

theorem setReg {p off : Nat} {w : Word} (h : ResetShown a s) (hk : resetApart p off = true) :
    ResetShown a (s.setReg p off w) :=
  { h with regs := fun x hx => (reg_setReg_ne s w (regKey_ne_reset hk hx)).trans (h.regs x hx) }

theorem put {p : Nat} {f : Fld} {v : Nat} (h : ResetShown a s) (hk : resetApart p f.off = true) :
    ResetShown a (s.put p f v) := h.setReg hk

theorem putBit {p : Nat} {f : Fld} {b : Bool} (h : ResetShown a s) (hk : resetApart p f.off = true) :
    ResetShown a (s.putBit p f b) := h.put hk

theorem bump {p : Nat} {f : Fld} {n : Nat} (h : ResetShown a s) (hk : resetApart p f.off = true) :
    ResetShown a (s.bump p f n) := h.put hk

theorem incr {p : Nat} {f : Fld} (h : ResetShown a s) (hk : resetApart p f.off = true) : ResetShown a (s.incr p f) :=
  h.put hk

theorem setLink {d : Die} {l : LinkDie} (h : ResetShown a s) : ResetShown a (s.setLink d l) := by
  cases d <;> exact { h with }

theorem setFlash {x : Flash} (h : ResetShown a s) : ResetShown a (s.setFlash x) := { h with }
theorem setMeter {x : Meter} (h : ResetShown a s) : ResetShown a (s.setMeter x) := { h with }
theorem setVault {x : Vault} (h : ResetShown a s) : ResetShown a (s.setVault x) := { h with }
theorem setEvr {x : Recorder} (h : ResetShown a s) : ResetShown a (s.setEvr x) := { h with }

/-! ### Events and faults -/

/-- What only reports shows no reset. -/
theorem reports (h : ResetShown a s) (hs : Still (fun _ => true) s t) (hr : Reports s t) : ResetShown a t :=
  h.trans ⟨hs.mtb, hs.replica, hs.power, fun x hx =>
    hr.reg ((by decide : ∀ x ∈ resetRegs, reported (regKey x.1 x.2) = false) x hx)⟩

theorem raiseWith {p : Nat} {f : Fld} {always : Bool} {dom : Dom} {data : List Byte} (h : ResetShown a s)
    (hk : resetApart p f.off = true) : ResetShown a (raiseWith p f always dom data s) :=
  (h.put hk).reports (.ifThen (.ifThen .refl (.pageEvent .refl)) (.syncLevels .refl))
    (.ifThen (.ifThen .refl (.pageEvent .refl)) (.syncLevels .refl))

theorem raise {p : Nat} {f : Fld} (h : ResetShown a s) (hk : resetApart p f.off = true) : ResetShown a (raise p f s) :=
  h.raiseWith hk

theorem raiseLog {p : Nat} {f : Fld} {data : List Byte} (h : ResetShown a s) (hk : resetApart p f.off = true) :
    ResetShown a (raiseLog p f data s) := h.raiseWith hk

theorem muslinFault {p c : Nat} {masked : Bool} {addr : Word} (h : ResetShown a s) :
    ResetShown a (muslinFault p c masked addr s) := h.reports (.muslinFault .refl) (.muslinFault .refl)

theorem otherEvent {p : Nat} {dom : Dom} {data : List Byte} (h : ResetShown a s) :
    ResetShown a (otherEvent p dom data s) := h.reports (.pageEvent .refl) (.pageEvent .refl)

/-! ### Recorder, counters and vault -/

theorem eccReport {gs : List Nat} (h : ResetShown a s) : ResetShown a (eccReport gs s) := by
  refine h.forAll gs fun g s => ?_
  split
  · exact refl
  all_goals exact muslinFault (raise (put (put (bump refl rfl) rfl) rfl) rfl)

theorem askFlash {prec : Nat} {w : FlashWork} {u : FlashUser} (h : ResetShown a s) : ResetShown a (askFlash prec w u s) :=
  h.setFlash

theorem recorderReset (h : ResetShown a s) : ResetShown a (recorderReset s) := put (setReg (setEvr h) rfl) rfl

theorem syncCounter {n : Nat} (h : ResetShown a s) : ResetShown a (syncCounter n s) :=
  ifThen (putBit (put (put h rfl) rfl) rfl) (setReg refl rfl)

theorem repairCounter {n : Nat} (h : ResetShown a s) : ResetShown a (repairCounter n s) := by
  unfold Machine.repairCounter
  extract_lets owe erase
  have howe {t : State} (ht : ResetShown a t) : ResetShown a (owe t) := raise ht.setFlash rfl
  have herase {i : Nat} {last : Bool} {t : State} (ht : ResetShown a t) : ResetShown a (erase i last t) :=
    ite ht ht.askFlash
  split
  · exact ite (herase (askFlash (herase (howe h)))) (ite h (herase (howe h)))
  · exact askFlash (herase (herase (muslinFault (howe h))))

theorem settleCounters (h : ResetShown a s) : ResetShown a (settleCounters s) :=
  forAll _ (forAll _ (forAll _ (eccReport (h.forAll _ fun _ _ => syncCounter refl)) fun _ _ => repairCounter refl)
    fun _ _ => syncCounter refl) fun _ _ => putBit refl rfl

theorem vaultCheck (h : ResetShown a s) : ResetShown a (vaultCheck s) :=
  put (forAll _ (ifElse (setVault (forAll _ (eccReport h.setVault) fun _ _ =>
    ifThen refl (muslinFault (raiseLog refl rfl)))) (raise refl rfl)) fun _ _ => ifElse refl (askFlash refl)) rfl

/-! ### Metering and retain areas -/

theorem loadConfig (h : ResetShown a s) : ResetShown a (loadConfig s) :=
  ite h (ite (h.foldl fun x hx _ => setReg refl
    ((by decide +kernel : ∀ x ∈ committedRegs.zipIdx, resetApart x.1.1 x.1.2.1 = true) x hx)) h)

theorem restoreBytes {b : List Byte} (h : ResetShown a s) : ResetShown a (restoreBytes b s) :=
  forAll _ (h.forAll _ fun _ _ => forAll _ (forAll _ (setMeter refl) fun _ _ => setReg refl rfl) fun _ _ =>
    setReg (setReg refl rfl) rfl) fun _ _ => put (setMeter refl) rfl

theorem writeDemand {k : FeederNo} {imp exp ticks sec : Nat} {counts : Bool} (h : ResetShown a s) :
    ResetShown a (writeDemand k imp exp ticks sec counts s) :=
  ifThen (ifThen (put (put h rfl) rfl) (put (put refl rfl) rfl)) (put (put refl rfl) rfl)

theorem closeInterval {ticks sec t : Nat} {nextPartial : Bool} (h : ResetShown a s) :
    ResetShown a (closeInterval ticks sec t nextPartial s) :=
  raise (setMeter (h.forAll _ fun _ _ => setMeter (putBit (incr (writeDemand refl) rfl) rfl))) rfl

theorem startSampling (h : ResetShown a s) : ResetShown a (startSampling s) :=
  have hdemand {t : State} (ht : ResetShown a t) : ResetShown a (resumeDemand t) :=
    ite (setMeter (setMeter ht)) (ifElse (setMeter ht) (closeInterval refl))
  ite h (hdemand (put (put (setMeter h) rfl) rfl))

theorem meterStart (h : ResetShown a s) : ResetShown a (meterStart s) := by
  unfold Machine.meterStart
  extract_lets mine checked loaded restored due
  have hloaded : ResetShown a loaded := loadConfig (eccReport h)
  have hrestored : ResetShown a restored := by
    unfold restored
    split
    · exact ifThen (setMeter (put (restoreBytes hloaded) rfl)) (otherEvent (put refl rfl))
    · exact hloaded
  exact ifThen (setMeter hrestored) (startSampling refl)

theorem retainSettle (h : ResetShown a s) : ResetShown a (retainSettle s) :=
  putBit (putBit (forAll _ (putBit (putBit (setFlash (setFlash h)) rfl) rfl) fun _ _ => askFlash refl) rfl) rfl

/-! ### The links and the halves -/

theorem toTrain {d : Die} (h : ResetShown a s) : ResetShown a (toTrain d s) := by
  unfold Machine.toTrain
  exact setLink (put (put h (by cases d <;> rfl)) (by cases d <;> rfl))

theorem syncSupv (h : ResetShown a s) : ResetShown a (syncSupv s) :=
  h.forAll _ fun e _ => put refl ((by decide : ∀ e : EngNo, resetApart (engPage e) 0x00C = true) e)

theorem startHalves (h : ResetShown a s) : ResetShown a (startHalves s) :=
  putBit (putBit (syncSupv (put (put { h with } rfl) rfl)) rfl) rfl

end ResetShown

end Sys2Proof.Machine
end

section
/-! Resets of the module, and the reset pin (R61, R421, R427; O21). -/

namespace Sys2Proof.Machine

open Reg

/-! ## The start of the module -/

/-- `t` is the module as it starts: its counts and RSTCAUSE are those of `s`, the straps are the levels at the pins of
`s`, both halves are in ROM with the releases held, and both links train. -/
structure Started (s t : State) : Prop where
  mtb : t.mtb = s.mtb
  replica : t.replica = s.replica
  held : t.power.held = s.power.held
  sysCause : t.reg pSYS 0x04C = s.reg pSYS 0x04C
  msysCause : t.reg pMSYS 0x04C = s.reg pMSYS 0x04C
  recov : t.bit pMSYS MSYS_STRAP_RECOV = s.pins.recov
  pinen : t.bit pMSYS MSYS_STRAP_PRF_PINEN = s.pins.pinen
  faildir : t.bit pMSYS MSYS_STRAP_FAILDIR = s.pins.faildir
  east : t.boot.east = romStart false s.mtb
  west : t.boot.west = romStart false s.mtb
  holdE : t.bit pSCH SCH_CTRL_HOLDE = true
  holdW : t.bit pSCH SCH_CTRL_HOLDW = true
  damask : t.linkState .damask = stTrain
  muslin : t.linkState .muslin = stTrain

/-- The straps as sampled; the rest of the reset's registers is as before. -/
theorem sampleStraps_straps (s : State) :
    (sampleStraps s).bit pMSYS MSYS_STRAP_RECOV = s.pins.recov ∧
      (sampleStraps s).bit pMSYS MSYS_STRAP_PRF_PINEN = s.pins.pinen ∧
      (sampleStraps s).bit pMSYS MSYS_STRAP_FAILDIR = s.pins.faildir := by
  unfold sampleStraps showStraps syncPinen
  refine ⟨?_, ?_, ?_⟩
  · rw [bit_putBit_apart (by decide), bit_putBit_apart (by decide), bit_putBit_apart (by decide),
      bit_putBit_same (by decide) rfl]
  · rw [bit_putBit_apart (by decide), bit_putBit_apart (by decide), bit_putBit_same (by decide) rfl]
  · rw [bit_putBit_apart (by decide), bit_putBit_same (by decide) rfl]

theorem sampleStraps_reg (s : State) {p off : Nat} (hm : regKey p off ≠ regKey pMSYS 0x050)
    (hp : regKey p off ≠ regKey pPRF PRF_STAT_PINEN.off) : (sampleStraps s).reg p off = s.reg p off := by
  unfold sampleStraps showStraps syncPinen State.putBit
  rw [reg_put_ne _ _ hp, reg_put_ne _ _ hm, reg_put_ne _ _ hm, reg_put_ne _ _ hm]

theorem startHalves_eq (s : State) : startHalves s = syncProt (syncSupv (romsStarted s)) := rfl

theorem startHalves_boot (s : State) : (startHalves s).boot = (romsStarted s).boot := by
  rw [startHalves_eq, syncSupv_regs]
  simp only [syncProt, putBit_boot]

theorem startHalves_quiet (s : State) : Quiet (romsStarted s) (startHalves s) := .syncProt (.syncSupv .refl)

/-- The halves' start leaves the links. -/
theorem linkState_startHalves (d : Die) (s : State) : (startHalves s).linkState d = s.linkState d := by
  have hsupv (u : State) : (syncSupv u).linkState d = u.linkState d := by
    unfold syncSupv
    induction allEngines generalizing u with
    | nil => rfl
    | cons e l ih =>
      refine (ih _).trans (g_put_ne _ _ ?_)
      cases d
      · exact (by decide : ∀ e : EngNo, regKey pDDL DDL_STAT_STATE.off ≠ regKey (engPage e) 0x00C) e
      · exact (by decide : ∀ e : EngNo, regKey pDDLM DDL_STAT_STATE.off ≠ regKey (engPage e) 0x00C) e
  have hprot (u : State) : (syncProt u).linkState d = u.linkState d := by
    unfold syncProt State.putBit State.linkState
    rw [g_put_ne _ _ (by cases d <;> decide), g_put_ne _ _ (by cases d <;> decide)]
  rw [startHalves_eq, hprot, hsupv, State.linkState, g_romsStarted, g_put_ne _ _ (by cases d <;> decide),
    g_put_ne _ _ (by cases d <;> decide)]
  rfl

theorem linkState_toTrain_other {d : Die} (s : State) : (toTrain d s).linkState d.other = s.linkState d.other := by
  rw [toTrain, linkState_setLink, linkState_put_other _ _ _ _ (by decide), linkState_put_other _ _ _ _ (by decide)]

theorem started_moduleStart (s : State) : Started s (moduleStart s) := by
  obtain ⟨hrecov, hpinen, hfaildir⟩ := sampleStraps_straps s
  unfold moduleStart
  dsimp only
  generalize hu : toTrain .damask (toTrain .muslin (retainSettle (meterStart (vaultCheck (settleCounters (recorderReset
    (sampleStraps s))))))) = u
  have hsame : ResetShown (sampleStraps s) u := hu ▸
    .toTrain (.toTrain (.retainSettle (.meterStart (.vaultCheck (.settleCounters (.recorderReset .refl))))))
  have hshown : ResetShown (sampleStraps s) (startHalves u) := hsame.startHalves
  have hquiet := (startHalves_quiet u).ctl
  exact {
    mtb := hshown.mtb
    replica := hshown.replica
    held := hshown.held
    sysCause := (hshown.regs (pSYS, 0x04C) (by decide)).trans (sampleStraps_reg s (by decide) (by decide))
    msysCause := (hshown.regs (pMSYS, 0x04C) (by decide)).trans (sampleStraps_reg s (by decide) (by decide))
    recov := (hshown.bit (by decide)).trans hrecov
    pinen := (hshown.bit (by decide)).trans hpinen
    faildir := (hshown.bit (by decide)).trans hfaildir
    east := by rw [startHalves_boot]; exact congrArg (romStart false) hsame.mtb
    west := by rw [startHalves_boot]; exact congrArg (romStart false) hsame.mtb
    holdE := by
      rw [bit_of_ctl hquiet (by decide), State.bit, g_romsStarted, ← State.bit, bit_put_fieldsApart (by decide)]
      exact bit_put_one (by decide) rfl
    holdW := by
      rw [bit_of_ctl hquiet (by decide), State.bit, g_romsStarted, ← State.bit]
      exact bit_put_one (by decide) rfl
    damask := by rw [linkState_startHalves, ← hu, linkState_toTrain]
    muslin := by
      rw [linkState_startHalves, ← hu]
      exact (linkState_toTrain_other (d := .damask) _).trans (linkState_toTrain .muslin _) }

/-! ## Resets -/

/-- The module has started with both counts at 0, and its cause stands on both dies. -/
structure StartedFor (cause : Nat) (t : State) : Prop where
  mtb : t.mtb = 0
  replica : t.replica = 0
  east : t.boot.east = romStart false 0
  west : t.boot.west = romStart false 0
  holdE : t.bit pSCH SCH_CTRL_HOLDE = true
  holdW : t.bit pSCH SCH_CTRL_HOLDW = true
  sysCause : t.reg pSYS 0x04C = word (2 ^ cause)
  msysCause : t.reg pMSYS 0x04C = word (2 ^ cause)
  damask : t.linkState .damask = stTrain
  muslin : t.linkState .muslin = stTrain

theorem Started.startedFor {cause : Nat} {s u t : State} (h : Started u t)
    (hu : ResetShown (setCause cause (moduleBase s)) u) : StartedFor cause t where
  mtb := h.mtb.trans hu.mtb
  replica := h.replica.trans hu.replica
  east := h.east.trans (congrArg (romStart false) hu.mtb)
  west := h.west.trans (congrArg (romStart false) hu.mtb)
  holdE := h.holdE
  holdW := h.holdW
  sysCause := by
    rw [h.sysCause, hu.regs (pSYS, 0x04C) (by decide), setCause, reg_setReg_ne _ _ (by decide), reg_setReg_same]
  msysCause := by rw [h.msysCause, hu.regs (pMSYS, 0x04C) (by decide), setCause, reg_setReg_same]
  damask := h.damask
  muslin := h.muslin

theorem startedFor_moduleResetNow (cause : Nat) (saved : Bool) (s : State) :
    StartedFor cause (moduleResetNow cause false saved s) :=
  (started_moduleStart _).startedFor (.put (.putBit .refl rfl) rfl)

/-- A module reset that nothing makes wait begins at once. -/
theorem moduleReset_now {cause : Nat} {low : Bool} {s : State} (hruns : muslinRuns s = true)
    (hheld : s.power.held = false) (hplan : planRuns s = false) :
    moduleReset cause low s = moduleResetNow cause low false s := by
  simp [moduleReset, hruns, hheld, hplan]

/-- Muslin has nothing to report while its link trains. -/
theorem syncLevels_training {s : State} (h : s.linkState .muslin = stTrain) : syncLevels s = s := by
  have hdown : s.linkUp .muslin = false := by rw [State.linkUp, h]; rfl
  simp [syncLevels, hdown]

/-- Firmware's write of MODRST at either die, with the lock open, resets the module. -/
theorem fieldCmd_modrst {r : Requester} {d : Die} {p : Nat} {s : State}
    (hp : p = match d with | .damask => pSYS | .muslin => pMSYS) (h : FirmwareUnlocked r p s)
    (hruns : muslinRuns s = true) (hheld : s.power.held = false) (hplan : planRuns s = false) :
    ∃ u, fieldCmd r p SYS_CTRL_MODRST 1 s = moduleResetNow causeSw false false u := by
  obtain ⟨hfirmware, hlock⟩ := h
  have hplan' : planRuns (closeLock p s) = false := by
    rw [planRuns, closeLock, bit_put_fieldsApart (by subst hp; cases d <;> decide)]
    exact hplan
  have hruns' : muslinRuns (closeLock p s) = true := by
    rw [muslinRuns, hplan] at hruns
    rw [muslinRuns, hplan']
    exact hruns
  have hreset : sysWrite p 0x008 ⟨r, SYS_CTRL_MODRST.ins (s.reg p 0x008) 1, true⟩ (closeLock p s) =
      moduleResetNow causeSw false false (closeLock p s) := by
    rw [sysWrite, if_pos rfl, fieldWord_same (by decide) rfl, Bool.and_self, if_pos rfl,
      moduleReset_now hruns' hheld hplan']
  refine ⟨closeLock p s, ?_⟩
  rw [fieldCmd, writeCmd_firmware hfirmware, show SYS_CTRL_MODRST.off = 0x008 from rfl,
    regWrite_block _ (.inl rfl) fun u => Bool.and_eq_false_iff.2 (.inr (by subst hp; cases d <;> decide)),
    lockUsed, hlock, if_pos rfl]
  cases d
  · subst hp
    exact hreset
  · subst hp
    rw [if_pos (by decide)]
    show syncLevels (sysWrite pMSYS 0x008 _ _) = _
    rw [hreset, syncLevels_training (startedFor_moduleResetNow ..).muslin]

theorem mode_holdModule (s : State) (e : EngNo) : ((holdModule s).eng e).mode = .idle :=
  (by decide : ∀ e : EngNo, (tget engDefault [(0, engStopped), (32, engStopped)] e.val).mode = .idle) e

theorem StartedFor.kept {cause : Nat} {s t : State} (h : StartedFor cause t) : StartedFor cause (kept s t) := { h with }

/-- A command that ends in a module start meets the clauses of the obligation. -/
theorem completes_startedFor {c : Instr} {cause : Nat} {s t : State} (hc : exec c s = ok s t) (h : StartedFor cause t) :
    Completes c s fun t =>
      t.mtb = 0 ∧ t.replica = 0 ∧ t.boot.east = romStart false 0 ∧ t.boot.west = romStart false 0 ∧
      t.bit pSCH SCH_CTRL_HOLDE = true ∧ t.bit pSCH SCH_CTRL_HOLDW = true ∧
      t.reg pSYS 0x04C = word (2 ^ cause) ∧ t.reg pMSYS 0x04C = word (2 ^ cause) ∧
      t.linkState .damask = stTrain ∧ t.linkState .muslin = stTrain :=
  have hk : StartedFor cause (Machine.kept s t) := h.kept
  completes_ok hc ⟨hk.mtb, hk.replica, hk.east, hk.west, hk.holdE, hk.holdW, hk.sysCause, hk.msysCause, hk.damask,
    hk.muslin⟩

theorem Started.kept {s u t : State} (h : Started u t) : Started u (kept s t) := { h with }

/-- The module that has been held, as its release finds it: both counts at 0, no engine run yet, the pins as they are. -/
def released (x : Straps) (s : State) : State :=
  setPins x { s with
    power := { s.power with held := false }, engs := [], mtb := 0, replica := 0, chr := { s.chr with corrMtb := 0 } }

theorem completes_resetRelease {x : Straps} {s : State} (h : s.power.held = true) :
    Completes (.resetRelease x) s (Started (released x s)) :=
  completes_ok (t := moduleStart (released x s)) (congrArg (ok s) (if_pos h)) (started_moduleStart _).kept

/-- A module reset with RESET_N still low ends in the held module. -/
theorem completes_moduleReset_held {x : Straps} {s : State} (hruns : muslinRuns s = true)
    (hheld : s.power.held = false) (hplan : planRuns s = false) :
    Completes (.moduleReset true x) s fun t => ∃ u, t = kept s (holdModule u) :=
  completes_ok (congrArg (ok s) (moduleReset_now (s := setPins x s) hruns hheld hplan)) ⟨_, rfl⟩

/-- Settles O21: each reset ends in a start of the module, which keeps its counts, its cause and its straps. -/
theorem resetPinRunsTheModule : Obligations.ResetPinRunsTheModule := by
  unfold Obligations.ResetPinRunsTheModule
  refine ⟨?_, ?_⟩
  · intro x lost r d s
    dsimp only
    refine ⟨completes_startedFor rfl ((started_moduleStart _).startedFor { ResetShown.refl with }), ?_⟩
    intro hruns hheld hplan
    refine ⟨completes_startedFor (congrArg (ok s) ?_) (startedFor_moduleResetNow causePin false (setPins x s)),
      completes_startedFor (congrArg (ok s) (moduleReset_now hruns hheld hplan)) (startedFor_moduleResetNow ..), ?_⟩
    · exact moduleReset_now hruns hheld hplan
    · intro h
      obtain ⟨u, hu⟩ := fieldCmd_modrst rfl h hruns hheld hplan
      refine completes_startedFor (t := moduleResetNow causeSw false false u) ?_ (startedFor_moduleResetNow ..)
      cases d
      · exact congrArg (ok s) hu
      · exact congrArg (ok s) hu
  · intro x s
    refine ⟨fun hruns hheld hplan => ?_, fun hheld => ?_⟩
    · obtain ⟨t, ht, u, rfl⟩ := completes_moduleReset_held (x := x) hruns hheld hplan
      exact ⟨_, ht, rfl, mode_holdModule u⟩
    · obtain ⟨t, ht, h⟩ := completes_resetRelease (x := x) hheld
      exact ⟨t, ht, h.held, h.mtb, h.replica, h.east, h.west, h.recov, h.pinen, h.faildir, h.holdE, h.holdW⟩

end Sys2Proof.Machine
end

section
/-! What a change of an engine's mode leaves alone, and an instruction of supervisor mode. -/

namespace Sys2Proof.Machine

open Reg

/-- A change of mode writes the engine, and the activity of its cluster. -/
theorem setMode_eq (e : EngNo) (m : EngMode) (s : State) :
    setMode e m s = { s with sched := { s.sched with laneBusy := (setMode e m s).sched.laneBusy },
                             engs := (setMode e m s).engs } := by
  unfold setMode
  dsimp only
  split <;> rfl

@[simp] theorem setMode_mem (e : EngNo) (m : EngMode) (s : State) : (setMode e m s).mem = s.mem := by rw [setMode_eq]

@[simp] theorem setMode_txns (e : EngNo) (m : EngMode) (s : State) : (setMode e m s).txns = s.txns := by rw [setMode_eq]

/-- The engine with its new mode; the start of its activity moves with it. -/
theorem setMode_eng (e : EngNo) (m : EngMode) (s : State) :
    (setMode e m s).eng e = { s.eng e with mode := m, busyFrom := ((setMode e m s).eng e).busyFrom } := by
  unfold setMode
  dsimp only
  simp only [eng_setEng_same]

/-- An instruction of supervisor mode that is executed after its fetch. -/
theorem issue_privileged {x : Issue} {srcs : List Reg} {s : State} (h : Ready x srcs s) (hjob : (s.eng x.eng).job = none)
    (run : State → State) : issue x srcs (privileged x.eng run) s = run (fetched x.eng s) := by
  rw [issue_ready h, privileged, if_neg]
  simp [inTask, hjob]

end Sys2Proof.Machine
end

section
/-! Interrupts that a supervisor engine takes or wakes for, and its return from a handler (R70, R107, R110; O16). -/

namespace Sys2Proof.Machine

open Reg

variable {e : EngNo} {s : State}

/-- An interrupt that is offered is entered with IE set, between two instructions or out of SLEEP (R110). -/
theorem completes_interruptEntry {n : Nat} (hjob : (s.eng e).job = none) (hoffer : offered e s = some n)
    (hmode : (s.eng e).mode = .run ∧ (s.eng e).record = none ∧ (s.eng e).remErr = none ∨ (s.eng e).mode = .sleep)
    (hie : (s.eng e).fl.getLsbD 13 = true) :
    Completes (.interruptEntry e) s fun t =>
      t.eng e = { s.eng e with
        epc := (s.eng e).pc, efl := (s.eng e).fl, fl := setBit (s.eng e).fl 13 false,
        ecause := word (n % 65536 * 65536 + 0x10), eaddr := 0, pc := (s.eng e).vbase + 0x40, mode := .run,
        busyFrom := (t.eng e).busyFrom } ∧ t.regs = s.regs ∧ t.mem = s.mem := by
  have hrun : ((s.eng e).mode == .sleep || ((s.eng e).mode == .run && (s.eng e).record == none &&
      (s.eng e).remErr == none)) = true := by
    rcases hmode with ⟨hm, hrec, hrem⟩ | hm
    · simp [hm, hrec, hrem]
    · simp [hm]
  have hc : exec (.interruptEntry e) s = ok s (setMode e .run (s.setEng e { s.eng e with
      epc := (s.eng e).pc, efl := (s.eng e).fl, fl := setBit (s.eng e).fl flIE false,
      ecause := ecauseWord xInterrupt n false, eaddr := 0, pc := (s.eng e).vbase + 0x40 })) := by
    show execInterruptEntry e s = _
    simp only [execInterruptEntry, hoffer, inTask, hjob, hrun, flIE, hie, Option.isSome_none, Bool.not_false,
      Bool.and_self, if_true]
  refine completes_ok hc ⟨?_, ?_, ?_⟩
  · rw [kept_eng, setMode_eng, eng_setEng_same]
    simp only [ecauseWord, xInterrupt, flIE, Bool.false_eq_true, if_false, Nat.add_zero]
  · exact regs_setMode ..
  · exact setMode_mem ..

/-- With IE clear an interrupt only ends SLEEP (R107). -/
theorem completes_sleepWake {n : Nat} (hoffer : offered e s = some n) (hmode : (s.eng e).mode = .sleep)
    (hie : (s.eng e).fl.getLsbD 13 = false) :
    Completes (.sleepWake e) s fun t =>
      t.eng e = { s.eng e with mode := .run, busyFrom := (t.eng e).busyFrom } ∧ t.regs = s.regs ∧ t.mem = s.mem := by
  have hc : exec (.sleepWake e) s = ok s (setMode e .run s) := by
    show execSleepWake e s = _
    simp only [execSleepWake, hoffer, hmode, flIE, hie, beq_self_eq_true, Bool.not_false, Option.isSome_some,
      Bool.and_self, if_true]
  exact completes_ok hc ⟨setMode_eng .., regs_setMode .., setMode_mem ..⟩

/-- IRET takes PC and FL from EPC and EFL. -/
theorem completes_iret {x : Issue} (h : Ready x [] s) (hjob : (s.eng x.eng).job = none) :
    Completes (.iret x) s fun t =>
      t.eng x.eng = { s.eng x.eng with pc := (s.eng x.eng).epc, fl := (s.eng x.eng).efl &&& 0xFF1F } ∧
        OnlyEngine x.eng s t := by
  refine completes_ok (congrArg (ok s) (issue_privileged h hjob _)) ⟨?_, onlyEngine_intro rfl (fun f hf => ?_) ?_⟩
  · rw [kept_eng, eng_setEng_same, fetched_eng]
  · rw [eng_setEng_ne _ _ hf, fetched_eng]
  · rw [setEng_txns, fetched_txns]

/-- SLEEP stops the engine behind itself. -/
theorem completes_sleep {x : Issue} (h : Ready x [] s) (hjob : (s.eng x.eng).job = none) :
    Completes (.sleep x) s fun t =>
      t.eng x.eng = { s.eng x.eng with
        pc := (s.eng x.eng).pc + 4, mode := .sleep, busyFrom := (t.eng x.eng).busyFrom } ∧
      OnlyFab s t ∧ t.mem = s.mem ∧ ∀ f, f ≠ x.eng → t.eng f = s.eng f := by
  refine completes_ok (congrArg (ok s) (issue_privileged h hjob _)) ⟨?_, fun p off hp ho => ?_, ?_, fun f hf => ?_⟩
  · rw [kept_eng, setMode_eng, advance_eng, fetched_eng]
  · exact (reg_of_regs (regs_setMode ..) p off).trans (fetched_fab x.eng s p off hp ho)
  · exact (setMode_mem ..).trans (fetched_mem x.eng s)
  · rw [kept_eng, eng_setMode_ne _ _ hf, advance_eng_ne _ hf, fetched_eng]

/-- Settles O16: the entry, the wake, IRET and SLEEP each change their engine alone. -/
theorem supervisorGoesOnAndReturns : Obligations.SupervisorGoesOnAndReturns := by
  unfold Obligations.SupervisorGoesOnAndReturns
  refine ⟨fun e n s hjob hoffer => ⟨completes_interruptEntry hjob hoffer, completes_sleepWake hoffer⟩, ?_⟩
  intro x s h hjob
  exact ⟨completes_iret h hjob, completes_sleep h hjob⟩

end Sys2Proof.Machine
end

section
/-! Stores: their bytes in local data, code SRAM and global SRAM, and a live job's word in the work image (R71, R93; O8). -/

namespace Sys2Proof.Machine

open Reg

variable {x : Issue} {e : EngNo} {s t : State} {a : Nat}

/-! ## Bytes of words -/

/-- A stored word lies in memory least significant byte first. -/
theorem rb_ww_inside (s : State) (a : Nat) (w : Word) {i : Nat} (h : i < 4) :
    (s.ww a w).rb (a + i) = w.extractLsb' (8 * i) 8 := by
  simp only [State.ww]
  obtain rfl | rfl | rfl | rfl : i = 0 ∨ i = 1 ∨ i = 2 ∨ i = 3 := by omega
  · rw [rb_wb_ne _ _ (by omega), rb_wb_ne _ _ (by omega), rb_wb_ne _ _ (by omega)]
    exact rb_wb_same ..
  · rw [rb_wb_ne _ _ (by omega), rb_wb_ne _ _ (by omega)]
    exact rb_wb_same ..
  · rw [rb_wb_ne _ _ (by omega)]
    exact rb_wb_same ..
  · exact rb_wb_same ..

/-- The bytes of a word read are those of the memory. -/
theorem extract_rw (s : State) (a : Nat) {i : Nat} (h : i < 4) : (s.rw a).extractLsb' (8 * i) 8 = s.rb (a + i) := by
  obtain rfl | rfl | rfl | rfl : i = 0 ∨ i = 1 ∨ i = 2 ∨ i = 3 := by omega
  all_goals
    apply BitVec.eq_of_getLsbD_eq
    intro k hk
    simp only [State.rw, BitVec.getLsbD_extractLsb', BitVec.getLsbD_append]
    grind

/-- A merged word has the bytes of the value in the place of `a`. -/
theorem mergeWord_inside {size : Nat} (old v : Word) {i : Nat} (hfit : a % 4 + size ≤ 4) (_ : i < size) :
    (mergeWord size a old v).extractLsb' (8 * (a % 4 + i)) 8 = v.extractLsb' (8 * i) 8 := by
  have hfield := Fld.get_ins ⟨0, 8 * (a % 4), 8 * size⟩ old v.toNat (by dsimp only; omega)
  have hpart : (mergeWord size a old v).extractLsb' (8 * (a % 4)) (8 * size) = v.extractLsb' 0 (8 * size) := by
    apply BitVec.eq_of_toNat_eq
    rw [BitVec.extractLsb'_toNat 0 _ v, Nat.shiftRight_zero]
    exact hfield
  have hbyte (w : Word) (lo : Nat) : w.extractLsb' (lo + 8 * i) 8 = (w.extractLsb' lo (8 * size)).extractLsb' (8 * i) 8 := by
    ext k hk
    simp only [BitVec.getElem_extractLsb', BitVec.getLsbD_extractLsb', Nat.add_assoc]
    rw [decide_eq_true (by omega : 8 * i + k < 8 * size), Bool.true_and]
  rw [Nat.mul_add, hbyte, hpart, ← hbyte, Nat.zero_add]

/-- The other bytes of a merged word are the old ones. -/
theorem mergeWord_outside {size : Nat} (old v : Word) {j : Nat} (hfit : a % 4 + size ≤ 4) (hj : j < 4)
    (_ : j < a % 4 ∨ a % 4 + size ≤ j) : (mergeWord size a old v).extractLsb' (8 * j) 8 = old.extractLsb' (8 * j) 8 :=
  BitVec.eq_of_toNat_eq (Fld.get_ins_apart ⟨0, 8 * (a % 4), 8 * size⟩ ⟨0, 8 * j, 8⟩ old v.toNat (by dsimp only; omega)
    (by dsimp only; omega) (by dsimp only; omega))

/-! ## Places of local data, code SRAM and global SRAM (R47, R65) -/

/-- The address lies in a memory whose bytes a store writes in place. -/
abbrev inPlace (a : Nat) : Bool := inLocal a || inCode a || inGsram a

theorem inPlace_elsewhere (h : inPlace a = true) :
    inInstance a = false ∧ inDamaskPages a = false ∧ inMsgRam a = false ∧ inRom a = false ∧ isRemote a = false := by
  simp only [inPlace, inLocal, inCode, inGsram, inInstance, inDamaskPages, inMsgRam, inRom, isRemote, inMuslinPages,
    inFlashWindow, Bool.or_eq_true, Bool.and_eq_true, decide_eq_true_eq, Bool.or_eq_false_iff, Bool.and_eq_false_iff,
    decide_eq_false_iff_not] at h ⊢
  omega

/-- The three memories are apart. -/
theorem inPlace_cases (a : Nat) :
    inLocal a = true ∧ inCode a = false ∨ inLocal a = false ∧ inCode a = true ∨ inLocal a = false ∧ inCode a = false := by
  simp only [inLocal, inCode, Bool.and_eq_true, decide_eq_true_eq, Bool.and_eq_false_iff, decide_eq_false_iff_not]
  omega

/-- The word that holds an address lies in the same memory. -/
theorem aligned_memory (a : Nat) : inLocal (a / 4 * 4) = inLocal a ∧ inCode (a / 4 * 4) = inCode a ∧
    inGsram (a / 4 * 4) = inGsram a := by
  refine ⟨Bool.eq_iff_iff.2 ?_, Bool.eq_iff_iff.2 ?_, Bool.eq_iff_iff.2 ?_⟩
  · simp only [inLocal, Bool.and_eq_true, decide_eq_true_eq]
    omega
  · simp only [inCode, Bool.and_eq_true, decide_eq_true_eq]
    omega
  · simp only [inGsram, Bool.and_eq_true, decide_eq_true_eq]
    omega

theorem inPlace_aligned (h : inPlace a = true) : inPlace (a / 4 * 4) = true := by
  obtain ⟨hlocal, hcode, hgsram⟩ := aligned_memory a
  rw [inPlace, hlocal, hcode, hgsram]
  exact h

theorem codePlace_aligned (e : EngNo) (a : Nat) : codePlace e a = codePlace e (a / 4 * 4) + a % 4 := by
  have hhalf : codeHalf e (a / 4 * 4) = codeHalf e a := if_congr (by omega) rfl rfl
  simp only [codePlace, hhalf]
  omega

/-- The bytes of a word lie side by side. -/
theorem storePlace_aligned (e : EngNo) (a : Nat) : storePlace e a = storePlace e (a / 4 * 4) + a % 4 := by
  obtain ⟨hlocal, hcode, -⟩ := aligned_memory a
  rcases inPlace_cases a with ⟨hl, -⟩ | ⟨hl, hc⟩ | ⟨hl, hc⟩
  · simp only [storePlace, hlocal, hl, if_true]
    omega
  · simp only [storePlace, hlocal, hcode, hl, hc, if_true, Bool.false_eq_true, if_false]
    exact codePlace_aligned e a
  · simp only [storePlace, hlocal, hcode, hl, hc, Bool.false_eq_true, if_false]
    omega

theorem codeWord_inCode (h : inCode a = true) : codeWord e a s = s.rw (codePlace e a) := by
  simp only [inCode, Bool.and_eq_true, decide_eq_true_eq] at h
  rw [codeWord, if_neg (by omega), if_pos h]

theorem plainWord_inPlace (h : inPlace a = true) : plainWord e a s = s.rw (storePlace e (a / 4 * 4)) := by
  obtain ⟨-, -, hmsg, hrom, -⟩ := inPlace_elsewhere h
  obtain ⟨hlocal, hcode, -⟩ := aligned_memory a
  rcases inPlace_cases a with ⟨hl, hc⟩ | ⟨hl, hc⟩ | ⟨hl, hc⟩
  · simp [plainWord, storePlace, hlocal, hrom, hl, hc]
  · simp [plainWord, storePlace, hlocal, hcode, hrom, hl, hc, codeWord_inCode (hcode.trans hc)]
  · simp [plainWord, storePlace, hlocal, hcode, hrom, hmsg, hl, hc]

theorem putWord_inPlace (h : inPlace a = true) (v : Word) : putWord x a v s = s.ww (storePlace x.eng a) v := by
  obtain ⟨hinst, hpages, hmsg, -, -⟩ := inPlace_elsewhere h
  rcases inPlace_cases a with ⟨hl, hc⟩ | ⟨hl, hc⟩ | ⟨hl, hc⟩
  · simp [putWord, storePlace, hinst, hpages, hl, hc]
  · simp [putWord, storePlace, hinst, hpages, hl, hc]
  · simp [putWord, storePlace, hinst, hpages, hmsg, hl, hc]

/-! ## The store (R93) -/

/-- The checks that do not look at the regions of instance space read what a fetch and a grant leave alone. -/
theorem SameChecks.refusal_elsewhere (h : SameChecks e s t) (ha : inInstance a = false) (write : Bool) (size : Nat) :
    Machine.refusal e write size a t = Machine.refusal e write size a s := by
  simp [Machine.refusal, h.regionError, ha]

/-- The state in which an access that follows its instruction's fetch is granted. -/
def accessed (e : EngNo) (a : Nat) (s : State) : State := grant e a (advance e (fetched e s))

theorem sameChecks_accessed (e : EngNo) (a : Nat) (s : State) : SameChecks e s (accessed e a s) :=
  SameChecks.fetched.trans (SameChecks.advance.trans .grant)

theorem grant_eq (e : EngNo) (a : Nat) (s : State) : grant e a s = { s with
    regs := (grant e a s).regs, grants := (grant e a s).grants, fabric := (grant e a s).fabric } := by
  unfold grant
  split
  · rfl
  · exact grantTarget_eq ..

theorem accessed_eq (e : EngNo) (a : Nat) (s : State) : accessed e a s = { s with
    engs := (accessed e a s).engs, icache := (accessed e a s).icache, freed := (accessed e a s).freed,
    regs := (accessed e a s).regs, grants := (accessed e a s).grants, fabric := (accessed e a s).fabric } := by
  rw [accessed, grant_eq, advance_eq, fetched_eq]

theorem accessed_eng (e : EngNo) (a : Nat) (s : State) :
    (accessed e a s).eng e = { s.eng e with pc := (s.eng e).pc + 4 } := by
  rw [accessed, grant_eng, advance_eng, fetched_eng]

theorem accessed_eng_ne {f : EngNo} (a : Nat) (s : State) (h : f ≠ e) : (accessed e a s).eng f = s.eng f := by
  rw [accessed, grant_eng, advance_eng_ne _ h, fetched_eng]

/-- A store writes memory, and its engine goes on. -/
theorem onlyEngineAndMemory_ww (e : EngNo) (a p : Nat) (v : Word) (s : State) :
    OnlyEngineAndMemory e s (kept s ((accessed e a s).ww p v)) := by
  refine ⟨?_, fun f hf => accessed_eng_ne a s hf, (sameChecks_accessed e a s).fab⟩
  show kept s ((accessed e a s).ww p v) = _
  rw [accessed_eq]
  rfl

/-- The word that a store puts in place: the value, or the old word with the value's low bytes. -/
def storedWord (size a : Nat) (old v : Word) : Word := if size = 4 then v else mergeWord size a old v

theorem storedWord_inside {size : Nat} (old v : Word) {i : Nat} (hfit : a % 4 + size ≤ 4) (hi : i < size) :
    (storedWord size a old v).extractLsb' (8 * (a % 4 + i)) 8 = v.extractLsb' (8 * i) 8 := by
  unfold storedWord
  split
  · rw [show a % 4 = 0 by omega, Nat.zero_add]
  · exact mergeWord_inside old v hfit hi

theorem storedWord_outside {size : Nat} (old v : Word) {j : Nat} (hfit : a % 4 + size ≤ 4) (hj : j < 4)
    (hout : j < a % 4 ∨ a % 4 + size ≤ j) : (storedWord size a old v).extractLsb' (8 * j) 8 = old.extractLsb' (8 * j) 8 := by
  rw [storedWord, if_neg (by omega)]
  exact mergeWord_outside old v hfit hj hout

/-- An access that the checks pass is aligned. -/
theorem aligned_of_granted {write : Bool} {size : Nat} (h : Granted e write size a s) : a % size = 0 := by
  by_contra hne
  have hnone := h.1
  rw [refusal_misaligned hne] at hnone
  cases hnone

/-- An aligned access stays in one word. -/
theorem fits_word {size : Nat} (hsize : size = 1 ∨ size = 2 ∨ size = 4) (ha : a % size = 0) : a % 4 + size ≤ 4 := by
  rcases hsize with rfl | rfl | rfl
  · omega
  · omega
  · omega

theorem rw_of_mem (h : t.mem = s.mem) (p : Nat) : t.rw p = s.rw p := by simp only [State.rw, State.rb, h]

/-- Of a byte or halfword the old word is read as it stands. -/
theorem mergeRead_inPlace (hupset : x.upset = .none) (h : inPlace a = true) :
    mergeRead x a s = (some (s.rw (storePlace x.eng (a / 4 * 4))), s) := by
  obtain ⟨hinst, -⟩ := inPlace_elsewhere h
  simp [mergeRead, hinst, hupset, plainWord_inPlace h, gsramChecked]

section
variable {size : Nat} {rd ra : Reg} {b : Base} {off : BitVec 15}

/-- A store that passes its checks puts a word into the memory it goes to. -/
theorem store_inPlace (h : ReadyMem x [rd, ra] [(dataAddr x.eng ra b off s).toNat] s)
    (ha : a = (dataAddr x.eng ra b off s).toNat) (hgranted : Granted x.eng true size a s) (hplace : inPlace a = true)
    (hlive : jobDead x.eng s = false) :
    store x size rd ra b off s = (accessed x.eng a s).ww (storePlace x.eng (a / 4 * 4))
      (storedWord size a (s.rw (storePlace x.eng (a / 4 * 4))) (gr x.eng rd s)) := by
  subst ha
  generalize hav : (dataAddr x.eng ra b off s).toNat = a at *
  have haligned : a % size = 0 := aligned_of_granted hgranted
  obtain ⟨hnone, hremote, -, hdom⟩ := hgranted
  obtain ⟨hinst, -⟩ := inPlace_elsewhere hplace
  have hfetched : SameChecks x.eng s (fetched x.eng s) := .fetched
  have haccessed : SameChecks x.eng s (accessed x.eng a s) := sameChecks_accessed ..
  have hpassed : refusal x.eng true size (dataAddr x.eng ra b off s).toNat (fetched x.eng s) = none := by
    rw [hav, hfetched.refusal_elsewhere hinst, hnone]
  rw [store_passed (hav ▸ h) hpassed, hav, fetched_gr, storeTo, if_neg (by simp [hremote])]
  by_cases hsize : size = 4
  · subst hsize
    have haligned : a / 4 * 4 = a := by
      have : a % 4 = 0 := haligned
      omega
    rw [if_pos (.inl rfl), haligned, storedWord, if_pos rfl, writeWord]
    show (if jobDead x.eng (accessed x.eng a s) && _ then accessed x.eng a s else
      if domainRefuses x.eng true a (accessed x.eng a s) then _ else putWord x a _ (accessed x.eng a s)) = _
    rw [haccessed.jobDead, hlive, Bool.false_and, if_neg Bool.false_ne_true, haccessed.domainRefuses, hdom,
      if_neg Bool.false_ne_true]
    exact putWord_inPlace hplace _
  · rw [if_neg (by simp [hsize, hfetched.jobDead, hfetched.domainRefuses, hlive, hdom]),
      mergeRead_inPlace h.1.1 hplace]
    show putWord x _ _ (accessed x.eng a s) = _
    rw [putWord_inPlace (inPlace_aligned hplace), storedWord, if_neg hsize, rw_of_mem (fetched_mem x.eng s)]

/-- SW, SH and SB that pass their checks: the value's low bytes at the address, no other byte, and the next instruction. -/
theorem completes_store {c : Instr} (hc : exec c s = ok s (store x size rd ra b off s)) (hsize : size = 1 ∨ size = 2 ∨ size = 4)
    (h : ReadyMem x [rd, ra] [a] s) (ha : a = (dataAddr x.eng ra b off s).toNat)
    (hgranted : Granted x.eng true size a s) (hplace : inPlace a = true) (hlive : jobDead x.eng s = false) :
    Completes c s fun t => (∀ i, i < size → t.rb (storePlace x.eng a + i) = (gr x.eng rd s).extractLsb' (8 * i) 8) ∧
      MemoryOutside (storePlace x.eng a) size s t ∧ t.eng x.eng = { s.eng x.eng with pc := (s.eng x.eng).pc + 4 } ∧
      OnlyEngineAndMemory x.eng s t := by
  have hfit : a % 4 + size ≤ 4 := fits_word hsize (aligned_of_granted hgranted)
  have hmem (p : Nat) (v : Word) (q : Nat) : (kept s ((accessed x.eng a s).ww p v)).rb q = (s.ww p v).rb q := by
    rw [accessed_eq]
    rfl
  refine completes_ok (hc.trans (congrArg _ (store_inPlace (ha ▸ h) ha hgranted hplace hlive))) ⟨fun i hi => ?_, fun q hq => ?_,
    accessed_eng .., onlyEngineAndMemory_ww ..⟩
  · rw [hmem, storePlace_aligned x.eng a, Nat.add_assoc, rb_ww_inside _ _ _ (by omega)]
    exact storedWord_inside _ _ hfit hi
  · rw [hmem]
    rw [storePlace_aligned x.eng a] at hq
    generalize storePlace x.eng (a / 4 * 4) = p at *
    by_cases hword : q < p ∨ p + 4 ≤ q
    · exact rb_ww_outside _ _ _ _ hword
    · obtain ⟨i, rfl⟩ : ∃ i, q = p + i := ⟨q - p, by omega⟩
      rw [rb_ww_inside _ _ _ (by omega), storedWord_outside _ _ hfit (by omega) (by omega), extract_rw _ _ (by omega)]

end

/-! ## A live job's word of instance space (R71, R128) -/

section

theorem rb_wbytes_outside {q : Nat} (s : State) (p : Nat) (bs : List Byte) (h : q < p ∨ p + bs.length ≤ q) :
    (s.wbytes p bs).rb q = s.rb q := by
  induction bs generalizing s p with
  | nil => rfl
  | cons b bs ih =>
    simp only [List.length_cons] at h
    rw [State.wbytes, ih _ _ (by omega), rb_wb_ne _ _ (by omega)]

theorem rw_wbytes_outside {q : Nat} (s : State) (p : Nat) (bs : List Byte) (h : q + 4 ≤ p ∨ p + bs.length ≤ q) :
    (s.wbytes p bs).rw q = s.rw q := by
  simp only [State.rw]
  rw [rb_wbytes_outside _ _ _ (by omega), rb_wbytes_outside _ _ _ (by omega), rb_wbytes_outside _ _ _ (by omega),
    rb_wbytes_outside _ _ _ (by omega)]

theorem rgnSel_le (k : Nat) (s : State) : rgnSel k s ≤ 1 := by
  have := ((rgnEntry k s).extractLsb' 15 1).isLt
  unfold rgnSel
  omega

/-- The region's entry is no part of CFBUSY. -/
theorem rgnEntry_syncCfBusy (k : Nat) (s : State) : rgnEntry k (syncCfBusy s) = rgnEntry k s := by
  simp only [rgnEntry, syncCfBusy]
  rw [reg_put_ne _ _ (by simp only [regKey, IMG_STAT_CFBUSY]; omega)]

/-- A line copied before the store keeps the region's entry. -/
theorem rgnEntry_settleLine (k l : Nat) (s : State) : rgnEntry k (settleLine l s) = rgnEntry k s := by
  unfold settleLine
  split
  · rw [rgnEntry_syncCfBusy]
    simp only [dropPending, copyLine, rgnEntry, State.reg, wbytes_regs]
  · rfl

theorem baseAddr_congr (h : rgnEntry (regionOf a) t = rgnEntry (regionOf a) s) : baseAddr a t = baseAddr a s := by
  simp only [baseAddr, rgnSel, h]

theorem workAddr_congr (h : rgnEntry (regionOf a) t = rgnEntry (regionOf a) s) : workAddr a t = workAddr a s := by
  simp only [workAddr, rgnSel, h]

/-- The two images of a word are apart. -/
theorem baseAddr_workAddr {b : Nat} (ha : inInstance a = true) (hb : inInstance b = true)
    (hregion : regionOf b = regionOf a) (s : State) :
    baseAddr a s + 4 ≤ workAddr b s ∨ workAddr b s + 32 ≤ baseAddr a s := by
  have hsel := rgnSel_le (regionOf a) s
  simp only [inInstance, Bool.and_eq_true, decide_eq_true_eq] at ha hb
  simp only [baseAddr, workAddr, imageAddr, imageBase, instBase, hregion]
  omega

theorem copied_mem (l : Nat) (u : State) : (syncCfBusy (dropPending l u)).mem = u.mem := rfl

theorem copied_eng (f : EngNo) (l : Nat) (u : State) : (syncCfBusy (dropPending l u)).eng f = u.eng f := rfl

/-- A line copied before the store goes to the work image. -/
theorem base_settleLine (h : inInstance a = true) (s : State) :
    (settleLine (lineOf a) s).rw (baseAddr a s) = s.rw (baseAddr a s) := by
  unfold settleLine
  split
  · have hline : inInstance (instBase + 32 * lineOf a) = true ∧ regionOf (instBase + 32 * lineOf a) = regionOf a := by
      simp only [inInstance, Bool.and_eq_true, decide_eq_true_eq] at h ⊢
      simp only [regionOf, lineOf, instBase]
      omega
    rw [rw_of_mem (copied_mem ..), copyLine, rw_wbytes_outside]
    rw [length_bytes]
    exact baseAddr_workAddr h hline.1 hline.2 s
  · rfl

@[simp] theorem eng_settleLine (f : EngNo) (l : Nat) (s : State) : (settleLine l s).eng f = s.eng f := by
  unfold settleLine
  split
  · rw [copied_eng]
    unfold State.eng
    rw [copyLine, wbytes_engs]
  · rfl

/-! What a line's tag leaves alone. -/

theorem eng_setLineTag (f : EngNo) (l : Nat) (tag : Option LineTag) (s : State) : (setLineTag l tag s).eng f = s.eng f := rfl

theorem rw_setLineTag (p l : Nat) (tag : Option LineTag) (s : State) : (setLineTag l tag s).rw p = s.rw p := rfl

theorem rgnEntry_setLineTag (k l : Nat) (tag : Option LineTag) (s : State) :
    rgnEntry k (setLineTag l tag s) = rgnEntry k s := rfl

theorem lineTag_setLineTag (l : Nat) (tag : Option LineTag) (s : State) : lineTag l (setLineTag l tag s) = tag :=
  tget_tset_same ..

theorem eng_ww (f : EngNo) (p : Nat) (v : Word) (s : State) : (s.ww p v).eng f = s.eng f := rfl

theorem rgnEntry_ww (k p : Nat) (v : Word) (s : State) : rgnEntry k (s.ww p v) = rgnEntry k s := rfl

/-- The store of a live job: the line tagged, and the word in the work image. -/
theorem writeInst_job {tag : LineTag} (htag : tagOf e s = some tag) (v : Word) :
    writeInst e a v s = setLineTag (lineOf a) (some tag) ((settleLine (lineOf a) s).ww (workAddr a (settleLine (lineOf a) s)) v) := by
  simp only [writeInst, htag]

theorem rgnEntry_writeInst {tag : LineTag} (htag : tagOf e s = some tag) (v : Word) (k : Nat) :
    rgnEntry k (writeInst e a v s) = rgnEntry k s := by
  rw [writeInst_job htag, rgnEntry_setLineTag, rgnEntry_ww, rgnEntry_settleLine]

/-- A live job reads its own word back. -/
theorem instWordAt_writeInst {tag : LineTag} (htag : tagOf e s = some tag)
    (haligned : a % 4 = 0) (v : Word) : instWordAt e a (writeInst e a v s) = v := by
  have htag' : tagOf e (writeInst e a v s) = some tag := by
    rw [← htag, writeInst_job htag]
    unfold tagOf
    rw [eng_setLineTag, eng_ww, eng_settleLine]
  have hline : lineTag (lineOf a) (writeInst e a v s) = some tag := by rw [writeInst_job htag, lineTag_setLineTag]
  have hwork : workAddr a (writeInst e a v s) = workAddr a (settleLine (lineOf a) s) :=
    workAddr_congr ((rgnEntry_writeInst htag v _).trans (rgnEntry_settleLine ..).symm)
  rw [instWordAt, show a / 4 * 4 = a by omega, loadPlace, htag', if_pos (by simp [hline]), hwork, writeInst_job htag,
    rw_setLineTag, rw_ww_same]

/-- The base image keeps the committed word. -/
theorem base_writeInst {tag : LineTag} (htag : tagOf e s = some tag) (ha : inInstance a = true) (v : Word) :
    (writeInst e a v s).rw (baseAddr a s) = s.rw (baseAddr a s) := by
  have hapart := baseAddr_workAddr ha ha rfl s
  rw [writeInst_job htag, workAddr_congr (rgnEntry_settleLine ..), rw_setLineTag, rw_ww_ne _ _ (by omega),
    base_settleLine ha]

variable {rd ra : Reg} {b : Base} {off : BitVec 15} {j : JobRun}

/-- The store of a word to instance space that passes its checks. -/
theorem store_instance (h : ReadyMem x [rd, ra] [(dataAddr x.eng ra b off s).toNat] s)
    (ha : a = (dataAddr x.eng ra b off s).toNat) (hgranted : Granted x.eng true 4 a s) (hinst : inInstance a = true)
    (hj : (s.eng x.eng).job = some j) (hlive : j.dead = false) :
    store x 4 rd ra b off s = writeInst x.eng a (gr x.eng rd s) (accessed x.eng a s) := by
  subst ha
  obtain ⟨hnone, hremote, hpage, hdom⟩ := hgranted
  have htask : inTask x.eng s = true := by simp [inTask, hj]
  have haccessed := sameChecks_accessed x.eng (dataAddr x.eng ra b off s).toNat s
  rw [store_passed h ((SameChecks.fetched.refusal htask ..).trans hnone), fetched_gr, storeTo, if_neg (by simp [hremote]),
    if_pos (.inl rfl), writeWord]
  show (if jobDead x.eng (accessed x.eng _ s) && _ then _ else
    if domainRefuses x.eng true _ (accessed x.eng _ s) then _ else putWord x _ _ (accessed x.eng _ s)) = _
  rw [haccessed.jobDead, haccessed.domainRefuses, hdom]
  simp [jobDead, hj, hlive, putWord, hpage, hinst]

theorem completes_sw_instance (h : ReadyMem x [rd, ra] [a] s) (ha : a = (dataAddr x.eng ra b off s).toNat)
    (hgranted : Granted x.eng true 4 a s) (hinst : inInstance a = true) (hj : (s.eng x.eng).job = some j)
    (hlive : j.dead = false) :
    Completes (.sw x rd ra b off) s fun t =>
      instWordAt x.eng a t = gr x.eng rd s ∧ t.rw (baseAddr a t) = s.rw (baseAddr a s) := by
  have haccessed := sameChecks_accessed x.eng a s
  have htag : tagOf x.eng (accessed x.eng a s) = some ⟨j.task, j.job⟩ := by simp [tagOf, haccessed.job, hj, hlive]
  have hbase : baseAddr a (accessed x.eng a s) = baseAddr a s := baseAddr_congr (haccessed.rgnEntry hinst)
  refine completes_ok rfl ?_
  rw [store_instance (ha ▸ h) ha hgranted hinst hj hlive]
  refine ⟨instWordAt_writeInst htag (aligned_of_granted hgranted) _, ?_⟩
  show (writeInst x.eng a _ (accessed x.eng a s)).rw (baseAddr a (writeInst x.eng a _ (accessed x.eng a s))) = _
  rw [baseAddr_congr (rgnEntry_writeInst htag _ _), base_writeInst htag hinst, hbase, rw_of_mem haccessed.mem]

end

/-- Settles O8: a store puts one word in place, merged from the old one where it is narrower; a live job's goes to the
work image with its line tagged. -/
theorem storesPutTheirBytes : Obligations.StoresPutTheirBytes := by
  unfold Obligations.StoresPutTheirBytes
  refine ⟨fun x rd ra b off s h => ⟨?_, ?_, ?_⟩, fun x rd ra b off s j h hgranted hinst hj hlive => ?_⟩
  · exact fun hgranted hplace hlive => completes_store rfl (by decide) h rfl hgranted hplace hlive
  · exact fun hgranted hplace hlive => completes_store rfl (by decide) h rfl hgranted hplace hlive
  · exact fun hgranted hplace hlive => completes_store rfl (by decide) h rfl hgranted hplace hlive
  · exact completes_sw_instance h rfl hgranted hinst hj hlive

end Sys2Proof.Machine
end

section
/-! The completion of a solver operation whose matrix lies above instance space (R73, R75, R102; O12). -/

namespace Sys2Proof.Machine

open Reg

/-- A GEMV on 1 × 1 operands whose matrix lies above instance space, where MAT would have refused it. -/
def strayOp : SolverOp :=
  { eng := 5, rd := 6, fn := .gemv, a := 0x25428000, b := 0x20000000, c := 0x20000100, m := 1, k := 0, n := 1 }

/-- The operation runs at 0x7FFF completed operations, and the place in image 1 of its matrix holds a NaN. -/
def strayState : State :=
  setSolver 0 [strayOp] (((State.reset.setEng 5 { engStopped with mode := .solver }).put pENG ENG_SOLVCNT_COUNT 0x7FFF).ww
    (imageAddr 1 0x25428000) fNaN)

/-- The count comes first. The matrix is of region 21544, whose entry in the region table would stand at the very key
of `ENG_SOLVCNT` (1024·5 + 512 + 10772 = 1024·16 + 20): the count makes image 1 the base, and the product is the NaN's. -/
theorem strayResult : Completes (.solverOpDone 0 .none) strayState fun t => t.rw (imageAddr 0 0x20000100) = fNaN :=
  ⟨_, rfl, by decide +kernel⟩

/-- Before the count image 0 is the base: the matrix is zero, and so is the product. -/
theorem strayOperands : (solverCompute strayOp [instWordAt 5 0x25428000 strayState] [instWordAt 5 0x20000000 strayState]) =
    ([0], true) := by decide +kernel

/-- Refutes O12: nothing in the statement says that the operands at the head of the solver have passed MAT's checks. A
matrix above instance space takes its selector from `ENG_SOLVCNT`, which counts the operation before its operands are
read: the result is that of the other image. -/
theorem not_solverRunsItsQueue : ¬ Obligations.SolverRunsItsQueue := by
  unfold Obligations.SolverRunsItsQueue
  intro h
  obtain ⟨t, ht, -, -, -, -, -, hresult⟩ := h.2 0 strayOp [] strayState (by decide +kernel) (by decide +kernel)
    (by decide +kernel) (congrArg Prod.snd strayOperands) (congrArg (fun r => r.1.length) strayOperands) (by decide) (by decide)
    (by decide +kernel)
  obtain ⟨u, hu, hnan⟩ := strayResult
  obtain rfl : t = u := by
    rw [ht] at hu
    exact Host.Outcome.next.inj hu
  have hzero : t.rw (imageAddr 0 0x20000100) = 0 :=
    (hresult 0 (by decide)).1.trans (congrArg (fun r => r.1.getD 0 0) strayOperands)
  rw [hnan] at hzero
  exact absurd hzero (by decide)

end Sys2Proof.Machine
end

section
/-! What the end of a job, of a scan and of EXECUTE leaves alone: the engines that run no job, the roles, the lanes'
EXCL and state registers, and SCH's record of a failure (R79, R104, R134, R137). -/

namespace Sys2Proof.Machine

open Reg

/-! ## Spared registers -/

/-- Roles, EXCL and the lanes' states of every cluster. -/
def laneKey (k : Nat) : Bool := k == regKey pFAB 0x040 || (16384 ≤ k && k < 24576 && (k % 1024 == 2 || k % 1024 == 3))

/-- The record and the count of failed scans as well. -/
def spared (k : Nat) : Bool := laneKey k || k == regKey pSCH 0x06C || k == regKey pSCH SCH_CNT_FAILS.off

theorem spared_of_laneKey {k : Nat} (h : laneKey k = true) : spared k = true := by simp [spared, h]

theorem spared_lt {k : Nat} (h : spared k = true) : k < 24576 := by
  simp only [spared, laneKey, regKey, pFAB, pSCH, SCH_CNT_FAILS, Bool.or_eq_true, Bool.and_eq_true, beq_iff_eq,
    decide_eq_true_eq] at h
  omega

/-- No register of a task's page is spared. -/
theorem spared_tskPage (n : TaskNo) (off : Nat) : spared (regKey (tskPage n) off) = false := by
  rw [← Bool.not_eq_true]
  intro h
  have := spared_lt h
  simp only [regKey, tskPage, pTask] at this
  omega

/-- No entry of the region table is spared. -/
theorem spared_region {k : Nat} (hk : k ∈ allRegions) : spared (regKey pIMG (0x800 + 4 * (k / 2))) = false := by
  have hlt := List.mem_range.1 hk
  rw [← Bool.not_eq_true]
  simp only [spared, laneKey, regKey, pFAB, pSCH, SCH_CNT_FAILS, Bool.or_eq_true, Bool.and_eq_true, beq_iff_eq]
  omega

theorem spared_taskBits : ∀ off ∈ taskOffs, ∀ n : TaskNo, spared (regKey pSCH (off + 4 * (n.val / 32))) = false := by
  decide

/-- No report writes a spared register. -/
theorem reported_of_spared {k : Nat} (h : spared k = true) : reported k = false := by
  have hreports : ∀ x ∈ reportRegs, spared (regKey x.1 x.2) = false := by decide
  simp only [reported, List.any_eq_false, beq_iff_eq]
  rintro x hx rfl
  rw [hreports x hx] at h
  cases h

/-- Nothing of engine `e`'s page at this offset is spared. -/
theorem spared_engPage {off : Nat} (ho : off < 4096) (hne : off / 4 ≠ 2 ∧ off / 4 ≠ 3) (e : EngNo) :
    spared (regKey (engPage e) off) = false := by
  rw [← Bool.not_eq_true]
  simp only [spared, laneKey, regKey, engPage, pENG, pFAB, pSCH, SCH_CNT_FAILS, clusterOf, Bool.or_eq_true,
    Bool.and_eq_true, beq_iff_eq]
  omega

/-! ## What is spared -/

/-- From `a` to `s` the time base, every engine without a job, and every register of `K` stay. -/
structure Spares (K : Nat → Bool) (a s : State) : Prop where
  mtb : s.mtb = a.mtb
  eng : ∀ e, (a.eng e).job = none → s.eng e = a.eng e
  regs : ∀ k, K k = true → tget regDefault s.regs k = tget regDefault a.regs k

namespace Spares
variable {K : Nat → Bool} {a s t : State}

theorem of_same (hmtb : s.mtb = a.mtb) (hregs : s.regs = a.regs) (hengs : s.engs = a.engs) : Spares K a s :=
  ⟨hmtb, fun e _ => by rw [State.eng, hengs, State.eng], fun k _ => by rw [hregs]⟩

theorem refl : Spares K a a := of_same (Eq.refl _) (Eq.refl _) (Eq.refl _)

theorem trans (h : Spares K a s) (h' : Spares K s t) : Spares K a t where
  mtb := h'.mtb.trans h.mtb
  eng e he := (h'.eng e (by rw [h.eng e he, he])).trans (h.eng e he)
  regs k hk := (h'.regs k hk).trans (h.regs k hk)

/-- What spares the failures' record spares the lanes. -/
theorem lanes (h : Spares spared a s) : Spares laneKey a s := ⟨h.mtb, h.eng, fun k hk => h.regs k (spared_of_laneKey hk)⟩

theorem reg (h : Spares K a s) {p off : Nat} (hk : K (regKey p off) = true) : s.reg p off = a.reg p off := h.regs _ hk

theorem same (h : Spares K a s) (hmtb : t.mtb = s.mtb) (hregs : t.regs = s.regs) (hengs : t.engs = s.engs) :
    Spares K a t := h.trans (of_same hmtb hregs hengs)

theorem ite {c : Prop} [Decidable c] (h : Spares K a s) (h' : Spares K a t) : Spares K a (if c then s else t) := by
  split <;> assumption

theorem ifThen {c : Prop} [Decidable c] (h : Spares K a s) (ht : Spares K s t) : Spares K a (if c then t else s) :=
  ite (h.trans ht) h

theorem ifElse {c : Prop} [Decidable c] (h : Spares K a s) (ht : Spares K s t) : Spares K a (if c then s else t) :=
  ite h (h.trans ht)

theorem forAllMem {f : α → State → State} (l : List α) (h : Spares K a s) (hf : ∀ x ∈ l, ∀ s, Spares K s (f x s)) :
    Spares K a (forAll l f s) := by
  induction l generalizing s with
  | nil => exact h
  | cons x l ih => exact ih (h.trans (hf x List.mem_cons_self s)) fun y hy => hf y (List.mem_cons_of_mem x hy)

theorem forAll {f : α → State → State} (l : List α) (h : Spares K a s) (hf : ∀ x s, Spares K s (f x s)) :
    Spares K a (forAll l f s) := forAllMem l h fun x _ => hf x

theorem setReg {p off : Nat} {w : Word} (h : Spares K a s) (hk : K (regKey p off) = false) : Spares K a (s.setReg p off w) :=
  h.trans ⟨Eq.refl _, fun _ _ => Eq.refl _, fun k hk' => tget_tset_ne _ _ _ fun he => by rw [he, hk] at hk'; cases hk'⟩

theorem put {p : Nat} {f : Fld} {v : Nat} (h : Spares K a s) (hk : K (regKey p f.off) = false) : Spares K a (s.put p f v) :=
  h.setReg hk

/-! ### Reports -/

theorem reports (h : Spares spared a s) (hr : Reports s t) : Spares spared a t :=
  h.trans ⟨hr.mtb, fun e _ => by rw [State.eng, hr.engs, State.eng], fun k hk => hr.regs k (reported_of_spared hk)⟩

theorem raise {p : Nat} {f : Fld} (h : Spares spared a s) (hk : spared (regKey p f.off) = false) :
    Spares spared a (raise p f s) := (h.put hk).reports (Reports.raise_put p f s)

theorem damaskEvent {rank : Nat} {source : Byte} {dom : Dom} {sev : BitVec 3} {code : BitVec 16} {data : List Byte}
    (h : Spares K a s) : Spares K a (damaskEvent rank source dom sev code data s) := h.same rfl rfl rfl

theorem raiseFaultWith {c : Nat} {masked : Bool} {eng : Nat} {addr : Word} {data : List Byte} (h : Spares spared a s) :
    Spares spared a (raiseFaultWith c masked eng addr data s) := by
  refine damaskEvent (put (setReg (setReg (setReg h rfl) rfl) rfl) ?_)
  cases masked <;> rfl

/-! ### Tasks and their scans -/

theorem putTask {n : TaskNo} {f : Fld} {v : Nat} (h : Spares spared a s) : Spares spared a (s.put (tskPage n) f v) :=
  h.put (spared_tskPage n f.off)

theorem putTaskBit {off : Nat} {n : TaskNo} {b : Bool} (h : Spares spared a s) (ho : off ∈ taskOffs) :
    Spares spared a (s.putTaskBit off n b) := h.setReg (spared_taskBits off ho n)

theorem setTask {n : TaskNo} {x : Task} (h : Spares K a s) : Spares K a (s.setTask n x) := h.same rfl rfl rfl

theorem setScan {n : TaskNo} {x : Option Scan} (h : Spares K a s) : Spares K a (setScan n x s) := h.setTask

theorem setScanning {n : TaskNo} {b : Bool} (h : Spares spared a s) : Spares spared a (setScanning n b s) :=
  put (putTask (putTaskBit h (by decide))) rfl

theorem finishMigration {n : TaskNo} (h : Spares spared a s) : Spares spared a (finishMigration n s) := by
  have hwest : Spares spared s (setWest n (!taskWest n s) s) := putTask (putTaskBit refl (by decide))
  have hmig {u : State} : Spares spared u (setMigPend n false u) := put (putTaskBit refl (by decide)) rfl
  exact ifThen h (raise (hwest.trans hmig) rfl)

theorem setCopyQ {b : Half} {q : List CopyPhase} (h : Spares K a s) : Spares K a (s.setCopyQ b q) :=
  h.same (by cases b <;> rfl) (by cases b <;> rfl) (by cases b <;> rfl)

theorem copyDue {b : Half} {c : CopyPhase} (h : Spares K a s) : Spares K a (copyDue b c s) := setCopyQ h

theorem dropQueued {n : TaskNo} (h : Spares K a s) : Spares K a (dropQueued n s) :=
  h.forAll _ fun _ _ => of_same rfl rfl rfl

theorem dropSnapshot {n : TaskNo} (h : Spares K a s) : Spares K a (dropSnapshot n s) := h.forAll _ fun _ _ => setCopyQ refl

/-- Only engines that run a job of the task change. -/
theorem endJobs {n : TaskNo} (h : Spares K a s) : Spares K a (Machine.forAll allEngines (fun e s =>
    let x := s.eng e
    if runsLive n x then
      match x.job with
      | some j => s.setEng e { x with job := some { j with dead := true, viol := ⟨0, 0, 0⟩ } }
      | none => s
    else s) s) := by
  refine h.forAll _ fun e s => ifThen refl ?_
  split
  next hj =>
    refine ⟨rfl, fun f hf => eng_setEng_ne _ _ fun hfe => ?_, fun _ _ => rfl⟩
    rw [hfe, hj] at hf
    cases hf
  next => exact refl

theorem retireLines {n : TaskNo} {p : LineTag → Bool} (h : Spares spared a s) : Spares spared a (retireLines n p s) := by
  have htags (l : List Nat) : Spares spared s (Machine.forAll l (fun k s => setLineTag k none s) s) :=
    refl.forAll l fun _ _ => of_same rfl rfl rfl
  exact ifElse h (put ((htags _).same rfl rfl rfl) rfl)

theorem retireTaskLines {n : TaskNo} (h : Spares spared a s) : Spares spared a (retireTaskLines n s) := retireLines h

theorem discardJobLines {n : TaskNo} {job : Nat} (h : Spares spared a s) : Spares spared a (discardJobLines n job s) :=
  retireLines h

theorem killScan {n : TaskNo} (h : Spares spared a s) : Spares spared a (killScan n s) := by
  unfold Machine.killScan
  split
  · exact h
  · exact finishMigration (putTask (setScanning (setTask (retireTaskLines (endJobs (dropSnapshot (dropQueued h)))))))

theorem failScan {n : TaskNo} {reason kind job : Nat} {flag : Fld} {eng : Nat} {addr : Word} {data : List Byte}
    (h : Spares laneKey a s) (hk : spared (regKey pSCH flag.off) = false) :
    Spares laneKey a (failScan n reason kind job flag eng addr data s) := by
  have hrecord (w : Word) : Spares laneKey s (s.setReg pSCH 0x06C w) := setReg refl rfl
  have hraise (u : State) : Spares laneKey u (Machine.raise pSCH flag u) := (raise refl hk).lanes
  have hcount (u : State) : Spares laneKey u (u.bump pSCH SCH_CNT_FAILS) := put refl rfl
  have hend (u : State) : Spares laneKey u (Machine.killScan n (Machine.raiseFaultWith 15 false eng addr data u)) :=
    (killScan (raiseFaultWith refl)).lanes
  exact h.trans ((hrecord _).trans ((hraise _).trans ((hcount _).trans (hend _))))

/-! ### Releases and commits -/

theorem dropRelease {n : TaskNo} (h : Spares spared a s) : Spares spared a (dropRelease n s) := putTask (setTask h)

theorem startRelease {n : TaskNo} {b p : Nat} (h : Spares spared a s) : Spares spared a (startRelease n b p s) := by
  unfold Machine.startRelease
  split
  · exact h
  · exact copyDue (setScanning (setScan (putTask (putTask h))))

theorem determineRelease {n : TaskNo} {b : Nat} (h : Spares spared a s) : Spares spared a (determineRelease n b s) := by
  have hset : Spares spared a (s.setTask n { s.task n with lastRel := some b }) := h.setTask
  exact ite (dropRelease hset) (ite (raise (put hset.setTask rfl) rfl) (startRelease hset))

theorem overrun {n : TaskNo} {b : Nat} (h : Spares spared a s) : Spares spared a (overrun n b s) := by
  unfold Machine.overrun
  split
  · exact ite h (ite (determineRelease (killScan (raise h rfl))) (dropRelease (setTask (setScan (raise h rfl)))))
  · exact h

theorem flipSel {k : Nat} (h : Spares spared a s) (hk : k ∈ allRegions) : Spares spared a (flipSel k s) :=
  h.put (spared_region hk)

theorem commitImages {n : TaskNo} (h : Spares spared a s) : Spares spared a (commitImages n s) := by
  have hflips : Spares spared a (Machine.forAll (regionsOfTask n s) Machine.flipSel s) :=
    forAllMem _ h fun k hk _ => flipSel refl (by
      unfold regionsOfTask at hk
      exact (List.mem_filter.1 hk).1)
  unfold Machine.commitImages
  exact retireTaskLines (put hflips rfl)

theorem commitScan {n : TaskNo} (h : Spares spared a s) : Spares spared a (commitScan n s) := by
  unfold Machine.commitScan
  split
  · exact finishMigration (ifElse (setScanning (setTask (putTask (putTask (ifThen (ifThen (putTask (putTask (putTask
      (commitImages h)))) (putTask refl)) (putTask refl)))))) (copyDue refl))
  · exact h

theorem endExecute {n : TaskNo} (h : Spares spared a s) : Spares spared a (endExecute n s) := by
  have hd : Spares spared a (match deadlineTick n s with
      | some b => if 25000 * b ≤ s.mtb then Machine.overrun n b s else s
      | none => s) := by
    split
    · exact ifThen h (overrun refl)
    · exact h
  unfold Machine.endExecute
  dsimp only
  split
  · exact ifThen hd (commitScan refl)
  · exact hd

theorem checkStall {n : TaskNo} (h : Spares laneKey a s) : Spares laneKey a (checkStall n s) := by
  unfold Machine.checkStall
  split
  · exact ifThen h (failScan refl rfl)
  · exact h

theorem completeJob {n : TaskNo} {j : Nat} (h : Spares laneKey a s) : Spares laneKey a (completeJob n j s) := by
  unfold Machine.completeJob
  split
  · refine h.trans (checkStall (lanes (endExecute (forAll _ (setScan refl) fun k u => ?_))))
    exact ifThen (of_same rfl rfl rfl) (of_same rfl rfl rfl)
  · exact h

theorem releaseViolation {rank : Nat} {d : Dom} {n : TaskNo} {job : Nat} {addr : Word} {count kind : Nat}
    (h : Spares spared a s) : Spares spared a (releaseViolation rank d n job addr count kind s) :=
  put (setReg (setReg (put (damaskEvent h) rfl) rfl) rfl) rfl

theorem fetched {e : EngNo} (h : Spares spared a s) : Spares spared a (fetched e s) := by
  have hgrant {u : State} (f : EngNo) (n : Nat) : Spares spared u (grantTarget f n u) := by
    have harb : Spares spared u (arbitrate f n u) := by
      rw [arbitrate_eq]
      exact of_same rfl rfl rfl
    refine harb.trans ?_
    unfold grantTarget countGrant
    exact ifThen refl (ite (put (of_same rfl rfl rfl) rfl) (of_same rfl rfl rfl))
  have hfill : Spares spared s (fillLine e s) := by
    rw [fillLine_eq]
    exact of_same rfl rfl rfl
  exact ifElse h (hfill.trans (hgrant _ _))

end Spares

end Sys2Proof.Machine
end

section
/-! Jobs that end: by YIELD, by FAULT and by the job timer (R79, R104, R105, R109; O14). -/

namespace Sys2Proof.Machine

open Reg

variable {e : EngNo} {s t u : State}

/-! ## The end of a job (R104) -/

/-- The engine as its job leaves it, before it sleeps or idles. -/
def jobLeft (e : EngNo) (s : State) : State :=
  setInJob e false ((orphanTxns e s).setEng e { s.eng e with
    job := none, jobid := 0, remErr := (s.eng e).supErr, supErr := none, record := none })

theorem isSupervisor_jobLeft (e f : EngNo) (s : State) : isSupervisor f (jobLeft e s) = isSupervisor f s := by
  refine isSupervisor_of_reg (reg_put_ne _ _ ?_) f
  simp only [regKey, engPage, pFAB, pENG]
  omega

theorem leaveJob_eq (e : EngNo) (s : State) : leaveJob e s =
    if isSupervisor e s then
      setMode e .sleep ((jobLeft e s).setEng e { (jobLeft e s).eng e with pc := (s.eng e).supPc, fl := (s.eng e).supFl })
    else setMode e .idle (jobLeft e s) := by
  rw [← isSupervisor_jobLeft e e s]
  rfl

theorem leaveJob_regs (e : EngNo) (s : State) : (leaveJob e s).regs = (setInJob e false s).regs := by
  rw [leaveJob_eq]
  split <;> exact regs_setMode ..

theorem leaveJob_mtb (e : EngNo) (s : State) : (leaveJob e s).mtb = s.mtb := Still.refl.leaveJob (T := fun _ => true) |>.mtb

/-- The engine runs no job; it sleeps when it holds a role, and idles when it holds none. -/
theorem leaveJob_eng (e : EngNo) (s : State) : ((leaveJob e s).eng e).job = none ∧
    ((leaveJob e s).eng e).mode = if isSupervisor e s then .sleep else .idle := by
  have hleft : ((jobLeft e s).eng e).job = none := by
    show (((orphanTxns e s).setEng e _).eng e).job = none
    rw [eng_setEng_same]
  rw [leaveJob_eq]
  split
  · rw [setMode_eng, eng_setEng_same]
    exact ⟨hleft, rfl⟩
  · rw [setMode_eng]
    exact ⟨hleft, rfl⟩

theorem leaveJob_reg (e : EngNo) (s : State) {p off : Nat} (h : regKey p off ≠ regKey (engPage e) 0x00C) :
    (leaveJob e s).reg p off = s.reg p off := by
  rw [reg_of_regs (leaveJob_regs e s)]
  exact reg_put_ne _ _ h

/-- A bit of the lane's state other than INJOB. -/
theorem leaveJob_bit (e : EngNo) (s : State) {i : Nat} (hi : i < 8) :
    (leaveJob e s).bit (engPage e) ⟨0x00C, i, 1⟩ = s.bit (engPage e) ⟨0x00C, i, 1⟩ := by
  have hlane : laneOf e < 8 := Nat.mod_lt _ (by decide)
  have hput : (setInJob e false s).g (engPage e) ⟨0x00C, i, 1⟩ = s.g (engPage e) ⟨0x00C, i, 1⟩ :=
    g_put_apart s _ rfl (f := ⟨0x00C, 8 + laneOf e, 1⟩) (by dsimp only; omega) (by dsimp only; omega) (by dsimp only; omega)
  rw [State.bit, State.g, reg_of_regs (leaveJob_regs e s), ← State.g, hput, State.bit]

/-- From `s` to `t` the job of engine `e` has ended; around its end nothing of the lanes and the roles has changed. -/
structure JobLeaves (e : EngNo) (s t : State) : Prop where
  mtb : t.mtb = s.mtb
  job : (t.eng e).job = none
  mode : (t.eng e).mode = if isSupervisor e s then .sleep else .idle
  roles : t.reg pFAB 0x040 = s.reg pFAB 0x040
  excl : t.reg (engPage e) 0x008 = s.reg (engPage e) 0x008
  hung : t.bit (engPage e) ⟨0x00C, laneOf e, 1⟩ = s.bit (engPage e) ⟨0x00C, laneOf e, 1⟩

theorem laneKey_engPage (e : EngNo) : laneKey (regKey (engPage e) 0x008) = true ∧ laneKey (regKey (engPage e) 0x00C) = true := by
  have hlane : e.val / 8 < 8 := by omega
  simp only [laneKey, Bool.or_eq_true, Bool.and_eq_true, beq_iff_eq, decide_eq_true_eq]
  simp only [regKey, engPage, pENG, clusterOf]
  omega

/-- The job ends between two steps that spare the lanes. -/
theorem jobLeaves_of_spares (h : Spares laneKey s u) (h' : Spares laneKey (leaveJob e u) t) : JobLeaves e s t := by
  obtain ⟨hexcl, hstate⟩ := laneKey_engPage e
  obtain ⟨hjob, hmode⟩ := leaveJob_eng e u
  have hfab : regKey pFAB 0x040 ≠ regKey (engPage e) 0x00C := by
    simp only [regKey, engPage, pFAB, pENG]
    omega
  have hmask : regKey (engPage e) 0x008 ≠ regKey (engPage e) 0x00C := by
    simp only [regKey]
    omega
  have hlane : laneOf e < 8 := Nat.mod_lt _ (by decide)
  have heng := h'.eng e hjob
  exact
    { mtb := h'.mtb.trans ((leaveJob_mtb e u).trans h.mtb)
      job := by rw [heng, hjob]
      mode := by rw [heng, hmode, isSupervisor_of_reg (h.reg (by rfl))]
      roles := (h'.reg (by rfl)).trans ((leaveJob_reg e u hfab).trans (h.reg (by rfl)))
      excl := (h'.reg hexcl).trans ((leaveJob_reg e u hmask).trans (h.reg hexcl))
      hung := by
        rw [State.bit, State.g, h'.reg hstate, ← State.g, ← State.bit, leaveJob_bit e u hlane, State.bit,
          State.g, h.reg hstate, ← State.g, ← State.bit] }

/-! ## YIELD -/

theorem jobLeaves_finishYield {j : JobRun} (hj : (s.eng e).job = some j) : JobLeaves e s (finishYield e s) := by
  unfold finishYield
  rw [hj]
  dsimp only
  split
  · exact jobLeaves_of_spares .refl .refl
  · exact jobLeaves_of_spares (Spares.ifElse (K := spared) .refl (.releaseViolation .refl)).lanes (.completeJob .refl)

section
variable {x : Issue}

/-- YIELD of a job, after its fetch. -/
theorem exec_yield {j : JobRun} (h : Ready x [] s) (hj : (s.eng x.eng).job = some j) :
    exec (.yield x) s = ok s (settleYield x.eng (setMode x.eng .yielding (fetched x.eng s))) := by
  show ok s (issue x [] _ s) = _
  rw [issue_ready h, if_pos (by simp [inTask, hj])]

theorem completes_yield_supervisor (h : Ready x [] s) (hj : (s.eng x.eng).job = none) :
    Completes (.yield x) s fun t => t = kept s (exception x.eng 1 0 0 (fetched x.eng s)) := by
  refine completes_ok (t := exception x.eng xIllegal 0 0 (fetched x.eng s)) ?_ rfl
  show ok s (issue x [] _ s) = _
  rw [issue_ready h, if_neg (by simp [inTask, hj])]

theorem slotsUsed_congr (h : t.txns = s.txns) : slotsUsed e t = slotsUsed e s := by rw [slotsUsed, h, slotsUsed]

theorem completes_yield_done {j : JobRun} (h : Ready x [] s) (hj : (s.eng x.eng).job = some j)
    (hslots : slotsUsed x.eng s = 0) : Completes (.yield x) s fun t =>
      (t.eng x.eng).job = none ∧ (t.eng x.eng).mode = if isSupervisor x.eng s then .sleep else .idle := by
  have hspares : Spares spared s (fetched x.eng s) := .fetched .refl
  generalize hu : setMode x.eng .yielding (fetched x.eng s) = u
  have heng : u.eng x.eng = { s.eng x.eng with mode := .yielding, busyFrom := (u.eng x.eng).busyFrom } := by
    rw [← hu, setMode_eng, fetched_eng]
  have hready : settleYield x.eng u = finishYield x.eng u := by
    have hslots' : slotsUsed x.eng u = 0 := by rw [slotsUsed_congr (s := s) (by rw [← hu, setMode_txns, fetched_txns]), hslots]
    have hrem : (s.eng x.eng).remErr = none := by
      have hissue := h.2
      simp only [canIssue, atIssue, Bool.and_eq_true, beq_iff_eq] at hissue
      exact hissue.1.1.2
    rw [settleYield, if_pos]
    rw [heng, hslots', hrem]
    rfl
  have hroles : u.reg pFAB 0x040 = s.reg pFAB 0x040 := by
    rw [← hu, reg_of_regs (regs_setMode ..), hspares.reg (by rfl)]
  have hleaves : JobLeaves x.eng u (finishYield x.eng u) := jobLeaves_finishYield (j := j) (by rw [heng, hj])
  refine completes_ok ((exec_yield h hj).trans (by rw [hu, hready])) ⟨hleaves.job, ?_⟩
  rw [← isSupervisor_of_reg hroles x.eng]
  exact hleaves.mode

theorem completes_yield_waits {j : JobRun} (h : Ready x [] s) (hj : (s.eng x.eng).job = some j)
    (hslots : slotsUsed x.eng s ≠ 0) : Completes (.yield x) s fun t =>
      (t.eng x.eng).mode = .yielding ∧ (t.eng x.eng).pc = (s.eng x.eng).pc ∧ (t.eng x.eng).job = some j ∧ t.mem = s.mem := by
  have hwaits : settleYield x.eng (setMode x.eng .yielding (fetched x.eng s)) = setMode x.eng .yielding (fetched x.eng s) := by
    rw [settleYield, if_neg]
    rw [slotsUsed_congr (s := s) (by rw [setMode_txns, fetched_txns])]
    simp [hslots]
  refine completes_ok ((exec_yield h hj).trans (by rw [hwaits])) ?_
  rw [kept_eng, setMode_eng, fetched_eng, kept_mem, setMode_mem, fetched_mem]
  exact ⟨rfl, rfl, hj, rfl⟩

end

/-! ## The job timer (R79) -/

/-- A job that is tried again is counted and queued. -/
theorem spares_retry {n : TaskNo} {k : Nat} {q : List (TaskNo × Nat)} (h : Spares laneKey s t) :
    Spares laneKey s ((((raise pSCH SCH_IRQ_RAW_RETRY t).bump pSCH SCH_CNT_RETRIES).bump (tskPage n) TSK_RETRIES_COUNT).setDeque k q) := by
  have hraise : Spares laneKey t (raise pSCH SCH_IRQ_RAW_RETRY t) := (Spares.raise .refl rfl).lanes
  have hcount (u : State) : Spares laneKey u (u.bump pSCH SCH_CNT_RETRIES) := .put .refl rfl
  have htask (u : State) : Spares laneKey u (u.bump (tskPage n) TSK_RETRIES_COUNT) := (Spares.putTask .refl).lanes
  exact .same (h.trans (hraise.trans ((hcount _).trans (htask _)))) rfl rfl rfl

theorem spares_raiseFault {c : Nat} {masked : Bool} {n : Nat} {addr : Word} (h : Spares laneKey s t) :
    Spares laneKey s (raiseFault c masked n addr t) := h.trans (Spares.raiseFaultWith .refl).lanes

/-- A job error ends the job between two steps that spare the lanes. -/
theorem jobLeaves_jobError {j : JobRun} (hj : (s.eng e).job = some j) (kind : Nat) (addr : Word) :
    JobLeaves e s (jobError e kind addr s) := by
  unfold jobError
  rw [hj]
  dsimp only
  split
  · exact jobLeaves_of_spares (.ite (spares_raiseFault .refl) .refl) .refl
  · refine jobLeaves_of_spares (u := discardJobLines j.task j.job s) (Spares.discardJobLines .refl).lanes ?_
    split
    · exact .refl
    · exact .ite (spares_retry (spares_raiseFault (.setScan .refl))) (.failScan (spares_raiseFault (.setScan .refl)) rfl)

/-- The state in which the timer's job error comes: the time has passed, and the lane is excluded and hung. -/
def timedOut (e : EngNo) (j : JobRun) (s : State) : State :=
  (setExcl e (errCount e 7 0 false (s.untilMtb (timerEnd j)))).put (engPage e) ⟨0x00C, laneOf e, 1⟩ 1

theorem exec_jobTimerExpiry {j : JobRun} (hj : (s.eng e).job = some j) :
    exec (.jobTimerExpiry e) s = ok s (haltLane e (jobError e 7 0 (timedOut e j s))) := by
  show ok s (match (s.eng e).job with
    | some j => haltLane e (jobError e 7 0 (timedOut e j s))
    | none => s) = _
  rw [hj]

theorem errCount_hung (e : EngNo) (s : State) :
    ∃ w, errCount e 7 0 false s = raise (engPage e) ENG_IRQ_RAW_HUNG (s.setReg (engPage e) 0x044 w) := ⟨_, rfl⟩

/-- The count of a hung lane: time and engines stay, and so do the lanes' registers. -/
theorem spares_errCount_hung : Spares spared s (errCount e 7 0 false s) := by
  obtain ⟨w, hw⟩ := errCount_hung e s
  rw [hw]
  exact .raise (.setReg .refl (spared_engPage (by decide) (by decide) e)) (spared_engPage (by decide) (by decide) e)

theorem engs_errCount_hung : (errCount e 7 0 false s).engs = s.engs := by
  obtain ⟨w, hw⟩ := errCount_hung e s
  rw [hw, (Reports.raise_put ..).engs, put_engs, setReg_engs]

theorem engs_untilMtb (n : Nat) (s : State) : (s.untilMtb n).engs = s.engs := by
  unfold State.untilMtb
  split <;> rfl

theorem timedOut_job {j : JobRun} (hj : (s.eng e).job = some j) : ((timedOut e j s).eng e).job = some j := by
  have hengs : (timedOut e j s).engs = s.engs := by
    unfold timedOut setExcl
    rw [put_engs, put_engs, engs_errCount_hung, engs_untilMtb]
  rw [State.eng, hengs]
  exact hj

theorem timedOut_mtb {j : JobRun} (h : s.mtb < timerEnd j) : (timedOut e j s).mtb = timerEnd j % 2 ^ 64 := by
  unfold timedOut setExcl
  rw [put_mtb, put_mtb, spares_errCount_hung.mtb, State.untilMtb, if_pos h]
  show (s.mtb + (timerEnd j - s.mtb)) % 2 ^ 64 = _
  rw [Nat.add_sub_cancel' (Nat.le_of_lt h)]

theorem timedOut_roles (e : EngNo) (j : JobRun) (s : State) : (timedOut e j s).reg pFAB 0x040 = s.reg pFAB 0x040 := by
  have hapart (off : Nat) (ho : off < 4096) : regKey pFAB 0x040 ≠ regKey (engPage e) off := by
    simp only [regKey, engPage, pFAB, pENG]
    omega
  unfold timedOut setExcl
  rw [reg_put_ne _ _ (hapart 0x00C (by decide)), reg_put_ne _ _ (hapart 0x008 (by decide)), spares_errCount_hung.reg (by rfl)]
  exact reg_of_regs (regs_untilNow s .damask (timerEnd j)) ..

theorem timedOut_hung (e : EngNo) (j : JobRun) (s : State) :
    (timedOut e j s).bit (engPage e) ⟨0x00C, laneOf e, 1⟩ = true :=
  bit_put_one (Nat.lt_of_lt_of_le (Nat.mod_lt _ (by decide)) (by decide)) rfl

theorem timedOut_excluded (e : EngNo) (j : JobRun) (s : State) : excluded e (timedOut e j s) = true := by
  have hlane : laneOf e < 32 := Nat.lt_of_lt_of_le (Nat.mod_lt _ (by decide)) (by decide)
  rw [excluded_iff_bit, timedOut, State.bit, g_put_ne, ← State.bit]
  · exact bit_put_one hlane rfl
  · simp only [regKey]
    omega

/-! ### The lane is halted -/

/-- What the halt of a lane leaves of its engine, and of the state. -/
structure Halted (e : EngNo) (s t : State) : Prop where
  job : (t.eng e).job = none
  pc : (t.eng e).pc = 0
  mode : (t.eng e).mode = if isSupervisor e s then .halted else .idle
  icache : icacheOf e t = []
  mtb : t.mtb = s.mtb
  regs : t.regs = s.regs

theorem countSolver_eq (k : Nat) (s : State) : countSolver k s = { s with sched := (countSolver k s).sched } := by
  unfold countSolver
  split <;> rfl

/-- A lane's part of the machine withdrawn: its transactions, its instruction cache and its solver operations. -/
def withdrawn (e : EngNo) (s : State) : State :=
  let s := withholdWhere (fun x => x.eng == e) s
  let s := { s with icache := tclear (fun k => k == e.val) s.icache }
  let k := clusterOf e
  setSolver k ((tget (fun _ => []) s.sched.solver k).filter fun o => o.eng != e) (countSolver k s)

theorem withdrawn_eq (e : EngNo) (s : State) : withdrawn e s = { s with
    txns := (withdrawn e s).txns, icache := tclear (fun k => k == e.val) s.icache, sched := (withdrawn e s).sched } := by
  unfold withdrawn setSolver withholdWhere
  dsimp only
  rw [countSolver_eq]

theorem icacheOf_withdrawn (e : EngNo) (s : State) : icacheOf e (withdrawn e s) = [] := by
  rw [withdrawn_eq, icacheOf, tget_tclear, if_pos (beq_self_eq_true _)]

theorem haltLane_eq (e : EngNo) (s : State) : haltLane e s =
    setMode e (if isSupervisor e (withdrawn e s) then .halted else .idle) ((withdrawn e s).setEng e { engStopped with
      mode := ((withdrawn e s).eng e).mode, busyFrom := ((withdrawn e s).eng e).busyFrom }) := rfl

theorem halted_haltLane (e : EngNo) (s : State) : Halted e s (haltLane e s) := by
  have hroles : isSupervisor e (withdrawn e s) = isSupervisor e s := by
    rw [withdrawn_eq]
    rfl
  have heng := setMode_eng e (if isSupervisor e s then .halted else .idle) ((withdrawn e s).setEng e { engStopped with
    mode := ((withdrawn e s).eng e).mode, busyFrom := ((withdrawn e s).eng e).busyFrom })
  rw [eng_setEng_same] at heng
  rw [haltLane_eq, hroles]
  exact
    { job := by rw [heng]; rfl
      pc := by rw [heng]; rfl
      mode := by rw [heng]
      icache := by
        rw [icacheOf, setMode_eq]
        exact icacheOf_withdrawn e s
      mtb := by
        rw [setMode_eq, withdrawn_eq]
        rfl
      regs := by
        rw [regs_setMode, withdrawn_eq]
        rfl }

theorem completes_jobTimerExpiry {j : JobRun} (hj : (s.eng e).job = some j) : Completes (.jobTimerExpiry e) s fun t =>
    (t.eng e).job = none ∧ (t.eng e).pc = 0 ∧ (t.eng e).mode = (if isSupervisor e s then .halted else .idle) ∧
      icacheOf e t = [] ∧ excluded e t = true ∧ t.bit (engPage e) ⟨0x00C, laneOf e, 1⟩ = true ∧
      (s.mtb < timerEnd j → t.mtb = timerEnd j % 2 ^ 64) := by
  have hleaves := jobLeaves_jobError (timedOut_job hj) 7 0
  have hhalt := halted_haltLane e (jobError e 7 0 (timedOut e j s))
  refine completes_ok (exec_jobTimerExpiry hj) ⟨hhalt.job, hhalt.pc, ?_, hhalt.icache, ?_, ?_, fun h => ?_⟩
  · rw [kept_eng, hhalt.mode, isSupervisor_of_reg (hleaves.roles.trans (timedOut_roles e j s))]
  · have hexcl := timedOut_excluded e j s
    unfold excluded at hexcl ⊢
    rwa [kept_reg, reg_of_regs hhalt.regs, hleaves.excl]
  · rw [kept_bit, State.bit, State.g, reg_of_regs hhalt.regs, ← State.g, ← State.bit, hleaves.hung, timedOut_hung]
  · exact hhalt.mtb.trans (hleaves.mtb.trans (timedOut_mtb h))

end Sys2Proof.Machine
end

section
/-! Jobs that end by FAULT: the scan fails and is counted, and an event says so (R105, R109; O14). -/

namespace Sys2Proof.Machine

open Reg

variable {e : EngNo} {s t u : State}

/-! ## Events that wait for their number -/

/-- The event and those that waited before it. -/
theorem subset_evInsert (v : Event) (l : List Event) : l ⊆ evInsert v l := by
  induction l with
  | nil => exact List.nil_subset _
  | cons x xs ih =>
    rw [evInsert]
    split
    · exact List.subset_cons_self _ _
    · exact List.cons_subset_cons x ih

/-- A flag of a page of Damask: no event that waits is lost. -/
theorem waiting_raise {p : Nat} (hp : isMuslinPage p = false) (f : Fld) (s : State) :
    s.ev.waiting ⊆ (raise p f s).ev.waiting := by
  unfold raise raiseWith pageEvent
  simp only [hp, Bool.false_eq_true, if_false]
  split
  · exact subset_evInsert _ _
  · exact List.Subset.refl _

theorem ev_setScanning (n : TaskNo) (b : Bool) (s : State) : (setScanning n b s).ev = s.ev := rfl

theorem ev_setTask (n : TaskNo) (x : Task) (s : State) : (s.setTask n x).ev = s.ev := rfl

theorem ev_setCopyQ (b : Half) (q : List CopyPhase) (s : State) : (s.setCopyQ b q).ev = s.ev := by cases b <;> rfl

theorem ev_dropSnapshot (n : TaskNo) (s : State) : (dropSnapshot n s).ev = s.ev := by
  unfold dropSnapshot
  exact forAll_keeps (fun v => v.ev = s.ev) (fun b v h => (ev_setCopyQ b _ v).trans h) _ rfl

theorem ev_retireTaskLines (n : TaskNo) (s : State) : (retireTaskLines n s).ev = s.ev := by
  have htags (l : List Nat) : (forAll l (fun k s => setLineTag k none s) s).ev = s.ev :=
    forAll_keeps (fun v => v.ev = s.ev) (f := fun k s => setLineTag k none s) (fun _ _ h => h) l rfl
  unfold retireTaskLines retireLines
  dsimp only
  split
  · rfl
  · exact htags _

theorem ev_scanGone (n : TaskNo) (s : State) : (scanGone n s).ev = s.ev := by
  have hqueues : (dropQueued n s).ev = s.ev := by
    unfold dropQueued
    refine forAll_keeps (fun v => v.ev = s.ev) (fun k v h => ?_) _ ?_
    · exact h
    · rfl
  have hcopies : (dropSnapshot n (dropQueued n s)).ev = s.ev :=
    (ev_dropSnapshot n _).trans hqueues
  unfold scanGone
  dsimp only
  rw [ev_setScanning, ev_setTask, ev_retireTaskLines]
  refine forAll_keeps (fun v => v.ev = s.ev) (fun f v h => ?_) _ hcopies
  split
  · split
    · exact h
    · exact h
  · exact h

theorem waiting_finishMigration (n : TaskNo) (s : State) : s.ev.waiting ⊆ (finishMigration n s).ev.waiting := by
  unfold finishMigration
  split
  · exact waiting_raise (p := pSCH) rfl SCH_IRQ_RAW_MIGDONE (setMigPend n false (setWest n (!taskWest n s) s))
  · exact List.Subset.refl _

/-- The end of a scan loses no event that waits. -/
theorem waiting_killScan (n : TaskNo) (s : State) : s.ev.waiting ⊆ (killScan n s).ev.waiting := by
  cases hscan : (s.task n).scan with
  | none =>
    unfold killScan
    rw [hscan]
    exact List.Subset.refl _
  | some sc =>
    have hev : ((scanGone n s).bump (tskPage n) TSK_ABORTS_COUNT).ev = s.ev := by rw [State.bump, put_ev, ev_scanGone]
    rw [killScan_of_scan hscan, ← hev]
    exact waiting_finishMigration ..

theorem scan_killScan (n : TaskNo) (s : State) : ((killScan n s).task n).scan = none := by
  obtain ⟨u, -, hu, hend⟩ := Steady.killScan_passes n s
  exact hend.scan n hu

/-! ## A scan that fails (R135) -/

section
variable {n : TaskNo} {reason kind job eng : Nat} {flag : Fld} {addr : Word} {data : List Byte}

/-- The scan has failed: SCH_FAIL, the count, and the event of class 15 with its data. -/
structure Failed (n : TaskNo) (record : Word) (data : List Byte) (s t : State) : Prop where
  scan : (t.task n).scan = none
  record : t.reg pSCH 0x06C = record
  count : t.g pSCH SCH_CNT_FAILS = min (s.g pSCH SCH_CNT_FAILS + 1) 65535
  event : ∃ ev ∈ t.ev.waiting, ev.code = 0x020F ∧ ev.stamp = s.mtb ∧ ev.data = padTo 10 data

theorem g_spared (h : Spares spared s t) {p : Nat} {f : Fld} (hk : spared (regKey p f.off) = true) : t.g p f = s.g p f := by
  rw [State.g, h.reg hk, State.g]

/-- The state in which a failing scan is recorded and counted. -/
def failRecorded (flag : Fld) (record : Word) (s : State) : State :=
  (raise pSCH flag (s.setReg pSCH 0x06C record)).bump pSCH SCH_CNT_FAILS

theorem failRecorded_record (hflag : spared (regKey pSCH flag.off) = false) (record : Word) (s : State) :
    (failRecorded flag record s).reg pSCH 0x06C = record := by
  have hraise : Spares spared (s.setReg pSCH 0x06C record) (raise pSCH flag (s.setReg pSCH 0x06C record)) := .raise .refl hflag
  rw [failRecorded, State.bump, reg_put_ne _ _ (by decide), hraise.reg (by rfl), reg_setReg_same]

theorem failRecorded_count (hflag : spared (regKey pSCH flag.off) = false) (record : Word) (s : State) :
    (failRecorded flag record s).g pSCH SCH_CNT_FAILS = min (s.g pSCH SCH_CNT_FAILS + 1) 65535 := by
  have hraise : Spares spared (s.setReg pSCH 0x06C record) (raise pSCH flag (s.setReg pSCH 0x06C record)) := .raise .refl hflag
  have hcount : (s.setReg pSCH 0x06C record).g pSCH SCH_CNT_FAILS = s.g pSCH SCH_CNT_FAILS := by
    rw [State.g, reg_setReg_ne _ _ (by decide), State.g]
  rw [failRecorded, g_bump_same _ _ _ _ (by decide), g_spared hraise (by rfl), hcount]
  rfl

theorem failRecorded_mtb (record : Word) (s : State) : (failRecorded flag record s).mtb = s.mtb :=
  (Reports.raise_put pSCH flag (s.setReg pSCH 0x06C record)).mtb

/-- A fault's event waits for its number. -/
theorem event_raiseFaultWith (c : Nat) (masked : Bool) (eng : Nat) (addr : Word) (data : List Byte) (s : State) :
    ∃ ev ∈ (raiseFaultWith c masked eng addr data s).ev.waiting,
      ev.code = BitVec.ofNat 16 (0x0200 + c) ∧ ev.stamp = s.mtb ∧ ev.data = padTo 10 data :=
  ⟨_, mem_evInsert _ _, rfl, rfl, rfl⟩

/-- A job ends, and its scan fails. -/
theorem jobLeaves_failScan (hflag : spared (regKey pSCH flag.off) = false) (s : State) :
    JobLeaves e s (failScan n reason kind job flag eng addr data (leaveJob e s)) :=
  jobLeaves_of_spares .refl (.failScan .refl hflag)

theorem failed_failScan (hflag : spared (regKey pSCH flag.off) = false) :
    Failed n (word (reason * 2 ^ 29 + n.val * 2 ^ 23 + kind * 2 ^ 12 + job)) data s
      (failScan n reason kind job flag eng addr data s) := by
  generalize hw : word (reason * 2 ^ 29 + n.val * 2 ^ 23 + kind * 2 ^ 12 + job) = w
  have hfail : failScan n reason kind job flag eng addr data s =
      killScan n (raiseFaultWith 15 false eng addr data (failRecorded flag w s)) := by
    rw [← hw]
    rfl
  have hend : Spares spared (failRecorded flag w s) (killScan n (raiseFaultWith 15 false eng addr data (failRecorded flag w s))) :=
    .killScan (.raiseFaultWith .refl)
  obtain ⟨ev, hmem, hcode, hstamp, hdata⟩ := event_raiseFaultWith 15 false eng addr data (failRecorded flag w s)
  rw [hfail]
  exact
    { scan := scan_killScan ..
      record := by rw [hend.reg (by rfl), failRecorded_record hflag]
      count := by rw [g_spared hend (by rfl), failRecorded_count hflag]
      event := ⟨ev, waiting_killScan _ _ hmem, hcode, hstamp.trans (failRecorded_mtb ..), hdata⟩ }

end

/-! ## FAULT -/

section
variable {x : Issue} {j : JobRun}

/-- FAULT of a live job: the job ends, and its scan fails. -/
theorem exec_fault (h : Ready x [] s) (hj : (s.eng x.eng).job = some j) (hlive : j.dead = false) (code : BitVec 16) :
    exec (.fault x code) s = ok s (failScan j.task 1 0 j.job SCH_IRQ_RAW_JOBFAULT x.eng.val 0
      (byte j.task.val :: leBytes 2 j.job ++ leBytes 2 code.toNat ++ [0, 0, 0, 0])
      (leaveJob x.eng (discardJobLines j.task j.job (fetched x.eng s)))) := by
  have hexec : exec (.fault x code) s = ok s (exception x.eng xFault code.toNat 0 (fetched x.eng s)) := by
    show ok s (issue x [] _ s) = _
    rw [issue_ready h]
  have hzero : wordBytes 0 = [0, 0, 0, 0] := by decide
  rw [hexec, exception, if_pos (by simp [inTask, hj]), if_neg (by decide), jobFault, fetched_eng, hj]
  dsimp only
  rw [hlive, if_neg Bool.false_ne_true, if_pos rfl, hzero]

/-- The job leaves after its writes have been discarded. -/
theorem fails_after_leaveJob (hstart : Spares spared s u) : (leaveJob e u).g pSCH SCH_CNT_FAILS = s.g pSCH SCH_CNT_FAILS ∧
    (leaveJob e u).mtb = s.mtb := by
  refine ⟨?_, (leaveJob_mtb e u).trans hstart.mtb⟩
  rw [State.g, leaveJob_reg, ← State.g, g_spared hstart (by rfl)]
  simp only [regKey, engPage, pSCH, pENG, SCH_CNT_FAILS]
  omega

/-- What FAULT shows, of the state in which the job has ended and its scan has failed. -/
theorem shows_fault {n : TaskNo} {job : Nat} {data : List Byte} (hstart : Spares spared s u) (hleaves : JobLeaves e u t)
    (hfailed : Failed n (word (1 * 2 ^ 29 + n.val * 2 ^ 23 + 0 * 2 ^ 12 + job)) data (leaveJob e u) t) :
    ((kept s t).eng e).job = none ∧ ((kept s t).task n).scan = none ∧
      (kept s t).reg pSCH 0x06C = word (1 * 2 ^ 29 + n.val * 2 ^ 23 + job) ∧
      (kept s t).g pSCH SCH_CNT_FAILS = min (s.g pSCH SCH_CNT_FAILS + 1) 65535 ∧
      ∃ ev ∈ (kept s t).ev.waiting, ev.code = 0x020F ∧ ev.stamp = s.mtb ∧ ev.data = padTo 10 data := by
  obtain ⟨hfails, hmtb⟩ := fails_after_leaveJob (e := e) hstart
  obtain ⟨hscan, hrecord, hcount, ev, hmem, hcode, hstamp, hdata⟩ := hfailed
  refine ⟨hleaves.job, hscan, ?_, ?_, ev, hmem, hcode, hstamp.trans hmtb, hdata⟩
  · rw [kept_reg, hrecord, Nat.zero_mul, Nat.add_zero]
  · rw [kept_g, hcount, hfails]

theorem completes_fault (h : Ready x [] s) (hj : (s.eng x.eng).job = some j) (hlive : j.dead = false) (code : BitVec 16) :
    Completes (.fault x code) s fun t => (t.eng x.eng).job = none ∧ (t.task j.task).scan = none ∧
      t.reg pSCH 0x06C = word (1 * 2 ^ 29 + j.task.val * 2 ^ 23 + j.job) ∧
      t.g pSCH SCH_CNT_FAILS = min (s.g pSCH SCH_CNT_FAILS + 1) 65535 ∧
      ∃ ev ∈ t.ev.waiting, ev.code = 0x020F ∧ ev.stamp = s.mtb ∧
        ev.data = padTo 10 (byte j.task.val :: leBytes 2 j.job ++ leBytes 2 code.toNat ++ [0, 0, 0, 0]) :=
  completes_ok (exec_fault h hj hlive code)
    (shows_fault (.discardJobLines (.fetched .refl)) (jobLeaves_failScan rfl _) (failed_failScan rfl))

end

/-- Settles O14: YIELD, FAULT and the job timer each end the job in `leaveJob`, and what follows it spares the lanes. -/
theorem jobsEnd : Obligations.JobsEnd := by
  unfold Obligations.JobsEnd
  refine ⟨fun x s h => ?_, fun x code j sc s h hj hlive _ => completes_fault h hj hlive code,
    fun e j s hj => completes_jobTimerExpiry hj⟩
  dsimp only
  split
  next hj => exact completes_yield_supervisor h hj
  next j hj =>
    split
    next hslots => exact completes_yield_done h hj hslots
    next hslots => exact completes_yield_waits h hj hslots

end Sys2Proof.Machine
end

section
/-! What a boot attempt and its end leave alone, field by field (R361, R362). -/

namespace Sys2Proof.Machine

open Reg

/-! ## The steps of an attempt -/

variable {h : Half} {slot k : Nat} {u : RomUpset} {a s t : State}

theorem quiet_loadCode (h : Half) (slot : Nat) (s : State) : Quiet s (loadCode h slot s) := by
  have hclear : Quiet s (s.clearMem (codeBase h) (codeBase h + 0x100000)) := Quiet.update .refl
  refine Quiet.forAll _ hclear fun g v => ?_
  rw [wbytes_eq]
  exact Quiet.update .refl

theorem quiet_stepEffect (h : Half) (slot k : Nat) (s : State) : Quiet s (stepEffect h slot k s) :=
  .ite (Quiet.update .refl) (.ite (quiet_loadCode h slot s) .refl)

theorem quiet_runSteps (h : Half) (slot : Nat) (u : RomUpset) (ks : List Nat) (s : State) :
    Quiet s (runSteps h slot u ks s).2 := by
  induction ks generalizing s with
  | nil => exact .refl
  | cons k ks ih =>
    have hstep := quiet_stepEffect h slot k s
    unfold runSteps
    dsimp only
    split
    · exact hstep
    · split
      · exact hstep.trans (ih _)
      · exact hstep

theorem quiet_askBootKey (h : Half) (s : State) : Quiet s (askBootKey h s).2 :=
  .vaultRun (.syncBusy (.setVault (.setBootKey .refl)))

theorem quiet_setRom (h : Half) (x : Rom) (s : State) : Quiet s (s.setRom h x) := by
  cases h <;> exact Quiet.update .refl

theorem quiet_firstSteps (h : Half) (slot : Nat) (u : RomUpset) (s : State) : Quiet s (firstSteps h slot u s).2 := by
  have hsteps := quiet_runSteps h slot u [2, 3, 4, 5, 6] s
  unfold firstSteps
  dsimp only
  split
  · exact hsteps
  · exact hsteps.trans (quiet_askBootKey h _)

theorem quiet_repeatAttempt (h : Half) (slot : Nat) (u : RomUpset) (s : State) : Quiet s (repeatAttempt h slot u s).2 :=
  (quiet_setRom h _ s).trans (quiet_firstSteps h slot u _)

/-- An attempt writes memory, ROM's working slot and the vault, and what the vault reports. -/
theorem quiet_tryAttempt (h : Half) (slot : Nat) (u : RomUpset) (s : State) : Quiet s (tryAttempt h slot u s).2 := by
  unfold tryAttempt
  dsimp only
  split
  · exact .refl
  · exact .refl
  · have hsteps := quiet_runSteps h slot u [2, 3, 4, 5, 6] s
    split
    · exact hsteps.trans (quiet_repeatAttempt h slot _ _)
    · exact hsteps
    · exact hsteps.trans (quiet_askBootKey h _)
  · have hsteps := quiet_runSteps h slot u [7, 8, 9] s
    split
    · exact hsteps.trans (quiet_repeatAttempt h slot _ _)
    · exact hsteps
    · exact hsteps

/-! ## Fields that the end of an attempt shows -/

/-- From `a` to `s` the time base and the fields of `W` stay. -/
structure Shows (W : List (Nat × Fld)) (a s : State) : Prop where
  mtb : s.mtb = a.mtb
  fields : ∀ w ∈ W, s.g w.1 w.2 = a.g w.1 w.2

/-- A write of field `f` of page `p` leaves the fields of `W` alone. -/
def apartFrom (W : List (Nat × Fld)) (p : Nat) (f : Fld) : Bool := W.all fun w => fieldsApart p f w.1 w.2

/-- No field of `W` is part of a report. -/
def unreported (W : List (Nat × Fld)) : Bool := W.all fun w => !reported (regKey w.1 w.2.off)

namespace Shows
variable {W : List (Nat × Fld)}

theorem of_regs (hmtb : s.mtb = a.mtb) (hregs : s.regs = a.regs) : Shows W a s :=
  ⟨hmtb, fun w _ => by rw [State.g, reg_of_regs hregs, State.g]⟩

theorem refl : Shows W a a := of_regs (Eq.refl _) (Eq.refl _)

theorem trans (h : Shows W a s) (h' : Shows W s t) : Shows W a t :=
  ⟨h'.mtb.trans h.mtb, fun w hw => (h'.fields w hw).trans (h.fields w hw)⟩

theorem g (h : Shows W a s) {p : Nat} {f : Fld} (hw : (p, f) ∈ W) : s.g p f = a.g p f := h.fields (p, f) hw

theorem ite {c : Prop} [Decidable c] (h : Shows W a s) (h' : Shows W a t) : Shows W a (if c then s else t) := by
  split <;> assumption

theorem ifThen {c : Prop} [Decidable c] (h : Shows W a s) (ht : Shows W s t) : Shows W a (if c then t else s) :=
  ite (h.trans ht) h

theorem put {p : Nat} {f : Fld} {v : Nat} (h : Shows W a s) (hf : apartFrom W p f = true) : Shows W a (s.put p f v) :=
  h.trans ⟨Eq.refl _, fun w hw => g_put_fieldsApart s v (List.all_eq_true.1 hf w hw)⟩

theorem raise {p : Nat} {f : Fld} (h : Shows W a s) (hf : apartFrom W p f = true) (hr : unreported W = true) :
    Shows W a (raise p f s) := by
  have hrep := Reports.raise_put p f s
  refine (h.put (v := 1) hf).trans ⟨hrep.mtb, fun w hw => hrep.g ?_⟩
  exact Bool.not_eq_true' _ |>.mp (List.all_eq_true.1 hr w hw)

theorem setRom {b : Half} {x : Rom} (h : Shows W a s) : Shows W a (s.setRom b x) := by
  cases b <;> exact h.trans (of_regs (Eq.refl _) (Eq.refl _))

theorem setMode {e : EngNo} {m : EngMode} (h : Shows W a s) : Shows W a (setMode e m s) :=
  h.trans (of_regs (by rw [setMode_eq]) (regs_setMode ..))

theorem syncProt (h : Shows W a s) (ha : apartFrom W pXFL XFL_PROT_A = true) (hb : apartFrom W pXFL XFL_PROT_B = true) :
    Shows W a (syncProt s) := put (put h ha) hb

end Shows

/-- FAIL of both halves, and the count of failed boots. -/
def failFields : List (Nat × Fld) :=
  [(pBOOT, ⟨infoOff .east, 28, 4⟩), (pBOOT, ⟨infoOff .west, 28, 4⟩), (pCHR, CHR_BOOTFAIL_COUNT)]

/-- The states of both halves as well. -/
def stateFields : List (Nat × Fld) := (pBOOT, BOOT_STAT_ESTATE) :: (pBOOT, BOOT_STAT_WSTATE) :: failFields

theorem mem_failFields (h : Half) : (pBOOT, (⟨infoOff h, 28, 4⟩ : Fld)) ∈ failFields := by cases h <;> decide

/-! ## A half that has failed, and recovery -/

theorem shows_setHalfState (h : Half) (v : Nat) (s : State) : Shows failFields s (setHalfState h v s) :=
  .syncProt (.put .refl (by cases h <;> decide)) (by decide) (by decide)

theorem shows_endHalfBoot (h : Half) (s : State) : Shows failFields s (endHalfBoot h s) :=
  .ifThen .refl (.put .refl (by cases h <;> decide))

theorem shows_halfFailed (h : Half) (s : State) : Shows failFields s (halfFailed h s) := by
  have hdone : Shows failFields s (raise pBOOT (doneFld h) (endHalfBoot h s)) :=
    .raise (shows_endHalfBoot h s) (by cases h <;> decide) (by decide)
  have hfall : Shows failFields s (raise pBOOT (fallFld h) (raise pBOOT (doneFld h) (endHalfBoot h s))) :=
    .raise hdone (by cases h <;> decide) (by decide)
  exact hfall.trans ((Shows.setMode (.setRom .refl)).trans (shows_setHalfState h _ _))

/-- Both ROMs have given up their slots, and West's engine sleeps. -/
def recoveryBegun (cause : Nat) (s : State) : State :=
  let s := s.put pBOOT BOOT_STAT_RCAUSE cause
  let s := (s.setRom .east { (s.rom .east).fresh with slot := none }).setRom .west { (s.rom .west).fresh with slot := none }
  setMode (primaryOf .west s) .sleep s

theorem enterRecovery_eq (cause : Nat) (s : State) : enterRecovery cause s =
    setHalfState .west hsRecovery (setHalfState .east hsRecovery (recoveryBegun cause s)) := rfl

theorem shows_recoveryBegun {W : List (Nat × Fld)} (hW : apartFrom W pBOOT BOOT_STAT_RCAUSE = true) (cause : Nat) (s : State) :
    Shows W s (recoveryBegun cause s) := .setMode (.setRom (.setRom (.put .refl hW)))

theorem shows_enterRecovery (cause : Nat) (s : State) : Shows failFields s (enterRecovery cause s) :=
  (shows_recoveryBegun (by decide) cause s).trans ((shows_setHalfState ..).trans (shows_setHalfState ..))

/-- A half's state, as it has just been written. -/
theorem halfState_setHalfState (h : Half) {v : Nat} (hv : v < 16) (s : State) : halfState h (setHalfState h v s) = v := by
  have hshow : Shows stateFields (s.put pBOOT (halfStateFld h) v) (setHalfState h v s) := .syncProt .refl (by decide) (by decide)
  rw [halfState, hshow.g (by cases h <;> decide), g_put_same _ _ _ _ (by cases h <;> decide)]
  cases h <;> exact Nat.mod_eq_of_lt hv

theorem halfState_setHalfState_west (v : Nat) (s : State) : halfState .east (setHalfState .west v s) = halfState .east s := by
  have hshow : Shows [(pBOOT, BOOT_STAT_ESTATE)] s (setHalfState .west v s) :=
    .syncProt (.put .refl (by decide)) (by decide) (by decide)
  exact hshow.g (by decide)

/-- Recovery for a cause: both halves show it. -/
structure Recovered (cause : Nat) (t : State) : Prop where
  cause : t.g pBOOT BOOT_STAT_RCAUSE = cause
  east : halfState .east t = hsRecovery
  west : halfState .west t = hsRecovery

theorem recovered_enterRecovery {cause : Nat} (hc : cause < 8) (s : State) : Recovered cause (enterRecovery cause s) := by
  have hstate (b : Half) (v : State) : Shows [(pBOOT, BOOT_STAT_RCAUSE)] v (setHalfState b hsRecovery v) :=
    .syncProt (.put .refl (by cases b <;> decide)) (by decide) (by decide)
  have hrest : Shows [(pBOOT, BOOT_STAT_RCAUSE)] (s.put pBOOT BOOT_STAT_RCAUSE cause) (recoveryBegun cause s) :=
    .setMode (.setRom (.setRom .refl))
  have hall := hrest.trans ((hstate .east _).trans (hstate .west _))
  rw [enterRecovery_eq]
  exact
    { cause := by
        rw [hall.g (by decide), g_put_same _ _ _ _ (by decide)]
        exact Nat.mod_eq_of_lt hc
      east := by rw [halfState_setHalfState_west, halfState_setHalfState _ (by decide)]
      west := halfState_setHalfState _ (by decide) _ }

/-! ## An attempt that fails -/

theorem shows_syncProt_setRom (h : Half) (x : Rom) (s : State) : Shows stateFields s (syncProt (s.setRom h x)) :=
  .syncProt (.setRom .refl) (by decide) (by decide)

theorem Shows.fails (h : Shows stateFields a s) : Shows failFields a s :=
  ⟨h.mtb, fun w hw => h.fields w (List.mem_cons_of_mem _ (List.mem_cons_of_mem _ hw))⟩

theorem shows_attemptEnds (h : Half) (slot c : Nat) (s : State) :
    Shows failFields (setFail h c s) (attemptEnds h slot (some c) s) := by
  unfold attemptEnds
  dsimp only
  refine .ite (.ite (shows_syncProt_setRom ..).fails (shows_halfFailed ..)) ?_
  split
  · exact shows_halfFailed ..
  · exact .ite (shows_enterRecovery ..) (.ite (shows_syncProt_setRom ..).fails (shows_enterRecovery ..))

/-- A failed attempt shows its code. -/
theorem fail_attemptEnds (h : Half) (slot c : Nat) (s : State) :
    (attemptEnds h slot (some c) s).g pBOOT ⟨infoOff h, 28, 4⟩ = c % 16 := by
  rw [(shows_attemptEnds h slot c s).g (mem_failFields h), setFail, g_put_same _ _ _ _ (by cases h <;> decide)]
  rfl

theorem mtb_attemptEnds (h : Half) (slot c : Nat) (s : State) : (attemptEnds h slot (some c) s).mtb = s.mtb :=
  (shows_attemptEnds h slot c s).mtb

end Sys2Proof.Machine
end

section
/-! A boot attempt hands over, fails or runs out of time (R361, R362, R368; O25). -/

namespace Sys2Proof.Machine

open Reg

variable {h : Half} {k : Nat} {u : RomUpset} {s t : State}

/-! ## Handover (R361) -/

/-- The measurement block of the half, as handover writes it. -/
def measured (h : Half) (slot : Nat) (fallback : Bool) (s : State) : State :=
  let o := infoOff h
  let a := slotBase slot
  let s := if (s.rom h).tries = 0 then setFail h 0 s else s
  let s := (s.putBit pBOOT ⟨o, 25, 1⟩ fallback).put pBOOT ⟨o, 24, 1⟩ slot
  let s := s.put pBOOT ⟨o, 0, 16⟩ (slotHalfver slot s)
  let s := (s.setReg pBOOT (o + 4) (s.rw (a + 24))).setReg pBOOT (o + 8) (s.rw (a + 28))
  let hash := bytesWords (sha256 (s.bytes a 1216))
  forAll (List.range 8) (fun k s => s.setReg pBOOT (o + 0x10 + 4 * k) (hash.getD k 0)) s

/-- The half's releases go on, and engine `e` runs at the entry of the slot. -/
def started (h : Half) (slot : Nat) (e : EngNo) (s : State) : State :=
  let s := s.put pSCH (holdFld h) 0
  setMode e .run (s.setEng e (handedOver (s.eng e) (slotEntry slot s) s.freed))

/-- The flags of a handover. -/
def doneShown (h : Half) (fallback : Bool) (s : State) : State :=
  let s := raise pBOOT (doneFld h) (endHalfBoot h { s with freed := s.freed + 24 })
  if fallback then raise pBOOT (fallFld h) s else s

theorem handOver_eq (h : Half) (slot : Nat) (fallback : Bool) (s : State) : handOver h slot fallback s =
    let v := doneShown h fallback (started h slot (primaryOf h s) (measured h slot fallback s))
    setHalfState h hsRun (v.setRom h { (v.rom h).fresh with half := false, slot := none }) := rfl

theorem mem_measured (h : Half) (slot : Nat) (fallback : Bool) (s : State) : (measured h slot fallback s).mem = s.mem := by
  unfold measured
  dsimp only
  refine forAll_keeps (fun v => v.mem = s.mem) (fun i v hv => ?_) _ ?_
  · rw [setReg_mem, hv]
  · rw [setReg_mem, setReg_mem, put_mem, put_mem, State.putBit, put_mem]
    split
    · exact put_mem ..
    · rfl

theorem slotEntry_of_mem (hmem : t.mem = s.mem) (slot : Nat) : slotEntry slot t = slotEntry slot s := by
  simp only [slotEntry, slotWord, State.rw, State.rb, hmem]

/-- The engine as it starts: at ENTRY, in supervisor mode, with IE clear. -/
theorem started_eng (h : Half) (slot : Nat) (e : EngNo) (s : State) :
    ((started h slot e s).eng e).mode = .run ∧ ((started h slot e s).eng e).pc = word (0x08000000 + slotEntry slot s) ∧
      ((started h slot e s).eng e).fl.getLsbD 14 = true ∧ ((started h slot e s).eng e).fl.getLsbD 13 = false := by
  have hentry : slotEntry slot (s.put pSCH (holdFld h) 0) = slotEntry slot s := slotEntry_of_mem (put_mem ..) slot
  unfold started
  dsimp only
  rw [setMode_eng, eng_setEng_same, hentry]
  refine ⟨rfl, rfl, ?_, ?_⟩
  · simp [handedOver]
  · simp [handedOver]

theorem hold_started (h : Half) (slot : Nat) (e : EngNo) (s : State) : (started h slot e s).bit pSCH (holdFld h) = false := by
  unfold started
  dsimp only
  rw [State.bit, State.g, reg_of_regs ((regs_setMode ..).trans (setEng_regs ..)), ← State.g, ← State.bit]
  exact bit_put_zero (by cases h <;> decide)

/-- The hold of the half's releases. -/
def handFields (h : Half) : List (Nat × Fld) := [(pSCH, holdFld h)]

theorem shows_doneShown (h : Half) (fallback : Bool) (s : State) : Shows (handFields h) s (doneShown h fallback s) := by
  have hend : Shows (handFields h) s (endHalfBoot h { s with freed := s.freed + 24 }) :=
    .ifThen (.of_regs rfl rfl) (.put .refl (by cases h <;> decide))
  have hdone : Shows (handFields h) s (raise pBOOT (doneFld h) (endHalfBoot h { s with freed := s.freed + 24 })) :=
    .raise hend (by cases h <;> decide) (by cases h <;> decide)
  exact .ifThen hdone (.raise .refl (by cases h <;> decide) (by cases h <;> decide))

theorem engs_doneShown (h : Half) (fallback : Bool) (s : State) : (doneShown h fallback s).engs = s.engs := by
  have hend (v : State) : (endHalfBoot h v).engs = v.engs := by
    unfold endHalfBoot
    split <;> rfl
  unfold doneShown
  dsimp only
  split
  · rw [(Reports.raise_put ..).engs, put_engs, (Reports.raise_put ..).engs, put_engs, hend]
  · rw [(Reports.raise_put ..).engs, put_engs, hend]

theorem engs_setHalfState (h : Half) (v : Nat) (s : State) : (setHalfState h v s).engs = s.engs := rfl

/-- What a handover leaves: the half runs, releases its tasks, and its engine `e` stands at the slot's entry. -/
structure HandedOver (h : Half) (slot : Nat) (s t : State) : Prop where
  state : halfState h t = hsRun
  hold : t.bit pSCH (holdFld h) = false
  mode : (t.eng (primaryOf h s)).mode = .run
  pc : (t.eng (primaryOf h s)).pc = word (0x08000000 + slotEntry slot s)
  supervisor : (t.eng (primaryOf h s)).fl.getLsbD 14 = true
  masked : (t.eng (primaryOf h s)).fl.getLsbD 13 = false

theorem handedOver_handOver (h : Half) (slot : Nat) (fallback : Bool) (s : State) :
    HandedOver h slot s (handOver h slot fallback s) := by
  obtain ⟨hmode, hpc, hsup, hie⟩ := started_eng h slot (primaryOf h s) (measured h slot fallback s)
  have hhold := hold_started h slot (primaryOf h s) (measured h slot fallback s)
  rw [slotEntry_of_mem (mem_measured ..)] at hpc
  rw [handOver_eq]
  dsimp only
  generalize started h slot (primaryOf h s) (measured h slot fallback s) = w at *
  have hshown := shows_doneShown h fallback w
  have hengs := engs_doneShown h fallback w
  generalize doneShown h fallback w = v at *
  generalize { (v.rom h).fresh with half := false, slot := none } = x
  have hstate : Shows (handFields h) v (setHalfState h hsRun (v.setRom h x)) :=
    (Shows.setRom .refl).trans (.syncProt (.put .refl (by cases h <;> decide)) (by cases h <;> decide) (by cases h <;> decide))
  have heng (e : EngNo) : (setHalfState h hsRun (v.setRom h x)).eng e = w.eng e := by
    rw [State.eng, engs_setHalfState, engs_setRom, hengs, State.eng]
  exact
    { state := halfState_setHalfState h (by decide) _
      hold := by rw [State.bit, (hshown.trans hstate).g (List.mem_singleton_self _), ← State.bit, hhold]
      mode := by rw [heng, hmode]
      pc := by rw [heng, hpc]
      supervisor := by rw [heng, hsup]
      masked := by rw [heng, hie] }

/-! ## One attempt -/

/-- An attempt that is due, on the slot that the half is trying. -/
theorem exec_bootAttempt_slot (hon : damaskOn s = true) (hrom : halfState h s = hsRom) (hhalf : (s.rom h).half = true)
    (hslot : (s.rom h).slot = some k) (hlink : linkInTime h s = true) (htime : s.mtb < (s.rom h).start + 100000000) :
    exec (.bootAttempt h u) s = ok s (attemptSlot h k u s) := by
  have hdue : slotDue h s = (some k, s) := by
    unfold slotDue
    rw [hhalf, hslot]
  show execBootAttempt h u s = _
  rw [execBootAttempt, hon, hrom, if_neg (by decide), if_neg (by rw [bootLimit]; omega), hlink, if_neg (by simp), hdue]

theorem attemptSlot_same (hslot : (s.rom h).slot = some k) : attemptSlot h k u s =
    match (tryAttempt h k u s).1 with
    | .waits => (tryAttempt h k u s).2
    | .failed c => attemptEnds h k (some c) (tryAttempt h k u s).2
    | .passed => attemptEnds h k none (tryAttempt h k u s).2 := by
  unfold attemptSlot
  rw [if_pos hslot] <;> rfl

/-! ## The time of a half in ROM is over -/

theorem bootOver_half (hhalf : (s.rom h).half = true) (hslot : (s.rom h).slot = some k) :
    bootOver h s = attemptEnds h k (some 11) s := by
  unfold bootOver slotDue
  rw [hhalf, hslot]

theorem rom_untilMtb (n : Nat) (s : State) (h : Half) : (s.untilMtb n).rom h = s.rom h := by
  unfold State.untilMtb
  split <;> cases h <;> rfl

theorem completes_bootTimeout (hon : damaskOn s = true) (hrom : halfState h s = hsRom) (hhalf : (s.rom h).half = true)
    (hslot : (s.rom h).slot = some k) : Completes (.bootTimeout h) s fun t => t.g pBOOT ⟨infoOff h, 28, 4⟩ = 11 ∧
      (s.mtb < (s.rom h).start + 100000000 → t.mtb = ((s.rom h).start + 100000000) % 2 ^ 64) := by
  have hexec : exec (.bootTimeout h) s = ok s (attemptEnds h k (some 11) (s.untilMtb (bootLimit h s))) := by
    show execBootTimeout h s = _
    rw [execBootTimeout, hon, hrom, if_neg (by decide), bootOver_half (k := k) (by rw [rom_untilMtb, hhalf])
      (by rw [rom_untilMtb, hslot])]
  refine completes_ok hexec ⟨fail_attemptEnds .., fun htime => (mtb_attemptEnds ..).trans ?_⟩
  rw [State.untilMtb, bootLimit, if_pos htime]
  show (s.mtb + ((s.rom h).start + 100000000 - s.mtb)) % 2 ^ 64 = _
  rw [Nat.add_sub_cancel' (Nat.le_of_lt htime)]

theorem completes_bootAttempt_late (hon : damaskOn s = true) (hrom : halfState h s = hsRom) (hhalf : (s.rom h).half = true)
    (hslot : (s.rom h).slot = some k) (htime : (s.rom h).start + 100000000 ≤ s.mtb) :
    Completes (.bootAttempt h u) s fun t => t.g pBOOT ⟨infoOff h, 28, 4⟩ = 11 := by
  have hexec : exec (.bootAttempt h u) s = ok s (attemptEnds h k (some 11) s) := by
    show execBootAttempt h u s = _
    rw [execBootAttempt, hon, hrom, if_neg (by decide), bootLimit, if_pos htime, bootOver_half hhalf hslot]
  exact completes_ok hexec (fail_attemptEnds ..)

end Sys2Proof.Machine
end

section
/-! East's first attempt after a start: the link, CHR_BOOTFAIL, the strap and the slots (R361, R362, R368; O25). -/

namespace Sys2Proof.Machine

open Reg

variable {h : Half} {k : Nat} {u : RomUpset} {s t : State}

/-! ## An attempt on a slot -/

theorem completes_bootAttempt_slot (hon : damaskOn s = true) (hrom : halfState h s = hsRom) (hhalf : (s.rom h).half = true)
    (hslot : (s.rom h).slot = some k) (hlink : linkInTime h s = true) (htime : s.mtb < (s.rom h).start + 100000000) :
    match (tryAttempt h k u s).1 with
    | .waits => Completes (.bootAttempt h u) s fun t => t = kept s (tryAttempt h k u s).2 ∧ halfState h t = hsRom
    | .passed => Completes (.bootAttempt h u) s (HandedOver h k (tryAttempt h k u s).2)
    | .failed c => Completes (.bootAttempt h u) s fun t => t.g pBOOT ⟨infoOff h, 28, 4⟩ = c % 16 := by
  have hexec := exec_bootAttempt_slot (u := u) hon hrom hhalf hslot hlink htime
  rw [attemptSlot_same hslot] at hexec
  have hquiet := quiet_tryAttempt h k u s
  generalize tryAttempt h k u s = r at *
  obtain ⟨c, v⟩ := r
  cases c with
  | waits =>
    refine completes_ok hexec ⟨rfl, ?_⟩
    rw [halfState, kept_g, g_of_ctl hquiet.ctl (by cases h <;> decide)]
    exact hrom
  | failed c => exact completes_ok hexec (fail_attemptEnds ..)
  | passed =>
    have hover := handedOver_handOver h k ((v.rom h).fresh.tries != 0) v
    exact completes_ok hexec ⟨hover.state, hover.hold, hover.mode, hover.pc, hover.supervisor, hover.masked⟩

/-! ## The first attempt begins (R361, R362) -/

/-- The state in which East has counted the attempt in CHR_BOOTFAIL. -/
def bootCounted (s : State) : State :=
  let s := s.bump pCHR CHR_BOOTFAIL_COUNT
  let s := (s.put pDDLM DDL_M_LASTWR_OFFSET 0x064).put pDDLM DDL_M_LASTWR_TAG (Config.freeWord s.freed).toNat
  { (s.put pDDLM DDL_M_LASTPG_PAGE (pCHR - 64)) with freed := s.freed + 1 }

theorem shows_bootCounted {W : List (Nat × Fld)} (hW : apartFrom W pDDLM DDL_M_LASTWR_OFFSET = true)
    (hW' : apartFrom W pDDLM DDL_M_LASTWR_TAG = true) (hW'' : apartFrom W pDDLM DDL_M_LASTPG_PAGE = true) (s : State) :
    Shows W (s.bump pCHR CHR_BOOTFAIL_COUNT) (bootCounted s) := by
  have hfreed (v : State) (n : Nat) : Shows W v { v with freed := n } := .of_regs rfl rfl
  unfold bootCounted
  dsimp only
  exact (Shows.put (.put (.put .refl hW) hW') hW'').trans (hfreed _ _)

/-- The count of failed boots, one higher. -/
theorem count_bootCounted (s : State) :
    (bootCounted s).g pCHR CHR_BOOTFAIL_COUNT = min (s.g pCHR CHR_BOOTFAIL_COUNT + 1) 7 := by
  rw [(shows_bootCounted (W := failFields) (by decide) (by decide) (by decide) s).g (by decide), g_bump_same _ _ _ _ (by decide)]
  rfl

theorem g_bootCounted {p : Nat} {f : Fld} (hf : fieldsApart pCHR CHR_BOOTFAIL_COUNT p f = true)
    (hW : (apartFrom [(p, f)] pDDLM DDL_M_LASTWR_OFFSET && apartFrom [(p, f)] pDDLM DDL_M_LASTWR_TAG &&
      apartFrom [(p, f)] pDDLM DDL_M_LASTPG_PAGE) = true) (s : State) : (bootCounted s).g p f = s.g p f := by
  simp only [Bool.and_eq_true] at hW
  obtain ⟨⟨ho, ht⟩, hp⟩ := hW
  rw [(shows_bootCounted ho ht hp s).g (List.mem_singleton_self _), State.bump, g_put_fieldsApart _ _ hf]

theorem bit_bootCounted {p : Nat} {f : Fld} (hf : fieldsApart pCHR CHR_BOOTFAIL_COUNT p f = true)
    (hW : (apartFrom [(p, f)] pDDLM DDL_M_LASTWR_OFFSET && apartFrom [(p, f)] pDDLM DDL_M_LASTWR_TAG &&
      apartFrom [(p, f)] pDDLM DDL_M_LASTPG_PAGE) = true) (s : State) : (bootCounted s).bit p f = s.bit p f := by
  rw [State.bit, g_bootCounted hf hW, State.bit]

theorem mem_bootCounted (s : State) : (bootCounted s).mem = s.mem := rfl

/-- What East does with the link in time: the strap, a count of three or more, the pairing and the slots, in this order. -/
theorem eastBegins_linked (hlink : linkInTime .east s = true) : eastBegins s =
    if s.bit pMSYS MSYS_STRAP_RECOV then (none, enterRecovery 1 (bootCounted s))
    else if 3 ≤ s.g pCHR CHR_BOOTFAIL_COUNT then (none, enterRecovery 3 (bootCounted s))
    else if s.bit pDDL DDL_STAT_PAIRFLT then (none, enterRecovery 5 (setFail .east 2 (bootCounted s)))
    else (some (firstSlot (s.g pCHR CHR_BOOTFAIL_COUNT) (bootCounted s)), syncProt ((bootCounted s).setRom .east
      { s.boot.east with slot := some (firstSlot (s.g pCHR CHR_BOOTFAIL_COUNT) (bootCounted s)) })) := by
  rw [← bit_bootCounted (p := pMSYS) (f := MSYS_STRAP_RECOV) (by decide) (by decide) s,
    ← bit_bootCounted (p := pDDL) (f := DDL_STAT_PAIRFLT) (by decide) (by decide) s]
  unfold eastBegins
  rw [hlink]
  rfl

theorem eastBegins_unlinked (hlink : linkInTime .east s = false) :
    eastBegins s = (none, enterRecovery 4 (setFail .east 1 (s.untilMtb (s.boot.east.start + 10000000)))) := by
  unfold eastBegins
  rw [hlink]
  rfl

theorem rom_east (s : State) : s.rom .east = s.boot.east := rfl

/-- East starts with no slot chosen. -/
structure EastStarts (s : State) : Prop where
  on : damaskOn s = true
  rom : halfState .east s = hsRom
  half : s.boot.east.half = false
  slot : s.boot.east.slot = none
  time : s.mtb < s.boot.east.start + 100000000

theorem slotDue_east (h : EastStarts s) : slotDue .east s = eastBegins s := by
  have hhalf : (s.rom .east).half = false := h.half
  have hslot : (s.rom .east).slot = none := h.slot
  unfold slotDue
  rw [hhalf, hslot]

theorem not_over (h : EastStarts s) : ¬bootLimit .east s ≤ s.mtb := by
  rw [bootLimit, rom_east]
  exact Nat.not_le.2 h.time

theorem exec_bootAttempt_none (h : EastStarts s) (hlink : linkInTime .east s = true) (hbegins : eastBegins s = (none, t)) :
    exec (.bootAttempt .east u) s = ok s t := by
  show execBootAttempt .east u s = _
  rw [execBootAttempt, h.on, h.rom, if_neg (by decide), if_neg (not_over h), hlink, Bool.not_true, Bool.false_and,
    if_neg Bool.false_ne_true, slotDue_east h, hbegins]

theorem exec_bootAttempt_some (h : EastStarts s) (hlink : linkInTime .east s = true) (hbegins : eastBegins s = (some k, t)) :
    exec (.bootAttempt .east u) s = ok s (attemptSlot .east k u t) := by
  show execBootAttempt .east u s = _
  rw [execBootAttempt, h.on, h.rom, if_neg (by decide), if_neg (not_over h), hlink, Bool.not_true, Bool.false_and,
    if_neg Bool.false_ne_true, slotDue_east h, hbegins]

theorem exec_bootAttempt_await (h : EastStarts s) (hlink : linkInTime .east s = false) :
    exec (.bootAttempt .east u) s = ok s (awaitLink .east s) := by
  have hwaits : ((s.rom .east).half || Half.east == .west || (s.rom .east).slot.isNone) = true := by
    rw [rom_east, h.slot, Option.isNone_none, Bool.or_true]
  show execBootAttempt .east u s = _
  rw [execBootAttempt, h.on, h.rom, if_neg (by decide), if_neg (not_over h), hlink, hwaits, Bool.not_false, Bool.true_and,
    if_pos rfl]

/-! ## Recovery (R368) -/

theorem Recovered.kept {cause : Nat} (h : Recovered cause t) : Recovered cause (kept s t) := ⟨h.cause, h.east, h.west⟩

/-- Recovery by the strap or by the count. -/
theorem completes_east_recovers {cause : Nat} (h : EastStarts s) (hlink : linkInTime .east s = true) (hcause : cause < 8)
    (hbegins : eastBegins s = (none, enterRecovery cause (bootCounted s))) : Completes (.bootAttempt .east u) s fun t =>
      Recovered cause t ∧ t.g pCHR CHR_BOOTFAIL_COUNT = min (s.g pCHR CHR_BOOTFAIL_COUNT + 1) 7 := by
  have hexec := exec_bootAttempt_none (u := u) h hlink hbegins
  have hrec := recovered_enterRecovery hcause (bootCounted s)
  refine completes_ok hexec ⟨hrec.kept, ?_⟩
  rw [kept_g]
  exact ((shows_enterRecovery cause (bootCounted s)).g (by decide)).trans (count_bootCounted s)

/-! ## The link does not come UP in time -/

/-- The next full 10 ms after the start lies ahead, and before 100 ms. -/
theorem nextTick_bounds {start now : Nat} (hstart : start ≤ now) (hearly : now < start + 9000000) :
    now ≤ start + 1000000 * ((now - start) / 1000000 + 1) ∧
      start + 1000000 * ((now - start) / 1000000 + 1) < start + 10000000 := by omega

theorem nextTick_in_counter {start x : Nat} (hx : x < start + 10000000) (hbound : start + 100000000 < 2 ^ 64) : x < 2 ^ 64 := by
  omega

theorem nextRetrain_over (hstart : s.boot.east.start + 9000000 ≤ s.mtb) : nextRetrain .east s = none := by
  unfold nextRetrain
  dsimp only
  rw [rom_east, if_neg (by omega)]

theorem nextRetrain_due (hstart : s.boot.east.start ≤ s.mtb) (hearly : s.mtb < s.boot.east.start + 9000000) :
    nextRetrain .east s = some (s.boot.east.start + 1000000 * ((s.mtb - s.boot.east.start) / 1000000 + 1)) := by
  unfold nextRetrain
  dsimp only
  rw [rom_east, if_pos (nextTick_bounds hstart hearly).2]

/-! `delta` on the constant `awaitLink`: to unfold its application evaluates `nextRetrain`, unary in 10 ms of counts. -/

theorem awaitLink_over (hn : nextRetrain h s = none) (hdue : slotDue h s = (none, t)) : awaitLink h s = t := by
  generalize hf : awaitLink = f
  delta awaitLink at hf
  subst hf
  beta_reduce
  split
  next n hsome =>
    rw [hn] at hsome
    cases hsome
  next =>
    split
    next k v hsome =>
      rw [hdue] at hsome
      cases hsome
    next v hnone =>
      rw [hdue] at hnone
      cases hnone
      rfl

theorem awaitLink_due {n : Nat} (hn : nextRetrain h s = some n) :
    awaitLink h s = ddlSettle .damask ((s.untilMtb n).put pDDL DDL_CTRL_RETRAIN 1) := by
  generalize hf : awaitLink = f
  delta awaitLink at hf
  subst hf
  beta_reduce
  split
  next m hsome =>
    rw [hn] at hsome
    cases hsome
    rfl
  next hnone =>
    rw [hn] at hnone
    cases hnone

theorem completes_east_unlinked (h : EastStarts s) (hlink : linkInTime .east s = false)
    (hlate : s.boot.east.start + 9000000 ≤ s.mtb) : Completes (.bootAttempt .east u) s fun t => Recovered 4 t ∧
      t.g pBOOT ⟨infoOff .east, 28, 4⟩ = 1 ∧ t.g pCHR CHR_BOOTFAIL_COUNT = s.g pCHR CHR_BOOTFAIL_COUNT := by
  generalize hv : s.untilMtb (s.boot.east.start + 10000000) = v
  have hexec : exec (.bootAttempt .east u) s = ok s (enterRecovery 4 (setFail .east 1 v)) := by
    rw [exec_bootAttempt_await h hlink, awaitLink_over (nextRetrain_over hlate) ((slotDue_east h).trans (eastBegins_unlinked hlink)), hv]
  have hrec := recovered_enterRecovery (show 4 < 8 by decide) (setFail .east 1 v)
  have hshow := shows_enterRecovery 4 (setFail .east 1 v)
  refine completes_ok hexec ⟨hrec.kept, ?_, ?_⟩
  · rw [kept_g, hshow.g (mem_failFields .east), setFail, g_put_same _ _ _ _ (by decide)]
    rfl
  · rw [kept_g, hshow.g (by decide), setFail, g_put_fieldsApart _ _ (by decide), ← hv, g_untilMtb]

theorem mtb_setLink (s : State) (d : Die) (l : LinkDie) : (s.setLink d l).mtb = s.mtb := by cases d <;> rfl

theorem mtb_toDown_damask (s : State) : (toDown .damask s).mtb = s.mtb := by
  have hleave : (leaveUp .damask s).mtb = s.mtb := by
    have hstill : Still (fun _ => true) (fallen .damask s) (leaveUp .damask s) := .raise (.damaskLosesLink .refl) rfl
    rw [hstill.mtb]
    unfold fallen
    dsimp only
    rw [incr_mtb, setReg_mtb, put_mtb, mtb_setLink, put_mtb]
  unfold toDown
  dsimp only
  rw [mtb_setLink]
  split
  · exact hleave
  · rw [mtb_setLink, put_mtb]

theorem mtb_ddlSettle_damask (s : State) : (ddlSettle .damask s).mtb = s.mtb := by
  have htrain (v : State) : (toTrain .damask v).mtb = v.mtb := by
    unfold toTrain
    dsimp only
    rw [mtb_setLink, put_mtb, put_mtb]
  unfold ddlSettle
  dsimp only
  split
  · split
    · rfl
    · exact mtb_toDown_damask s
  · split
    · rw [htrain, mtb_toDown_damask]
    · rfl

/-- RETRAIN at the next full 10 ms: the link trains. -/
theorem completes_east_retrains {n : Nat} (h : EastStarts s) (hlink : linkInTime .east s = false)
    (hnext : nextRetrain .east s = some n) (hle : s.mtb ≤ n) (hlt : n < 2 ^ 64) (hen : s.bit pDDL DDL_CTRL_EN = true)
    (hloop : s.bit pDDL DDL_CTRL_LOOPBACK = false) :
    Completes (.bootAttempt .east u) s fun t => t.linkState .damask = stTrain ∧ t.mtb = n := by
  have hexec := exec_bootAttempt_await (u := u) h hlink
  rw [awaitLink_due hnext] at hexec
  have hbit {f : Fld} (hf : fieldsApart pDDL DDL_CTRL_RETRAIN pDDL f = true) :
      ((s.untilMtb n).put pDDL DDL_CTRL_RETRAIN 1).bit pDDL f = s.bit pDDL f := by
    rw [bit_put_fieldsApart hf, State.bit, g_untilMtb, State.bit]
  refine completes_ok hexec ⟨?_, ?_⟩
  · rw [State.linkState, kept_g, ← State.linkState]
    exact linkState_ddlSettle_train (d := .damask) ((hbit (by decide)).trans hen) ((hbit (by decide)).trans hloop)
      (bit_put_one (by decide) rfl)
  · rw [kept_mtb, mtb_ddlSettle_damask, put_mtb, mtb_untilMtb hle hlt]

/-! ## The slots (R362) -/

theorem firstSlot_of_mem (hmem : t.mem = s.mem) (n : Nat) : firstSlot n t = firstSlot n s := by
  have hmagic (k : Nat) : slotMagic k t = slotMagic k s := by simp only [slotMagic, bytes_of_mem hmem]
  have hseqno (k : Nat) : slotSeqno k t = slotSeqno k s := by simp only [slotSeqno, slotWord, State.rw, State.rb, hmem]
  simp only [firstSlot, hmagic, hseqno]

/-- The slot with the correct MAGIC and the higher SEQNO, A on a tie. -/
def bestSlot (s : State) : Nat :=
  if slotMagic 1 s = true ∧ (slotMagic 0 s = false ∨ slotSeqno 0 s < slotSeqno 1 s) then 1 else 0

theorem firstSlot_eq (n : Nat) (s : State) : firstSlot n s = if n = 1 then 1 - bestSlot s else bestSlot s := by
  unfold firstSlot bestSlot
  cases slotMagic 0 s <;> cases slotMagic 1 s <;> simp

theorem other_firstSlot (n : Nat) (s : State) : 1 - firstSlot n s = if n = 1 then bestSlot s else 1 - bestSlot s := by
  have hbest : bestSlot s ≤ 1 := by
    unfold bestSlot
    split <;> decide
  rw [firstSlot_eq]
  split <;> omega

/-- A NOR error in step 2 ends the attempt with FAIL 10. -/
theorem tryAttempt_nor (hkey : (s.rom h).key = .none) : tryAttempt h k (.nor 2) s = (.failed 10, s) := by
  have hsteps : runSteps h k (.nor 2) [2, 3, 4, 5, 6] s = (some 10, s) := rfl
  unfold tryAttempt
  rw [hkey, hsteps]
  cases (s.rom h).again <;> rfl

/-- East's first attempt has failed: the other slot is next. -/
theorem attemptEnds_east_first {c : Nat} (hhalf : (s.rom .east).half = false) (htries : (s.rom .east).tries = 0) (hc : c ≠ 2) :
    attemptEnds .east k (some c) s =
      syncProt ((setFail .east c s).setRom .east { (s.rom .east).fresh with slot := some (1 - k), tries := 1 }) := by
  have hhalf' : (s.rom .east).fresh.half = false := hhalf
  have htries' : (s.rom .east).fresh.tries = 0 := htries
  unfold attemptEnds
  dsimp only
  rw [hhalf', htries', if_neg Bool.false_ne_true, if_neg hc, if_pos rfl]

theorem completes_east_first (h : EastStarts s) (hlink : linkInTime .east s = true) (hstrap : s.bit pMSYS MSYS_STRAP_RECOV = false)
    (hcount : s.g pCHR CHR_BOOTFAIL_COUNT < 3) (hpair : s.bit pDDL DDL_STAT_PAIRFLT = false) (hkey : s.boot.east.key = .none)
    (htries : s.boot.east.tries = 0) : Completes (.bootAttempt .east (.nor 2)) s fun t =>
      t.g pCHR CHR_BOOTFAIL_COUNT = s.g pCHR CHR_BOOTFAIL_COUNT + 1 ∧ t.g pBOOT ⟨infoOff .east, 28, 4⟩ = 10 ∧
        halfState .east t = hsRom ∧
        t.boot.east.slot = some (if s.g pCHR CHR_BOOTFAIL_COUNT = 1 then bestSlot s else 1 - bestSlot s) := by
  generalize hk : firstSlot (s.g pCHR CHR_BOOTFAIL_COUNT) (bootCounted s) = k
  generalize hv : syncProt ((bootCounted s).setRom .east { s.boot.east with slot := some k }) = v
  have hbegins : eastBegins s = (some k, v) := by
    rw [eastBegins_linked hlink, hstrap, if_neg Bool.false_ne_true, if_neg (Nat.not_le.2 hcount), hpair,
      if_neg Bool.false_ne_true, hk, hv]
  have hrom : v.rom .east = { s.boot.east with slot := some k } := by
    rw [← hv]
    rfl
  have hends : attemptSlot .east k (.nor 2) v =
      syncProt ((setFail .east 10 v).setRom .east { (v.rom .east).fresh with slot := some (1 - k), tries := 1 }) := by
    rw [attemptSlot_same (by rw [hrom]), tryAttempt_nor (by rw [hrom]; exact hkey)]
    exact attemptEnds_east_first (by rw [hrom]; exact h.half) (by rw [hrom]; exact htries) (by decide)
  have hexec := exec_bootAttempt_some (u := .nor 2) h hlink hbegins
  rw [hends] at hexec
  have hshow := shows_syncProt_setRom .east { (v.rom .east).fresh with slot := some (1 - k), tries := 1 } (setFail .east 10 v)
  have hcounted : Shows stateFields (bootCounted s) v := by
    rw [← hv]
    exact shows_syncProt_setRom ..
  have hslot : k = firstSlot (s.g pCHR CHR_BOOTFAIL_COUNT) s := by rw [← hk, firstSlot_of_mem (mem_bootCounted s)]
  refine completes_ok hexec ⟨?_, ?_, ?_, ?_⟩
  · rw [kept_g, hshow.g (by decide), setFail, g_put_fieldsApart _ _ (by decide), hcounted.g (by decide), count_bootCounted]
    omega
  · rw [kept_g, hshow.g (by decide), setFail, g_put_same _ _ _ _ (by decide)]
    rfl
  · rw [halfState, kept_g, hshow.g (by decide), setFail, g_put_fieldsApart _ _ (by decide), hcounted.g (by decide),
      g_bootCounted (by decide) (by decide)]
    exact h.rom
  · rw [← other_firstSlot, ← hslot]
    rfl

/-- Settles O25: the attempt (`completes_bootAttempt_slot`), its time (`completes_bootTimeout`), and East's first one with the
link in time and without it. -/
theorem bootHandsOverOrFails : Obligations.BootHandsOverOrFails := by
  unfold Obligations.BootHandsOverOrFails
  refine ⟨fun h u k s hon hrom hhalf hslot hlink htime => ?_, fun h k s hon hrom hhalf hslot =>
    ⟨completes_bootTimeout hon hrom hhalf hslot, completes_bootAttempt_late hon hrom hhalf hslot⟩, ?_⟩
  · have hslots := completes_bootAttempt_slot (u := u) hon hrom hhalf hslot hlink htime
    dsimp only
    split
    next hwaits =>
      rw [hwaits] at hslots
      exact hslots
    next hpassed =>
      rw [hpassed] at hslots
      obtain ⟨t, ht, hover⟩ := hslots
      exact ⟨t, ht, hover.state, hover.hold, hover.mode, hover.pc, hover.supervisor, hover.masked⟩
    next c hfailed =>
      rw [hfailed] at hslots
      exact hslots
  · intro u s
    dsimp only
    intro hon hrom hhalf hslot hstart htime hbound
    have h : EastStarts s := ⟨hon, hrom, hhalf, hslot, htime⟩
    refine ⟨fun hlink => ⟨fun hstrap => ?_, fun hstrap hcount => ?_, fun hstrap hcount hpair hkey htries =>
      completes_east_first h hlink hstrap hcount hpair hkey htries⟩, fun hlink hlate => ?_, fun hlink hearly hen hloop => ?_⟩
    · obtain ⟨t, ht, hrec, hn⟩ := completes_east_recovers (cause := 1) (u := u) h hlink (by decide)
        (by rw [eastBegins_linked hlink, hstrap, if_pos rfl])
      exact ⟨t, ht, ⟨hrec.cause, hrec.east, hrec.west⟩, hn⟩
    · obtain ⟨t, ht, hrec, hn⟩ := completes_east_recovers (cause := 3) (u := u) h hlink (by decide)
        (by rw [eastBegins_linked hlink, hstrap, if_neg Bool.false_ne_true, if_pos hcount])
      exact ⟨t, ht, ⟨hrec.cause, hrec.east, hrec.west⟩, hn⟩
    · obtain ⟨t, ht, hrec, hfail, hn⟩ := completes_east_unlinked (u := u) h hlink hlate
      exact ⟨t, ht, ⟨hrec.cause, hrec.east, hrec.west⟩, hfail, hn⟩
    · obtain ⟨hle, hlt⟩ := nextTick_bounds hstart hearly
      exact completes_east_retrains h hlink (nextRetrain_due hstart hearly) hle (nextTick_in_counter hlt hbound) hen hloop

end Sys2Proof.Machine
end
